-- ==== Sys2Proof/Word.lean ====
section
/-! DEFINITION. The word types of the Aspielle K16 (R6, R20) and the sparse table type. -/

namespace Sys2Proof

/-- One byte (R4). -/
abbrev Byte := BitVec 8

/-- One register (R20). -/
abbrev Word := BitVec 32

/-- A 64-bit quantity: TIME (R16), a register pair (R21), a Gnomos scalar. -/
abbrev DWord := BitVec 64

/-- A sparse table: key and value pairs, keys strictly rising, no entry equal to what an
unlisted key reads as. The operations stand in Machine/Tab.lean. -/
abbrev Tab (α : Type) := List (Nat × α)

end Sys2Proof
end

