-- ==== Sys2Proof/Syntax.lean ====
section
/-! DEFINITION. The commands of the Aspielle K16: one constructor of Instr per row of the table of steps
(spec/opcode_table.json), each step whole and indivisible, with the operands that the step's rule names. -/

namespace Sys2Proof

/-- Packet classes of the fabric (R727). -/
inductive PacketClass where
  | req | rsp | mc
deriving DecidableEq, Repr

/-- A packet that a block offers at its source router or stop: tuns are numbered 16 · y + x, and portal
stops 128 + n. -/
structure PacketOffer where
  cls : PacketClass
  region : Option Nat
  src : Nat
  dst : Nat
  mask : Nat
  flits : Nat
  job : Option Nat
deriving DecidableEq, Repr

/-- Atomic operations (Table 10-7). -/
inductive AmoFn where
  | add | and | or | swap | min | max | cas
deriving DecidableEq, Repr

/-- What an access does at a bank or a port. -/
inductive MemOp where
  | read (n : Nat)
  | write (bytes : List Byte)
  /-- Alias stores of n bytes (R772). -/
  | bitSet (n mask : Nat)
  | bitClear (n mask : Nat)
  /-- Atomics of n bytes, with the operand and the compare value (R511). -/
  | amo (fn : AmoFn) (n v cmp : Nat)
deriving DecidableEq, Repr

/-- A request that reaches a commons bank or an HBM port (R769): its source rank, its region where it has
one, its job, the address, and the bits the check finds inverted in its first word. -/
structure MemReq where
  rank : Nat
  region : Option Nat
  job : Option Nat
  addr : Nat
  op : MemOp
  upset : Nat
deriving DecidableEq, Repr

/-- The two access paths to the register pages (R977). -/
inductive Path where
  | host | manager
deriving DecidableEq, Repr

/-- A register: at a BAR0 offset, or at an offset of the doorbell page of queue q as function func
reaches it through its BAR2 (Table 11-1, R617). -/
inductive RegRef where
  | bar0 (addr : Nat)
  | db (func q off : Nat)
deriving DecidableEq, Repr

/-- What a stop time belongs to (R54): an engine command, or a job. -/
inductive StopOf where
  | command (id : Nat)
  | job (entry : Nat)
deriving DecidableEq, Repr

/-- A resource that lulls (R705 to R708). -/
inductive LullRes where
  | tun (n : Nat)
  | core (n : Nat)
  | engine (n : Nat)
deriving DecidableEq, Repr

/-- SPDM requests that have no row of their own (R877). toSign is what the standard has the responder sign, up to its
own fields. -/
inductive SpdmReq where
  | version | capabilities | algorithms | digests
  | certificate (slot off len : Nat)
  | challenge (slot : Nat) (toSign : List Byte)
  /-- FINISH, and whether its verify data is right. -/
  | finish (good : Bool)
  | heartbeat | keyUpdate | endSession
  /-- VENDOR_DEFINED_REQUEST with a tenant payload that no other row carries. -/
  | vendor (payload : List Byte)
  /-- Any other request code. -/
  | other (code : Nat)
deriving DecidableEq, Repr

/-- An error that hardware detects (R1024): its page, code, info and region. -/
structure Detected where
  page : Nat
  code : Nat
  info : Nat
  region : Option Nat
deriving DecidableEq, Repr

/-- An RS(544,514) codeword of an Olzen link (R916): its 20-bit header, of which bits [9:0] are START and bits [19:10] VALID, and the
64 bytes of each unit slot. -/
structure Codeword where
  header : BitVec 20
  slots : List (List Byte)
deriving DecidableEq, Repr

/-- A packet that arrives on a link: the codewords that carry its units, and the slot of its first unit, numbered on through the
codewords. -/
structure Arrival where
  codewords : List Codeword
  slot : Nat
deriving DecidableEq, Repr

/-- The endpoint a message reaches (R876). -/
inductive Endpoint where
  | i3c | pcie
deriving DecidableEq, Repr

/-- What carries a manager's message: I3C, where its PEC is right or fails (R1020), or a PCIe VDM. -/
inductive Carrier where
  | i3c (pecRight : Bool)
  | pcieVdm
deriving DecidableEq, Repr

/-- One step of the K16. Each constructor's comment gives the row's rule and summary. -/
inductive Instr where
  /-- LO_READ_CAPTURE (R22). A read of a _LO register returns bits [31:0] and captures the whole 64-bit value for the next _HI read from the same path. -/
  | loReadCapture (p : Path) (r : RegRef)
  /-- HI_WRITE_HOLD (R25). A write to a writable _HI register is held until the matching _LO write from the same path. -/
  | hiWriteHold (p : Path) (r : RegRef) (v : Word)
  /-- LO_WRITE_COMMIT (R25). A write to a _LO register commits all 64 bits with a held _HI value, or only bits [31:0] when none is held. -/
  | loWriteCommit (p : Path) (r : RegRef) (v : Word)
  /-- REGISTER_WRITE (R985). A write to a register that has no row of its own takes effect in the MCLK cycle after its arrival, under stewardship and its access code. -/
  | registerWrite (p : Path) (r : RegRef) (v : Word)
  /-- BAD_ACCESS (R982). A host access of wrong size, alignment or to an unmapped page returns zeros or is dropped, and is counted and recorded. -/
  | badAccess (data : Option (List Byte)) (addr len : Nat)
  /-- MGR_REGISTER_READ (R991). A manager READ message is checked and then reads COUNT words from ADDR, one per MCLK cycle, and a response is sent. -/
  | mgrRegisterRead (via : Carrier) (msg : List Byte)
  /-- MGR_REGISTER_WRITE (R991). A manager WRITE message is checked and then writes COUNT words from ADDR, one per MCLK cycle, and a response is sent. -/
  | mgrRegisterWrite (via : Carrier) (msg : List Byte)
  /-- IBI_RAISE (R996). A held I3C in-band interrupt is raised to the manager when the rate limit allows, 0x02 before 0x01. -/
  | ibiRaise
  /-- GBANK_SNAP (R1004). A write of GBANK_SNAP.GO copies all 16 global counters into SNAP_0 to SNAP_15 and records SNAP_EPOCH. -/
  | gbankSnap (p : Path) (v : Word)
  /-- GBANK_CLEAR (R1012). A write of 1 to GBANK_CTRL.CLEAR sets every global counter to 0. -/
  | gbankClear (p : Path) (v : Word)
  /-- CTR_CLEAR (R1010). A write of 1 to a page's CTRL.CTR_CLEAR sets its four page counters to 0. -/
  | ctrClear (p : Path) (page : Nat) (v : Word)
  /-- SQ_TAIL_DB (R576). A valid write of the submission tail doorbell advances T_S and makes the new descriptors visible with one arrival time. -/
  | sqTailDb (func q len : Nat) (v : Word)
  /-- CQ_HEAD_DB (R577). A valid write of the completion head doorbell advances H_C and frees completion slots. -/
  | cqHeadDb (func q len : Nat) (v : Word)
  /-- INLINE_WRITE (R596). A write into a FAST queue's staging buffer sets the written bytes and their valid bits. -/
  | inlineWrite (func q off : Nat) (bytes : List Byte)
  /-- FETCH (R637). The dispatcher fetches one descriptor or chain from each eligible queue per round, in descending BASE + P. -/
  | fetch
  /-- ENGINE (R588). An ENGINE descriptor is taken up, checked, and queued for its engine command once its payload is read. -/
  | engineCmd
  /-- ENGINE_PAYLOAD_READ (R1156). The engine block of an ENGINE job arrives, is checked, and its T_first is formed for the first feasibility test. -/
  | enginePayloadRead (job : Nat)
  /-- PROGRAM (R582). A PROGRAM descriptor with its CHAIN descriptors is taken up as one program job. -/
  | programCmd
  /-- CHAIN (R583). A CHAIN descriptor supplies an argument segment to its PROGRAM head, or is refused as a head. -/
  | chainCmd
  /-- ARM (R591). An ARM job validates a run block and stores it and its kiln in an arm slot of a FAST queue. -/
  | armCmd (job : Option Nat)
  /-- FIRE (R593). A FIRE job runs the armed run block of its slot as an anneal command with the descriptor's overrides. -/
  | fireCmd
  /-- GUST_LANE_ENTRY (R605). An inline FIRE enters stage 3 of the gust lane and runs the stages to its first tun update. -/
  | gustLaneEntry (job : Nat)
  /-- RING_ENABLE (R618). Writing RING_CFG.EN = 1 moves a DISABLED queue to ENABLED with indices reset, or is refused with CFG. -/
  | ringEnable (func q : Nat) (v : Word)
  /-- RING_DISABLE (R619). Writing RING_CFG.EN = 0 moves the queue to QUIESCING, stopping fetch and new submissions. -/
  | ringDisable (func q : Nat) (v : Word)
  /-- Q_OWNER_WRITE (R622). A write of Q_OWNER assigns or unassigns a queue, or is dropped and recorded in QCFG_ERR. -/
  | qOwnerWrite (p : Path) (q : Nat) (v : Word)
  /-- FLR (R611). An FLR of a VF stops its queues, cancels their jobs, empties arm slots and disables the queues. -/
  | flr (vf : Nat)
  /-- FLR_PF (R613). An FLR of the PF acts as an FLR of every VF and PF queue and clears VF Enable. -/
  | flrPf
  /-- FLR_COMPLETE (R612). An FLR completes within 1 ms and the affected queues leave state FLR. -/
  | flrComplete (func : Nat)
  /-- HOST_IDE_FAIL (R630). A TLP that fails its Link IDE Stream check makes the stream insecure and stops host requests. -/
  | hostIdeFail
  /-- COMPLETION_RECORD (R609). Once the job's result, drain and transfers are visible, the K16 writes its 64-byte completion record, setting LATE_DLV when late. -/
  | completionRecord (job : Nat) (credits : Bool)
  /-- GUARD_UPDATE (R644). Within 8 MCLK cycles of a record the queue's estimate, pressure and ledger are recomputed. -/
  | guardUpdate (q : Nat)
  /-- JOB_START (R693). In an MCLK cycle the governor walks the candidate list and starts at most one fitting, feasible job, reserving its energy. -/
  | jobStart
  /-- LATE_BEFORE_START (R45). A waiting job that no longer passes the deadline-feasibility test completes with DEADLINE and no result. -/
  | lateBeforeStart (job : Nat)
  /-- CANCEL (R657). A CANCEL command completes matching waiting jobs with CANCELLED and stops matching started jobs as cancels. -/
  | cancel (p : Path) (q : Nat)
  /-- CANCEL_QUEUE (R657). A CANCEL_QUEUE command cancels every job of the named queue. -/
  | cancelQueue (p : Path) (q : Nat)
  /-- REPRIO (R657). A REPRIO command sets the BOOST of matching waiting jobs. -/
  | reprio (p : Path) (q : Nat)
  /-- DRAIN (R657). A DRAIN command moves the queue to DRAINING and completes its waiting jobs with DRAINING. -/
  | drain (p : Path) (q : Nat)
  /-- UNDRAIN (R657). An UNDRAIN command moves the queue from DRAINING back to ENABLED. -/
  | undrain (p : Path) (q : Nat)
  /-- DISPATCH_CMD_BAD_OP (R657). A dispatcher command with a reserved OP has no effect and reports BAD_OP. -/
  | dispatchCmdBadOp (p : Path) (v : Word)
  /-- CONTRACT_WRITE (R661). A write to Q_CONTRACT or Q_TARGET takes effect at once and the guard recomputes the queue's pressure. -/
  | contractWrite (p : Path) (q : Nat) (target : Bool) (v : Word)
  /-- STOP_TIME_REACHED (R54). When TIME reaches a command's or job's stop time the engine stops it under the anytime contract and STOP becomes pending on the core. -/
  | stopTimeReached (w : StopOf)
  /-- HALT_TIME_REACHED (R491). At the halt time a still-running program is halted, its store buffer discarded, and the job completes without a valid result. -/
  | haltTimeReached (core : Nat)
  /-- ENERGY_CEILING_STOP (R691). A running job whose metered energy reaches its ceiling stops as an energy-ceiling stop. -/
  | energyCeilingStop (job : Nat)
  /-- ENGINE_QUEUE_ENTRY (R331). An engine command enters the 16-entry queue of the solver, predictor or planner in issue order. -/
  | engineQueueEntry (cmd : Nat)
  /-- ENGINE_COMMAND_END (R481). An engine command ends: its result block becomes visible, its tag shows done and ENG_DONE becomes pending. -/
  | engineCommandEnd (cmd : Nat)
  /-- LOAD (R173). A LOAD anneal command validates and streams a grist image into its rectangle and starts no run. -/
  | loadCmd (cmd : Nat)
  /-- RUN (R174). A RUN anneal command validates and starts an anneal of the grist already held by its rectangle. -/
  | runCmd (cmd : Nat)
  /-- LOAD_RUN (R173). A LOAD_RUN anneal command loads grist into the rectangle and then starts a run on it. -/
  | loadRun (cmd : Nat)
  /-- LOAD_COMPLETE (R108). The grist body has streamed into the tuns and passes BODY_CRC, leaving them loaded. -/
  | loadComplete (cmd : Nat)
  /-- LATTICE_PHASE (R128). Once its halo has arrived, each tun decides every spin of one sublattice for every replica. -/
  | latticePhase (run tun : Nat)
  /-- DENSE_CLASS_STEP (R1154). Once all earlier end markers and flips are applied, a tun decides its members of the next class and multicasts flips and an end marker. -/
  | denseClassStep (run tun replica : Nat)
  /-- END_MARKER (R1155). A tun receives an end marker of a class step from another home tun, ending its sweep when the last has arrived. -/
  | endMarker (run dst src : Nat)
  /-- FLIP_APPLY (R154). Queued flips are applied to the local fields, oldest class step and lowest replica first, within the per-cycle limits. -/
  | flipApply (run tun : Nat)
  /-- SWEEP_BOUNDARY (R193). When a sweep has ended in every tun, the boundary captures, tests stop conditions, exchanges and starts the next sweep. -/
  | sweepBoundary (run : Nat)
  /-- PHX_GO (R160). A write of PHX_GO computes the Philox generator from PHX_KEY and PHX_CTR into PHX_OUT. -/
  | phxGo (p : Path) (tun : Nat) (v : Word)
  /-- WINDOW_SWITCH (R236). A visit starts by building the window's dense grist and folding full fields from the state store. -/
  | windowSwitch (run : Nat)
  /-- ROW_STAGING (R242). While a visit runs the K16 reads the next window's rows into CSRAM when space allows. -/
  | rowStaging (run : Nat)
  /-- JOIN (R247). The coordinator receives a JOIN and, when all chips have joined with equal fields, broadcasts START, or ABORT on a mismatch. -/
  | join
  /-- START (R249). A chip receives START with the seed and START_TIME and sends COEF to its E, N and NE partners. -/
  | startMsg
  /-- ABORT (R248). A chip receives ABORT and ends with EXT_INVALID or PARTNER_LOST. -/
  | abortMsg
  /-- JOIN_TIMEOUT (R250). A chip without START by command start plus JOIN_US ends with PARTNER_LOST. -/
  | joinTimeout (run : Nat)
  /-- COEF (R251). A chip stores the crossing coupling values received from a partner and starts boundary 0 once all have arrived. -/
  | coef
  /-- HALO (R254). A chip receives a partner's halo, which takes effect at the next phase and may end a wait. -/
  | halo
  /-- HALO_WAIT_TIMEOUT (R273). A chip that has waited RDV_TIMEOUT_US for a partner's halo freezes it and marks the partner lost. -/
  | haloWaitTimeout (run dir : Nat)
  /-- RENDEZVOUS (R258). At a rendezvous a chip, once it holds fresh halos, evaluates its owned energy and sends REPORT. -/
  | rendezvous (run : Nat)
  /-- REPORT (R259). The coordinator receives REPORT partials and, when all are in, runs the boundary and broadcasts DECIDE. -/
  | report
  /-- REPORT_TIMEOUT (R271). A chip whose REPORT has not arrived within RDV_TIMEOUT_US is declared lost. -/
  | reportTimeout (run chip : Nat)
  /-- DECIDE (R260). A chip applies DECIDE: capture into its pending buffer, stop, or take the rung map and sweep on. -/
  | decide
  /-- DECIDE_TIMEOUT (R277). A chip with no DECIDE, GRANT or UPDATE within RDV_TIMEOUT_US of its last REPORT or RETURN ends with PARTNER_LOST. -/
  | decideTimeout (run : Nat)
  /-- PART_REQ (R262). A chip receives PART_REQ, moves its pending buffer to its sending buffer and sends its part. -/
  | partReq
  /-- PART (R263). The coordinator places a received part in the in-flight slot, which becomes complete when every part has arrived. -/
  | part
  /-- GRANT (R266). A chip receives a lease, folds the window and runs DWELL sweeps, then sends RETURN. -/
  | grant
  /-- RETURN (R267). The coordinator applies a RETURN received by LEASE_END as a boundary and broadcasts UPDATE. -/
  | return
  /-- LEASE_END (R269). A lease expires and its late RETURN is discarded, returning the entry to the order. -/
  | leaseEnd (run visit : Nat)
  /-- UPDATE (R270). A chip applies UPDATE window bits to its state store copy in arrival order. -/
  | updateMsg
  /-- LINSOLVE (R305). A LINSOLVE command runs FP64 iterative refinement with CG or GMRES inner solves. -/
  | linsolve (cmd : Nat)
  /-- ASSIGN (R312). An ASSIGN command runs entropic balancing iterations and then a capacity repair. -/
  | assign (cmd : Nat)
  /-- BOXQP (R319). A BOXQP command runs projected-gradient iterations within box bounds. -/
  | boxqp (cmd : Nat)
  /-- SOLVER_ITERATE (R296). A solver iterate completes with its residual, updating the best iterate and testing the stop conditions. -/
  | solverIterate (cmd : Nat)
  /-- ASSIGN_STOP (R314). TIME reaching S − T_rep stops ASSIGN iterating with cause DEADLINE so that the repair can finish. -/
  | assignStop (cmd : Nat)
  /-- PREDICTOR_COMMAND (R379). A predictor command is validated, its weights made resident and its input scan begun. -/
  | predictorCommand (cmd : Nat)
  /-- INPUT_SCAN_DONE (R345). The whole input has been scanned and the input scale s_0 is fixed. -/
  | inputScanDone (cmd : Nat)
  /-- LAYER_PASS_DONE (R356). A layer's pass over a row block ends and is tested for a misfit. -/
  | layerPassDone (cmd : Nat)
  /-- ROW_BLOCK_DONE (R342). A row block has passed through every layer and its outputs pass to the result and grist writer. -/
  | rowBlockDone (cmd : Nat)
  /-- GRIST_WRITER_WRITE (R364). The grist writer writes a prediction into tun grist, waiting until any run using that grist has ended. -/
  | gristWriterWrite (cmd : Nat)
  /-- RES_FLUSH_ALL (R390). RES_FLUSH with ALL set discards every resident weight image. -/
  | resFlushAll (p : Path) (v : Word)
  /-- RES_FLUSH_REGION (R390). RES_FLUSH with ALL clear discards the resident weight images of one region. -/
  | resFlushRegion (p : Path) (v : Word)
  /-- PLAN (R418). A PLAN command applies its updates, handles its requests in order, commits or undoes, saves and writes its result. -/
  | planCmd (cmd n : Nat)
  /-- REPAIR (R427). A REPAIR command applies updates, rips up disturbed requests and re-places them. -/
  | repairCmd (cmd n : Nat)
  /-- PLN_FLUSH_ALL (R443). PLN_FLUSH with ALL set discards every resident grid and table. -/
  | plnFlushAll (p : Path) (v : Word)
  /-- PLN_FLUSH_REGION (R443). PLN_FLUSH with ALL clear discards one region's resident grids and tables. -/
  | plnFlushRegion (p : Path) (v : Word)
  /-- BUNDLE_ISSUE (R538). A core fetches, checks and executes one bundle, every active slot taking effect together, or traps. -/
  | bundleIssue (k : Nat)
  /-- ENG_WAIT_RETURN (R477). A stalled eng.wait returns the completion status and frees the tag once its command has ended. -/
  | engWaitReturn (k : Nat)
  /-- WAIT_I_WAKE (R499). A stalled wait.i completes when a source is set in both ie and ip. -/
  | waitIWake (k : Nat)
  /-- INTERRUPT_TAKE (R497). Between bundles a pending enabled interrupt is taken, entering tvec. -/
  | interruptTake (k : Nat)
  /-- TIMER_EXPIRY (R560). TIME reaching timecmp makes the TIMER source pending. -/
  | timerExpiry (k : Nat)
  /-- STORE_VISIBLE (R503). The oldest store buffer entry becomes globally visible. -/
  | storeVisible (k : Nat)
  /-- TRANSFER_START (R475). A core's next transfer starts once its earlier transfer has ended. -/
  | transferStart (k : Nat)
  /-- TRANSFER_END (R475). A transfer's last byte is visible and its tag shows it ended. -/
  | transferEnd (k : Nat)
  /-- CORE_SPARGE_DONE (R529). A core's after-job sparge of local memory ends and it reports IDLE. -/
  | coreSpargeDone (k : Nat)
  /-- GOVERNOR_TICK (R695). Every 4,000 MCLK cycles the governor takes the tick energy and sets a target CCLK code. -/
  | governorTick
  /-- AVS_ACK (R1117). A manager write of AVS_ACK acknowledges a pending raise, letting the ratio change proceed. -/
  | avsAck (p : Path) (v : Word)
  /-- AVS_TIMEOUT (R697). A raise unacknowledged within 200 µs is withdrawn and replaced by a lowering request. -/
  | avsTimeout
  /-- CCLK_GAP_END (R1158). At the end of the 40 ns gap CCLK restarts at the new code and its charge scale applies. -/
  | cclkGapEnd
  /-- THERMAL_SAMPLE (R699). Every 10 µs the junction sensors are read and the thermal state is entered or left. -/
  | thermalSample (readings : List (Option Int))
  /-- EPOCH_BOUNDARY (R703). At an epoch boundary the meters roll, EPOCH_NUM advances, the guard windows roll and budgets refill. -/
  | epochBoundary
  /-- SYNC_PULSE (R702). A recognised sync pulse inside the window sets the boundary, or is ignored outside it. -/
  | syncPulse (src : Nat)
  /-- SYNC_OUT_PULSE_END (R704). After 4 SCLK cycles SYNC_OUT returns low. -/
  | syncOutPulseEnd
  /-- TIME_LOAD (R712). A write of TIME_CTRL.LOAD with the device idle sets TIME and restarts the epoch, or is dropped. -/
  | timeLoad (p : Path) (v : Word)
  /-- BUDGET_WRITE (R713). A write of BUDGET.WATTS or RG_BUDGET recomputes the current epoch budget. -/
  | budgetWrite (p : Path) (region : Option Nat) (v : Word)
  /-- EPOCH_LEN_WRITE (R680). A write of EPOCH_LEN is taken for the next boundary, or dropped when out of range. -/
  | epochLenWrite (p : Path) (v : Word)
  /-- CLK_CTRL_WRITE (R711). A write of CLK_CTRL sets the code limits, or is dropped when FAST_LIMIT exceeds SLOW_LIMIT. -/
  | clkCtrlWrite (p : Path) (v : Word)
  /-- LULL_ENTRY (R705). A resource idle for IDLE_US enters lull. -/
  | lullEntry (r : LullRes)
  /-- LULL_OFF_ENTRY (R706). An empty idle owned tun with OFF_EMPTY enters lull-off after IDLE_US. -/
  | lullOffEntry (tun : Nat)
  /-- WAKE_COMPLETE (R708). A woken resource finishes leaving lull, or powers up and sparges from lull-off. -/
  | wakeComplete (r : LullRes)
  /-- REFCLK_LOSS (R1047). Loss of REFCLK unlocks the PLL, raising GOV_PLL_UNLOCK and moving management to the on-die oscillator. -/
  | refclkLoss
  /-- REFCLK_RETURN (R1047). Return of REFCLK moves the management clock back to REFCLK. -/
  | refclkReturn
  /-- RGN_APPLY (R755). APPLY takes a region's staged record, as a quota change or a checked reconfiguration. -/
  | rgnApply (p : Path) (v : Word)
  /-- RGN_REVERT (R758). REVERT copies a region's applied record into its staging record. -/
  | rgnRevert (p : Path) (v : Word)
  /-- RGN_BAD_OP (R758). An RGN_CMD with a reserved OP reports BAD_OP. -/
  | rgnBadOp (p : Path) (v : Word)
  /-- PACKET_HOP (R729). A router moves a packet to the next router when the chosen channel has room, dropping it at a region edge. -/
  | packetHop (offer : Option PacketOffer) (packet : Nat)
  /-- MULTICAST_COPY (R735). A multicast copy moves along the dimension-ordered tree when its next channel has room. -/
  | multicastCopy (offer : Option PacketOffer) (packet port : Nat)
  /-- PACKET_STUCK_TIMEOUT (R764). A packet head waiting 65,536 cycles at one router is dropped and its job ends. -/
  | packetStuckTimeout (packet : Nat)
  /-- COMMONS_ACCESS (R770). A commons bank serves up to two accesses per cycle in source-rank order. -/
  | commonsAccess (bank : Nat) (reqs : List MemReq)
  /-- HBM_ACCESS (R797). An HBM port serves its requests in arrival order with ECC checking. -/
  | hbmAccess (port : Nat) (reqs : List MemReq)
  /-- ECC_WRITE_BACK (R774). A corrected word is written back when the memory's port is next free. -/
  | eccWriteBack
  /-- PATROL_SCRUB_READ (R798). Patrol scrub reads the next HBM address, correcting or recording errors. -/
  | patrolScrubRead (stack upset : Nat)
  /-- HBM_OCCUPANCY_WINDOW (R799). Every 1,024 HCLK cycles HBM_BUSY.OCC is recomputed and hot windows counted. -/
  | hbmOccupancyWindow
  /-- MARCH_DESTRUCTIVE (R776). MARCH_CMD DESTRUCTIVE starts a destructive march of the target range, or is refused. -/
  | marchDestructive (p : Path) (v : Word) (fails : List (Nat × Nat))
  /-- MARCH_PRESERVING (R777). MARCH_CMD PRESERVING starts a preserving march, sliced or paused as the target's use requires. -/
  | marchPreserving (p : Path) (v : Word)
  /-- MARCH_ABORT (R782). MARCH_CMD ABORT stops a march at the end of the word in progress. -/
  | marchAbort (p : Path) (v : Word)
  /-- MARCH_BAD_OP (R800). A MARCH_CMD with a reserved OP reports BAD_OP. -/
  | marchBadOp (p : Path) (v : Word)
  /-- MARCH_SLICE (R780). After a boundary and enough cycles, a 256-cycle slice of a preserving march runs on a tun in a run. -/
  | marchSlice (run : Nat) (tun : Nat) (fails : List (Nat × Nat))
  /-- MARCH_RESUME (R779). A paused preserving march resumes when its engine is idle. -/
  | marchResume
  /-- MARCH_DONE (R785). A march ends as DONE_OK or DONE_FAIL. -/
  | marchDone (fails : List (Nat × Nat))
  /-- SPARGE_COMMAND (R789). SPARGE_CMD.GO starts a sparge of a tun, commons range or HBM range, or is refused. -/
  | spargeCommand (p : Path) (v : Word)
  /-- SPARGE_DONE (R791). A sparge ends and accesses waiting on its range proceed. -/
  | spargeDone
  /-- NOISE_WORD (R815). Every 5,120 ns each source completes a 128-sample word, judged healthy or not and offered to the channels. -/
  | noiseWord
  /-- RESTART_TEST_START (R821). 1 ms after a failed restart test another restart test begins. -/
  | restartTestStart (src : Nat)
  /-- CONDITIONED_BLOCK_READY (R827). A channel's conditioned block is ready 100 ns after the word that completes its credit. -/
  | conditionedBlockReady (chan : Nat)
  /-- DRBG_GENERATE_START (R833). A channel starts a generate request when its reserve has 64 free bytes and it is not due to reseed. -/
  | drbgGenerateStart (chan : Nat)
  /-- DRBG_GENERATE_DONE (R835). A generate request completes and 64 bytes enter the reserve. -/
  | drbgGenerateDone (chan : Nat)
  /-- DRBG_RESEED_DONE (R835). A reseed or instantiate completes 60 ns after its third block is ready. -/
  | drbgReseedDone (chan : Nat)
  /-- KAT_CONDITIONER (R845). A KAT command for the conditioner runs the CBC-MAC known-answer test. -/
  | katConditioner (p : Path) (v : Word)
  /-- KAT_CHANNEL (R843). A KAT command for a channel waits for a full reserve and then runs the DRBG known-answer test. -/
  | katChannel (p : Path) (v : Word)
  /-- KAT_START (R843). A channel KAT starts once the reserve is full or 100 µs have passed. -/
  | katStart
  /-- KAT_DONE (R843). A KAT ends with PASS or FAIL and the channel re-instantiates. -/
  | katDone (pass : Bool)
  /-- KAT_BAD_TARGET (R849). A KAT command with a reserved TARGET reports BAD_TARGET. -/
  | katBadTarget (p : Path) (v : Word)
  /-- SOFT_DATA_READ (R839). A read of SOFT_DATA takes 4 bytes from the SOFT reserve, or returns 0 as NOT_READY. -/
  | softDataRead (p : Path)
  /-- SOURCE_RESTART (R822). SRC_CTRL.RESTART starts a restart test for a DEAD or EXCLUDED source. -/
  | sourceRestart (p : Path) (v : Word)
  /-- SOURCE_DISABLE (R816). Setting SRC_CTRL.DISABLE makes a source DISABLED. -/
  | sourceDisable (p : Path) (v : Word)
  /-- SOURCE_ENABLE (R849). Clearing SRC_CTRL.DISABLE starts a source's start-up test. -/
  | sourceEnable (p : Path) (v : Word)
  /-- TEST_PATTERN_WRITE (R848). A write of TP_CTRL or TP_DATA sets test patterns in FACTORY, else is dropped with LIFECYCLE. -/
  | testPatternWrite (p : Path) (ctrl : Bool) (v : Word)
  /-- LC_TRANSITION (R869). LC_CMD TRANSITION checks and performs a life-cycle transition, programming intent and commit words. -/
  | lcTransition (p : Path) (v : Word)
  /-- LC_BAD_OP (R869). An LC_CMD with a reserved OP is refused with BAD_OP. -/
  | lcBadOp (p : Path) (v : Word)
  /-- MCTP_CONTROL (R876). An MCTP control message is handled at the endpoint. -/
  | mctpControl (e : Endpoint) (cmd : Nat) (data : List Byte)
  /-- SPDM_REQUEST (R877). An SPDM request other than those with their own rows is answered as the offered capabilities allow. -/
  | spdmRequest (e : Endpoint) (session : Option Nat) (r : SpdmReq)
  /-- GET_MEASUREMENTS (R878). GET_MEASUREMENTS returns the signed measurement blocks. -/
  | getMeasurements (e : Endpoint) (session : Option Nat) (index : Nat) (sign : Bool) (toSign : List Byte)
  /-- KEY_EXCHANGE (R877). KEY_EXCHANGE opens a secure session, or is refused at the session limit. -/
  | keyExchange (e : Endpoint) (x y : Nat) (toSign : List Byte)
  /-- IDE_KM_QUERY (R879). IDE_KM QUERY reports the Link IDE Stream. -/
  | ideKmQuery (session : Option Nat) (stream : Nat)
  /-- IDE_KM_KEY_PROG (R879). IDE_KM KEY_PROG programs a key set of the Link IDE Stream. -/
  | ideKmKeyProg (session : Option Nat) (stream set dir sub : Nat) (key : List Byte)
  /-- IDE_KM_K_SET_GO (R879). IDE_KM K_SET_GO activates a key set. -/
  | ideKmKSetGo (session : Option Nat) (stream set dir sub : Nat)
  /-- IDE_KM_K_SET_STOP (R879). IDE_KM K_SET_STOP stops a key set. -/
  | ideKmKSetStop (session : Option Nat) (stream set dir sub : Nat)
  /-- SET_TENANT_KEY (R884). SET_TENANT_KEY writes the inactive bank of a slot and makes it active when GEN is written. -/
  | setTenantKey (e : Endpoint) (session : Option Nat) (payload : List Byte)
  /-- ERASE_TENANT_KEY (R886). ERASE_TENANT_KEY erases both banks of a slot. -/
  | eraseTenantKey (e : Endpoint) (session : Option Nat) (payload : List Byte) (fail : Bool)
  /-- QUERY_SLOT (R880). QUERY_SLOT reports a slot's bank generations, region and validity. -/
  | querySlot (e : Endpoint) (session : Option Nat) (payload : List Byte)
  /-- SEAL (R890). A SEAL cipher command encrypts plaintext under the active bank and writes an envelope. -/
  | seal (p : Path) (v : Word)
  /-- UNSEAL (R892). An UNSEAL cipher command decrypts an envelope under its bank, zeroing output on tag failure. -/
  | unseal (p : Path) (v : Word)
  /-- CIPHER_BAD_OP (R902). A CIPH_GO with a reserved OP reports BAD_OP. -/
  | cipherBadOp (p : Path) (v : Word)
  /-- CIPHER_DONE (R894). A cipher command finishes and reports its code. -/
  | cipherDone (fault : Bool)
  /-- CIPHER_ENTROPY_TIMEOUT (R895). A cipher command waiting more than 10 ms on CIPHER ends with NO_ENTROPY. -/
  | cipherEntropyTimeout
  /-- BYPASS (R896). The JTAG BYPASS instruction. -/
  | bypass
  /-- IDCODE (R896). The JTAG IDCODE instruction returns the device identity code. -/
  | idcode
  /-- SAMPLE_PRELOAD (R896). The JTAG SAMPLE/PRELOAD instruction. -/
  | samplePreload (pads shift : Nat)
  /-- EXTEST (R896). The JTAG EXTEST instruction. -/
  | extest (pads : Nat)
  /-- JTAG_PRIVATE (R896). A Caerya private JTAG instruction executes in FACTORY and acts as BYPASS otherwise. -/
  | jtagPrivate (code : Nat)
  /-- LINK_ENABLE (R913). Setting LINK_CTRL.EN lets a link train once boot and entropy are ready. -/
  | linkEnable (p : Path) (link : Nat) (v : Word)
  /-- LINK_DISABLE (R964). Clearing LINK_CTRL.EN takes the link to DISABLED as a loss. -/
  | linkDisable (p : Path) (link : Nat) (v : Word)
  /-- LINK_CMD_LEAVE (R957). LINK_CMD LEAVE sends queued packets, then LEAVE, and takes the link down. -/
  | linkCmdLeave (p : Path) (link : Nat) (v : Word)
  /-- LINK_CMD_ROTATE (R952). LINK_CMD ROTATE starts a transmit key rotation. -/
  | linkCmdRotate (p : Path) (link : Nat) (v : Word)
  /-- LINK_CMD_REENABLE (R966). LINK_CMD REENABLE moves a link disabled by CONTENDED back to DOWN. -/
  | linkCmdReenable (p : Path) (link : Nat) (v : Word)
  /-- LINK_CMD_BAD_OP (R966). A LINK_CMD with a reserved OP reports BAD_OP. -/
  | linkCmdBadOp (p : Path) (link : Nat) (v : Word)
  /-- SIGNAL_DETECT (R913). Signal on all four receive lanes starts training phase 2. -/
  | signalDetect (link : Nat)
  /-- TRAINING_PHASE_DONE (R913). Equaliser adaptation or codeword lock completes and training moves to its next phase. -/
  | trainingPhaseDone (link : Nat)
  /-- TRAINING_TIMEOUT (R913). A training phase exceeding its limit returns the link to DOWN with TRAIN_FAIL. -/
  | trainingTimeout (link : Nat)
  /-- TRAINING_RETRY (R913). 100 ms after a training failure a new attempt starts. -/
  | trainingRetry (link : Nat)
  /-- TRAIN (R915). A TRAIN packet is received; two valid TRAINs and an echo end training and set credit limits. -/
  | train (link : Nat) (a : Arrival) (corr : Nat)
  /-- DATA (R931). A DATA packet is received and accepted in order, or dropped as a gap or stale. -/
  | dataMsg (link : Nat) (a : Arrival) (corr : Nat)
  /-- ACK (R935). An ACK frees every buffered packet it covers and updates credits. -/
  | ack (link : Nat) (a : Arrival) (corr : Nat)
  /-- NAK (R937). A NAK frees covered packets and starts a replay. -/
  | nak (link : Nat) (a : Arrival) (corr : Nat)
  /-- PACKET_TRANSMIT (R922). A DATA packet is sent when its VC has credits and the replay buffer has room. -/
  | packetTransmit (link vc : Nat)
  /-- ACK_SEND (R933). The receiver sends an acknowledgement within 1 µs of E advancing or after 64 packets. -/
  | ackSend (link : Nat)
  /-- CREDIT_RETURN (R924). The receiver sends the cumulative freed-unit count of a VC within 1 µs of a change. -/
  | creditReturn (link : Nat)
  /-- REPLAY_TIMEOUT (R937). The oldest buffered packet unsent for REPLAY_CFG.TIMEOUT starts a replay. -/
  | replayTimeout (link : Nat)
  /-- HANDSHAKE_START (R941). In DISCOVER with an identity, the link sends HELLO and opens its challenge window. -/
  | handshakeStart (link : Nat)
  /-- HELLO (R941). A received HELLO enters the transcript and is answered with RESPONSE. -/
  | hello (link : Nat) (a : Arrival) (corr : Nat)
  /-- RESPONSE (R943). A received RESPONSE counts toward the outcome of the open window. -/
  | response (link : Nat) (a : Arrival) (corr : Nat)
  /-- CHALLENGE_WINDOW_CLOSE (R943). At the close of the window the link classifies its outcome and sends CONFIRM. -/
  | challengeWindowClose (link : Nat)
  /-- CONFIRM (R941). A received CONFIRM with ACCEPT makes the link ACTIVE when this side also accepted. -/
  | confirm (link : Nat) (a : Arrival) (corr : Nat)
  /-- CONFIRM_TIMEOUT (R941). No CONFIRM within 2 ms of the window close gives REJECTED and BACKOFF. -/
  | confirmTimeout (link : Nat)
  /-- BACKOFF_END (R945). A backoff wait ends and a new handshake starts. -/
  | backoffEnd (link : Nat)
  /-- KEY_ROTATE (R952). A transmit generation reaching 2^KEY_CFG.LOG packets sends KEY_UPD and rotates. -/
  | keyRotate (link : Nat)
  /-- KEY_UPD (R952). A received KEY_UPD moves the receive generation forward. -/
  | keyUpd (link : Nat) (a : Arrival) (corr : Nat)
  /-- LEAVE (R958). A received LEAVE is answered with LEAVE_ACK and the link goes DOWN with PARTNER_LEAVE. -/
  | leave (link : Nat) (a : Arrival) (corr : Nat)
  /-- LEAVE_ACK (R957). A received LEAVE_ACK completes a leave and the link goes DOWN. -/
  | leaveAck (link : Nat) (a : Arrival) (corr : Nat)
  /-- LEAVE_TIMEOUT (R957). No LEAVE_ACK within 1 ms ends the leave anyway. -/
  | leaveTimeout (link : Nat)
  /-- LINK_SIGNAL_LOSS (R974). Loss of signal or codeword lock in ACTIVE raises LINK_PHY and the link leaves ACTIVE. -/
  | linkSignalLoss (link lanes : Nat)
  /-- LINK_REFCLK_LOSS (R974). Loss of LINK_REFCLK raises LINK_PHY on every active link. -/
  | linkRefclkLoss (lanes : Nat)
  /-- ERROR_RECORD (R1027). An unmasked error is recorded on its page as first, next or escalation, with its containment. -/
  | errorRecord (det : Option Detected)
  /-- AGGREGATOR_RECORD (R1034). The aggregator records the error in DEV_FIRST and the log, and may enter squall. -/
  | aggregatorRecord
  /-- SQUALL_END_TEST (R1045). At each millisecond after entry squall ends when fewer than 16 counted errors were recorded. -/
  | squallEndTest
  /-- ERR_FIRST_CLEAR (R1029). Writing 1 to ERR_FIRST.VALID clears the page's error records and count. -/
  | errFirstClear (p : Path) (page : Nat)
  /-- DEV_FIRST_CLEAR (R1034). Writing 1 to DEV_FIRST.VALID clears the device first error unless frozen. -/
  | devFirstClear (p : Path)
  /-- FENCE_CLEAR (R1040). Writing 1 to an RG_FENCE bit lifts the region's fence. -/
  | fenceClear (p : Path) (v : Word)
  /-- INJECT_SIGNAL (R1050). ERR_INJECT SIGNAL raises an error of the page's block with INFO 0xFFFF_FFFF. -/
  | injectSignal (p : Path) (page : Nat) (v : Word)
  /-- INJECT_CORRUPT_1 (R1051). ERR_INJECT CORRUPT_1 stores the next written word with one data bit inverted. -/
  | injectCorrupt1 (p : Path) (page : Nat) (v : Word)
  /-- INJECT_CORRUPT_2 (R1051). ERR_INJECT CORRUPT_2 stores the next written word with two data bits inverted. -/
  | injectCorrupt2 (p : Path) (page : Nat) (v : Word)
  /-- INJECT_BAD_MODE (R1052). An ERR_INJECT write with MODE 0 or bad fields is refused with BAD_MODE. -/
  | injectBadMode (p : Path) (page : Nat) (v : Word)
  /-- RETIRE_CMD (R1048). The key written to RETIRE_CMD after a fatal error asserts TRAY_RETIRE_N. -/
  | retireCmd (p : Path) (v : Word)
  /-- RETIRE_TIMEOUT_EXPIRY (R1049). RETIRE_TIMEOUT after FATAL_N without RETIRE_CMD asserts TRAY_RETIRE_N and sets UNSAVED. -/
  | retireTimeoutExpiry
  /-- COLD_RESET (R1067). PWR_GOOD low or RESET_N low for 10 µs resets every page and loses volatile memory. -/
  | coldReset (cause : Nat)
  /-- RESET_N_RISE (R1075). At the rising edge of RESET_N the straps are sampled and the boot flow begins. -/
  | resetNRise (pos : Nat) (recovery : Bool)
  /-- WARM_RESET (R1068). The key written to WARM_RESET ends all work, resets the marked pages and restarts boot at BLOCKS. -/
  | warmReset (p : Path) (v : Word)
  /-- PCIE_RESET (R1068). PERST_N, a Hot Reset or a link disable causes a warm reset. -/
  | pcieReset (cause : Nat)
  /-- BOOT_PHASE_END (R1077). A boot phase ends and the next begins, or the flow halts or reaches READY. -/
  | bootPhaseEnd (phase sizeLog2 : Nat) (quad addr4 : Bool) (fails : List (Nat × Nat × Nat))
  /-- BLOCK_RESET (R1086). A write of BLOCK_RESET resets one page instance and runs its start-up test, or is refused. -/
  | blockReset (p : Path) (v : Word) (fails : List (Nat × Nat × Nat))
  /-- CAL_LOAD (R1088). CAL_CMD LOAD copies the stored or built-in record into the staging buffer. -/
  | calLoad (p : Path) (v : Word)
  /-- CAL_CLEAR (R1088). CAL_CMD CLEAR zeroes the staging buffer. -/
  | calClear (p : Path) (v : Word)
  /-- CAL_COMMIT (R1089). CAL_CMD COMMIT checks the staging buffer and writes it as the calibration record. -/
  | calCommit (p : Path) (v : Word)
  /-- CAL_COMMIT_DONE (R1091). A commit ends, CAL_INVALID clears and the new values apply. -/
  | calCommitDone
  /-- CAL_BAD_OP (R1100). A CAL_CMD with a reserved OP reports BAD_OP. -/
  | calBadOp (p : Path) (v : Word)
  /-- CAL_DATA_ACCESS (R1088). A read or write of CAL_DATA accesses the staging word at CAL_PTR and advances it. -/
  | calDataAccess (p : Path) (v : Option Word)
  /-- GET_TID (R1092). PLDM GetTID returns the terminus ID. -/
  | getTid
  /-- GET_PLDM_VERSION (R1092). PLDM GetPLDMVersion returns the supported versions. -/
  | getPldmVersion (ty : Nat)
  /-- GET_PLDM_TYPES (R1092). PLDM GetPLDMTypes returns types 0, 2 and 5. -/
  | getPldmTypes
  /-- GET_PLDM_COMMANDS (R1092). PLDM GetPLDMCommands returns the supported commands of a type. -/
  | getPldmCommands (ty : Nat)
  /-- GET_SENSOR_READING (R1092). PLDM GetSensorReading returns a numeric sensor value. -/
  | getSensorReading (sensor : Nat)
  /-- GET_PDR_REPOSITORY_INFO (R1092). PLDM GetPDRRepositoryInfo describes the PDR repository. -/
  | getPdrRepositoryInfo
  /-- GET_PDR (R1092). PLDM GetPDR returns a PDR. -/
  | getPdr (handle : Nat)
  /-- SET_EVENT_RECEIVER (R1092). PLDM SetEventReceiver sets where threshold events are sent. -/
  | setEventReceiver (enable : Bool) (addr : Nat)
  /-- SET_NUMERIC_SENSOR_ENABLE (R1092). PLDM SetNumericSensorEnable enables or disables a sensor. -/
  | setNumericSensorEnable (sensor : Nat) (enable : Bool)
  /-- REQUEST_UPDATE (R1096). PLDM RequestUpdate starts a firmware update and gives the K16 use of the flash. -/
  | requestUpdate
  /-- FIRMWARE_TRANSFER (R1093). A firmware data transfer writes image bytes into the slot not loaded at boot. -/
  | firmwareTransfer (offset : Nat) (bytes : List Byte)
  /-- FIRMWARE_VERIFY (R1094). The written slot is verified by header, digest and IMAGE_SEQ. -/
  | firmwareVerify
  /-- ACTIVATE_FIRMWARE (R1095). PLDM ActivateFirmware reports that a cold reset is required. -/
  | activateFirmware
  /-- CANCEL_UPDATE (R1096). PLDM CancelUpdate abandons the firmware update and releases the flash. -/
  | cancelUpdate
  /-- GPIO_FUNC_WRITE (R1122). A GPIO_FUNC write switches pin functions through a settling sequence, or is dropped whole. -/
  | gpioFuncWrite (p : Path) (v : Word)
  /-- TACH_WINDOW (R1123). At the end of each second TACH_n takes the rising-edge count of its window. -/
  | tachWindow
  /-- UART_RX_BYTE (R1124). A byte received on UART_RX is placed in UART_RXDATA in FACTORY. -/
  | uartRxByte (b : Byte)
  /-- UART_RXDATA_READ (R1144). A read of UART_RXDATA returns the byte and clears VALID. -/
  | uartRxdataRead (p : Path)
  /-- FLASH_GRANT (R1125). FLASH_GNT_N sampled low twice lets the K16 drive the SPI pins. -/
  | flashGrant
  /-- FLASH_GRANT_LOSS (R1127). FLASH_GNT_N going high makes the K16 release the SPI pins and repeat the interrupted access later. -/
  | flashGrantLoss
  /-- HI_READ (R24). A read of a _HI register returns bits [63:32] of the path's pending capture and ends that capture, or the live upper half when none is pending. -/
  | hiRead (p : Path) (r : RegRef)
  /-- NOISE_SAMPLE (R815). Every 8 MCLK cycles each enabled source takes a sample, its health tests run, and it may become EXCLUDED, HEALTHY or DEAD, changing channel STOPPED states. -/
  | noiseSample (bits : Nat)
  /-- PROGRAM_LOAD_DONE (R467). The program image, zero area and argument have arrived in local memory, and the core leaves LOADING and begins at pc = ENTRY. -/
  | programLoadDone (k : Nat)
  /-- HOST_READ_FAILURE (R630). A host-memory read completes with an error, is poisoned, or times out; a descriptor fetch puts the queue in ERROR, and an operand read ends its job with MEMORY_FAULT. -/
  | hostReadFailure (fetch : Bool) (n : Nat)
  /-- POSTED_CREDIT_RETURN (R70). The host returns posted flow-control credits, releasing a completion record or result write held back, which is then issued, with LATE_DLV if past its deadline. -/
  | postedCreditReturn
  /-- PCIE_LINK_TRAINING (R568). The PCIe link trains, retrains or goes down, changing LINK_STATE rate, width and Flit mode. -/
  | pcieLinkTraining (rate width : Nat) (flit : Bool)
  /-- UNCORRECTABLE_CODEWORD (R918). An Olzen codeword that the FEC cannot correct is discarded whole with its units, counted in FEC_UNCORR, and raises LINK_FEC. -/
  | uncorrectableCodeword (link : Nat)
  /-- CT_EXPIRY (R907). When an SPDM response is still stalled on entropy as its CT expires, the responder answers ERROR with code Busy. -/
  | ctExpiry (task : Nat)
  /-- LC_TRANSITION_DONE (R869). OTP programming of a transition's intent and commit words ends, PENDING_RESET is set and LC_RESULT reads DONE. -/
  | lcTransitionDone
  /-- KEY_BANK_WRITE_DONE (R884). A tenant key bank write ends with GEN written, the new bank becomes active, and the command's response is sent. -/
  | keyBankWriteDone (fail : Bool)
  /-- HBM_CATASTROPHIC_TEMP (R807). A stack reports its catastrophic temperature, raising HBM_TEMP as a device-level fatal error. -/
  | hbmCatastrophicTemp (stack : Nat)
  /-- SHORT_SYNC_PULSE (R701). A high on the selected SYNC_IN that is sampled on fewer than two consecutive SCLK edges counts in IGNORED. -/
  | shortSyncPulse (src : Nat)
  /-- TACH_RISING_EDGE (R1123). A rising edge sampled on a TACH pin adds to the count of the current one-second window. -/
  | tachRisingEdge (n : Nat)
deriving DecidableEq, Repr

end Sys2Proof
end

