-- ==== Sys2Proof/Decode.lean ====
section
/-! DEFINITION. The commands that words spell. No row of spec/opcode_table.json gives bits: the K16 takes register
accesses, messages, packets and events, each whole, so no word spells a command. -/

namespace Sys2Proof

/-- The command that nbits bits of value w spell: none, for no row of the table gives bits. -/
def decodeTableWord (_nbits _w : Nat) : Option Instr := none

end Sys2Proof
end

