-- ==== Sys2Proof/Config.lean ====
section
/-! DEFINITION. What an implementation fixes and the spec leaves open: the free values. None has a body, so
nothing can be proved of their values. Each is applied to the model's own counter State.fresh, or
to the operands it depends on, and is named in an assumption log entry. -/

namespace Sys2Proof.Config

/-- The reading of a rail's monitor in 0.1 mV at a TIME (R1108, R1144): a physical input. -/
opaque railReading : Nat → Nat → Nat

/-- The level of a GPIO pad at a TIME (R1144): a physical input. -/
opaque padLevel : Nat → Nat → Bool

/-- The temperature that an HBM stack reports at a TIME, in 1/16 °C as 16 bits (Table 15-6): a physical input. -/
opaque hbmReport : Nat → Nat → Nat

/-- The power of the core rail in 0.1 W at a TIME (Table 21-5), a physical input, and the version of a PLDM type that the terminus names. -/
opaque corePower : Nat → Nat
opaque pldmVersion : Nat → Nat

/-- Whether the best-state buffer of a run, or the solver's best-iterate copy, reads back after an uncorrectable word or a side-link
error (R165, Table 06-12): a physical input. -/
opaque bestReads : Nat → Bool

/-- The address of the word of a block's own memory that an error names, where an armed injection stored it. -/
opaque markedWord : Nat → Nat

/-- A byte of a result area after a fault in the writing of the result (R224). -/
opaque faultByte : Nat → Nat → BitVec 8

/-- A byte of memory that an aborted destructive march leaves undefined (R782). -/
opaque marchByte : Nat → Nat → BitVec 8

/-- The exponent that a refinement step takes where its greatest residual is not finite (R305 states none), by iterate. -/
opaque residualScale : Nat → Int

/-- The integer that a NaN quotient rounds to (R349, R354 state none), by output channel. -/
opaque roundOfNan : Nat → Int


/-- Cycles in which a planner step's lookups stall at a bank, where two of them share one (R430): the order of lookups within a step is
not given. -/
opaque stallCycles : Nat → Nat

/-- Bits that a power loss leaves programmed in an OTP word (R864, R865), by the model's counter. -/
opaque tornBits : Nat → Nat

/-- The Caerya return key, device root key and image key held in boot ROM (R867, R944, R1083), and the boot ROM's bytes (R878). -/
opaque returnKey : Nat × Nat
opaque rootKey : Nat × Nat
opaque imageKey : Nat × Nat
opaque bootRom : List (BitVec 8)

/-- Caerya's JEDEC manufacturer identity (spec/22). -/
opaque jedecId : Nat

/-- What stands for the x-coordinate where a shared point is at infinity (R948 states none). -/
opaque noPoint : Nat

end Sys2Proof.Config
end

