-- ==== Sys2Proof/Machine/StateBoot.lean ====
section
/-! DEFINITION. The types of the state of reset, boot, calibration, PLDM and the pins (spec/21, spec/22). -/

namespace Sys2Proof.Machine

/-- An answer of the PLDM terminus (R1092 to R1096): the command's name code, a completion code (0 success) and
the values it carries. -/
structure PldmReply where
  cmd : Nat
  code : Nat
  vals : List Int
deriving DecidableEq, Repr

/-- A firmware update in progress (R1093 to R1096). -/
structure FwUpdate where
  slot : Nat
  /-- Bytes transferred so far. -/
  got : Nat
  verified : Bool
deriving DecidableEq, Repr

/-- Reset, boot, calibration and PLDM state behind the boot page. -/
structure BootState where
  /-- Phases IMAGE and MEMORY in progress (R1077). -/
  imageOn : Bool
  memoryOn : Bool
  /-- The stored calibration record, the record in force, the staging buffer and the record loaded at the last
  cold reset (R1087 to R1091). -/
  calStored : Tab Byte
  calNow : Tab Byte
  calStage : Tab Byte
  calBoot : Tab Byte
  /-- A commit in progress: the TIME it was accepted and the record it writes. -/
  commit : Option (Nat × Tab Byte)
  /-- Contents of the tray flash (Table 21-4). -/
  flash : Tab Byte
  /-- The image loaded: its header and body (R1085). -/
  image : List Byte
  /-- A warm reset's cause that waits for a commit (R1101). -/
  warmWaits : Option Nat
  update : Option FwUpdate
  /-- The PLDM event receiver, the sensors switched off, and each sensor's present threshold state. -/
  receiver : Option Nat
  sensorOff : Tab Bool
  sensorState : Tab Nat
  /-- PLDM answers and event messages sent, newest first. -/
  pldmOut : List PldmReply
  /-- Bytes sent on UART_TX, newest first (R1124). -/
  uartOut : List Byte
  /-- Pin-function switches in progress: the TIME of S0 by pin (R1122). -/
  gpioSwitch : Tab Nat
  /-- Rising edges of the present window by TACH pin, and the window's number (R1123). -/
  tach : Tab Nat
  tachWindow : Nat
  /-- The K16 drives the SPI pins (R1125). -/
  spiDrive : Bool
  /-- An access that FLASH_GNT_N's loss interrupted waits to be repeated (R1127). -/
  flashRetry : Bool
  /-- The outputs are high-impedance until RESET_N rises (R1149), and HBM is in self-refresh and the SerDes off after a
  thermal shutdown (R1131). -/
  padsOff : Bool
  shutdown : Bool
  /-- BLOCK_RESET writes of the present MCLK cycle, with the failures that the start-up tests find (R1104). -/
  resets : List (Word × List (Nat × Nat × Nat))
  /-- GPIO_IN (Table 22-10). -/
  gpioIn : Nat
  /-- Trimmed junction readings of the last sample, in 1/16 °C (R1130). -/
  therm : List Int
deriving DecidableEq, Repr

end Sys2Proof.Machine
end

