-- ==== Sys2Proof/Machine/StateTun.lean ====
section
/-! DEFINITION. The types of the state of the tun array: loaded grist, runs, windows and split runs
(spec/02 to 05). -/

namespace Sys2Proof.Machine

/-- A grist load: a header's fields, its rectangle and its body (R95 to R101, R174). -/
structure Grist where
  id : Nat
  x0 : Nat
  y0 : Nat
  x1 : Nat
  y1 : Nat
  /-- MODE: 1 lattice, 2 dense, 3 window. -/
  mode : Nat
  prec : Nat
  scale : Nat
  coloured : Bool
  n : Nat
  offset : Int
  tx : Nat
  ty : Nat
  wl : Nat
  ncol : Nat
  bodyBytes : Nat
  bodyCrc : Nat
  /-- The body's bytes, once streamed. -/
  body : Array Byte
  nnz : Nat
  rowptr : Nat
  col : Nat
  val : Nat
  h : Nat
deriving DecidableEq, Repr

/-- Lull of a tun, a core or an engine (R705 to R708). -/
inductive Lull where
  | awake | lull | off
  /-- Leaving lull, or powering up from lull-off, until a TIME. -/
  | waking (fromOff : Bool) (until_ : Nat)
deriving DecidableEq, Repr

/-- One tun's own state behind TUN_STATE (Table 03-9). -/
structure TunSt where
  load : Option Nat
  loading : Bool
  failed : Bool
  lull : Lull
  /-- TIME since which it has been idle. -/
  idleSince : Nat
  /-- The lead tun of its run or last run, 16 · y + x (R215). -/
  lead : Option Nat
  /-- The predictor command whose grist writer writes the tun (R391, R392). -/
  gw : Option Nat
  /-- Inverted bits of a CSRAM word, of an SSRAM word, and of a word of the best-state buffer in SSRAM, stored by an armed
  CORRUPT and not read since (R1051): 0 for none, 1 or 2. -/
  csMark : Nat
  ssMark : Nat
  bestMark : Nat
deriving DecidableEq, Repr

/-- A flip that a tun of a dense run has not applied yet (R1154, R154). -/
structure PendFlip where
  dst : Nat
  src : Nat
  cls : Nat
  replica : Nat
  spin : Nat
  arrived : Bool
deriving DecidableEq, Repr

/-- An end marker on its way to a tun (R1155). -/
structure PendMark where
  dst : Nat
  src : Nat
  cls : Nat
  replica : Nat
  arrived : Bool
deriving DecidableEq, Repr

/-- Where a run stands (RUN_STATE.PHASE, SPAN_STATE.PHASE). -/
inductive RunPhase where
  /-- Streaming grist into the tuns. -/
  | loading
  /-- A split run before START, and before every COEF has arrived. -/
  | joining | coefs
  | sweeping
  /-- A chip that has ended its sweep and waits to send REPORT, and one that waits for DECIDE. -/
  | rendezvous | waitDecide
  /-- A window run between visits. -/
  | switching
  | waitGrant
  | stopped
deriving DecidableEq, Repr

/-- A partner of a split run, by direction: E, W, N, S, NE, SW are 0 to 5. -/
structure Partner where
  dir : Nat
  chip : Nat
  link : Nat
  frozen : Bool
  /-- The newest halo of each phase that has fully arrived: its sweep and, per replica, the edge bits. The
  sweep is counted from 1, and 0 is the initial state. -/
  haloA : Option (Nat × List Nat)
  haloB : Option (Nat × List Nat)
  /-- Halos that arrived in the present phase. -/
  nextA : Option (Nat × List Nat)
  nextB : Option (Nat × List Nat)
  /-- Coefficients of the partner's couplings onto this chip, once arrived (R251). W, S and SW partners send them. -/
  coef : Option (Tab Int)
  /-- TIME since which the chip has waited for this partner, under R255 or in step 2 of R258 (R273). -/
  waitSince : Option Nat
deriving DecidableEq, Repr

/-- What a split run adds (R229 to R283). -/
structure Span where
  kind : Nat
  chip : Nat
  cx : Nat
  cy : Nat
  maxLag : Nat
  spanId : Nat
  aux : Nat
  joinUs : Nat
  rdvUs : Nat
  partners : List Partner
  /-- The coordinator's joined chips. -/
  joined : List Nat
  /-- Chips that the coordinator has declared lost (R271, R274): on the coordinator its own list, elsewhere those that a
  DECIDE has named. -/
  lost : List Nat
  /-- Partners that this chip has found lost itself (R272, R273). -/
  found : List Nat
  /-- The last REPORT of each chip: its boundary, partials and HALO_STALE. -/
  reports : List (Nat × Nat × List Int × Nat)
  /-- TIME of this chip's last REPORT or RETURN (R271, R277); all-ones when it waits for no answer. -/
  reportTime : Nat
  /-- Gather: the in-flight boundary, replica, energy and rung, and the chips whose parts have arrived. -/
  gather : Option (Nat × Nat × Int × Nat)
  parts : List Nat
  pending : Option (Nat × Nat)
  pendingCap : Option (Nat × Nat × Int × Nat)
  /-- The sending buffer (R262): the replica and its bits of the last part sent. -/
  sending : Option (Nat × Nat)
  /-- Gathers completed: the complete slot is the one of the last gather, by parity (R262). -/
  gathers : Nat
  /-- The complete slot: boundary, replica, energy and rung (R263, R264). -/
  complete : Option (Nat × Nat × Int × Nat)
  /-- Held leases: visit, entry, chip and LEASE_END (R266). -/
  leases : List (Nat × Nat × Nat × Nat)
  /-- The rung map that this chip's own lease carries (R266). -/
  granted : List Nat
  nextVisit : Nat
  /-- Entries returned to the head of the order (R265, R269). -/
  requeue : List Nat
  idle : List Nat
  /-- Applied visits (R268). -/
  applied : Nat
  staleSum : Nat
deriving DecidableEq, Repr

/-- A window run's visit (R234 to R243). -/
structure Visit where
  number : Nat
  entry : Nat
  dwell : Nat
  /-- Sweeps of the visit that have ended. -/
  swept : Nat
  spins : List Nat
  colours : List Nat
  /-- J of the loaded window, keyed by 2^20 · l + l′ with l < l′. -/
  j : Tab Int
  /-- f of R236 at the switch, keyed by 64 · l + r. -/
  fields : Tab Int
  /-- The states at the switch, by replica, and the rung of each replica in this visit: of a leased visit the granted map. -/
  start : List Nat
  rungs : List Nat
  /-- The rows of the next visit are staged (R242). -/
  staged : Bool
deriving DecidableEq, Repr

/-- A run of an anneal command (R140 to R145, R169 to R196, R228 to R283). -/
structure Run where
  cmd : Nat
  phase : RunPhase
  x0 : Nat
  y0 : Nat
  x1 : Nat
  y1 : Nat
  load : Nat
  block : List Byte
  stages : List (Nat × List Nat)
  kilnCrc : Nat
  nr : Nat
  nRungs : Nat
  seed : Nat
  seedDrawn : Bool
  stop : Nat
  startTime : Nat
  /-- Sweep in progress. -/
  sweep : Nat
  /-- Spin states by replica, bit i for spin i (R74, R76); in window mode of all n spins. -/
  bits : List Nat
  energies : List Int
  rungs : List Nat
  /-- The held best: energy, replica, rung, boundary and state (R143, R144). -/
  best : Option (Int × Nat × Nat × Nat × Nat)
  lastMin : Int
  lastBoundary : Nat
  lastEnergies : List Int
  exchAtt : Nat
  exchAcc : Nat
  rungAtt : Tab Nat
  rungAcc : Tab Nat
  flips : Nat
  /-- Phases of the present lattice sweep ended, by tun number; a sweep has two. -/
  phases : Tab Nat
  /-- Class steps of the present dense sweep decided, keyed by 64 · m + r. -/
  steps : Tab Nat
  pendFlips : List PendFlip
  pendMarks : List PendMark
  /-- End markers received this sweep, keyed by 64 · (128 · dst + src) + r. -/
  seen : Tab Nat
  /-- The flip under way that takes several cycles, with its cycles left (R153), by tun number. -/
  applying : Tab (Option (PendFlip × Nat))
  /-- CCLK cycles at the start of the present sweep, and at run start. -/
  sweepFrom : Nat
  runFrom : Nat
  /-- A stop asked for: the status and its cause (R148, R162). -/
  stopAsked : Option Nat
  /-- A boundary has been worked and no decision of the next sweep has been made: a march slice may run (R163). -/
  atGap : Bool
  visit : Option Visit
  span : Option Span
  haloStale : Nat
deriving DecidableEq, Repr

/-- A run message in or out (R289): its link, header fields, offset and payload. -/
structure RunMsg where
  link : Nat
  span : Nat
  kind : Nat
  src : Nat
  dst : Nat
  flags : Nat
  tag : Nat
  offset : Nat
  payload : List Byte
  /-- Units that its packets hold in the receive buffer (R923). -/
  units : Nat
  /-- TIME of the MCLK cycle in which its last packet arrived (R293). -/
  arrival : Nat
deriving DecidableEq, Repr

structure TunArray where
  tuns : Tab TunSt
  grists : List Grist
  runs : List Run
  /-- Run messages received and not yet taken, oldest first, and messages waiting to be sent. -/
  inbox : List RunMsg
  outbox : List RunMsg
  /-- Units of run messages taken from the receive buffers, by 4 · link + VC (R923). -/
  taken : Tab Nat
  /-- Commands whose runs draw their seeds in the present MCLK cycle, and the one being served with what its draw has given (R852). -/
  draws : List Nat
  drawn : Option (Nat × Option Nat)
deriving DecidableEq, Repr

/-- A tun after a reset of its page: awake until ready (R706), with no grist (R120). -/
def TunSt.reset : TunSt :=
  { load := none, loading := false, failed := false, lull := .awake, idleSince := 0, lead := none, gw := none
    csMark := 0, ssMark := 0, bestMark := 0 }

def TunArray.reset : TunArray := { tuns := [], grists := [], runs := [], inbox := [], outbox := [], taken := [], draws := [], drawn := none }

end Sys2Proof.Machine
end

