-- ==== Sys2Proof/Machine/StateCore.lean ====
section
/-! DEFINITION. The types of the state of the eight Gnomos cores (spec/09_gnomos_cores.md), and the lull of the shared
engines (R707). -/

namespace Sys2Proof.Machine

/-- GNM_STATE.STATE but for LULL and FAILED (Table 09-10). -/
inductive CorePhase where
  | idle | loading | running | halting | sparging
deriving DecidableEq, Repr

/-- An entry of the store buffer (R502): its number in program order, the space and offset it goes to, what it does
there, and the register that an atomic's old value goes to, sign-extended from its width. -/
structure StoreEntry where
  n : Nat
  space : Nat
  addr : Nat
  op : MemOp
  dest : Option Nat
deriving DecidableEq, Repr

/-- A held command tag (R476): the command it names, none for a transfer, and the status once ended. -/
structure CoreTag where
  cmd : Option Nat
  ended : Option Nat
deriving DecidableEq, Repr

/-- A transfer (R473, R475), in issue order: the stores numbered below after precede its issue (R508, R510), and start is
the TIME it began to move bytes. -/
structure Transfer where
  tag : Nat
  srcSpace : Nat
  src : Nat
  dstSpace : Nat
  dst : Nat
  len : Nat
  after : Nat
  start : Option Nat
deriving DecidableEq, Repr

/-- An engine command whose issue waits for the stores numbered below a bound (R508, R510): its number, and where its block
lies (R472). -/
structure Gate where
  cmd : Nat
  bound : Nat
  space : Nat
  addr : Nat
deriving DecidableEq, Repr

/-- Why a bundle has not issued (R458, R477, R483, R499, R502, R507, R508). -/
inductive Stall where
  | operand | storeBuffer | load | queue | wait | waitI
deriving DecidableEq, Repr

/-- One Gnomos core. -/
structure Core where
  phase : CorePhase
  failed : Bool
  lull : Lull
  idleSince : Nat
  job : Option Nat
  region : Nat
  queue : Nat
  func : Nat
  /-- Registers, unlisted ones zero: s0 to s63 at 0, v0 to v31 at 64, p0 to p7 at 96. -/
  regs : Tab Nat
  /-- The CCLK cycle from which a bundle that reads a register may issue (R533). -/
  ready : Tab Nat
  pc : Nat
  text : Nat
  /-- Table 09-5. -/
  status : Nat
  cause : Nat
  tval : Nat
  epc : Nat
  tvec : Nat
  ie : Nat
  /-- ip[1:0], and ip[2] as last evaluated against TIME (R560). -/
  ip : Nat
  timer : Bool
  /-- The CCLK cycles in which ENG_DONE and STOP last became set (R558), and the one from which a written timecmp counts (R560). -/
  engSet : Nat
  stopSet : Nat
  timerFrom : Nat
  engOrder : Bool
  timecmp : Nat
  stopcause : Nat
  haltTime : Nat
  jobret : Nat
  argAddr : Nat
  argBytes : Nat
  /-- CCLK cycles when the job began. -/
  cycle0 : Nat
  /-- The CCLK cycle before which no bundle issues (R542, R543), and the cycle of the last issue. -/
  nextIssue : Nat
  lastIssue : Option Nat
  /-- Bundles issued in the present MCLK cycle. -/
  issues : Nat
  stall : Option Stall
  lmem : Tab Byte
  sb : List StoreEntry
  /-- The number of the next store, and the stores that must be visible before a load, and before an engine-slot issue:
  those numbered below the bound (R507, R508, R511). -/
  nextStore : Nat
  slBound : Nat
  seBound : Nat
  tags : Tab (Option CoreTag)
  transfers : List Transfer
  gates : List Gate
  /-- The end of the job under way: its status and RESULT_VALID (R485). -/
  ending : Option (Nat × Bool)
  /-- CCLK cycles at which the sparge in progress ends (R529). -/
  spargeEnd : Nat
deriving DecidableEq, Repr

/-- The lull of a shared engine. -/
structure EngineLull where
  lull : Lull
  idleSince : Nat
deriving DecidableEq, Repr

structure CoreArray where
  cores : Tab Core
  /-- Cores whose oldest buffered store becomes visible in the present MCLK cycle (R503, R524), one entry for each store. -/
  visible : List Nat
  /-- Solver, predictor and planner, at 1, 2 and 3. -/
  engines : Tab EngineLull
deriving DecidableEq, Repr

/-- A core after a reset of its page (R528), and with no job. -/
def Core.reset : Core :=
  { phase := .idle, failed := false, lull := .awake, idleSince := 0, job := none, region := 0, queue := 0, func := 0
    regs := [], ready := [], pc := 0, text := 0, status := 0, cause := 0, tval := 0, epc := 0, tvec := 0, ie := 0, ip := 0
    timer := false, engSet := 0, stopSet := 0, timerFrom := 0, engOrder := true, timecmp := 0xFFFFFFFFFFFFFFFF, stopcause := 0, haltTime := 0xFFFFFFFFFFFFFFFF
    jobret := 0, argAddr := 0, argBytes := 0, cycle0 := 0, nextIssue := 0, lastIssue := none, issues := 0, stall := none, lmem := []
    sb := [], nextStore := 0, slBound := 0, seBound := 0, tags := [], transfers := [], gates := [], ending := none
    spargeEnd := 0 }

def EngineLull.reset : EngineLull := { lull := .awake, idleSince := 0 }

def CoreArray.reset : CoreArray := { cores := [], visible := [], engines := [] }

end Sys2Proof.Machine
end

