-- ==== Sys2Proof/Machine/StateEnt.lean ====
section
/-! DEFINITION. The types of the state of the entropy block (spec/16_entropy.md). -/

namespace Sys2Proof.Machine

/-- A noise source (R815 to R823). -/
structure NoiseSource where
  /-- Table 16-2. -/
  st : Nat
  /-- H, C_RCT and C_APT in force (R813). -/
  h : Nat
  cRct : Nat
  cApt : Nat
  /-- The bits of the word in progress, and whether it is healthy so far (R823). -/
  word : Nat
  healthy : Bool
  /-- Repetition count: the last sample and how often it has repeated (R817). -/
  rctBit : Option Bool
  rctRun : Nat
  /-- Adaptive proportion: samples of the window so far, its reference and the count that equal it (R818). -/
  aptPos : Nat
  aptRef : Bool
  aptEq : Nat
  /-- Samples left of a start-up or restart test, whether it is a start-up test, and whether a sample of it has failed (R820, R821). -/
  testLeft : Option Nat
  startUp : Bool
  testBad : Bool
  /-- Consecutive failed restart tests, and the TIME the next begins (R821). -/
  failsRow : Nat
  nextTest : Option Nat
  /-- Samples taken since TP_CTRL's bit was set (R847). -/
  tpPos : Nat
deriving DecidableEq, Repr

/-- A DRBG channel (R824 to R841). -/
structure Channel where
  /-- Table 16-3. -/
  st : Nat
  /-- CBC-MAC state and credit (R825, R826). -/
  mac : List Nat
  credit : Nat
  /-- Conditioned blocks ready for the operation, and blocks with the TIME they become ready (R827). -/
  blocks : List (List Nat)
  coming : List (Nat × List Nat)
  /-- The TIME the third block became ready (R835). -/
  readyAt : Nat
  /-- The operation that waits for entropy: false instantiates, true reseeds. -/
  need : Option Bool
  instantiated : Bool
  /-- The last seeding was a reseed and nothing has been generated since (R834 for KEY). -/
  freshReseed : Bool
  key : List Nat
  v : Nat
  /-- Generate requests since the last instantiate or reseed. -/
  since : Nat
  reserve : List Byte
  /-- TIME a generate request started (R835). -/
  gen : Option Nat
deriving DecidableEq, Repr

/-- A known-answer test (R842 to R846). -/
structure Kat where
  target : Nat
  /-- TIME it was asked for, and the TIME it started. -/
  asked : Nat
  started : Option Nat
  /-- A test of the start-up sequence (R860 step 4). -/
  boot : Bool
deriving DecidableEq, Repr

/-- A read of SOFT_DATA in the MCLK cycle in progress: its path, the word it returned, and whether it took 4 bytes (R853). -/
structure SoftRead where
  path : Path
  word : Word
  ok : Bool
deriving DecidableEq, Repr

structure EntState where
  sources : List NoiseSource
  chans : List Channel
  /-- Samples of the word in progress, and the TIME of the last sample (R815). -/
  samples : Nat
  lastSample : Nat
  kat : Option Kat
  /-- A test has ended in this MCLK cycle, and a command of the cycle has been refused BUSY (R857). -/
  katEnded : Bool
  katBusy : Bool
  /-- CHAN_CTRL as the last word offered found it (R855). -/
  policy : Nat
  /-- A conditioner KAT has failed: no block is output (Table 16-5). -/
  condFailed : Bool
  /-- Steps 3 to 5 of R860 have not been passed yet. -/
  starting : Bool
  /-- LAST_VALID of the two access paths (R850). -/
  softHost : Bool
  softMgr : Bool
  softRead : Option SoftRead
deriving DecidableEq, Repr

def NoiseSource.reset : NoiseSource :=
  { st := 0, h := 0, cRct := 0, cApt := 0, word := 0, healthy := true, rctBit := none, rctRun := 0, aptPos := 0
    aptRef := false, aptEq := 0, testLeft := none, startUp := false, testBad := false, failsRow := 0, nextTest := none, tpPos := 0 }
def Channel.reset : Channel :=
  { st := 0, mac := List.replicate 16 0, credit := 0, blocks := [], coming := [], readyAt := 0, need := none
    instantiated := false, freshReseed := false, key := List.replicate 32 0, v := 0, since := 0, reserve := [], gen := none }
def EntState.reset : EntState :=
  { sources := List.replicate 3 NoiseSource.reset, chans := List.replicate 4 Channel.reset, samples := 0, lastSample := 0
    kat := none, katEnded := false, katBusy := false, policy := 0, condFailed := false, starting := false, softHost := false, softMgr := false
    softRead := none }

end Sys2Proof.Machine
end

