-- ==== Sys2Proof/Machine/Bits.lean ====
section
/-! DEFINITION. Bit fields, byte order, signed values and rounding, as the conventions of
spec/00_scope.md give them (R4, R6, R8, R19). -/

namespace Sys2Proof.Machine

/-- Bits [hi:lo] of w (R6). -/
def fld (w hi lo : Nat) : Nat := (w >>> lo) % (1 <<< (hi + 1 - lo))

/-- Bit i of w. -/
def bit (w i : Nat) : Bool := Nat.testBit w i

/-- A bit as a number. -/
def b2n (b : Bool) : Nat := if b then 1 else 0

/-- w with bits [hi:lo] replaced by v. -/
def setFld (w hi lo v : Nat) : Nat :=
  let m := ((1 <<< (hi + 1 - lo)) - 1)
  (w - ((fld w hi lo) <<< lo)) + ((v &&& m) <<< lo)

/-- The low n bits of w. -/
def lowBits (w n : Nat) : Nat := w % (1 <<< n)

/-- A little-endian byte list as a number (R4). -/
def leNat : List Byte → Nat
  | [] => 0
  | b :: bs => b.toNat + (leNat bs <<< 8)

/-- The n low bytes of w, least significant first (R4). -/
def natLE : Nat → Nat → List Byte
  | 0, _ => []
  | n + 1, w => BitVec.ofNat 8 w :: natLE n (w >>> 8)

/-- A big-endian byte list as a number (R5: fields of published standards). -/
def beNat (bs : List Byte) : Nat := bs.foldl (fun a b => (a <<< 8) + b.toNat) 0

/-- The n low bytes of w, most significant first. -/
def natBE (n w : Nat) : List Byte := (natLE n w).reverse

/-- Bytes off to off + n − 1 of a structure, as a little-endian number (R4, R7). -/
def leAt (bs : List Byte) (off n : Nat) : Nat := leNat ((bs.drop off).take n)

/-- The two's complement value of the low n bits of w (R8). -/
def sInt (n w : Nat) : Int :=
  let x := lowBits w n
  if x < (1 <<< (n - 1)) then (x : Int) else (x : Int) - ((1 <<< n : Nat) : Int)

/-- The n-bit two's complement pattern of an integer (R8). -/
def toTwos (n : Nat) (x : Int) : Nat := (x % ((1 <<< n : Nat) : Int)).toNat

/-- The quotient rounded up. -/
def ceilDiv (a b : Nat) : Nat := if b = 0 then 0 else (a + b - 1) / b

/-- x limited to the range lo to hi. -/
def clampInt (lo hi x : Int) : Int := if x < lo then lo else if hi < x then hi else x

/-- a / b for b > 0, rounded half to even (R19). -/
def rhe (a : Int) (b : Nat) : Int :=
  let q := a / (b : Int)
  let r := (a % (b : Int)).toNat
  if 2 * r < b then q else if b < 2 * r then q + 1 else if q % 2 = 0 then q else q + 1

/-- a · 2^(−n) rounded half to even. -/
def rheShift (a : Int) (n : Nat) : Int := rhe a (1 <<< n)

/-- A count that saturates at its largest n-bit value. -/
def satAdd (n a b : Nat) : Nat := Nat.min (a + b) ((1 <<< n) - 1)

/-- The position of the most significant one bit, plus one; 0 for 0. -/
def bitLen (n : Nat) : Nat := if n = 0 then 0 else Nat.log2 n + 1

/-- All ones in 64 bits: "none" for deadlines and stop times (R60). -/
def allOnes64 : Nat := (1 <<< 64) - 1

/-- All ones in 32 bits. -/
def allOnes32 : Nat := (1 <<< 32) - 1

/-- Every byte of the list is zero. -/
def allZero (bs : List Byte) : Bool := bs.all (fun b => b == 0)

/-- The index of the first element satisfying p. -/
def findIdx {α : Type} (p : α → Bool) : List α → Option Nat
  | [] => none
  | a :: as => if p a then some 0 else (findIdx p as).map (· + 1)

/-- l with its element i replaced by f of it; l itself where i is past its end. -/
def updAt {α : Type} (i : Nat) (f : α → α) : List α → List α
  | [] => []
  | a :: as => match i with
    | 0 => f a :: as
    | j + 1 => a :: updAt j f as

/-- The number of elements satisfying p. -/
def countWhere {α : Type} (p : α → Bool) (l : List α) : Nat := (l.filter p).length

/-- The sum of f over l. -/
def sumOf {α : Type} (f : α → Nat) (l : List α) : Nat := l.foldl (fun a x => a + f x) 0

/-- The integer sum of f over l. -/
def sumInt {α : Type} (f : α → Int) (l : List α) : Int := l.foldl (fun a x => a + f x) 0

/-- Insert x before the first element that x does not follow in the order lt: a stable insertion. -/
def insertBy {α : Type} (lt : α → α → Bool) (x : α) : List α → List α
  | [] => [x]
  | y :: ys => if lt x y then x :: y :: ys else y :: insertBy lt x ys

/-- Stable insertion sort by lt. -/
def sortBy {α : Type} (lt : α → α → Bool) : List α → List α
  | [] => []
  | x :: xs => insertBy (fun a b => !lt b a) x (sortBy lt xs)

/-- The first element that no later element is before, under lt. -/
def leastBy {α : Type} (lt : α → α → Bool) : List α → Option α
  | [] => none
  | x :: xs => some (xs.foldl (fun m y => if lt y m then y else m) x)

end Sys2Proof.Machine
end

