-- ==== Sys2Proof/Machine/Tab.lean ====
section
/-! DEFINITION. Sparse tables in one canonical form: the reading, writing and well-formedness of a
Tab, for any default that an unlisted key reads as. Memories, register files and resource
tables of the machine all use these operations. -/

namespace Sys2Proof.Machine

/-- The value of key k, where an unlisted key reads as d k. -/
def Tab.get {α : Type} (d : Nat → α) : Tab α → Nat → α
  | [], k => d k
  | (j, v) :: t, k => if j = k then v else Tab.get d t k

/-- The table without key k. -/
def Tab.erase {α : Type} (k : Nat) : Tab α → Tab α
  | [] => []
  | (j, v) :: t => if j = k then Tab.erase k t else (j, v) :: Tab.erase k t

/-- List key k with value v in front of the first larger key. -/
def Tab.insert {α : Type} (k : Nat) (v : α) : Tab α → Tab α
  | [] => [(k, v)]
  | (j, w) :: t => if k < j then (k, v) :: (j, w) :: t else (j, w) :: Tab.insert k v t

/-- Insert, replace or remove key k: an entry equal to the default is not listed. -/
def Tab.put {α : Type} [DecidableEq α] (d : Nat → α) (k : Nat) (v : α) (t : Tab α) : Tab α :=
  if v = d k then Tab.erase k t else Tab.insert k v (Tab.erase k t)

/-- Replace key k by f of its value. -/
def Tab.upd {α : Type} [DecidableEq α] (d : Nat → α) (k : Nat) (f : α → α) (t : Tab α) : Tab α :=
  Tab.put d k (f (Tab.get d t k)) t

/-- Every key of t is above k. -/
def Tab.above {α : Type} (k : Nat) : Tab α → Bool
  | [] => true
  | (j, _) :: _ => k < j

/-- The canonical form: keys strictly rising, no entry equal to the default. -/
def Tab.wf {α : Type} [DecidableEq α] (d : Nat → α) : Tab α → Bool
  | [] => true
  | (k, v) :: t => Tab.above k t && decide (v ≠ d k) && Tab.wf d t

/-- The entries from key k on. -/
def Tab.from_ {α : Type} (k : Nat) : Tab α → Tab α
  | [] => []
  | (j, v) :: t => if j < k then Tab.from_ k t else (j, v) :: t

/-- Consecutive values from key k on, in front of a table whose keys are all above them. -/
def Tab.ahead {α : Type} [DecidableEq α] (d : Nat → α) (k : Nat) : List α → Tab α → Tab α
  | [], t => t
  | v :: vs, t => if v = d k then Tab.ahead d (k + 1) vs t else (k, v) :: Tab.ahead d (k + 1) vs t

/-- Write a list of consecutive values from key k on. -/
def Tab.putList {α : Type} [DecidableEq α] (d : Nat → α) (k : Nat) (vs : List α) : Tab α → Tab α
  | [] => Tab.ahead d k vs []
  | (j, w) :: t => if j < k then (j, w) :: Tab.putList d k vs t else Tab.ahead d k vs (Tab.from_ (k + vs.length) ((j, w) :: t))

/-- Read n consecutive values from key k on, in a table whose keys are none below k. -/
def Tab.walk {α : Type} (d : Nat → α) (t : Tab α) (k : Nat) : Nat → List α
  | 0 => []
  | n + 1 => match t with
    | [] => d k :: Tab.walk d [] (k + 1) n
    | (j, v) :: t' => if j = k then v :: Tab.walk d t' (k + 1) n else d k :: Tab.walk d ((j, v) :: t') (k + 1) n

/-- Read n consecutive values from key k on. -/
def Tab.getList {α : Type} (d : Nat → α) (t : Tab α) (k n : Nat) : List α := Tab.walk d (Tab.from_ k t) k n

/-- Keep the entries whose key and value satisfy p. -/
def Tab.keep {α : Type} (p : Nat → α → Bool) (t : Tab α) : Tab α :=
  t.filter (fun e => p e.1 e.2)

/-- Apply f to every listed value, dropping those that become the default. -/
def Tab.mapV {α : Type} [DecidableEq α] (d : Nat → α) (f : Nat → α → α) (t : Tab α) : Tab α :=
  (t.map (fun e => (e.1, f e.1 e.2))).filter (fun e => decide (e.2 ≠ d e.1))

end Sys2Proof.Machine
end

