-- ==== Sys2Proof/Machine/RegTable.lean ====
section
/-! DEFINITION. The register map of BAR0: the pages of Table 19-1, the header of Table 19-9 and every
block page's own register table (Tables 03-8, 03-9, 04-11, 04-12, 05-6, 06-11, 07-11, 08-11, 09-10,
11-10, 11-11, 12-6, 12-7, 13-7, 13-8, 14-3, 14-4, 15-5, 15-6, 16-4, 17-11, 17-12, 18-8, 19-9, 19-10,
19-11, 20-6, 21-10, 22-10). A row gives, per access code of R27, the mask of the bits that have it. -/

namespace Sys2Proof.Machine

/-- The page kinds of Table 19-1. -/
inductive PageKind where
  | device | counters | errors | boot | pins | governor | dispatch | host | fabric | memory
  | entropy | key | cipher | solver | predictor | planner | hbm | link | gnomos | qpage | tun
deriving DecidableEq, Repr

/-- One register, or `n` equal registers at consecutive offsets: its offset in the page and the
masks of its RW, W1C, W1S, WO and readable bits (R27), and its reset value (R28). -/
structure RegRow where
  off : Nat
  n : Nat
  rw : Nat
  w1c : Nat
  w1s : Nat
  wo : Nat
  rd : Nat
  reset : Nat
deriving DecidableEq, Repr

/-- The common header (Table 19-9, R1010). -/
def headerRows : List RegRow :=
  [⟨0, 1, 0, 0, 0, 0, 0x80ffffff, 0x80000000⟩,  -- PAGE_ID
    ⟨4, 1, 0, 0, 0, 0, 0xffff, 0x100⟩,  -- PAGE_VER
    ⟨8, 1, 1, 0, 0, 2, 1, 0⟩,  -- CTRL
    ⟨0xc, 1, 0, 0, 0, 0, 0xf, 0⟩,  -- STATUS
    ⟨0x10, 1, 0, 0xf, 0, 0, 0xf, 0⟩,  -- INT_STATUS
    ⟨0x14, 1, 0xf, 0, 0, 0, 0xf, 0⟩,  -- INT_ENABLE
    ⟨0x18, 1, 0, 0, 0xf, 0, 0, 0⟩,  -- INT_SET
    ⟨0x1c, 1, 1, 0, 0, 0, 1, 0⟩,  -- STEWARD
    ⟨0x20, 1, 0, 0x80000000, 0, 0, 0xf000ffff, 0⟩,  -- ERR_FIRST
    ⟨0x24, 1, 0, 0, 0, 0, 0xffffffff, 0⟩,  -- ERR_FIRST_INFO
    ⟨0x28, 1, 0, 0, 0, 0, 0xffffffff, 0⟩,  -- ERR_NEXT
    ⟨0x2c, 1, 0, 0, 0, 0, 0xffffffff, 0⟩,  -- ERR_NEXT_INFO
    ⟨0x30, 1, 0, 0, 0, 0, 0xffffffff, 0⟩,  -- ERR_COUNT
    ⟨0x34, 1, 0xffffffff, 0, 0, 0, 0xffffffff, 0⟩,  -- ERR_MASK
    ⟨0x38, 1, 0, 0, 0, 0xffffffff, 0, 0⟩,  -- ERR_INJECT
    ⟨0x40, 4, 0xffffffff, 0, 0, 0, 0xffffffff, 0⟩,  -- CTR_0 to CTR_3
    ⟨0x50, 4, 0x8000ffff, 0, 0, 0, 0x8000ffff, 0⟩,  -- EVSEL_0 to EVSEL_3
    ⟨0x60, 1, 0, 0x80000000, 0, 0, 0xefffffff, 0⟩]  -- LOST_WRITE

/-- The DEVICE page from offset 0x080. -/
def deviceRows : List RegRow :=
  [⟨0x80, 1, 0, 0, 0, 0, 0xffffffff, 0x10180⟩,  -- DEV_CAPS
    ⟨0x84, 1, 1, 0, 0, 0, 1, 1⟩,  -- DEV_INT_CTRL
    ⟨0x88, 1, 0, 0, 0, 0, 0xffffffff, 0⟩,  -- BAD_ACCESS_COUNT
    ⟨0x8c, 1, 0, 0x80000000, 0, 0, 0xf0ffffff, 0⟩,  -- BAD_ACCESS_LAST
    ⟨0x90, 1, 0, 0, 0, 0, 0xffffffff, 0⟩,  -- LOST_WRITES
    ⟨0x100, 0xc, 0, 0, 0, 0, 0xffffffff, 0⟩]  -- INT_PEND_0 to INT_PEND_11

/-- The COUNTERS page from offset 0x080. -/
def countersRows : List RegRow :=
  [⟨0x80, 1, 0, 0, 0, 0, 0xff, 0x10⟩,  -- GBANK_CAPS
    ⟨0x84, 1, 5, 0, 0, 2, 5, 0⟩,  -- GBANK_CTRL
    ⟨0x88, 1, 0, 0, 0, 1, 0, 0⟩,  -- GBANK_SNAP
    ⟨0x8c, 1, 0, 0, 0, 0, 0xffffffff, 0⟩,  -- SNAP_EPOCH
    ⟨0x90, 1, 0, 0xffff, 0, 0, 0xffff, 0⟩,  -- GBANK_STATUS
    ⟨0xc0, 0x10, 0xb3ffffff, 0, 0, 0, 0xb3ffffff, 0⟩,  -- GSEL_0 to GSEL_15
    ⟨0x100, 0x20, 0xffffffff, 0, 0, 0, 0xffffffff, 0⟩,  -- GCTR_n_LO, _HI, n = 0–15
    ⟨0x180, 0x20, 0, 0, 0, 0, 0xffffffff, 0⟩]  -- SNAP_n_LO, _HI

/-- The ERRORS page from offset 0x080. -/
def errorsRows : List RegRow :=
  [⟨0x80, 1, 0, 0, 0, 0, 0xf, 0⟩,  -- AGG_STATE
    ⟨0x84, 1, 0, 0x80000000, 0, 0, 0xf1ffffff, 0⟩,  -- DEV_FIRST
    ⟨0x88, 1, 0, 0, 0, 0, 0xffffffff, 0⟩,  -- DEV_FIRST_INFO
    ⟨0x8c, 2, 0, 0, 0, 0, 0xffffffff, 0⟩,  -- DEV_FIRST_TIME_LO, _HI
    ⟨0x94, 6, 0, 0, 0, 0, 0xffffffff, 0⟩,  -- CNT_CORRECTED, CNT_ADVISORY, CNT_JOB, CNT_REGION, CNT_DEGRADED, CNT_FATAL
    ⟨0xac, 1, 0, 0, 0, 0, 0xffffffff, 0⟩,  -- SQUALL_LOST
    ⟨0xb0, 1, 0, 0xffff, 0, 0, 0xffff, 0⟩,  -- RG_FENCE
    ⟨0xb4, 1, 0, 0, 0, 0xffffffff, 0, 0⟩,  -- RETIRE_CMD
    ⟨0xb8, 1, 0xffff, 0, 0, 0, 0xffff, 0x3e8⟩,  -- RETIRE_TIMEOUT
    ⟨0xbc, 1, 0, 0, 0, 0, 0x3f, 0⟩,  -- LOG_HEAD
    ⟨0xc0, 1, 0, 0, 0, 0, 0x1ff00ff, 0⟩,  -- INJ_RESULT
    ⟨0x200, 0x80, 0, 0, 0, 0, 0xffffffff, 0⟩]  -- LOG_0 to LOG_31

/-- The BOOT page from offset 0x080. -/
def bootRows : List RegRow :=
  [⟨0x80, 1, 0, 0, 0, 0, 0xf00f0001, 0⟩,  -- BOOT_STATE
    ⟨0x84, 1, 0, 0, 0, 0, 7, 0⟩,  -- BOOT_STRAPS
    ⟨0x88, 1, 0, 0, 0, 0, 0xffff000f, 0⟩,  -- RESET_CAUSE
    ⟨0x8c, 1, 0, 0, 0, 0, 0xc0000000, 0⟩,  -- BOOT_IMAGE
    ⟨0x90, 1, 0, 0, 0, 0, 0xffffffff, 0⟩,  -- IMAGE_SEQ
    ⟨0x94, 1, 0, 0, 0, 0, 0xffff, 0⟩,  -- IMAGE_STATUS
    ⟨0x98, 1, 0, 0, 0, 0, 0xff000003, 0⟩,  -- FLASH_INFO
    ⟨0x9c, 2, 0, 0, 0, 0, 0xffffffff, 0⟩,  -- READY_TIME_LO, _HI
    ⟨0xa4, 1, 0, 0, 0, 0xffffffff, 0, 0⟩,  -- WARM_RESET
    ⟨0xa8, 1, 0, 0, 0, 0xff00ffff, 0, 0⟩,  -- BLOCK_RESET
    ⟨0xac, 1, 0, 0, 0, 0, 0xff0000ff, 0⟩,  -- BLOCK_RESET_RESULT
    ⟨0xb0, 1, 0, 0, 0, 0, 0xffffffff, 0⟩,  -- INIT_SKIPPED
    ⟨0xb4, 1, 0, 0, 0, 0, 0xc00000ff, 0⟩,  -- CAL_STATE
    ⟨0xb8, 1, 0x3ff, 0, 0, 0, 0x3ff, 0⟩,  -- CAL_PTR
    ⟨0xbc, 1, 0xffffffff, 0, 0, 0, 0xffffffff, 0⟩,  -- CAL_DATA
    ⟨0xc0, 1, 0, 0, 0, 0xf0000000, 0, 0⟩,  -- CAL_CMD
    ⟨0xc4, 1, 0, 0, 0, 0, 0xffffffff, 0⟩]  -- CAL_WRITES

/-- The PINS page from offset 0x080. -/
def pinsRows : List RegRow :=
  [⟨0x80, 1, 0, 0, 0, 0, 0xffffff00, 0x8081000⟩,  -- PINS_CAPS
    ⟨0x84, 1, 0xffffffff, 0, 0, 0, 0xffffffff, 0⟩,  -- GPIO_FUNC
    ⟨0x88, 1, 0xff, 0, 0, 0, 0xff, 0⟩,  -- GPIO_OUT
    ⟨0x8c, 1, 0, 0, 0, 0, 0xff, 0⟩,  -- GPIO_IN
    ⟨0x90, 1, 0, 0, 0, 0, 0x7ff, 0⟩,  -- GPIO_ERR
    ⟨0x94, 4, 0, 0, 0, 0, 0xffff, 0⟩,  -- TACH_0 to TACH_3
    ⟨0xa4, 1, 0, 0, 0, 0, 0x1ff, 0⟩,  -- UART_RXDATA
    ⟨0xa8, 1, 0, 0, 0, 0, 0x3ffff, 0x2b2⟩,  -- AVS_TARGET
    ⟨0xac, 1, 0, 0, 0, 0xffff, 0, 0⟩,  -- AVS_ACK
    ⟨0xb0, 1, 0, 0, 0, 0, 0xffff, 0⟩,  -- AVS_ACKED
    ⟨0xb4, 1, 0, 0, 0, 0, 0x3f, 0⟩,  -- PIN_STATE
    ⟨0xb8, 1, 0xf, 0, 0, 0, 0xf, 0⟩,  -- THERM_SEL
    ⟨0xbc, 1, 0, 0, 0, 0, 0xffff, 0⟩,  -- THERM_DATA
    ⟨0xc0, 1, 7, 0, 0, 0, 7, 0⟩,  -- VMON_SEL
    ⟨0xc4, 1, 0, 0, 0, 0, 0xffff, 0⟩]  -- VMON_DATA

/-- The GOVERNOR page from offset 0x080. -/
def governorRows : List RegRow :=
  [⟨0x80, 1, 0, 0, 0, 0, 0xffffffff, 0x2bc0096⟩,  -- GOV_CAPS
    ⟨0x84, 1, 0, 0, 0, 0, 0xf33, 0x33⟩,  -- CLK_STATE
    ⟨0x88, 1, 0xf, 0, 0, 0, 0xf, 0xc⟩,  -- CLK_CTRL
    ⟨0x8c, 1, 0xff0003ff, 0, 0, 0, 0xff0003ff, 0xd00002bc⟩,  -- BUDGET
    ⟨0x90, 1, 0xffffffff, 0, 0, 0, 0xffffffff, 0xf4240⟩,  -- EPOCH_LEN
    ⟨0x94, 1, 7, 0, 0, 0, 7, 0⟩,  -- SYNC_CTRL
    ⟨0x98, 1, 0, 0, 0, 0, 0xffffffff, 0⟩,  -- SYNC_LAST
    ⟨0x9c, 1, 0, 0, 0, 0, 0xffffffff, 0⟩,  -- SYNC_COUNTS
    ⟨0xa0, 2, 0, 0, 0, 0, 0xffffffff, 0⟩,  -- TIME_LO, _HI
    ⟨0xa8, 2, 0xffffffff, 0, 0, 0, 0xffffffff, 0⟩,  -- TIME_LOAD_LO, _HI
    ⟨0xb0, 1, 0, 0, 0, 1, 0, 0⟩,  -- TIME_CTRL
    ⟨0xb4, 1, 0, 0, 0, 0, 0xff, 0⟩,  -- GOV_CFG_ERR
    ⟨0xb8, 2, 0, 0, 0, 0, 0xffffffff, 0⟩,  -- EPOCH_NUM_LO, _HI
    ⟨0xc0, 2, 0, 0, 0, 0, 0xffffffff, 0⟩,  -- EPOCH_START_LO, _HI
    ⟨0xc8, 1, 0, 0, 0, 0, 0xffffffff, 0xf4240⟩,  -- EPOCH_NEXT_LO, _HI
    ⟨0xcc, 1, 0, 0, 0, 0, 0xffffffff, 0⟩,  -- EPOCH_NEXT_LO, _HI
    ⟨0xd0, 2, 0, 0, 0, 0, 0xffffffff, 0⟩,  -- DEV_CONSUMED_LO, _HI
    ⟨0xd8, 2, 0, 0, 0, 0, 0xffffffff, 0⟩,  -- DEV_RESERVED_LO, _HI
    ⟨0xe0, 2, 0, 0, 0, 0, 0xffffffff, 0⟩,  -- DEV_LAST_LO, _HI
    ⟨0xe8, 2, 0, 0, 0, 0, 0xffffffff, 0⟩,  -- BUDGET_SHORT_LO, _HI
    ⟨0xf0, 1, 0, 0, 0, 0, 0xffffffff, 0⟩,  -- THERM_TICKS
    ⟨0xf4, 1, 0, 0, 0, 0, 0xffffffff, 0⟩,  -- RATIO_CHANGES
    ⟨0xf8, 1, 0, 0, 0, 0, 0xffffffff, 0⟩,  -- AVS_TIMEOUTS
    ⟨0xfc, 1, 0, 0, 0, 0, 0xffff, 0⟩,  -- TJ_MAX
    ⟨0x100, 1, 0xc000ffff, 0, 0, 0, 0xc000ffff, 0x80000032⟩,  -- LULL_CTRL
    ⟨0x104, 1, 0, 0, 0, 0, 0xffffff07, 0⟩,  -- LULL_STATE
    ⟨0x108, 1, 0xffff, 0, 0, 0, 0xffff, 0⟩,  -- HOLD
    ⟨0x10c, 1, 0, 0, 0, 0, 0xffffffff, 0⟩]  -- TICK_ENERGY

/-- The DISPATCH page from offset 0x080. -/
def dispatchRows : List RegRow :=
  [⟨0x80, 1, 0, 0, 0, 0, 0xffffffff, 0x10000400⟩,  -- DSP_CAPS
    ⟨0x84, 1, 0x1f, 0, 0, 0, 0x1f, 0xa⟩,  -- DSP_CFG
    ⟨0x88, 1, 0, 0, 0, 0, 0x1fff1fff, 0⟩,  -- DSP_STATE
    ⟨0x8c, 1, 0, 0, 0, 0, 0xffffffff, 0⟩,  -- DSP_STARTS
    ⟨0x90, 1, 0, 0, 0, 0, 0xffffffff, 0⟩,  -- POOL_FULL_CYCLES
    ⟨0x94, 1, 0, 0, 0, 0, 0xffffffff, 0⟩,  -- RES_BLOCKED
    ⟨0x98, 1, 0, 0, 0, 0, 0xffffffff, 0⟩,  -- LATE_BEFORE_START
    ⟨0x9c, 1, 0, 0, 0, 0, 0xffffffff, 0⟩,  -- NO_QUOTA_COUNT
    ⟨0xa0, 1, 0x3ff00df, 0, 0, 0, 0x3ff00df, 0⟩,  -- GUARD_SEL
    ⟨0xa4, 1, 0, 0, 0, 0, 0xffffffff, 0⟩,  -- GUARD_DATA
    ⟨0xa8, 1, 0, 0, 0, 0, 0xffffffff, 0⟩,  -- GUARD_UPDATES
    ⟨0xc0, 2, 0xffffffff, 0, 0, 0, 0xffffffff, 0⟩,  -- HCMD_TAG_LO, _HI
    ⟨0xc8, 1, 0xff, 0, 0, 0, 0xff, 0⟩,  -- HCMD_ARG
    ⟨0xcc, 1, 0, 0, 0, 0xf3ff0000, 0, 0⟩,  -- HCMD_GO
    ⟨0xd0, 1, 0, 0, 0, 0, 0xffffff, 0⟩,  -- HCMD_RESULT
    ⟨0xe0, 1, 0xffffffff, 0, 0, 0, 0xffffffff, 0⟩,  -- MCMD_TAG_LO
    ⟨0xe4, 1, 0xffffffff, 0, 0, 0, 0xffffffff, 0⟩,  -- MCMD_TAG_HI
    ⟨0xe8, 1, 0xff, 0, 0, 0, 0xff, 0⟩,  -- MCMD_ARG
    ⟨0xec, 1, 0, 0, 0, 0xf3ff0000, 0, 0⟩,  -- MCMD_GO
    ⟨0xf0, 1, 0, 0, 0, 0, 0xffffff, 0⟩]  -- MCMD_RESULT

/-- The HOST page from offset 0x080. -/
def hostRows : List RegRow :=
  [⟨0x80, 1, 0, 0, 0, 0, 0xffffffff, 0x3f400400⟩,  -- HOST_CAPS
    ⟨0x84, 1, 0, 0, 0, 0, 0x31f0f, 0⟩,  -- LINK_STATE
    ⟨0x88, 2, 0, 0, 0, 0, 0xffffffff, 0⟩,  -- HOST_INGRESS_BACKLOG_LO, _HI
    ⟨0x90, 2, 0, 0, 0, 0, 0xffffffff, 0⟩,  -- INGRESS_BYTES_LO, _HI
    ⟨0x98, 2, 0, 0, 0, 0, 0xffffffff, 0⟩,  -- EGRESS_BYTES_LO, _HI
    ⟨0xa0, 2, 0, 0, 0, 0, 0xffffffff, 0⟩,  -- CPL_STALL_LO, _HI
    ⟨0xa8, 1, 0, 0, 0, 0, 0xffffffff, 0⟩,  -- DB_STRAY
    ⟨0xac, 1, 0, 0, 0, 0, 0xffffffff, 0⟩,  -- GUST_STARTS
    ⟨0xb0, 1, 0, 0, 0, 0, 0xffffffff, 0⟩,  -- GUST_FALLBACKS
    ⟨0xb4, 1, 0, 0, 0, 0, 0xffffffff, 0⟩,  -- FLR_COUNT
    ⟨0xb8, 1, 0, 0, 0, 0, 0x3ff000f, 0⟩]  -- QCFG_ERR

/-- The FABRIC page from offset 0x080. -/
def fabricRows : List RegRow :=
  [⟨0x80, 1, 0, 0, 0, 0, 0xffffffff, 0x1008102f⟩,  -- FAB_CAPS
    ⟨0x84, 1, 1, 0, 0, 0, 1, 1⟩,  -- FAB_CTRL
    ⟨0x88, 1, 0, 0, 0, 0, 1, 0⟩,  -- FAB_STATE
    ⟨0x8c, 1, 0, 0, 0, 0xf000000f, 0, 0⟩,  -- RGN_CMD
    ⟨0x90, 1, 0, 0, 0, 0, 0xfff, 0⟩,  -- RGN_RESULT
    ⟨0x94, 1, 0, 0, 0, 0, 0xffffffff, 0⟩,  -- EDGE_DROPS
    ⟨0x98, 1, 0, 0, 0, 0, 0xff73003f, 0⟩,  -- EDGE_LAST
    ⟨0xa0, 2, 0, 0, 0, 0, 0xffffffff, 0⟩,  -- ESCAPE_PKTS_LO, _HI
    ⟨0xa8, 2, 0, 0, 0, 0, 0xffffffff, 0⟩,  -- MCAST_PKTS_LO, _HI
    ⟨0xb0, 2, 0, 0, 0, 0, 0xffffffff, 0⟩,  -- RING_FLITS_LO, _HI
    ⟨0xb8, 1, 0x70f7007, 0, 0, 0, 0x70f7007, 0⟩,  -- RTR_SEL
    ⟨0xbc, 1, 0, 0, 0, 0, 0xffffffff, 0⟩,  -- RTR_DATA
    ⟨0xc0, 1, 0, 0, 0, 0, 0xffffffff, 0⟩,  -- FAB_CE
    ⟨0xc4, 1, 0, 0, 0, 0, 0xffffffff, 0⟩]  -- FAB_UE

/-- The MEMORY page from offset 0x080. -/
def memoryRows : List RegRow :=
  [⟨0x80, 1, 0, 0, 0, 0, 0xffffffff, 0x20040060⟩,  -- MEM_CAPS
    ⟨0x84, 1, 0xf00000ff, 0, 0, 0, 0xf00000ff, 0⟩,  -- MARCH_TARGET
    ⟨0x88, 1, 0xffffff, 0, 0, 0, 0xffffff, 0⟩,  -- MARCH_START
    ⟨0x8c, 1, 0xffffff, 0, 0, 0, 0xffffff, 0⟩,  -- MARCH_COUNT
    ⟨0x90, 1, 0, 0, 0, 0xf0000000, 0, 0⟩,  -- MARCH_CMD
    ⟨0x94, 1, 0, 0, 0, 0, 0xf0ffffff, 0⟩,  -- MARCH_STATUS
    ⟨0x98, 1, 0, 0, 0, 0, 0xffffff, 0⟩,  -- MARCH_DONE
    ⟨0x9c, 1, 0, 0, 0, 0, 0xffffffff, 0⟩,  -- MARCH_FIRST
    ⟨0xa0, 1, 0xf00000ff, 0, 0, 0, 0xf00000ff, 0⟩,  -- SPARGE_TARGET
    ⟨0xa4, 2, 0xffffffff, 0, 0, 0, 0xffffffff, 0⟩,  -- SPARGE_BASE_LO, _HI
    ⟨0xac, 2, 0xffffffff, 0, 0, 0, 0xffffffff, 0⟩,  -- SPARGE_BYTES_LO, _HI
    ⟨0xb4, 1, 0, 0, 0, 1, 0, 0⟩,  -- SPARGE_CMD
    ⟨0xb8, 1, 0, 0, 0, 0, 0xf00000ff, 0⟩,  -- SPARGE_STATUS
    ⟨0xbc, 1, 0xf00000ff, 0, 0, 0, 0xf00000ff, 0⟩,  -- REPAIR_SEL
    ⟨0xc0, 1, 0, 0, 0, 0, 0xffffffff, 0⟩,  -- REPAIR_DATA
    ⟨0xc4, 1, 0, 0, 0, 0, 0xffffffff, 0⟩,  -- WRITE_CLASH
    ⟨0xc8, 1, 0, 0, 0, 0, 0xffffffff, 0⟩,  -- COMMONS_CE
    ⟨0xcc, 1, 0, 0, 0, 0, 0xffffffff, 0⟩,  -- COMMONS_UE
    ⟨0xd0, 1, 0, 0, 0, 0, 0x1ff, 0⟩,  -- HBM_BUSY
    ⟨0xd4, 1, 0, 0, 0, 0, 0xffffffff, 0⟩]  -- HBM_HOT

/-- The ENTROPY page from offset 0x080. -/
def entropyRows : List RegRow :=
  [⟨0x80, 1, 0, 0, 0, 0, 0xffffffff, 0x3041000⟩,  -- ENT_CAPS
    ⟨0x84, 1, 0, 0, 0, 0, 0x1ffff, 0⟩,  -- ENT_STATE
    ⟨0x88, 1, 0, 0, 0, 0, 0xfff, 0⟩,  -- SRC_STATE
    ⟨0x8c, 1, 7, 0, 0, 0x700, 7, 0⟩,  -- SRC_CTRL
    ⟨0x90, 1, 3, 0, 0, 0, 3, 0⟩,  -- CHAN_CTRL
    ⟨0x94, 3, 0xffff, 0, 0, 0, 0xffff, 0x400⟩,  -- RESEED_CIPHER, RESEED_TUNSEED, RESEED_SOFT
    ⟨0xa0, 4, 0, 0, 0, 0, 0xffff1fff, 0⟩,  -- CHAN_0_LEVEL to CHAN_3_LEVEL
    ⟨0xb0, 4, 0, 0, 0, 0, 0xffffffff, 0⟩,  -- CHAN_0_WAITS to CHAN_3_WAITS
    ⟨0xc0, 3, 0, 0, 0, 0, 0xffffffff, 0⟩,  -- SRC_0_FAILS to SRC_2_FAILS
    ⟨0xcc, 3, 0, 0, 0, 0, 0xffffffff, 0⟩,  -- SRC_0_CUT to SRC_2_CUT
    ⟨0xd8, 1, 0, 0, 0, 0, 0xffffff, 0⟩,  -- SRC_H
    ⟨0xdc, 1, 0, 0, 0, 0, 0xffffffff, 0⟩,  -- COND_BLOCKS
    ⟨0xe0, 1, 0, 0, 0, 0x80000007, 0, 0⟩,  -- KAT_CMD
    ⟨0xe4, 1, 0, 0, 0, 0, 0xf0ff0007, 0⟩,  -- KAT_STATUS
    ⟨0xe8, 1, 0, 0, 0, 0, 0xffffffff, 0⟩,  -- SOFT_DATA
    ⟨0xec, 1, 0, 0, 0, 0, 0x9fff, 0⟩,  -- SOFT_STATUS
    ⟨0xf0, 1, 7, 0, 0, 0, 7, 0⟩,  -- TP_CTRL
    ⟨0xf4, 1, 0xffffffff, 0, 0, 0, 0xffffffff, 0⟩,  -- TP_DATA
    ⟨0xf8, 1, 0, 0, 0, 0, 0xff, 0⟩]  -- ENT_CFG_ERR

/-- The KEY page from offset 0x080. -/
def keyRows : List RegRow :=
  [⟨0x80, 1, 0, 0, 0, 0, 0xffffffff, 0x40040010⟩,  -- KEY_CAPS
    ⟨0x84, 1, 0, 0, 0, 0, 0xf0337, 0xf0000⟩,  -- LC_STATE
    ⟨0x88, 1, 0, 0, 0, 0xf0000007, 0, 0⟩,  -- LC_CMD
    ⟨0x8c, 1, 0, 0, 0, 0, 0xf00000ff, 0⟩,  -- LC_RESULT
    ⟨0x90, 0x18, 0xffffffff, 0, 0, 0, 0xffffffff, 0⟩,  -- LC_TOKEN_0 to _23
    ⟨0xf0, 8, 0, 0, 0, 0, 0xffffffff, 0⟩,  -- LC_NONCE_0 to _7
    ⟨0x110, 1, 0x1f, 0, 0, 0, 0x1f, 0⟩,  -- ID_PUB_IDX
    ⟨0x114, 1, 0, 0, 0, 0, 0xffffffff, 0⟩,  -- ID_PUB_DATA
    ⟨0x118, 2, 0, 0, 0, 0, 0xffffffff, 0⟩,  -- DEVICE_ID_LO, _HI
    ⟨0x120, 1, 0x3f, 0, 0, 0, 0x3f, 0⟩,  -- SLOT_SEL
    ⟨0x124, 1, 0, 0, 0, 0, 0xe0000f00, 0⟩,  -- SLOT_INFO
    ⟨0x128, 2, 0, 0, 0, 0, 0xffffffff, 0⟩,  -- SLOT_GEN_A, _B
    ⟨0x130, 1, 0, 0, 0, 0, 0xffffffff, 0⟩,  -- STORE_WRITES
    ⟨0x134, 1, 0, 0, 0, 0, 0xffffffff, 0⟩,  -- TORN_BANKS
    ⟨0x138, 1, 0, 0, 0, 0, 0xffffffff, 0⟩,  -- SIGNATURES
    ⟨0x13c, 1, 0, 0, 0, 0, 0x107, 0⟩]  -- SPDM_STATE

/-- The CIPHER page from offset 0x080. -/
def cipherRows : List RegRow :=
  [⟨0x80, 1, 0xf03f3300, 0, 0, 0, 0xf03f3300, 0⟩,  -- CIPH_CTRL
    ⟨0x84, 1, 0, 0, 0, 1, 0, 0⟩,  -- CIPH_GO
    ⟨0x88, 2, 0xffffffff, 0, 0, 0, 0xffffffff, 0⟩,  -- CIPH_SRC_LO, _HI
    ⟨0x90, 2, 0xffffffff, 0, 0, 0, 0xffffffff, 0⟩,  -- CIPH_DST_LO, _HI
    ⟨0x98, 2, 0xffffffff, 0, 0, 0, 0xffffffff, 0⟩,  -- CIPH_BYTES_LO, _HI
    ⟨0xa0, 1, 0, 0, 0, 0, 0xf00000ff, 0⟩,  -- CIPH_STATUS
    ⟨0xa4, 1, 0, 0, 0, 0, 0xffffffff, 0⟩,  -- CIPH_GEN_USED
    ⟨0xa8, 1, 0, 0, 0, 0, 0xffffffff, 0⟩,  -- CIPH_OPS
    ⟨0xac, 1, 0, 0, 0, 0, 0xffffffff, 0⟩,  -- CIPH_AUTH_FAILS
    ⟨0xb0, 1, 0, 0, 0, 0, 0xffffffff, 0⟩]  -- CIPH_ENT_WAIT

/-- The SOLVER page from offset 0x080. -/
def solverRows : List RegRow :=
  [⟨0x80, 1, 0, 0, 0, 0, 0xffffffff, 0x8008030⟩,  -- SLV_CAPS
    ⟨0x84, 1, 0, 0, 0, 0, 0x1fdf, 0⟩,  -- SLV_STATE
    ⟨0x88, 1, 0, 0, 0, 0, 7, 0⟩,  -- SLV_PHASE
    ⟨0x8c, 1, 0, 0, 0, 0, 0xffffffff, 0⟩,  -- SLV_ITER
    ⟨0x90, 2, 0, 0, 0, 0, 0xffffffff, 0⟩,  -- BEST_RES_LO, _HI
    ⟨0x98, 2, 0, 0, 0, 0, 0xffffffff, 0⟩,  -- SLV_STOP_LO, _HI
    ⟨0xa0, 2, 0, 0, 0, 0, 0xffffffff, 0⟩,  -- OPERAND_WAIT_LO, _HI
    ⟨0xa8, 2, 0, 0, 0, 0, 0xffffffff, 0⟩,  -- BUSY_LO, _HI
    ⟨0xb0, 1, 0, 0, 0, 0, 0xffffffff, 0⟩,  -- COMMANDS
    ⟨0xb4, 1, 0, 0, 0, 0, 0xffffffff, 0⟩,  -- BREAKDOWNS
    ⟨0xb8, 1, 0, 0, 0, 0, 0xffff, 0⟩]  -- SLV_LAST

/-- The PREDICTOR page from offset 0x080. -/
def predictorRows : List RegRow :=
  [⟨0x80, 1, 0, 0, 0, 0, 0xffffffff, 0x80401040⟩,  -- PRD_CAPS
    ⟨0x84, 1, 0, 0, 0, 0, 0x1f9f, 0⟩,  -- PRD_STATE
    ⟨0x88, 1, 0, 0, 0, 0, 0xffffff07, 0⟩,  -- PRD_POS
    ⟨0x8c, 1, 0, 0, 0, 0, 0xffffffff, 0⟩,  -- PRD_RESIDENT
    ⟨0x90, 2, 0, 0, 0, 0, 0xffffffff, 0⟩,  -- PRD_STOP_LO, _HI
    ⟨0x98, 2, 0, 0, 0, 0, 0xffffffff, 0⟩,  -- MAC_BUSY_LO, _HI
    ⟨0xa0, 2, 0, 0, 0, 0, 0xffffffff, 0⟩,  -- WIDE_BUSY_LO, _HI
    ⟨0xa8, 2, 0, 0, 0, 0, 0xffffffff, 0⟩,  -- CLAMPS_LO, _HI
    ⟨0xb0, 1, 0, 0, 0, 0, 0xffffffff, 0⟩,  -- RERUNS
    ⟨0xb4, 1, 0, 0, 0, 0, 0xffffffff, 0⟩,  -- RERUN_SKIPS
    ⟨0xb8, 1, 0xff, 0, 0, 0, 0x1ff, 0xc0⟩,  -- FETCH_CTRL
    ⟨0xbc, 1, 0, 0, 0, 0x1f, 0, 0⟩,  -- RES_FLUSH
    ⟨0xc0, 2, 0, 0, 0, 0, 0xffffffff, 0⟩,  -- FETCH_WAIT_LO, _HI
    ⟨0xc8, 1, 0, 0, 0, 0, 0xffffffff, 0⟩,  -- GW_COUNT
    ⟨0xcc, 1, 0, 0, 0, 0, 0xffff, 0⟩,  -- PRD_LAST
    ⟨0xd0, 1, 0, 0, 0, 0, 0xffffffff, 0⟩]  -- COMMANDS

/-- The PLANNER page from offset 0x080. -/
def plannerRows : List RegRow :=
  [⟨0x80, 1, 0, 0, 0, 0, 0xffffffff, 0x20021000⟩,  -- PLN_CAPS
    ⟨0x84, 1, 0, 0, 0, 0, 0x1f9f, 0⟩,  -- PLN_STATE
    ⟨0x88, 1, 0, 0, 0, 0, 0xffffc007, 0⟩,  -- PLN_POS
    ⟨0x8c, 1, 0, 0, 0, 0, 0xffffffff, 0⟩,  -- PLN_RESIDENT
    ⟨0x90, 2, 0, 0, 0, 0, 0xffffffff, 0⟩,  -- PLN_STOP_LO, _HI
    ⟨0x98, 2, 0, 0, 0, 0, 0xffffffff, 0⟩,  -- GRID_PORT_STALL_LO, _HI
    ⟨0xa0, 2, 0, 0, 0, 0, 0xffffffff, 0⟩,  -- LOOKUPS_LO, _HI
    ⟨0xa8, 2, 0, 0, 0, 0, 0xffffffff, 0⟩,  -- EXPANSIONS_LO, _HI
    ⟨0xb0, 1, 0, 0, 0, 0, 0xffffffff, 0⟩,  -- BEAM_CUTS
    ⟨0xb4, 1, 0, 0, 0, 0, 0xffffffff, 0⟩,  -- COMMANDS
    ⟨0xb8, 1, 0, 0, 0, 0, 0xffff, 0⟩,  -- PLN_LAST
    ⟨0xbc, 1, 0, 0, 0, 0x1f, 0, 0⟩,  -- PLN_FLUSH
    ⟨0xc0, 2, 0, 0, 0, 0, 0xffffffff, 0⟩]  -- FETCH_WAIT_LO, _HI

/-- The HBM page from offset 0x080. -/
def hbmRows : List RegRow :=
  [⟨0x80, 1, 0, 0, 0, 0, 0xffffffff, 0x180410⟩,  -- HBM_CAPS
    ⟨0x84, 1, 0, 0, 0, 0, 7, 0⟩,  -- HBM_STATE
    ⟨0x88, 1, 0, 0, 0, 0, 0xffff, 0⟩,  -- HBM_TEMP
    ⟨0x8c, 1, 0xffff, 0, 0, 0, 0xffff, 0xe10⟩,  -- SCRUB
    ⟨0x90, 2, 0, 0, 0, 0, 0xffffffff, 0⟩,  -- RD_BYTES_LO, _HI
    ⟨0x98, 2, 0, 0, 0, 0, 0xffffffff, 0⟩,  -- WR_BYTES_LO, _HI
    ⟨0xa0, 2, 0, 0, 0, 0, 0xffffffff, 0⟩,  -- BUSY_CYC_LO, _HI
    ⟨0xa8, 1, 0, 0, 0, 0, 0xffffffff, 0⟩,  -- HBM_CE
    ⟨0xac, 1, 0, 0, 0, 0, 0xffffffff, 0⟩,  -- HBM_UE
    ⟨0xb0, 2, 0, 0, 0, 0, 0xffffffff, 0⟩,  -- LAST_ERR_ADDR_LO, _HI
    ⟨0xb8, 1, 0, 0, 0, 0, 0xc000000f, 0⟩,  -- LAST_ERR
    ⟨0xbc, 1, 0, 0, 0, 0, 0xffffffff, 0⟩]  -- PARITY_RETRIES

/-- The LINK page from offset 0x080. -/
def linkRows : List RegRow :=
  [⟨0x80, 1, 0, 0, 0, 0, 0xffffffff, 0x4210400⟩,  -- LINK_CAPS
    ⟨0x84, 1, 1, 0, 0, 0, 1, 0⟩,  -- LINK_CTRL
    ⟨0x88, 1, 0, 0, 0, 0xf0000000, 0, 0⟩,  -- LINK_CMD
    ⟨0x8c, 1, 0, 0, 0, 0, 0xff03ff07, 0x100⟩,  -- LINK_STATE
    ⟨0x90, 2, 0, 0, 0, 0, 0xffffffff, 0⟩,  -- LINK_PEER_LO, _HI
    ⟨0x98, 1, 0, 0, 0, 0, 0xff, 0⟩,  -- PEER_INFO
    ⟨0x9c, 2, 0xffffffff, 0, 0, 0, 0xffffffff, 0⟩,  -- PEER_PIN_LO, _HI
    ⟨0xa4, 1, 0xfffff, 0, 0, 0, 0xfffff, 0x40008⟩,  -- REPLAY_CFG
    ⟨0xa8, 1, 0x1f, 0, 0, 0, 0x1f, 0x1e⟩,  -- KEY_CFG
    ⟨0xac, 1, 0, 0, 0, 0, 0xffffffff, 0⟩,  -- KEY_GEN_TX
    ⟨0xb0, 1, 0, 0, 0, 0, 0xffffffff, 0⟩,  -- KEY_GEN_RX
    ⟨0xb4, 1, 0, 0, 0, 0, 0xfff0fff, 0⟩,  -- SEQ_STATE
    ⟨0xb8, 1, 0, 0, 0, 0, 0x7ff, 0⟩,  -- UNACKED
    ⟨0xbc, 1, 0, 0x1f, 0, 0, 0x1f, 0⟩,  -- LINK_EVENT
    ⟨0xc0, 2, 0, 0, 0, 0, 0xffffffff, 0⟩,  -- TX_UNITS_LO, _HI
    ⟨0xc8, 2, 0, 0, 0, 0, 0xffffffff, 0⟩,  -- RX_UNITS_LO, _HI
    ⟨0xd0, 1, 0, 0, 0, 0, 0xffffffff, 0⟩,  -- CRC_ERRS
    ⟨0xd4, 1, 0, 0, 0, 0, 0xffffffff, 0⟩,  -- REPLAYS
    ⟨0xd8, 1, 0, 0, 0, 0, 0xffffffff, 0⟩,  -- STALE_DROPS
    ⟨0xdc, 1, 0, 0, 0, 0, 0xffffffff, 0⟩,  -- GAP_DROPS
    ⟨0xe0, 1, 0, 0, 0, 0, 0xffffffff, 0⟩,  -- FEC_CORR
    ⟨0xe4, 1, 0, 0, 0, 0, 0xffffffff, 0⟩,  -- FEC_UNCORR
    ⟨0xe8, 1, 0, 0, 0, 0, 0xffffffff, 0⟩,  -- CONTENDED_CNT
    ⟨0xec, 1, 0, 0, 0, 0, 0xffffffff, 0⟩,  -- AUTH_FAILS
    ⟨0xf0, 1, 0, 0, 0, 0, 0xffffffff, 0⟩,  -- TX_DISCARD
    ⟨0xf4, 1, 0, 0, 0, 0, 0xffffffff, 0⟩]  -- LINK_UPS

/-- The GNOMOS page from offset 0x080. -/
def gnomosRows : List RegRow :=
  [⟨0x80, 1, 0, 0, 0, 0, 0xffffffff, 0x8402080⟩,  -- GNM_CAPS
    ⟨0x84, 1, 0, 0, 0, 0, 0x1ff7, 0⟩,  -- GNM_STATE
    ⟨0x88, 1, 0, 0, 0, 0, 0x3ff, 0⟩,  -- GNM_JOB
    ⟨0x8c, 1, 0, 0, 0, 0, 0x800000ff, 0⟩,  -- LAST_CAUSE
    ⟨0x90, 2, 0, 0, 0, 0, 0xffffffff, 0⟩,  -- LAST_EPC_LO, _HI
    ⟨0x98, 2, 0, 0, 0, 0, 0xffffffff, 0⟩,  -- LAST_TVAL_LO, _HI
    ⟨0xa0, 2, 0, 0, 0, 0, 0xffffffff, 0⟩,  -- BUNDLES_LO, _HI
    ⟨0xa8, 2, 0, 0, 0, 0, 0xffffffff, 0⟩,  -- STALL_LO, _HI
    ⟨0xb0, 1, 0, 0, 0, 0, 0xffffffff, 0⟩,  -- SB_FULL
    ⟨0xb4, 1, 0, 0, 0, 0, 0xffffffff, 0⟩,  -- ENG_ISSUES
    ⟨0xb8, 1, 0, 0, 0, 0, 0xffffffff, 0⟩]  -- LM_CE

/-- The TUN page from offset 0x080. -/
def tunRows : List RegRow :=
  [⟨0x80, 1, 0, 0, 0, 0, 0xffffffff, 0xc000400⟩,  -- TUN_CAPS
    ⟨0x84, 1, 0, 0, 0, 0, 0xff, 0⟩,  -- TUN_STATE
    ⟨0x88, 1, 0, 0, 0, 0, 0xff, 0⟩,  -- GRIST_INFO
    ⟨0x8c, 1, 0, 0, 0, 0, 0xffffffff, 0⟩,  -- SWEEP_LAST_CYC
    ⟨0x90, 2, 0, 0, 0, 0, 0xffffffff, 0⟩,  -- CSRAM_RD_SAT_LO, _HI
    ⟨0x98, 2, 0, 0, 0, 0, 0xffffffff, 0⟩,  -- FLIPS_LO, _HI
    ⟨0xa0, 2, 0, 0, 0, 0, 0xffffffff, 0⟩,  -- DECISIONS_LO, _HI
    ⟨0xa8, 1, 0, 0, 0, 0, 0xffffffff, 0⟩,  -- CAPTURES
    ⟨0xac, 1, 0x7ff, 0, 0, 0, 0x7ff, 0⟩,  -- THR_IDX
    ⟨0xb0, 1, 0, 0, 0, 0, 0xffffffff, 0⟩,  -- THR_DATA
    ⟨0xc0, 2, 0xffffffff, 0, 0, 0, 0xffffffff, 0⟩,  -- PHX_KEY_LO, _HI
    ⟨0xc8, 4, 0xffffffff, 0, 0, 0, 0xffffffff, 0⟩,  -- PHX_CTR_0 to PHX_CTR_3
    ⟨0xd8, 1, 0, 0, 0, 1, 0, 0⟩,  -- PHX_GO
    ⟨0xdc, 4, 0, 0, 0, 0, 0xffffffff, 0⟩,  -- PHX_OUT_0 to PHX_OUT_3
    ⟨0x100, 1, 0, 0, 0, 0, 0x7fff, 0⟩,  -- RUN_STATE
    ⟨0x104, 1, 0, 0, 0, 0, 0xffffffff, 0⟩,  -- RUN_SWEEP
    ⟨0x108, 1, 0, 0, 0, 0, 0xffffffff, 0⟩,  -- RUN_BEST_BND
    ⟨0x10c, 1, 0, 0, 0, 0, 0xffffff, 0⟩,  -- RUN_SHAPE
    ⟨0x110, 4, 0, 0, 0, 0, 0xffffffff, 0⟩,  -- BEST_EN_0 to BEST_EN_3
    ⟨0x120, 2, 0, 0, 0, 0, 0xffffffff, 0⟩,  -- RUN_SEED_LO, _HI
    ⟨0x128, 2, 0, 0, 0, 0, 0xffffffff, 0⟩,  -- RUN_STOP_LO, _HI
    ⟨0x130, 2, 0, 0, 0, 0, 0xffffffff, 0⟩,  -- KILN_BASE_LO, _HI
    ⟨0x138, 1, 0, 0, 0, 0, 0xffffffff, 0⟩,  -- EXCH_ATT
    ⟨0x13c, 1, 0, 0, 0, 0, 0xffffffff, 0⟩,  -- EXCH_ACC
    ⟨0x140, 1, 0x3f, 0, 0, 0, 0x3f, 0⟩,  -- RUNG_IDX
    ⟨0x144, 1, 0, 0, 0, 0, 0xffffffff, 0⟩,  -- RUNG_ATT
    ⟨0x148, 1, 0, 0, 0, 0, 0xffffffff, 0⟩,  -- RUNG_ACC
    ⟨0x200, 1, 0, 0, 0, 0, 0xff0f, 0⟩,  -- SPAN_STATE
    ⟨0x204, 1, 0, 0, 0, 0, 0xff, 0⟩,  -- SPAN_ERR
    ⟨0x208, 1, 0, 0, 0, 0, 0xffff, 0⟩,  -- LOST_MASK
    ⟨0x20c, 1, 0, 0, 0, 0, 0xffffffff, 0⟩,  -- VISIT
    ⟨0x210, 1, 0, 0, 0, 0, 0xfff, 0⟩,  -- WINDOW_CUR
    ⟨0x214, 1, 0, 0, 0, 0, 0xffffffff, 0⟩,  -- COMPLETE_BND
    ⟨0x218, 2, 0, 0, 0, 0, 0xffffffff, 0⟩,  -- HALO_STALE_LO, _HI
    ⟨0x220, 2, 0, 0, 0, 0, 0xffffffff, 0⟩,  -- HALO_WAIT_LO, _HI
    ⟨0x228, 1, 0, 0, 0, 0, 0xffffffff, 0⟩,  -- WIN_SERIAL
    ⟨0x22c, 1, 0, 0, 0, 0, 0xffffffff, 0⟩]  -- DROPPED_MSG

/-- A region record of the governor page (Table 13-8), at 0x200 + 32 · r. -/
def govRegionRows : List RegRow :=
  [⟨0, 1, 0xffffffff, 0, 0, 0, 0xffffffff, 0xffffffff⟩,  -- RG_BUDGET
    ⟨4, 1, 0xffffffff, 0, 0, 0, 0xffffffff, 0x2710⟩,  -- RG_DEFAULT_FIT
    ⟨8, 1, 0, 0, 0, 0, 0xffffffff, 0⟩,  -- RG_CONSUMED
    ⟨0xc, 1, 0, 0, 0, 0, 0xffffffff, 0⟩,  -- RG_RESERVED
    ⟨0x10, 1, 0, 0, 0, 0, 0xffffffff, 0⟩,  -- RG_LAST
    ⟨0x14, 1, 0, 0, 0, 0, 0xffffffff, 0⟩,  -- RG_SHORT
    ⟨0x18, 1, 0, 0, 0, 0, 0xffffffff, 0⟩]  -- RG_UNFIT

/-- A region record of the fabric page (Table 14-4), at 0x100 + 32 · r. -/
def fabRegionRows : List RegRow :=
  [⟨0, 1, 0x80007f7f, 0, 0, 0, 0x80007f7f, 0⟩,  -- RG_RECT
    ⟨4, 1, 0xff1f1f1f, 0, 0, 0, 0xff1f1f1f, 0⟩,  -- RG_QUOTA
    ⟨8, 1, 0x3ff03ff, 0, 0, 0, 0x3ff03ff, 0⟩,  -- RG_COMMONS
    ⟨0xc, 1, 0x1ff01ff, 0, 0, 0, 0x1ff01ff, 0⟩,  -- RG_HBM
    ⟨0x10, 1, 0, 0, 0, 0, 0xffffffff, 0⟩,  -- RG_ACT_RECT
    ⟨0x14, 1, 0, 0, 0, 0, 0x800000ff, 0x80000000⟩,  -- RG_STATE
    ⟨0x18, 1, 0, 0, 0, 0, 0xffffffff, 0⟩,  -- RG_EDGE_DROPS
    ⟨0x1c, 1, 0, 0, 0, 0, 0xffffffff, 0⟩]  -- RG_MESH_FLITS

/-- A queue record (Tables 11-10 and 12-6): Q_n at 0x080 + 64 · (n mod 32) of QPAGE_(n / 32) (R621). -/
def queueRows : List RegRow :=
  [⟨0, 1, 0x833f0f00, 0, 0, 0, 0x833f0f00, 0⟩,  -- Q_OWNER
    ⟨4, 1, 0, 0, 0, 0, 0xffffffff, 0⟩,  -- Q_STATUS
    ⟨8, 1, 0, 0, 0, 0, 0xffffffff, 0⟩,  -- Q_ARRIVED
    ⟨0xc, 1, 0, 0, 0, 0, 0xffffffff, 0⟩,  -- Q_COMPLETED
    ⟨0x10, 1, 0, 0, 0, 0, 0xffffffff, 0⟩,  -- Q_LATE_ARRIVAL
    ⟨0x14, 1, 0, 0, 0, 0, 0xffffffff, 0⟩,  -- Q_LATE_DLV
    ⟨0x18, 1, 0, 0, 0, 0, 0xffffffff, 0⟩,  -- Q_GUST
    ⟨0x1c, 1, 0, 0, 0, 0, 0xffff, 0⟩,  -- Q_INFLIGHT
    ⟨0x30, 1, 0xff003fff, 0, 0, 0, 0xff003fff, 0xc0000000⟩,  -- Q_CONTRACT
    ⟨0x34, 1, 0xffffffff, 0, 0, 0, 0xffffffff, 0⟩,  -- Q_TARGET
    ⟨0x38, 1, 0, 0, 0, 0, 0xffffffff, 0⟩,  -- Q_EST
    ⟨0x3c, 1, 0, 0, 0, 0, 0xffffff00, 0⟩]  -- Q_GUARD

namespace Reg

/-! Offsets in a page of the header registers (Table 19-9). -/
abbrev H_PAGE_ID : Nat := 0x0
abbrev H_PAGE_VER : Nat := 0x4
abbrev H_CTRL : Nat := 0x8
abbrev H_STATUS : Nat := 0xc
abbrev H_INT_STATUS : Nat := 0x10
abbrev H_INT_ENABLE : Nat := 0x14
abbrev H_INT_SET : Nat := 0x18
abbrev H_STEWARD : Nat := 0x1c
abbrev H_ERR_FIRST : Nat := 0x20
abbrev H_ERR_FIRST_INFO : Nat := 0x24
abbrev H_ERR_NEXT : Nat := 0x28
abbrev H_ERR_NEXT_INFO : Nat := 0x2c
abbrev H_ERR_COUNT : Nat := 0x30
abbrev H_ERR_MASK : Nat := 0x34
abbrev H_ERR_INJECT : Nat := 0x38
abbrev H_CTR_0 : Nat := 0x40
abbrev H_EVSEL_0 : Nat := 0x50
abbrev H_LOST_WRITE : Nat := 0x60

/-! DEVICE: BAR0 offsets. -/
abbrev DEV_DEV_CAPS : Nat := 0x80
abbrev DEV_DEV_INT_CTRL : Nat := 0x84
abbrev DEV_BAD_ACCESS_COUNT : Nat := 0x88
abbrev DEV_BAD_ACCESS_LAST : Nat := 0x8c
abbrev DEV_LOST_WRITES : Nat := 0x90
abbrev DEV_INT_PEND_0 : Nat := 0x100

/-! COUNTERS: BAR0 offsets. -/
abbrev CNT_GBANK_CAPS : Nat := 0x1080
abbrev CNT_GBANK_CTRL : Nat := 0x1084
abbrev CNT_GBANK_SNAP : Nat := 0x1088
abbrev CNT_SNAP_EPOCH : Nat := 0x108c
abbrev CNT_GBANK_STATUS : Nat := 0x1090
abbrev CNT_GSEL_0 : Nat := 0x10c0
abbrev CNT_GCTR_0_LO : Nat := 0x1100
abbrev CNT_SNAP_n_LO : Nat := 0x1180
abbrev CNT_SNAP_n_HI : Nat := 0x1184

/-! ERRORS: BAR0 offsets. -/
abbrev ERRP_AGG_STATE : Nat := 0x2080
abbrev ERRP_DEV_FIRST : Nat := 0x2084
abbrev ERRP_DEV_FIRST_INFO : Nat := 0x2088
abbrev ERRP_DEV_FIRST_TIME_LO : Nat := 0x208c
abbrev ERRP_DEV_FIRST_TIME_HI : Nat := 0x2090
abbrev ERRP_CNT_CORRECTED : Nat := 0x2094
abbrev ERRP_CNT_ADVISORY : Nat := 0x2098
abbrev ERRP_CNT_JOB : Nat := 0x209c
abbrev ERRP_CNT_REGION : Nat := 0x20a0
abbrev ERRP_CNT_DEGRADED : Nat := 0x20a4
abbrev ERRP_CNT_FATAL : Nat := 0x20a8
abbrev ERRP_SQUALL_LOST : Nat := 0x20ac
abbrev ERRP_RG_FENCE : Nat := 0x20b0
abbrev ERRP_RETIRE_CMD : Nat := 0x20b4
abbrev ERRP_RETIRE_TIMEOUT : Nat := 0x20b8
abbrev ERRP_LOG_HEAD : Nat := 0x20bc
abbrev ERRP_INJ_RESULT : Nat := 0x20c0
abbrev ERRP_LOG_0 : Nat := 0x2200

/-! BOOT: BAR0 offsets. -/
abbrev BOOT_BOOT_STATE : Nat := 0x3080
abbrev BOOT_BOOT_STRAPS : Nat := 0x3084
abbrev BOOT_RESET_CAUSE : Nat := 0x3088
abbrev BOOT_BOOT_IMAGE : Nat := 0x308c
abbrev BOOT_IMAGE_SEQ : Nat := 0x3090
abbrev BOOT_IMAGE_STATUS : Nat := 0x3094
abbrev BOOT_FLASH_INFO : Nat := 0x3098
abbrev BOOT_READY_TIME_LO : Nat := 0x309c
abbrev BOOT_READY_TIME_HI : Nat := 0x30a0
abbrev BOOT_WARM_RESET : Nat := 0x30a4
abbrev BOOT_BLOCK_RESET : Nat := 0x30a8
abbrev BOOT_BLOCK_RESET_RESULT : Nat := 0x30ac
abbrev BOOT_INIT_SKIPPED : Nat := 0x30b0
abbrev BOOT_CAL_STATE : Nat := 0x30b4
abbrev BOOT_CAL_PTR : Nat := 0x30b8
abbrev BOOT_CAL_DATA : Nat := 0x30bc
abbrev BOOT_CAL_CMD : Nat := 0x30c0
abbrev BOOT_CAL_WRITES : Nat := 0x30c4

/-! PINS: BAR0 offsets. -/
abbrev PINS_PINS_CAPS : Nat := 0x4080
abbrev PINS_GPIO_FUNC : Nat := 0x4084
abbrev PINS_GPIO_OUT : Nat := 0x4088
abbrev PINS_GPIO_IN : Nat := 0x408c
abbrev PINS_GPIO_ERR : Nat := 0x4090
abbrev PINS_TACH_0 : Nat := 0x4094
abbrev PINS_UART_RXDATA : Nat := 0x40a4
abbrev PINS_AVS_TARGET : Nat := 0x40a8
abbrev PINS_AVS_ACK : Nat := 0x40ac
abbrev PINS_AVS_ACKED : Nat := 0x40b0
abbrev PINS_PIN_STATE : Nat := 0x40b4
abbrev PINS_THERM_SEL : Nat := 0x40b8
abbrev PINS_THERM_DATA : Nat := 0x40bc
abbrev PINS_VMON_SEL : Nat := 0x40c0
abbrev PINS_VMON_DATA : Nat := 0x40c4

/-! GOVERNOR: BAR0 offsets. -/
abbrev GOV_GOV_CAPS : Nat := 0x5080
abbrev GOV_CLK_STATE : Nat := 0x5084
abbrev GOV_CLK_CTRL : Nat := 0x5088
abbrev GOV_BUDGET : Nat := 0x508c
abbrev GOV_EPOCH_LEN : Nat := 0x5090
abbrev GOV_SYNC_CTRL : Nat := 0x5094
abbrev GOV_SYNC_LAST : Nat := 0x5098
abbrev GOV_SYNC_COUNTS : Nat := 0x509c
abbrev GOV_TIME_LO : Nat := 0x50a0
abbrev GOV_TIME_HI : Nat := 0x50a4
abbrev GOV_TIME_LOAD_LO : Nat := 0x50a8
abbrev GOV_TIME_LOAD_HI : Nat := 0x50ac
abbrev GOV_TIME_CTRL : Nat := 0x50b0
abbrev GOV_GOV_CFG_ERR : Nat := 0x50b4
abbrev GOV_EPOCH_NUM_LO : Nat := 0x50b8
abbrev GOV_EPOCH_NUM_HI : Nat := 0x50bc
abbrev GOV_EPOCH_START_LO : Nat := 0x50c0
abbrev GOV_EPOCH_START_HI : Nat := 0x50c4
abbrev GOV_EPOCH_NEXT_LO : Nat := 0x50c8
abbrev GOV_EPOCH_NEXT_HI : Nat := 0x50cc
abbrev GOV_DEV_CONSUMED_LO : Nat := 0x50d0
abbrev GOV_DEV_CONSUMED_HI : Nat := 0x50d4
abbrev GOV_DEV_RESERVED_LO : Nat := 0x50d8
abbrev GOV_DEV_RESERVED_HI : Nat := 0x50dc
abbrev GOV_DEV_LAST_LO : Nat := 0x50e0
abbrev GOV_DEV_LAST_HI : Nat := 0x50e4
abbrev GOV_BUDGET_SHORT_LO : Nat := 0x50e8
abbrev GOV_BUDGET_SHORT_HI : Nat := 0x50ec
abbrev GOV_THERM_TICKS : Nat := 0x50f0
abbrev GOV_RATIO_CHANGES : Nat := 0x50f4
abbrev GOV_AVS_TIMEOUTS : Nat := 0x50f8
abbrev GOV_TJ_MAX : Nat := 0x50fc
abbrev GOV_LULL_CTRL : Nat := 0x5100
abbrev GOV_LULL_STATE : Nat := 0x5104
abbrev GOV_HOLD : Nat := 0x5108
abbrev GOV_TICK_ENERGY : Nat := 0x510c

/-! DISPATCH: BAR0 offsets. -/
abbrev DSP_DSP_CAPS : Nat := 0x6080
abbrev DSP_DSP_CFG : Nat := 0x6084
abbrev DSP_DSP_STATE : Nat := 0x6088
abbrev DSP_DSP_STARTS : Nat := 0x608c
abbrev DSP_POOL_FULL_CYCLES : Nat := 0x6090
abbrev DSP_RES_BLOCKED : Nat := 0x6094
abbrev DSP_LATE_BEFORE_START : Nat := 0x6098
abbrev DSP_NO_QUOTA_COUNT : Nat := 0x609c
abbrev DSP_GUARD_SEL : Nat := 0x60a0
abbrev DSP_GUARD_DATA : Nat := 0x60a4
abbrev DSP_GUARD_UPDATES : Nat := 0x60a8
abbrev DSP_HCMD_TAG_LO : Nat := 0x60c0
abbrev DSP_HCMD_TAG_HI : Nat := 0x60c4
abbrev DSP_HCMD_ARG : Nat := 0x60c8
abbrev DSP_HCMD_GO : Nat := 0x60cc
abbrev DSP_HCMD_RESULT : Nat := 0x60d0
abbrev DSP_MCMD_TAG_LO : Nat := 0x60e0
abbrev DSP_MCMD_TAG_HI : Nat := 0x60e4
abbrev DSP_MCMD_ARG : Nat := 0x60e8
abbrev DSP_MCMD_GO : Nat := 0x60ec
abbrev DSP_MCMD_RESULT : Nat := 0x60f0

/-! HOST: BAR0 offsets. -/
abbrev HOST_HOST_CAPS : Nat := 0x7080
abbrev HOST_LINK_STATE : Nat := 0x7084
abbrev HOST_HOST_INGRESS_BACKLOG_LO : Nat := 0x7088
abbrev HOST_HOST_INGRESS_BACKLOG_HI : Nat := 0x708c
abbrev HOST_INGRESS_BYTES_LO : Nat := 0x7090
abbrev HOST_INGRESS_BYTES_HI : Nat := 0x7094
abbrev HOST_EGRESS_BYTES_LO : Nat := 0x7098
abbrev HOST_EGRESS_BYTES_HI : Nat := 0x709c
abbrev HOST_CPL_STALL_LO : Nat := 0x70a0
abbrev HOST_CPL_STALL_HI : Nat := 0x70a4
abbrev HOST_DB_STRAY : Nat := 0x70a8
abbrev HOST_GUST_STARTS : Nat := 0x70ac
abbrev HOST_GUST_FALLBACKS : Nat := 0x70b0
abbrev HOST_FLR_COUNT : Nat := 0x70b4
abbrev HOST_QCFG_ERR : Nat := 0x70b8

/-! FABRIC: BAR0 offsets. -/
abbrev FAB_FAB_CAPS : Nat := 0x8080
abbrev FAB_FAB_CTRL : Nat := 0x8084
abbrev FAB_FAB_STATE : Nat := 0x8088
abbrev FAB_RGN_CMD : Nat := 0x808c
abbrev FAB_RGN_RESULT : Nat := 0x8090
abbrev FAB_EDGE_DROPS : Nat := 0x8094
abbrev FAB_EDGE_LAST : Nat := 0x8098
abbrev FAB_ESCAPE_PKTS_LO : Nat := 0x80a0
abbrev FAB_ESCAPE_PKTS_HI : Nat := 0x80a4
abbrev FAB_MCAST_PKTS_LO : Nat := 0x80a8
abbrev FAB_MCAST_PKTS_HI : Nat := 0x80ac
abbrev FAB_RING_FLITS_LO : Nat := 0x80b0
abbrev FAB_RING_FLITS_HI : Nat := 0x80b4
abbrev FAB_RTR_SEL : Nat := 0x80b8
abbrev FAB_RTR_DATA : Nat := 0x80bc
abbrev FAB_FAB_CE : Nat := 0x80c0
abbrev FAB_FAB_UE : Nat := 0x80c4

/-! MEMORY: BAR0 offsets. -/
abbrev MEM_MEM_CAPS : Nat := 0x9080
abbrev MEM_MARCH_TARGET : Nat := 0x9084
abbrev MEM_MARCH_START : Nat := 0x9088
abbrev MEM_MARCH_COUNT : Nat := 0x908c
abbrev MEM_MARCH_CMD : Nat := 0x9090
abbrev MEM_MARCH_STATUS : Nat := 0x9094
abbrev MEM_MARCH_DONE : Nat := 0x9098
abbrev MEM_MARCH_FIRST : Nat := 0x909c
abbrev MEM_SPARGE_TARGET : Nat := 0x90a0
abbrev MEM_SPARGE_BASE_LO : Nat := 0x90a4
abbrev MEM_SPARGE_BASE_HI : Nat := 0x90a8
abbrev MEM_SPARGE_BYTES_LO : Nat := 0x90ac
abbrev MEM_SPARGE_BYTES_HI : Nat := 0x90b0
abbrev MEM_SPARGE_CMD : Nat := 0x90b4
abbrev MEM_SPARGE_STATUS : Nat := 0x90b8
abbrev MEM_REPAIR_SEL : Nat := 0x90bc
abbrev MEM_REPAIR_DATA : Nat := 0x90c0
abbrev MEM_WRITE_CLASH : Nat := 0x90c4
abbrev MEM_COMMONS_CE : Nat := 0x90c8
abbrev MEM_COMMONS_UE : Nat := 0x90cc
abbrev MEM_HBM_BUSY : Nat := 0x90d0
abbrev MEM_HBM_HOT : Nat := 0x90d4

/-! ENTROPY: BAR0 offsets. -/
abbrev ENT_ENT_CAPS : Nat := 0xa080
abbrev ENT_ENT_STATE : Nat := 0xa084
abbrev ENT_SRC_STATE : Nat := 0xa088
abbrev ENT_SRC_CTRL : Nat := 0xa08c
abbrev ENT_CHAN_CTRL : Nat := 0xa090
abbrev ENT_RESEED_CIPHER : Nat := 0xa094
abbrev ENT_RESEED_TUNSEED : Nat := 0xa098
abbrev ENT_RESEED_SOFT : Nat := 0xa09c
abbrev ENT_CHAN_0_LEVEL : Nat := 0xa0a0
abbrev ENT_CHAN_0_WAITS : Nat := 0xa0b0
abbrev ENT_SRC_0_FAILS : Nat := 0xa0c0
abbrev ENT_SRC_0_CUT : Nat := 0xa0cc
abbrev ENT_SRC_H : Nat := 0xa0d8
abbrev ENT_COND_BLOCKS : Nat := 0xa0dc
abbrev ENT_KAT_CMD : Nat := 0xa0e0
abbrev ENT_KAT_STATUS : Nat := 0xa0e4
abbrev ENT_SOFT_DATA : Nat := 0xa0e8
abbrev ENT_SOFT_STATUS : Nat := 0xa0ec
abbrev ENT_TP_CTRL : Nat := 0xa0f0
abbrev ENT_TP_DATA : Nat := 0xa0f4
abbrev ENT_ENT_CFG_ERR : Nat := 0xa0f8

/-! KEY: BAR0 offsets. -/
abbrev KEY_KEY_CAPS : Nat := 0xb080
abbrev KEY_LC_STATE : Nat := 0xb084
abbrev KEY_LC_CMD : Nat := 0xb088
abbrev KEY_LC_RESULT : Nat := 0xb08c
abbrev KEY_LC_TOKEN_0 : Nat := 0xb090
abbrev KEY_LC_NONCE_0 : Nat := 0xb0f0
abbrev KEY_ID_PUB_IDX : Nat := 0xb110
abbrev KEY_ID_PUB_DATA : Nat := 0xb114
abbrev KEY_DEVICE_ID_LO : Nat := 0xb118
abbrev KEY_DEVICE_ID_HI : Nat := 0xb11c
abbrev KEY_SLOT_SEL : Nat := 0xb120
abbrev KEY_SLOT_INFO : Nat := 0xb124
abbrev KEY_SLOT_GEN_A : Nat := 0xb128
abbrev KEY_SLOT_GEN_B : Nat := 0xb12c
abbrev KEY_STORE_WRITES : Nat := 0xb130
abbrev KEY_TORN_BANKS : Nat := 0xb134
abbrev KEY_SIGNATURES : Nat := 0xb138
abbrev KEY_SPDM_STATE : Nat := 0xb13c

/-! CIPHER: BAR0 offsets. -/
abbrev CIPH_CIPH_CTRL : Nat := 0xc080
abbrev CIPH_CIPH_GO : Nat := 0xc084
abbrev CIPH_CIPH_SRC_LO : Nat := 0xc088
abbrev CIPH_CIPH_SRC_HI : Nat := 0xc08c
abbrev CIPH_CIPH_DST_LO : Nat := 0xc090
abbrev CIPH_CIPH_DST_HI : Nat := 0xc094
abbrev CIPH_CIPH_BYTES_LO : Nat := 0xc098
abbrev CIPH_CIPH_BYTES_HI : Nat := 0xc09c
abbrev CIPH_CIPH_STATUS : Nat := 0xc0a0
abbrev CIPH_CIPH_GEN_USED : Nat := 0xc0a4
abbrev CIPH_CIPH_OPS : Nat := 0xc0a8
abbrev CIPH_CIPH_AUTH_FAILS : Nat := 0xc0ac
abbrev CIPH_CIPH_ENT_WAIT : Nat := 0xc0b0

/-! SOLVER: BAR0 offsets. -/
abbrev SLV_SLV_CAPS : Nat := 0xd080
abbrev SLV_SLV_STATE : Nat := 0xd084
abbrev SLV_SLV_PHASE : Nat := 0xd088
abbrev SLV_SLV_ITER : Nat := 0xd08c
abbrev SLV_BEST_RES_LO : Nat := 0xd090
abbrev SLV_BEST_RES_HI : Nat := 0xd094
abbrev SLV_SLV_STOP_LO : Nat := 0xd098
abbrev SLV_SLV_STOP_HI : Nat := 0xd09c
abbrev SLV_OPERAND_WAIT_LO : Nat := 0xd0a0
abbrev SLV_OPERAND_WAIT_HI : Nat := 0xd0a4
abbrev SLV_BUSY_LO : Nat := 0xd0a8
abbrev SLV_BUSY_HI : Nat := 0xd0ac
abbrev SLV_COMMANDS : Nat := 0xd0b0
abbrev SLV_BREAKDOWNS : Nat := 0xd0b4
abbrev SLV_SLV_LAST : Nat := 0xd0b8

/-! PREDICTOR: BAR0 offsets. -/
abbrev PRD_PRD_CAPS : Nat := 0xe080
abbrev PRD_PRD_STATE : Nat := 0xe084
abbrev PRD_PRD_POS : Nat := 0xe088
abbrev PRD_PRD_RESIDENT : Nat := 0xe08c
abbrev PRD_PRD_STOP_LO : Nat := 0xe090
abbrev PRD_PRD_STOP_HI : Nat := 0xe094
abbrev PRD_MAC_BUSY_LO : Nat := 0xe098
abbrev PRD_MAC_BUSY_HI : Nat := 0xe09c
abbrev PRD_WIDE_BUSY_LO : Nat := 0xe0a0
abbrev PRD_WIDE_BUSY_HI : Nat := 0xe0a4
abbrev PRD_CLAMPS_LO : Nat := 0xe0a8
abbrev PRD_CLAMPS_HI : Nat := 0xe0ac
abbrev PRD_RERUNS : Nat := 0xe0b0
abbrev PRD_RERUN_SKIPS : Nat := 0xe0b4
abbrev PRD_FETCH_CTRL : Nat := 0xe0b8
abbrev PRD_RES_FLUSH : Nat := 0xe0bc
abbrev PRD_FETCH_WAIT_LO : Nat := 0xe0c0
abbrev PRD_FETCH_WAIT_HI : Nat := 0xe0c4
abbrev PRD_GW_COUNT : Nat := 0xe0c8
abbrev PRD_PRD_LAST : Nat := 0xe0cc
abbrev PRD_COMMANDS : Nat := 0xe0d0

/-! PLANNER: BAR0 offsets. -/
abbrev PLN_PLN_CAPS : Nat := 0xf080
abbrev PLN_PLN_STATE : Nat := 0xf084
abbrev PLN_PLN_POS : Nat := 0xf088
abbrev PLN_PLN_RESIDENT : Nat := 0xf08c
abbrev PLN_PLN_STOP_LO : Nat := 0xf090
abbrev PLN_PLN_STOP_HI : Nat := 0xf094
abbrev PLN_GRID_PORT_STALL_LO : Nat := 0xf098
abbrev PLN_GRID_PORT_STALL_HI : Nat := 0xf09c
abbrev PLN_LOOKUPS_LO : Nat := 0xf0a0
abbrev PLN_LOOKUPS_HI : Nat := 0xf0a4
abbrev PLN_EXPANSIONS_LO : Nat := 0xf0a8
abbrev PLN_EXPANSIONS_HI : Nat := 0xf0ac
abbrev PLN_BEAM_CUTS : Nat := 0xf0b0
abbrev PLN_COMMANDS : Nat := 0xf0b4
abbrev PLN_PLN_LAST : Nat := 0xf0b8
abbrev PLN_PLN_FLUSH : Nat := 0xf0bc
abbrev PLN_FETCH_WAIT_LO : Nat := 0xf0c0
abbrev PLN_FETCH_WAIT_HI : Nat := 0xf0c4

/-! HBM: offsets in the page. -/
abbrev HBM_HBM_CAPS : Nat := 0x80
abbrev HBM_HBM_STATE : Nat := 0x84
abbrev HBM_HBM_TEMP : Nat := 0x88
abbrev HBM_SCRUB : Nat := 0x8c
abbrev HBM_RD_BYTES_LO : Nat := 0x90
abbrev HBM_RD_BYTES_HI : Nat := 0x94
abbrev HBM_WR_BYTES_LO : Nat := 0x98
abbrev HBM_WR_BYTES_HI : Nat := 0x9c
abbrev HBM_BUSY_CYC_LO : Nat := 0xa0
abbrev HBM_BUSY_CYC_HI : Nat := 0xa4
abbrev HBM_HBM_CE : Nat := 0xa8
abbrev HBM_HBM_UE : Nat := 0xac
abbrev HBM_LAST_ERR_ADDR_LO : Nat := 0xb0
abbrev HBM_LAST_ERR_ADDR_HI : Nat := 0xb4
abbrev HBM_LAST_ERR : Nat := 0xb8
abbrev HBM_PARITY_RETRIES : Nat := 0xbc

/-! LINK: offsets in the page. -/
abbrev LINK_LINK_CAPS : Nat := 0x80
abbrev LINK_LINK_CTRL : Nat := 0x84
abbrev LINK_LINK_CMD : Nat := 0x88
abbrev LINK_LINK_STATE : Nat := 0x8c
abbrev LINK_LINK_PEER_LO : Nat := 0x90
abbrev LINK_LINK_PEER_HI : Nat := 0x94
abbrev LINK_PEER_INFO : Nat := 0x98
abbrev LINK_PEER_PIN_LO : Nat := 0x9c
abbrev LINK_PEER_PIN_HI : Nat := 0xa0
abbrev LINK_REPLAY_CFG : Nat := 0xa4
abbrev LINK_KEY_CFG : Nat := 0xa8
abbrev LINK_KEY_GEN_TX : Nat := 0xac
abbrev LINK_KEY_GEN_RX : Nat := 0xb0
abbrev LINK_SEQ_STATE : Nat := 0xb4
abbrev LINK_UNACKED : Nat := 0xb8
abbrev LINK_LINK_EVENT : Nat := 0xbc
abbrev LINK_TX_UNITS_LO : Nat := 0xc0
abbrev LINK_TX_UNITS_HI : Nat := 0xc4
abbrev LINK_RX_UNITS_LO : Nat := 0xc8
abbrev LINK_RX_UNITS_HI : Nat := 0xcc
abbrev LINK_CRC_ERRS : Nat := 0xd0
abbrev LINK_REPLAYS : Nat := 0xd4
abbrev LINK_STALE_DROPS : Nat := 0xd8
abbrev LINK_GAP_DROPS : Nat := 0xdc
abbrev LINK_FEC_CORR : Nat := 0xe0
abbrev LINK_FEC_UNCORR : Nat := 0xe4
abbrev LINK_CONTENDED_CNT : Nat := 0xe8
abbrev LINK_AUTH_FAILS : Nat := 0xec
abbrev LINK_TX_DISCARD : Nat := 0xf0
abbrev LINK_LINK_UPS : Nat := 0xf4

/-! GNOMOS: offsets in the page. -/
abbrev GNM_GNM_CAPS : Nat := 0x80
abbrev GNM_GNM_STATE : Nat := 0x84
abbrev GNM_GNM_JOB : Nat := 0x88
abbrev GNM_LAST_CAUSE : Nat := 0x8c
abbrev GNM_LAST_EPC_LO : Nat := 0x90
abbrev GNM_LAST_EPC_HI : Nat := 0x94
abbrev GNM_LAST_TVAL_LO : Nat := 0x98
abbrev GNM_LAST_TVAL_HI : Nat := 0x9c
abbrev GNM_BUNDLES_LO : Nat := 0xa0
abbrev GNM_BUNDLES_HI : Nat := 0xa4
abbrev GNM_STALL_LO : Nat := 0xa8
abbrev GNM_STALL_HI : Nat := 0xac
abbrev GNM_SB_FULL : Nat := 0xb0
abbrev GNM_ENG_ISSUES : Nat := 0xb4
abbrev GNM_LM_CE : Nat := 0xb8

/-! TUN: offsets in the page. -/
abbrev TUN_TUN_CAPS : Nat := 0x80
abbrev TUN_TUN_STATE : Nat := 0x84
abbrev TUN_GRIST_INFO : Nat := 0x88
abbrev TUN_SWEEP_LAST_CYC : Nat := 0x8c
abbrev TUN_CSRAM_RD_SAT_LO : Nat := 0x90
abbrev TUN_CSRAM_RD_SAT_HI : Nat := 0x94
abbrev TUN_FLIPS_LO : Nat := 0x98
abbrev TUN_FLIPS_HI : Nat := 0x9c
abbrev TUN_DECISIONS_LO : Nat := 0xa0
abbrev TUN_DECISIONS_HI : Nat := 0xa4
abbrev TUN_CAPTURES : Nat := 0xa8
abbrev TUN_THR_IDX : Nat := 0xac
abbrev TUN_THR_DATA : Nat := 0xb0
abbrev TUN_PHX_KEY_LO : Nat := 0xc0
abbrev TUN_PHX_KEY_HI : Nat := 0xc4
abbrev TUN_PHX_CTR_0 : Nat := 0xc8
abbrev TUN_PHX_GO : Nat := 0xd8
abbrev TUN_PHX_OUT_0 : Nat := 0xdc
abbrev TUN_RUN_STATE : Nat := 0x100
abbrev TUN_RUN_SWEEP : Nat := 0x104
abbrev TUN_RUN_BEST_BND : Nat := 0x108
abbrev TUN_RUN_SHAPE : Nat := 0x10c
abbrev TUN_BEST_EN_0 : Nat := 0x110
abbrev TUN_RUN_SEED_LO : Nat := 0x120
abbrev TUN_RUN_SEED_HI : Nat := 0x124
abbrev TUN_RUN_STOP_LO : Nat := 0x128
abbrev TUN_RUN_STOP_HI : Nat := 0x12c
abbrev TUN_KILN_BASE_LO : Nat := 0x130
abbrev TUN_KILN_BASE_HI : Nat := 0x134
abbrev TUN_EXCH_ATT : Nat := 0x138
abbrev TUN_EXCH_ACC : Nat := 0x13c
abbrev TUN_RUNG_IDX : Nat := 0x140
abbrev TUN_RUNG_ATT : Nat := 0x144
abbrev TUN_RUNG_ACC : Nat := 0x148
abbrev TUN_SPAN_STATE : Nat := 0x200
abbrev TUN_SPAN_ERR : Nat := 0x204
abbrev TUN_LOST_MASK : Nat := 0x208
abbrev TUN_VISIT : Nat := 0x20c
abbrev TUN_WINDOW_CUR : Nat := 0x210
abbrev TUN_COMPLETE_BND : Nat := 0x214
abbrev TUN_HALO_STALE_LO : Nat := 0x218
abbrev TUN_HALO_STALE_HI : Nat := 0x21c
abbrev TUN_HALO_WAIT_LO : Nat := 0x220
abbrev TUN_HALO_WAIT_HI : Nat := 0x224
abbrev TUN_WIN_SERIAL : Nat := 0x228
abbrev TUN_DROPPED_MSG : Nat := 0x22c

/-! Offsets in a region record of the governor page. -/
abbrev GRG_RG_BUDGET : Nat := 0x0
abbrev GRG_RG_DEFAULT_FIT : Nat := 0x4
abbrev GRG_RG_CONSUMED : Nat := 0x8
abbrev GRG_RG_RESERVED : Nat := 0xc
abbrev GRG_RG_LAST : Nat := 0x10
abbrev GRG_RG_SHORT : Nat := 0x14
abbrev GRG_RG_UNFIT : Nat := 0x18

/-! Offsets in a region record of the fabric page. -/
abbrev FRG_RG_RECT : Nat := 0x0
abbrev FRG_RG_QUOTA : Nat := 0x4
abbrev FRG_RG_COMMONS : Nat := 0x8
abbrev FRG_RG_HBM : Nat := 0xc
abbrev FRG_RG_ACT_RECT : Nat := 0x10
abbrev FRG_RG_STATE : Nat := 0x14
abbrev FRG_RG_EDGE_DROPS : Nat := 0x18
abbrev FRG_RG_MESH_FLITS : Nat := 0x1c

/-! Offsets in a queue record. -/
abbrev QR_Q_OWNER : Nat := 0x0
abbrev QR_Q_STATUS : Nat := 0x4
abbrev QR_Q_ARRIVED : Nat := 0x8
abbrev QR_Q_COMPLETED : Nat := 0xc
abbrev QR_Q_LATE_ARRIVAL : Nat := 0x10
abbrev QR_Q_LATE_DLV : Nat := 0x14
abbrev QR_Q_GUST : Nat := 0x18
abbrev QR_Q_INFLIGHT : Nat := 0x1c
abbrev QR_Q_CONTRACT : Nat := 0x30
abbrev QR_Q_TARGET : Nat := 0x34
abbrev QR_Q_EST : Nat := 0x38
abbrev QR_Q_GUARD : Nat := 0x3c

end Reg

/-- The offsets in a page of each _LO register of a 64-bit pair (R21); _HI lies 4 above. -/
def PageKind.pairs : PageKind → List Nat
  | .device => []
  | .counters => [0x100, 0x108, 0x110, 0x118, 0x120, 0x128, 0x130, 0x138, 0x140, 0x148, 0x150, 0x158, 0x160, 0x168, 0x170, 0x178, 0x180, 0x188, 0x190, 0x198, 0x1a0, 0x1a8, 0x1b0, 0x1b8, 0x1c0, 0x1c8, 0x1d0, 0x1d8, 0x1e0, 0x1e8, 0x1f0, 0x1f8]
  | .errors => [0x8c]
  | .boot => [0x9c]
  | .pins => []
  | .governor => [0xa0, 0xa8, 0xb8, 0xc0, 0xc8, 0xd0, 0xd8, 0xe0, 0xe8]
  | .dispatch => [0xc0, 0xe0]
  | .host => [0x88, 0x90, 0x98, 0xa0]
  | .fabric => [0xa0, 0xa8, 0xb0]
  | .memory => [0xa4, 0xac]
  | .entropy => []
  | .key => [0x118]
  | .cipher => [0x88, 0x90, 0x98]
  | .solver => [0x90, 0x98, 0xa0, 0xa8]
  | .predictor => [0x90, 0x98, 0xa0, 0xa8, 0xc0]
  | .planner => [0x90, 0x98, 0xa0, 0xa8, 0xc0]
  | .hbm => [0x90, 0x98, 0xa0, 0xb0]
  | .link => [0x90, 0x9c, 0xc0, 0xc8]
  | .gnomos => [0x90, 0x98, 0xa0, 0xa8]
  | .qpage => []
  | .tun => [0x90, 0x98, 0xa0, 0xc0, 0x120, 0x128, 0x130, 0x218, 0x220]

/-- The rows of a page kind above the common header. -/
def PageKind.rows : PageKind → List RegRow
  | .device => deviceRows
  | .counters => countersRows
  | .errors => errorsRows
  | .boot => bootRows
  | .pins => pinsRows
  | .governor => governorRows
  | .dispatch => dispatchRows
  | .host => hostRows
  | .fabric => fabricRows
  | .memory => memoryRows
  | .entropy => entropyRows
  | .key => keyRows
  | .cipher => cipherRows
  | .solver => solverRows
  | .predictor => predictorRows
  | .planner => plannerRows
  | .hbm => hbmRows
  | .link => linkRows
  | .gnomos => gnomosRows
  | .qpage => []
  | .tun => tunRows

/-- The block code of a page kind (Table 19-8). -/
def PageKind.block : PageKind → Nat
  | .device => 0
  | .counters => 0x10
  | .errors => 0xf
  | .boot => 0x11
  | .pins => 0x12
  | .governor => 8
  | .dispatch => 7
  | .host => 9
  | .fabric => 2
  | .memory => 0xa
  | .entropy => 0xc
  | .key => 0xd
  | .cipher => 0x14
  | .solver => 3
  | .predictor => 4
  | .planner => 5
  | .hbm => 0xb
  | .link => 0xe
  | .gnomos => 6
  | .qpage => 0x13
  | .tun => 1

/-- The default steward of Table 19-1: 1 is the manager. -/
def PageKind.steward : PageKind → Nat
  | .device => 1
  | .counters => 0
  | .errors => 1
  | .boot => 1
  | .pins => 1
  | .governor => 1
  | .dispatch => 0
  | .host => 0
  | .fabric => 0
  | .memory => 0
  | .entropy => 0
  | .key => 1
  | .cipher => 0
  | .solver => 0
  | .predictor => 0
  | .planner => 0
  | .hbm => 0
  | .link => 1
  | .gnomos => 0
  | .qpage => 0
  | .tun => 0

/-- The page of an index and its instance number (Table 19-1); none for an unmapped page (R976). -/
def pageOf (p : Nat) : Option (PageKind × Nat) :=
  if p = 0x000 then some (.device, 0) else if p = 0x001 then some (.counters, 0)
  else if p = 0x002 then some (.errors, 0) else if p = 0x003 then some (.boot, 0)
  else if p = 0x004 then some (.pins, 0) else if p = 0x005 then some (.governor, 0)
  else if p = 0x006 then some (.dispatch, 0) else if p = 0x007 then some (.host, 0)
  else if p = 0x008 then some (.fabric, 0) else if p = 0x009 then some (.memory, 0)
  else if p = 0x00A then some (.entropy, 0) else if p = 0x00B then some (.key, 0)
  else if p = 0x00C then some (.cipher, 0) else if p = 0x00D then some (.solver, 0)
  else if p = 0x00E then some (.predictor, 0) else if p = 0x00F then some (.planner, 0)
  else if 0x010 ≤ p ∧ p ≤ 0x013 then some (.hbm, p - 0x010)
  else if 0x018 ≤ p ∧ p ≤ 0x01F then some (.link, p - 0x018)
  else if 0x020 ≤ p ∧ p ≤ 0x027 then some (.gnomos, p - 0x020)
  else if 0x040 ≤ p ∧ p ≤ 0x05F then some (.qpage, p - 0x040)
  else if 0x100 ≤ p ∧ p ≤ 0x17F then some (.tun, p - 0x100)
  else none

/-- The page index of a page kind and instance (Table 19-1). -/
def pageIdx : PageKind → Nat → Nat
  | .device, _ => 0x000 | .counters, _ => 0x001 | .errors, _ => 0x002 | .boot, _ => 0x003
  | .pins, _ => 0x004 | .governor, _ => 0x005 | .dispatch, _ => 0x006 | .host, _ => 0x007
  | .fabric, _ => 0x008 | .memory, _ => 0x009 | .entropy, _ => 0x00A | .key, _ => 0x00B
  | .cipher, _ => 0x00C | .solver, _ => 0x00D | .predictor, _ => 0x00E | .planner, _ => 0x00F
  | .hbm, i => 0x010 + i | .link, i => 0x018 + i | .gnomos, i => 0x020 + i
  | .qpage, i => 0x040 + i | .tun, i => 0x100 + i

/-- The BAR0 offset of a register: its page and its offset in the page (R976). -/
def regAddr (k : PageKind) (inst off : Nat) : Nat := pageIdx k inst * 0x1000 + off

/-- The row of a list that holds offset o. -/
def findRow (rows : List RegRow) (o : Nat) : Option RegRow :=
  rows.find? (fun r => decide (r.off ≤ o) && decide (o < r.off + 4 * r.n))

/-- The row of the register at offset o of a page of kind k; none where the offset is unmapped. -/
def pageRow (k : PageKind) (o : Nat) : Option RegRow :=
  if o < 0x80 then findRow headerRows o
  else match k with
    | .qpage => if o < 0x880 then findRow queueRows ((o - 0x80) % 64) else none
    | .governor => if 0x200 ≤ o ∧ o < 0x400 then findRow govRegionRows ((o - 0x200) % 32)
                   else findRow governorRows o
    | .fabric => if 0x100 ≤ o ∧ o < 0x300 then findRow fabRegionRows ((o - 0x100) % 32)
                 else findRow fabricRows o
    | _ => findRow k.rows o

/-- The row of the register at a BAR0 offset; none where the page or the offset is unmapped. -/
def regRow (a : Nat) : Option RegRow :=
  match pageOf (a / 0x1000) with
  | none => none
  | some (k, _) => pageRow k (a % 0x1000)

/-- The reset value of the register at a BAR0 offset (R28): the header's per-page fields as R1010
gives them, every other register its table's value, and 0 where nothing is mapped. -/
def regReset (a : Nat) : Word :=
  match pageOf (a / 0x1000) with
  | none => 0
  | some (k, i) =>
    let o := a % 0x1000
    if o = 0 then BitVec.ofNat 32 (0x80000000 + (k.block <<< 16) + i)
    else if o = 0x1C then BitVec.ofNat 32 k.steward
    else match pageRow k o with
      | some r => BitVec.ofNat 32 r.reset
      | none => 0

/-- Whether the register at a BAR0 offset is the _LO half of a 64-bit pair (R21). -/
def isPairLo (a : Nat) : Bool :=
  match pageOf (a / 0x1000) with
  | none => false
  | some (k, _) => k.pairs.contains (a % 0x1000)

/-- Whether it is the _HI half of one. -/
def isPairHi (a : Nat) : Bool := decide (4 ≤ a) && isPairLo (a - 4)

end Sys2Proof.Machine
end

