-- ==== Sys2Proof/Machine/StateHost.lean ====
section
/-! DEFINITION. The types of the state that the register paths, the error recording, the host interface, the
dispatcher, the percentile guard and the energy governor hold (spec/00, 11, 12, 13, 19, 20). -/

namespace Sys2Proof.Machine

/-- One access path to the register pages (R977). -/
structure PathState where
  /-- Captured words of multi-word registers, keyed by the BAR0 offset of the word (R22, R216). Unlisted: no capture pending. -/
  captures : Tab (Option (List Word))
  /-- Held writes of _HI registers, keyed by the _LO register's BAR0 offset (R25). -/
  holds : Tab (Option Word)
  /-- The last value a read on this path returned. -/
  lastRead : List Word
  /-- Words that have arrived for a write and have not taken effect, by BAR0 offset, oldest first: one takes effect in an MCLK cycle
  (R984, R985). -/
  waiting : List (Nat × Word)
deriving DecidableEq, Repr

/-- What an occurrence of an event belongs to: the filters of Table 19-6 that its row has. -/
structure EvSource where
  inst : Option Nat := none
  region : Option Nat := none
  queue : Option Nat := none
deriving DecidableEq, Repr

/-- Occurrences of an event in the present MCLK cycle, with the page whose instance raises them (R997, R999). -/
structure CycleEvent where
  code : Nat
  page : Nat
  src : EvSource
  count : Nat
deriving DecidableEq, Repr

/-- An error raised and not yet recorded on its page (R1025, R1031). -/
structure RaisedError where
  page : Nat
  code : Nat
  cls : Nat
  info : Nat
  /-- The region a REGION-class error names (R1039). -/
  region : Option Nat
deriving DecidableEq, Repr

/-- An error recorded on its page that the aggregator has not taken yet (R1031, R1034). -/
structure PageRecord where
  err : RaisedError
  masked : Bool
  /-- Recorded in full under R1027: not one that squall keeps out (R1042). -/
  full : Bool
  time : Nat
deriving DecidableEq, Repr

/-- The aggregator state behind the errors page (R1034 to R1049). -/
structure Aggregator where
  raised : List RaisedError
  recorded : List PageRecord
  /-- The pages record, and the aggregator takes their records, in the present MCLK cycle (R1057, R1058). -/
  pagesDue : Bool
  aggDue : Bool
  /-- TIMEs of the counted errors, newest first, kept for 1 ms (R1041, R1045). -/
  counted : List Nat
  /-- Squall entry time E, in squall (R1041). -/
  squallEntry : Option Nat
  /-- k of the next test of R1045. -/
  squallTests : Nat
  /-- TIME at which FATAL_N was asserted (R1049). -/
  fatalAt : Option Nat
  /-- The MCLK cycle's TIME from which the records are frozen (R1037). -/
  frozenFrom : Option Nat
deriving DecidableEq, Repr

/-- I3C in-band interrupts (R996, R1044). -/
structure IbiState where
  held01 : Bool
  held02 : Bool
  lastRaised : Option Nat
  /-- Mandatory data bytes raised, newest first. -/
  raised : List Nat
deriving DecidableEq, Repr

/-- States of a queue (QDB_STATE.STATE, Table 11-9). -/
inductive QState where
  | unassigned | disabled | enabled | quiescing | draining | error | flr
deriving DecidableEq, Repr

/-- QDB_STATE.STATE's code. -/
def QState.code : QState → Nat
  | .unassigned => 0 | .disabled => 1 | .enabled => 2 | .quiescing => 3
  | .draining => 4 | .error => 5 | .flr => 6

/-- One arm slot's contents (R591, R594). -/
structure ArmSlot where
  block : List Byte
  kiln : List Byte
  tFirst : Nat
deriving DecidableEq, Repr

/-- A descriptor made visible and not fetched (R576, R598). -/
structure VisSlot where
  arrival : Nat
  /-- The slot of an inline submission, which fetch passes without reading. -/
  inline : Bool
deriving DecidableEq, Repr

/-- A miss ledger (R643). -/
structure Ledger where
  recorded : Nat
  misses : Nat
  refused : Nat
  stopped : Nat
  worst : Nat
deriving DecidableEq, Repr

/-- A queue pair (R565 to R602, R648, R652). Its Q_OWNER, contract and counters stand in the register file. -/
structure Queue where
  state : QState
  dbErr : Nat
  dbErrCount : Nat
  sqBase : Nat
  cqBase : Nat
  /-- Held _HI writes of SQ_BASE and CQ_BASE (R25). -/
  sqHold : Option Word
  cqHold : Option Word
  sqLog : Nat
  cqLog : Nat
  tS : Nat
  hS : Nat
  tC : Nat
  hC : Nat
  phase : Bool
  /-- R_q, completion slots reserved (R573). -/
  reserved : Nat
  visible : List VisSlot
  /-- The staging buffer: the valid bytes by offset (R596). -/
  staging : Tab (Option Byte)
  arms : Tab (Option ArmSlot)
  histCur : Tab Nat
  histPrev : Tab Nat
  ledCur : Ledger
  ledLast : Ledger
deriving DecidableEq, Repr

/-- A descriptor fetched and not yet taken up, with the descriptors of its chain (R581 to R584). -/
structure Fetched where
  queue : Nat
  slot : Nat
  arrival : Nat
  inline : Bool
  head : List Byte
  /-- Chain descriptors not yet joined to the head. -/
  chain : List (List Byte)
  /-- Chain descriptors joined. -/
  joined : List (List Byte)
  /-- One of them was not a CHAIN descriptor (R583). -/
  badChain : Bool
deriving DecidableEq, Repr

/-- The engines a command may go to. -/
inductive Engine where
  | tun | solver | predictor | planner
deriving DecidableEq, Repr

/-- What a job runs (Table 11-5). -/
inductive JobKind where
  | engine (e : Engine)
  | program
  | arm
  | fire
deriving DecidableEq, Repr

/-- Where a job stands between take-up and its completion record. -/
inductive JobPhase where
  /-- An ENGINE or ARM job whose payload is still being read (R588). -/
  | payload
  /-- Admitted and waiting (R641). -/
  | waiting
  /-- On the gust lane before its claim (R603, R669). -/
  | lane
  /-- Started. -/
  | running
  /-- Its outcome stands; its completion record has not been issued (R609). -/
  | done
deriving DecidableEq, Repr

/-- An in-flight job of the dispatcher pool (R635). -/
structure Job where
  entry : Nat
  /-- Take-up order (R654). -/
  order : Nat
  queue : Nat
  func : Nat
  region : Nat
  cls : Nat
  kind : JobKind
  phase : JobPhase
  inline : Bool
  gust : Bool
  slot : Nat
  tag : Nat
  arrival : Nat
  start : Nat
  deadline : Nat
  /-- Engine stop time S (R53); all-ones for none (R60). -/
  stop : Nat
  /-- Delivery allowance A (R52). -/
  allowance : Nat
  tFirst : Nat
  /-- T_first counts bytes read from host memory (R589). -/
  hostBytes : Bool
  desc : List Byte
  chain : List (List Byte)
  /-- The engine block, run block or image header read for the job. -/
  payload : List Byte
  /-- The kiln bytes of a FIRE's arm slot at take-up. -/
  kiln : List Byte
  /-- ENERGY_CEIL in µJ; none for 0xFFFF_FFFF. -/
  ceiling : Option Nat
  /-- Fit demand F_j, reservation Res_j and metered energy E_j in pJ (R685 to R687). -/
  fit : Nat
  res : Nat
  energy : Nat
  boost : Nat
  core : Option Nat
  /-- A stop cause that has taken effect: the status it gives (R66). -/
  stopping : Option Nat
  /-- A fault that ends the job whatever its commands report (R66, R72). -/
  faulted : Option Nat
  status : Nat
  resultValid : Bool
  reason : Nat
  stopCause : Nat
  appCode : Nat
deriving DecidableEq, Repr

/-- A write into a memory space: space code (Table 04-5), function, offset and bytes. -/
structure SpaceWrite where
  space : Nat
  func : Nat
  addr : Nat
  bytes : List Byte
deriving DecidableEq, Repr

/-- How an engine command ended: the result that its end makes visible (R481, R214). -/
structure CmdEnd where
  status : Nat
  valid : Bool
  reason : Nat
  stopCause : Nat
  writes : List SpaceWrite
  /-- TIME at which the command came to its end. -/
  at_ : Nat := 0
deriving DecidableEq, Repr

/-- Where an engine command stands. -/
inductive CmdPhase where
  | issued | queued | running | ended
deriving DecidableEq, Repr

/-- An engine command (R47, R331, R472): of a simple job, or issued by a core's engine slot. -/
structure Command where
  id : Nat
  engine : Engine
  job : Nat
  region : Nat
  func : Nat
  phase : CmdPhase
  /-- TIME of its issue (R331), and of the start of its work, all-ones before that. -/
  issued : Nat
  began : Nat
  block : List Byte
  /-- The kiln of an armed run block (R593). -/
  kiln : List Byte
  armed : Bool
  /-- Core and tag that issued it. -/
  core : Option (Nat × Nat)
  deadline : Nat
  stop : Nat
  /-- Bytes of host memory that it has requested and that have not arrived (R590). -/
  awaits : Nat
  ending : Option CmdEnd
deriving DecidableEq, Repr

/-- Whom a stop cause reaches: a started job, one command, or the program on a core at its halt time. -/
inductive StopTarget where
  | job (entry : Nat)
  | command (id : Nat)
  | halt (core : Nat)
deriving DecidableEq, Repr

/-- A stop cause that takes effect in the present MCLK cycle, with the status it gives (R66). -/
structure StopAsk where
  target : StopTarget
  status : Nat
deriving DecidableEq, Repr

/-- Thermal states (Table 13-5). -/
inductive Therm where
  | normal | throttle | alert | shutdown
deriving DecidableEq, Repr

/-- The energy governor, the clocks and the epoch (R675 to R721). -/
structure Governor where
  /-- Root PLL locked (R678); when not, the 100 MHz clock of R1047 runs once it has ever locked. -/
  locked : Bool
  everLocked : Bool
  refclk : Bool
  /-- Root cycles since the last CCLK edge (R675). -/
  rootPhase : Nat
  /-- CCLK edges so far, used for intervals counted in CCLK cycles. -/
  ccycles : Nat
  /-- MCLK cycles of the tick that have passed, and what has been charged to the device in it (R695). -/
  tickCycles : Nat
  tickEnergy : Nat
  tickShort : Bool
  /-- A tick that has ended: its end's TIME, its energy and whether a cycle of it counted in BUDGET_SHORT (R695). -/
  tickDue : Option (Nat × Nat × Bool)
  /-- The static charge of the present MCLK cycle, with the lull states and the ratio at its start (R681), and the consumed meters at its
  start (R703); none before the first cycle. -/
  static : Option Nat
  cDev0 : Nat
  cReg0 : Tab Nat
  /-- The TIME of the boundary that takes effect in the present MCLK cycle, and a missed one asked for in it (R702, R703). -/
  bound : Option Nat
  missAsked : Bool
  /-- Tuns that have entered lull in the present MCLK cycle (R719). -/
  lullNow : List Nat
  /-- TIME at which a pending AVS raise was asked for (R697). -/
  avsSince : Option Nat
  /-- The value of an AVS_ACK write of the present MCLK cycle (R1147). -/
  ackAsked : Option Nat
  /-- TIME at which the 40 ns gap of Table 13-4 step 3 ends. -/
  gapEnd : Option Nat
  /-- The change is the one of a warm reset, which RATIO_CHANGES does not count (R721). -/
  gapQuiet : Bool
  /-- The selection of this MCLK cycle is asked for (R641), and the check of the dispatch order has failed in it (DSP_ORDER). -/
  startAsked : Bool
  startBarred : Bool
  /-- A slower code that follows the change in progress at once (R717). -/
  slowAfter : Option Nat
  therm : Therm
  /-- TIME of the last junction sample (R699). -/
  lastSample : Nat
  /-- Sensors in an invalid episode, with their consecutive valid readings since (Table 13-9). -/
  badSensors : Tab Nat
  /-- L as sampled at the last boundary (R680). -/
  epochLen : Nat
  cDev : Nat
  resDev : Nat
  cReg : Tab Nat
  resReg : Tab Nat
  /-- The first unfit candidate and since when (R693). -/
  holdJob : Option (Nat × Nat)
  /-- SYNC_OUT is high, and the TIME it returns low (R704). -/
  syncOut : Bool
  syncOutEnd : Option Nat
  /-- SYNC_OUT is due to rise at the next SCLK edge (R704). -/
  syncOutDue : Bool
deriving DecidableEq, Repr

/-- A command of a dispatcher window whose CMD_GO write has arrived (R656), with the tag and argument of its window. -/
structure WinCmd where
  manager : Bool
  op : Nat
  queue : Nat
  tag : Nat
  boost : Nat
deriving DecidableEq, Repr

/-- PCIe configuration and flow control of the host interface (R568, R611 to R613, R70, R630), and the commands that its window
and the manager's hold. -/
structure HostIf where
  /-- VF Enable of the SR-IOV capability (R613). -/
  vfEnable : Bool
  /-- No completion record is written: GOV_PLL_UNLOCK, THERM_SHUTDOWN or AGG_FAULT (R1046). -/
  noRecords : Bool
  /-- Functions in FLR and the TIME each was received (R611, R612). -/
  flr : Tab (Option Nat)
  /-- Jobs whose completion records wait for posted credits, oldest first (R70). -/
  held : List Nat
  ideSecure : Bool
  ideBroken : Bool
  /-- Dispatcher commands that take effect in the next MCLK cycle (R656), and those of the present cycle that wait for its job start
  (R668). -/
  winNext : List WinCmd
  winNow : List WinCmd
deriving DecidableEq, Repr

end Sys2Proof.Machine
end

