-- ==== Sys2Proof/Machine/StateKey.lean ====
section
/-! DEFINITION. The types of the state of the key block, the cipher block and the JTAG port (spec/17). -/

namespace Sys2Proof.Machine

/-- What the responder answers (R876 to R880). -/
inductive Answer where
  | mctp (cmd code : Nat) (data : List Byte)
  | version (v : Nat)
  | capabilities (flags ctExponent transfer maxMsg : Nat)
  | algorithms (asym hash dhe aead schedule : Nat)
  | digests (mask : Nat) (digest : List Byte)
  | certificate (portion : List Byte) (rest : Nat)
  | challengeAuth (digest nonce sig : List Byte)
  | measurements (blocks : List (Nat × List Byte)) (nonce sig : List Byte)
  | keyExchange (session : Nat) (pub nonce sig : List Byte)
  | finished | heartbeat | keyUpdated | ended
  | ideInfo (stream sets active : Nat)
  | ideAck (op set dir sub status : Nat)
  | tenant (bytes : List Byte)
  | error (code : Nat)
deriving DecidableEq, Repr

/-- An answer sent, with the endpoint and the session it is sent on. -/
structure KeyReply where
  e : Endpoint
  session : Option Nat
  ans : Answer
deriving DecidableEq, Repr

/-- An SPDM session (R877). -/
structure Session where
  id : Nat
  e : Endpoint
  /-- FINISH has been answered. -/
  done : Bool
  /-- The x-coordinate of the shared point. -/
  secret : Nat
deriving DecidableEq, Repr

/-- What waits for bytes of the KEY channel (R837, R875). -/
inductive KeyWork where
  | lcNonce
  /-- The nonce of the bank that the first waiting tenant command writes (R884). -/
  | bank
  | challenge (toSign : List Byte)
  | measure (index : Nat) (sign : Bool) (toSign : List Byte)
  | exchange (x y : Nat) (toSign : List Byte)
  /-- A link's HELLO, RESPONSE and backoff (R941, R945, R948). -/
  | hello (link : Nat)
  | response (link : Nat)
  | backoff (link : Nat)
deriving DecidableEq, Repr

structure KeyTask where
  id : Nat
  since : Nat
  e : Endpoint
  session : Option Nat
  work : KeyWork
deriving DecidableEq, Repr

/-- A tenant key command that waits or is executed (R888). -/
structure TenantCmd where
  e : Endpoint
  session : Option Nat
  payload : List Byte
  /-- An ERASE whose bank write fails its read-back. -/
  fail : Bool
deriving DecidableEq, Repr

/-- A transition whose words are being programmed (R869): its record and the TIME of its acceptance; LC_TRANSITION of record
1 first waits for its seed. -/
structure LcRun where
  record : Nat
  seedDue : Bool
  start : Nat
deriving DecidableEq, Repr

structure KeyState where
  /-- OTP by offset (Table 17-5). -/
  otp : Tab Byte
  /-- Key banks, 2 · slot + bank (R881), and the seals counted against each (R891). -/
  store : Tab (List Byte)
  seals : Tab Nat
  lc : Option LcRun
  /-- The identity private key and public key (R873). -/
  ident : Option (Nat × Nat × Nat)
  /-- The chain of SPDM slot 0 (R874); empty for none. -/
  chain : List Byte
  sessions : List Session
  tasks : List KeyTask
  tenants : List TenantCmd
  /-- The bank write of the first tenant command is in progress: its bank and GEN. -/
  write : Option (Nat × Nat)
  /-- IDE keys by 6 · set + 3 · direction + sub-stream, and the active set plus one by 3 · direction + sub-stream (R879). -/
  ideKeys : Tab (List Byte)
  ideActive : Tab Nat
  /-- Steps 4 to 7 of R909 have been taken since the last cold reset. -/
  settled : Bool
  /-- The TIME of the last SEAL or UNSEAL that passed BAD_OP, and CIPH_GEN_USED before it (R905). -/
  goAt : Option (Nat × Nat)
  /-- Endpoint IDs of the I3C and the PCIe endpoint. -/
  eidI3c : Nat
  eidPcie : Nat
  /-- Answers sent, newest first. -/
  sent : List KeyReply
deriving DecidableEq, Repr

/-- A cipher command (R889 to R895). -/
structure CipherRun where
  openIt : Bool
  slot : Nat
  bank : Nat
  gen : Nat
  region : Nat
  srcSpace : Nat
  src : Nat
  dstSpace : Nat
  dst : Nat
  /-- B, the plaintext length. -/
  bytes : Nat
  asked : Nat
  /-- The IV, once drawn, and the TIME at which the command finishes. -/
  iv : List Byte
  ends : Option Nat
deriving DecidableEq, Repr

/-- The instruction that the TAP executes (R896). -/
inductive JtagInstr where
  | bypass | idcode | sample | extest
  | privateCode (code : Nat)
deriving DecidableEq, Repr

structure Jtag where
  instr : JtagInstr
  /-- The boundary register as preloaded, what it captured, and the levels that EXTEST drives. -/
  preload : Nat
  captured : Nat
  drive : Option Nat
deriving DecidableEq, Repr

def Jtag.reset : Jtag := { instr := .idcode, preload := 0, captured := 0, drive := none }

def KeyState.reset : KeyState :=
  { otp := [], store := [], seals := [], lc := none, ident := none, chain := [], sessions := [], tasks := [], tenants := []
    write := none, ideKeys := [], ideActive := [], settled := false, goAt := none, eidI3c := 0, eidPcie := 0, sent := [] }

end Sys2Proof.Machine
end

