-- ==== Sys2Proof/Machine/StateLink.lean ====
section
/-! DEFINITION. The types of the state of an Olzen link (spec/18). STATE, REASON, OUTCOME, CONT_RUN, NEXT_TX, EXPECTED and the
key generations stand in the registers of the link's page. -/

namespace Sys2Proof.Machine

/-- A DATA packet in the replay buffer (R929). -/
structure SentPkt where
  seq : Nat
  /-- FLAGS and payload as first sent (R936, R950). -/
  flags : Nat
  pay : List Byte
  /-- The job that its units charge (R959). -/
  job : Option Nat
  /-- It carries KEY_UPD. -/
  upd : Bool
  /-- TIME it was last sent. -/
  time : Nat
deriving DecidableEq, Repr

/-- A link message in or out (R961): its code, length, body and, on its way out, the bytes sent. -/
structure LinkMsg where
  code : Nat
  len : Nat
  body : List Byte
  off : Nat
deriving DecidableEq, Repr

structure Link where
  /-- Training phase 1 to 4, and since when; 0 when not training (Table 18-2). -/
  phase : Nat
  since : Nat
  /-- Consecutive valid TRAINs, whether any has been received, and whether the partner has echoed one. -/
  trains : Nat
  gotTrain : Bool
  echoed : Bool
  retryAt : Option Nat
  /-- Advertised buffers of the partner, and units sent and returned, by VC (R922). -/
  adv : List Nat
  sent : List Nat
  returned : List Nat
  /-- Units freed on VC 0, and the counts last sent to the partner, by VC (R923, R924). -/
  freed0 : Nat
  told : List Nat
  /-- The replay buffer, and the packets that a replay has still to resend, by sequence number. -/
  buf : List SentPkt
  resend : List Nat
  /-- Replays in a row, and the CCLK cycle in which the last one started (R939, R967). -/
  replays : Nat
  replayAt : Option Nat
  /-- TIME since which an acknowledgement is due, packets accepted since the last, and a NAK sent since E advanced (R933, R934). -/
  ackDue : Option Nat
  accepted : Nat
  nakSent : Bool
  /-- Link messages waiting on VC 0, and the message arriving. -/
  out : List LinkMsg
  inMsg : Option LinkMsg
  /-- The handshake: the TIME of HELLO, its body and secret scalar; the partner's HELLO; RESPONSEs of the window; the TIME of the window's
  close once classified; the partner's CONFIRM. -/
  opened : Option Nat
  hello : List Byte
  scalar : Nat
  peer : Option (List Byte)
  responses : List (List Byte)
  closed : Option Nat
  confirm : Option Nat
  backoffEnd : Option Nat
  /-- Key material M_g of each direction, and the packets counted under it (R949, R950). -/
  matTx : List Byte
  matRx : List Byte
  countTx : Nat
  countRx : Nat
  /-- KEY_UPD is queued or awaits acceptance (R952, R971). -/
  rotating : Bool
  /-- LEAVE has been queued, and the TIME it was sent (R957). -/
  leaveSent : Option Nat
  /-- The window's close has come in the present MCLK cycle, whose RESPONSEs still count (R973). -/
  closing : Bool
  /-- The codewords sent that carry a unit, newest first, and whether the newest one can still take a unit (R916, R917). -/
  line : List Codeword
  lineOpen : Bool
deriving DecidableEq, Repr

def Link.reset : Link :=
  { phase := 0, since := 0, trains := 0, gotTrain := false, echoed := false, retryAt := none, adv := [0, 0, 0, 0]
    sent := [0, 0, 0, 0], returned := [0, 0, 0, 0], freed0 := 0, told := [0, 0, 0, 0], buf := [], resend := [], replays := 0
    replayAt := none, ackDue := none, accepted := 0, nakSent := false, out := [], inMsg := none, opened := none, hello := []
    scalar := 0, peer := none, responses := [], closed := none, confirm := none, backoffEnd := none, matTx := [], matRx := []
    countTx := 0, countRx := 0, rotating := false, leaveSent := none, closing := false, line := [], lineOpen := false }

end Sys2Proof.Machine
end

