-- ==== Sys2Proof/Machine/StateMem.lean ====
section
/-! DEFINITION. The types of the state of the fabric, the tenant regions and the memories
(spec/14_fabric_and_regions.md, spec/15_memories.md). -/

namespace Sys2Proof.Machine

/-- The applied record of a region (R754 to R756). -/
structure RegionRec where
  rect : Word
  quota : Word
  commons : Word
  hbm : Word
deriving DecidableEq, Repr

/-- What a multicast packet of a dense sweep carries (R1154). -/
inductive McItem where
  /-- An accepted flip of a spin, by a replica in a class step. -/
  | flip (run replica cls spin src : Nat)
  /-- The end marker of a class step from a tun number. -/
  | marker (run replica cls src : Nat)
deriving DecidableEq, Repr

/-- A packet, or one copy of a multicast packet, in the fabric (R727 to R745). -/
structure Packet where
  id : Nat
  cls : PacketClass
  region : Option Nat
  /-- The source: a tun (16 · y + x), or 128 + a portal stop. -/
  src : Nat
  /-- The destination of a unicast packet, in the same numbering. -/
  dst : Nat
  /-- The destinations a multicast copy still has to reach (bit 16 · y + x). -/
  mask : Nat
  flits : Nat
  job : Option Nat
  item : Option McItem
  /-- Where it is: a router 16 · y + x, or 128 + a ring stop. -/
  loc : Nat
  /-- It has entered a VC_E (R730). -/
  escape : Bool
  /-- The input port that holds it: 0 N, 1 E, 2 S, 3 W, 4 tun, 5 and 6 portal ports; on the ring, 7 ascending
  and 8 descending. -/
  port : Nat
  /-- The CCLK cycle of its arrival there, for FAB_STUCK (R764). -/
  since : Nat
deriving DecidableEq, Repr

/-- A march in progress (R776 to R785). -/
structure March where
  kind : Nat
  inst : Nat
  start : Nat
  count : Nat
  destructive : Bool
  /-- Words completed. -/
  done : Nat
  /-- CCLK cycles at the end of the last slice (R780). -/
  sliceEnd : Option Nat
  paused : Bool
  /-- A failing row has found no free spare (R785). -/
  failed : Bool
deriving DecidableEq, Repr

/-- A sparge in progress (R787 to R792): a space (1 HBM, 2 commons), or a tun. -/
structure Sparge where
  tun : Option Nat
  space : Nat
  base : Nat
  bytes : Nat
  /-- CCLK cycles at its start. -/
  from_ : Nat
deriving DecidableEq, Repr

/-- An output port of a router (R737). -/
structure FabPort where
  /-- The first CCLK cycle in which it can pass another packet. -/
  freeAt : Nat
  /-- The input port served last and the CCLK cycle it was served in, by class (0 RSP, 1 MC, 2 REQ). -/
  last : Tab Nat
  served : Tab Nat
deriving DecidableEq, Repr

def FabPort.reset : FabPort := { freeAt := 0, last := [], served := [] }

/-- A march or sparge command that waits for the end of its MCLK cycle (R805), with the registers as they stood at its write (R801):
the operation of MARCH_CMD, or none for SPARGE_CMD. -/
structure MemAsk where
  op : Option Nat
  kind : Nat
  inst : Nat
  /-- First word and count, or base and bytes. -/
  start : Nat
  count : Nat
  /-- Failing bits that a destructive march finds, as word and bit. -/
  fails : List (Nat × Nat)
deriving DecidableEq, Repr

/-- The reply of a memory access: none where it returns an error or no data. -/
structure Reply where
  req : MemReq
  data : Option (List Byte)
deriving DecidableEq, Repr

/-- Fabric, regions and memories. -/
structure MemState where
  packets : List Packet
  nextPacket : Nat
  /-- RTR_DATA's counts, keyed by 64 · router + 8 · port + item. -/
  rtr : Tab Nat
  /-- Routers whose copy of the region table has a parity error (Table 14-5). -/
  badRouters : List Nat
  /-- Output ports, keyed by 8 · router + port, and the region commands that take effect in the next MCLK cycle (R754, R756). -/
  ports : Tab FabPort
  rgnAsks : List Word
  applied : Tab RegionRec
  /-- Requests that wait at a commons bank, and at an HBM port (R770, R797). -/
  comWait : Tab (List MemReq)
  hbmWait : Tab (List MemReq)
  /-- The replies of the last access step. -/
  replies : List Reply
  /-- Words stored with one (1) or two (2) inverted bits, keyed by memory and word (R774, R775). -/
  marks : Tab Nat
  /-- Corrected words that wait to be written back (R774). -/
  writeBacks : List Nat
  /-- Armed CORRUPT injections by page: the number of inverted bits (R1051). -/
  inject : Tab Nat
  marches : List March
  sparges : List Sparge
  asks : List MemAsk
  /-- Spare rows used, by memory (R783), and the rows mapped to them. -/
  spares : Tab Nat
  rowMap : Tab Nat
  /-- Busy port-cycles of the present HBM window, and the next patrol address by stack (R798, R799). -/
  busyCycles : Nat
  patrol : Tab Nat
deriving DecidableEq, Repr

def MemState.reset : MemState :=
  { packets := [], nextPacket := 0, rtr := [], badRouters := [], ports := [], rgnAsks := [], applied := [], comWait := [], hbmWait := []
    replies := [], marks := [], writeBacks := [], inject := [], marches := [], sparges := [], asks := [], spares := [], rowMap := []
    busyCycles := 0, patrol := [] }

end Sys2Proof.Machine
end

