-- ==== Sys2Proof/Machine/StatePlan.lean ====
section
/-! DEFINITION. The types of the state of the space-time planner (spec/08_spacetime_planner.md). -/

namespace Sys2Proof.Machine

/-- A resident grid (R402, R433): its dimensions and the classes of its cells by index. -/
structure PlanGrid where
  region : Nat
  id : Nat
  sx : Nat
  sy : Nat
  nt : Nat
  cells : Tab Nat
  /-- Inverted bits of a word stored by an armed CORRUPT and not read since (R1051). -/
  mark : Nat
deriving DecidableEq, Repr

/-- A resident primitive table (R403). -/
structure PlanTable where
  region : Nat
  addr : Nat
  data : List Byte
  /-- As that of a grid. -/
  mark : Nat
deriving DecidableEq, Repr

/-- A held state of a search (R414): its key (c, w), and its predecessor state and primitive. -/
structure PlanNode where
  x : Nat
  y : Nat
  t : Nat
  c : Nat
  w : Nat
  pred : Option (Nat × Nat × Nat × Nat)
deriving DecidableEq, Repr

/-- A search in progress: its next time step, its held states and its goal. -/
structure PlanSearch where
  t : Nat
  held : List PlanNode
  goal : Option PlanNode
deriving DecidableEq, Repr

/-- A request's result (Table 08-8), with its path. -/
structure PlanRes where
  state : Nat
  repaired : Bool
  x : Nat
  y : Nat
  t : Nat
  c : Nat
  w : Nat
  prim : Nat
  path : List Nat
  /-- Where the path stands in the path array. -/
  off : Nat
deriving DecidableEq, Repr

/-- The command that the planner holds: its arrays, the grid that an undo restores, and how far it has come. -/
structure PlanRun where
  cmd : Nat
  /-- Its arrays have been fetched and its updates have applied (R419), and TIME at which the fetch ends. -/
  loaded : Bool
  due : Nat
  grid : Nat
  table : PlanTable
  reqs : List Byte
  /-- Cells of the grid after the updates and the rip-up. -/
  base : Tab Nat
  /-- Requests still to handle, in order. -/
  todo : List Nat
  search : Option PlanSearch
  results : List PlanRes
  /-- Requests placed by this command's own work, of a REPAIR (R428). -/
  replaced : Nat
  gridLoaded : Bool
  primFetched : Bool
  lookups : Nat
  cuts : Nat
  start : Nat
  /-- The grid, and the table, are discarded when the command ends (R443). -/
  flush : Bool
deriving DecidableEq, Repr

/-- The planner: the command it holds, and its resident grids and tables, most recently used first (R405). -/
structure PlanState where
  run : Option PlanRun
  grids : List PlanGrid
  tables : List PlanTable
deriving DecidableEq, Repr

def PlanState.reset : PlanState := { run := none, grids := [], tables := [] }

end Sys2Proof.Machine
end

