-- ==== Sys2Proof/Machine/StatePred.lean ====
section
/-! DEFINITION. The types of the state of the predictor array (spec/07_predictor_array.md). -/

namespace Sys2Proof.Machine

/-- A resident weight image, with the key of R385. -/
structure Resident where
  region : Nat
  addr : Nat
  bytes : Nat
  crc : Nat
  data : List Byte
  /-- Inverted bits of a word of the image stored by an armed CORRUPT and not read since (R1051). -/
  mark : Nat
deriving DecidableEq, Repr

/-- What a row block, or the completed row blocks of a command, have come to (R361, R377). -/
structure PredTally where
  clamps : Nat
  wideClamps : Nat
  misfit : Nat
  noRerun : Nat
  /-- Blocks that re-ran. -/
  wideBlocks : Nat
  writes : Nat
  saturated : Nat
  skipped : Nat
  /-- AMAX by layer, binary32. -/
  amax : Tab Nat
  /-- Output values, row-major, binary32. -/
  out : List Nat
deriving DecidableEq, Repr

/-- Where a predictor command stands (PRD_POS.PHASE): it fetches its weights, scans its input, waits for a row block's input, makes a
pass, has made its last one, or writes grist. -/
inductive PredPhase where
  | fetch | scan | await | pass | passed | grist
deriving DecidableEq, Repr

/-- The command that the predictor array holds. Tensor elements are integers in the INT family and binary32 patterns in
the FP family. -/
structure PredRun where
  cmd : Nat
  phase : PredPhase
  /-- TIME at which the weights, the scanned input or the row block that it fetches have come (R382, R383), the row block, and the
  input words of the next one where they stand in activation SRAM. -/
  due : Nat
  want : Option Nat
  next : Option (List Nat)
  /-- The CCLK cycle in which the pass or the grist write in progress began (R381). -/
  from_ : Nat
  /-- Inverted bits of a word of activation SRAM stored by an armed CORRUPT and not read since (R1051). -/
  aMark : Nat
  image : Resident
  fetched : Bool
  /-- The scale record's rings, newest AMAX first, by layer, and its INVOCATIONS. -/
  rings : List (List Nat)
  invocations : Nat
  /-- The grist-writer block. -/
  gw : List Byte
  /-- The first grist-writer write has been made (R392). -/
  claimed : Bool
  /-- s_0, binary32. -/
  s0 : Nat
  block : Nat
  layer : Nat
  wide : Bool
  tensor : List (List Int)
  zero : List Int
  scale : Nat
  aCur : Nat
  /-- The row block in progress, and the completed ones. -/
  cur : PredTally
  total : PredTally
  rowsDone : Nat
  start : Nat
  /-- The image is discarded when the command ends (R390). -/
  flush : Bool
deriving DecidableEq, Repr

/-- The predictor array: the command it holds, and its resident images, most recently used first (R387). -/
structure PredState where
  run : Option PredRun
  resident : List Resident
deriving DecidableEq, Repr

def PredTally.zero : PredTally :=
  { clamps := 0, wideClamps := 0, misfit := 0, noRerun := 0, wideBlocks := 0, writes := 0, saturated := 0, skipped := 0
    amax := [], out := [] }

def PredState.reset : PredState := { run := none, resident := [] }

end Sys2Proof.Machine
end

