-- ==== Sys2Proof/Machine/StateSolver.lean ====
section
/-! DEFINITION. The types of the state of the solver engine (spec/06_solver_engine.md). -/

namespace Sys2Proof.Machine

/-- An iterate that a result may describe (R296): its number, its residual in binary64, and its vectors: x for LINSOLVE
and BOXQP, the duals f and g for ASSIGN; BOXQP adds its gradient. -/
structure Iterate where
  k : Nat
  rho : Nat
  x : List Nat
  g : List Nat
deriving DecidableEq, Repr

/-- The command that the engine holds, and its solver SRAM. Vectors are lists of bit patterns. -/
structure SolverRun where
  cmd : Nat
  op : Nat
  /-- Its operands have been fetched (R336). -/
  loaded : Bool
  /-- The CCLK cycle in which its step in progress began (R321). -/
  from_ : Nat
  /-- Inverted bits of a word of solver SRAM stored by an armed CORRUPT and not read since (R1051). -/
  mark : Nat
  /-- Iterates that have their residual. -/
  done : Nat
  /-- x of LINSOLVE (binary64) and BOXQP (binary32), f of ASSIGN (binary32). -/
  x : List Nat
  /-- g of ASSIGN and BOXQP; the residual r of LINSOLVE in binary64. -/
  g : List Nat
  /-- The dense matrix by rows, the scores by rows, or the upper triangle by rows: binary32. -/
  mat : List (List Nat)
  /-- b (binary64), cap, or c (binary32). -/
  vec : List Nat
  lo : List Nat
  up : List Nat
  /-- The residuals of iterate 0 and of the last iterate, in binary64. -/
  rho0 : Nat
  rho : Nat
  best : Option Iterate
  inner : Nat
  start : Nat
deriving DecidableEq, Repr

end Sys2Proof.Machine
end

