-- ==== Sys2Proof/Machine/State.lean ====
section
/-! DEFINITION. The state of the K16 and its reset value. -/

namespace Sys2Proof.Machine

/-- Why a step stops. No rule of the spec stops the K16, so this model never answers a fault. -/
inductive Fault where
  /-- Raised by no command. -/
  | none
deriving DecidableEq, Repr

/-- Why a command has no meaning. -/
inductive Refusal where
  /-- A command that has no meaning yet: raised by exec's arm alone; safe. -/
  | notModelled (mnemonic : String)
deriving DecidableEq, Repr

/-- The whole K16, with the queue of commands that wait for it. -/
structure State where
  /-- Commands waiting, first in, first out. -/
  pending : List Instr
  /-- TIME in ns (R16, R677). -/
  time : Nat
  /-- The registers of BAR0, by BAR0 offset; an unlisted register holds its reset value (R976, R28). -/
  regs : Tab Word
  hostPath : PathState
  mgrPath : PathState
  /-- The events of the present MCLK cycle, which the counters take at its end (R997, R1001). -/
  events : List CycleEvent
  /-- INT_STATUS bits set in the present MCLK cycle, by page (R1016). -/
  intSet : Tab Nat
  /-- Jobs whose completion records are issued in the present MCLK cycle, with their latencies: the guard records them at its end (R671). -/
  records : List (Job × Nat)
  /-- Manager responses queued for sending, oldest first (R992). -/
  mgrOut : List (List Byte)
  agg : Aggregator
  ibi : IbiState
  gov : Governor
  hif : HostIf
  queues : Tab Queue
  fetched : List Fetched
  jobs : List Job
  cmds : List Command
  /-- Stop causes of the present MCLK cycle, settled at its end (R66). -/
  stops : List StopAsk
  /-- Host memory by function, the commons and HBM: bytes by offset (Table 04-5). -/
  hostMem : Tab (Tab Byte)
  commons : Tab Byte
  hbm : Tab Byte
  mem : MemState
  tun : TunArray
  boot : BootState
  ent : EntState
  /-- The command that the solver engine holds (R38). -/
  solver : Option SolverRun
  pred : PredState
  plan : PlanState
  gnm : CoreArray
  key : KeyState
  /-- The command that the cipher block holds. -/
  cipher : Option CipherRun
  jtag : Jtag
  links : Tab Link
  /-- The next take-up order and command number. -/
  nextId : Nat
  /-- The model's own counter, applied to by the free values of Config. -/
  fresh : Nat
deriving DecidableEq, Repr

def PathState.reset : PathState := { captures := [], holds := [], lastRead := [], waiting := [] }
def Aggregator.reset : Aggregator :=
  { raised := [], recorded := [], pagesDue := false, aggDue := false, counted := [], squallEntry := none, squallTests := 0, fatalAt := none, frozenFrom := none }
def IbiState.reset : IbiState := { held01 := false, held02 := false, lastRaised := none, raised := [] }
def Ledger.zero : Ledger := { recorded := 0, misses := 0, refused := 0, stopped := 0, worst := 0 }
/-- A queue after each reset of the host interface page (R631, R674). -/
def Queue.reset : Queue :=
  { state := .unassigned, dbErr := 0, dbErrCount := 0, sqBase := 0, cqBase := 0, sqHold := none, cqHold := none,
    sqLog := 0, cqLog := 0, tS := 0, hS := 0, tC := 0, hC := 0, phase := false, reserved := 0, visible := [],
    staging := [], arms := [], histCur := [], histPrev := [], ledCur := Ledger.zero, ledLast := Ledger.zero }
/-- The governor after a cold reset (R678, R721). -/
def Governor.reset : Governor :=
  { locked := false, everLocked := false, refclk := true, rootPhase := 0, ccycles := 0, tickCycles := 0,
    tickEnergy := 0, tickShort := false, tickDue := none, static := none, cDev0 := 0, cReg0 := [], bound := none, missAsked := false, lullNow := [], avsSince := none, ackAsked := none, gapEnd := none, gapQuiet := false, startAsked := false, startBarred := false, slowAfter := none, therm := .normal,
    lastSample := 0, badSensors := [], epochLen := 1000000, cDev := 0, resDev := 0, cReg := [], resReg := [],
    holdJob := none, syncOut := false, syncOutEnd := none,
    syncOutDue := false }
/-- Boot and pins before RESET_N rises: no record in force, an empty flash, every pad off. The stored calibration
record is what the part holds. -/
def BootState.reset : BootState :=
  { imageOn := false, memoryOn := false, calStored := [], calNow := [], calStage := [], calBoot := [], commit := none
    flash := [], image := [], warmWaits := none, update := none, receiver := none, sensorOff := [], sensorState := []
    pldmOut := [], uartOut := [], gpioSwitch := [], tach := [], tachWindow := 0, spiDrive := false, flashRetry := false
    padsOff := true, shutdown := false, resets := [], gpioIn := 0, therm := [] }
def HostIf.reset : HostIf :=
  { vfEnable := false, noRecords := false, flr := [], held := [], ideSecure := false, ideBroken := false
    winNext := [], winNow := [] }

/-- The K16 right after a cold reset. -/
def State.reset : State :=
  { pending := [], time := 0, regs := [], hostPath := PathState.reset, mgrPath := PathState.reset, events := [], intSet := [], records := [],
    mgrOut := [], agg := Aggregator.reset, ibi := IbiState.reset, gov := Governor.reset, hif := HostIf.reset, queues := [],
    fetched := [], jobs := [], cmds := [], stops := [], hostMem := [], commons := [], hbm := [], mem := MemState.reset, tun := TunArray.reset, boot := BootState.reset, ent := EntState.reset, solver := none, pred := PredState.reset, plan := PlanState.reset, gnm := CoreArray.reset, key := KeyState.reset, cipher := none,
    jtag := Jtag.reset, links := [], nextId := 0, fresh := 0 }

end Sys2Proof.Machine
end

