-- ==== Sys2Proof/Machine/Ops.lean ====
section
/-! DEFINITION. The named operations over registers, counters, interrupts and errors. -/

namespace Sys2Proof.Machine

/-! Registers. -/

/-- The register at a BAR0 offset. -/
def State.reg (s : State) (a : Nat) : Word := Tab.get regReset s.regs a

/-- The same as a number. -/
def State.rg (s : State) (a : Nat) : Nat := (s.reg a).toNat

/-- Bits [hi:lo] of a register. -/
def State.rf (s : State) (a hi lo : Nat) : Nat := fld (s.rg a) hi lo

/-- s with the register at a BAR0 offset set: the one place where a register changes. -/
def State.setReg (s : State) (a : Nat) (w : Word) : State := { s with regs := Tab.put regReset a w s.regs }

/-- The same from a number, of which the low 32 bits count. -/
def State.wr (s : State) (a n : Nat) : State := s.setReg a (BitVec.ofNat 32 n)

/-- Set bits [hi:lo] of a register. -/
def State.wf (s : State) (a hi lo v : Nat) : State := s.wr a (setFld (s.rg a) hi lo v)

/-- A 64-bit register pair (R21). -/
def State.rg64 (s : State) (lo : Nat) : Nat := s.rg lo + (s.rg (lo + 4) <<< 32)

/-- Set a 64-bit register pair. -/
def State.wr64 (s : State) (lo n : Nat) : State := (s.wr lo n).wr (lo + 4) (n >>> 32)

/-- Advance a 32-bit counter that wraps. -/
def State.bump (s : State) (a n : Nat) : State := s.wr a (s.rg a + n)

/-- Advance a 32-bit counter that saturates. -/
def State.bumpSat (s : State) (a n : Nat) : State := s.wr a (satAdd 32 (s.rg a) n)

/-- Advance a 64-bit counter pair that wraps. -/
def State.bump64 (s : State) (lo n : Nat) : State := s.wr64 lo (s.rg64 lo + n)

/-- The BAR0 offset of a header or block register of a page index. -/
def pgReg (page off : Nat) : Nat := page * 0x1000 + off

/-- BAR0 offsets of the instance pages. -/
def tunReg (t off : Nat) : Nat := regAddr .tun t off
def hbmReg (k off : Nat) : Nat := regAddr .hbm k off
def linkReg (n off : Nat) : Nat := regAddr .link n off
def gnmReg (k off : Nat) : Nat := regAddr .gnomos k off
/-- A register of queue q's record (R621). -/
def qReg (q off : Nat) : Nat := regAddr .qpage (q / 32) (0x80 + 64 * (q % 32) + off)
/-- A register of region r's record on the governor page (Table 13-8). -/
def govRg (r off : Nat) : Nat := regAddr .governor 0 (0x200 + 32 * r + off)
/-- A register of region r's record on the fabric page (Table 14-4). -/
def fabRg (r off : Nat) : Nat := regAddr .fabric 0 (0x100 + 32 * r + off)

/-- BOOT_STATE.READY. -/
def State.ready (s : State) : Bool := s.rf Reg.BOOT_BOOT_STATE 0 0 == 1

/-- AGG_STATE.FATAL (R1046). -/
def State.fatal (s : State) : Bool := s.rf Reg.ERRP_AGG_STATE 1 1 == 1

/-- AGG_STATE.SQUALL (R1041). -/
def State.squall (s : State) : Bool := s.rf Reg.ERRP_AGG_STATE 0 0 == 1

/-- LC_STATE.PENDING_RESET (R871). -/
def State.pendingReset (s : State) : Bool := s.rf Reg.KEY_LC_STATE 5 5 == 1

/-- A page's FAILED bit, STATUS[1]. -/
def State.pageFailed (s : State) (page : Nat) : Bool := s.rf (pgReg page Reg.H_STATUS) 1 1 == 1

/-- A page's READY bit, STATUS[0]. -/
def State.pageReady (s : State) (page : Nat) : Bool := s.rf (pgReg page Reg.H_STATUS) 0 0 == 1

/-! Interrupt status (R994 to R996). -/

/-- A page is pending (R995). -/
def State.pagePending (s : State) (page : Nat) : Bool :=
  s.rg (pgReg page Reg.H_INT_STATUS) &&& s.rg (pgReg page Reg.H_INT_ENABLE) != 0

/-- Ask for an in-band interrupt with mandatory data byte 0x01 or 0x02: held until the rate allows (R996). -/
def State.askIbi (s : State) (b : Nat) : State :=
  if b = 2 then { s with ibi := { s.ibi with held02 := true } } else { s with ibi := { s.ibi with held01 := true } }

/-- The request of R996, made when a page has become pending. -/
def State.pendCheck (s : State) (page : Nat) (before : Bool) : State :=
  if s.pagePending page && !before && s.rf Reg.DEV_DEV_INT_CTRL 0 0 == 1 then s.askIbi 1 else s

/-- Set bits of a page's INT_STATUS (R994, R996). -/
def State.setInt (s : State) (page mask : Nat) : State :=
  let before := s.pagePending page
  ({ s with intSet := Tab.upd (fun _ => 0) page (· ||| mask) s.intSet }.wr (pgReg page Reg.H_INT_STATUS)
    (s.rg (pgReg page Reg.H_INT_STATUS) ||| mask)).pendCheck page before

/-! Event counting (R997 to R1003). -/

/-- Add n to page counter k of a page, with the wrap of R1000. -/
def State.addCtr (s : State) (page k n : Nat) : State :=
  let a := pgReg page (Reg.H_CTR_0 + 4 * k)
  let t := s.rg a + n
  let s := s.wr a t
  if t < 0x100000000 then s else s.setInt page 2

/-- Count n occurrences of an event in a page's four counters (R997). -/
def State.countPage (s : State) (page code n : Nat) : State :=
  if s.rf (pgReg page Reg.H_CTRL) 0 0 = 1 then s
  else (List.range 4).foldl (fun s k =>
    let e := s.rg (pgReg page (Reg.H_EVSEL_0 + 4 * k))
    if bit e 31 && fld e 15 0 == code then s.addCtr page k n else s) s

/-- Whether a GSEL value's filter passes an occurrence (Table 19-7, R1002). -/
def EvSource.passes (e : EvSource) (g : Nat) : Bool :=
  let v := fld g 25 16
  match fld g 29 28 with
  | 0 => true
  | 1 => e.inst == some v
  | 2 => e.region == some v
  | _ => e.queue == some v

/-- Count n occurrences of an event in the global counters (R1001 to R1003). -/
def State.countGlobal (s : State) (code n : Nat) (e : EvSource) : State :=
  if s.rf Reg.CNT_GBANK_CTRL 0 0 = 1 then s
  else (List.range 16).foldl (fun s k =>
    let g := s.rg (Reg.CNT_GSEL_0 + 4 * k)
    if bit g 31 && fld g 15 0 == code && e.passes g then
      let a := Reg.CNT_GCTR_0_LO + 8 * k
      let t := s.rg64 a + n
      let s := s.wr64 a t
      if t < 0x10000000000000000 then s
      else s.wr Reg.CNT_GBANK_STATUS (s.rg Reg.CNT_GBANK_STATUS ||| (1 <<< k))
    else s) s

/-- n occurrences of an event code, raised in this MCLK cycle by a page's instance (R999). Code 0 counts nothing. -/
def State.event (s : State) (code page : Nat) (e : EvSource := {}) (n : Nat := 1) : State :=
  if code = 0 || n = 0 then s
  else { s with events := s.events ++ [{ code := code, page := page, src := e, count := n }] }

/-- Occurrences of an event in the counters: those of the page whose instance raises it, of its queue's QPAGE where the event has a Q
filter (R999), and the global ones. -/
def State.countEvent (s : State) (e : CycleEvent) : State :=
  let s := s.countPage e.page e.code e.count
  let s := match e.src.queue with
    | some q => s.countPage (pageIdx .qpage (q / 32)) e.code e.count
    | none => s
  s.countGlobal e.code e.count e.src

/-- The counters take the events of the cycle, under the selections that hold at its end (R997, R1001, R1018). -/
def State.counted (s : State) : State := s.events.foldl State.countEvent { s with events := [] }

/-! Errors (R1022 to R1031, Table 20-3). -/

/-- The severity class of an error code (Table 20-3). kind is INFO's KIND for MARCH_REPAIR, and none for
an injected one, which R1151 makes DEGRADED. Class 0 is a code that Table 20-3 does not list. -/
def errClass (code : Nat) (kind : Option Nat) : Nat :=
  if code = 0x0F1F then 6
  else if code % 0x100 = 0x1F ∧ code / 0x100 ≤ 0x14 then 5
  else if code = 0x0A04 then
    match kind with
    | some 0 => 4 | some 1 => 4
    | _ => 5
  else if [0x0101, 0x0201, 0x0301, 0x0401, 0x0501, 0x0601, 0x0A01, 0x0B01, 0x0B03, 0x0E01, 0x0E02].contains code then 1
  else if [0x0701, 0x0703, 0x0802, 0x0803, 0x0804, 0x0901, 0x0C01, 0x0C02, 0x0C06, 0x0D01, 0x0D04, 0x0E03, 0x0E04,
    0x0E05, 0x0E06, 0x0E07, 0x0E08, 0x1101].contains code then 2
  else if [0x0102, 0x0103, 0x0104, 0x0202, 0x0204, 0x0302, 0x0304, 0x0402, 0x0403, 0x0404, 0x0405, 0x0502, 0x0503,
    0x0504, 0x0602, 0x0603, 0x0702, 0x0902, 0x0904, 0x0A02, 0x0B02, 0x0D05, 0x1401].contains code then 3
  else if [0x0105, 0x0106, 0x0203, 0x0604].contains code then 4
  else if [0x0205, 0x0206, 0x0303, 0x0406, 0x0505, 0x0903, 0x0C05, 0x0D02, 0x0D03, 0x0D06].contains code then 5
  else if [0x0801, 0x0A03, 0x0B04, 0x0B05, 0x0C03, 0x0C04, 0x0F01, 0x1201].contains code then 6
  else 0

/-- Raise an error on a page (R1025, R1031): it waits for its recording. -/
def State.raiseErr (s : State) (page code info : Nat) (region : Option Nat := none) : State :=
  let kind := if code = 0x0A04 then some (info / 256) else none
  { s with agg := { s.agg with raised := s.agg.raised ++
      [{ page := page, code := code, cls := errClass code kind, info := info, region := region }] } }

/-! Tables of queues, jobs and commands. -/

def State.queue (s : State) (q : Nat) : Queue := Tab.get (fun _ => Queue.reset) s.queues q

def State.setQueue (s : State) (q : Nat) (v : Queue) : State :=
  { s with queues := Tab.put (fun _ => Queue.reset) q v s.queues }

def State.updQueue (s : State) (q : Nat) (f : Queue → Queue) : State := s.setQueue q (f (s.queue q))

def State.job (s : State) (e : Nat) : Option Job := s.jobs.find? (fun j => j.entry == e)

def State.updJob (s : State) (e : Nat) (f : Job → Job) : State :=
  { s with jobs := s.jobs.map (fun j => if j.entry == e then f j else j) }

def State.cmd (s : State) (i : Nat) : Option Command := s.cmds.find? (fun c => c.id == i)

def State.updCmd (s : State) (i : Nat) (f : Command → Command) : State :=
  { s with cmds := s.cmds.map (fun c => if c.id == i then f c else c) }

/-- Q_OWNER fields (Table 11-10). -/
def State.qOwner (s : State) (q : Nat) : Nat := s.rg (qReg q Reg.QR_Q_OWNER)
def State.qAssigned (s : State) (q : Nat) : Bool := bit (s.qOwner q) 31
def State.qClass (s : State) (q : Nat) : Nat := fld (s.qOwner q) 25 24
def State.qFunc (s : State) (q : Nat) : Nat := fld (s.qOwner q) 21 16
def State.qRegion (s : State) (q : Nat) : Nat := fld (s.qOwner q) 11 8

end Sys2Proof.Machine
end

