-- ==== Sys2Proof/Machine/Energy.lean ====
section
/-! DEFINITION. The energy meters: charges, reservations, budgets and the energy-fit test
(spec/13_clocks_epochs_governor.md, R681 to R692). -/

namespace Sys2Proof.Machine

/-- The charge scale s of a ratio code (Table 13-2). -/
def chargeScale (code : Nat) : Nat :=
  match code with
  | 0 => 256 | 1 => 205 | 2 => 172 | _ => 128

/-- The CCLK divider of a ratio code (Table 13-2). -/
def cclkDiv (code : Nat) : Nat :=
  match code with
  | 0 => 4 | 1 => 5 | 2 => 6 | _ => 8

/-- The ratio code in force, CLK_STATE.RATIO. -/
def State.ratio (s : State) : Nat := s.rf Reg.GOV_CLK_STATE 1 0

/-- A scaled charge of Table 13-3 at the ratio in force (R681). -/
def State.scaled (s : State) (base : Nat) : Nat := base * chargeScale s.ratio / 256

/-- The consumed meter of a region (R683). -/
def Governor.reg (g : Governor) (r : Nat) : Nat := Tab.get (fun _ => 0) g.cReg r
def Governor.res (g : Governor) (r : Nat) : Nat := Tab.get (fun _ => 0) g.resReg r

/-- A charge to the device alone. -/
def State.chargeDev (s : State) (c : Nat) : State :=
  { s with gov := { s.gov with cDev := s.gov.cDev + c, tickEnergy := s.gov.tickEnergy + c } }

/-- A charge c to job e (R687): it first uses up the job's reservation. -/
def State.chargeJob (s : State) (e c : Nat) : State :=
  match s.job e with
  | none => s.chargeDev c
  | some j =>
    let d := Nat.min c j.res
    let s := s.updJob e (fun j => { j with res := j.res - d, energy := j.energy + c })
    { s with gov := { s.gov with
        resDev := s.gov.resDev - d
        resReg := Tab.put (fun _ => 0) j.region (s.gov.res j.region - d) s.gov.resReg
        cDev := s.gov.cDev + c
        tickEnergy := s.gov.tickEnergy + c
        cReg := Tab.put (fun _ => 0) j.region (s.gov.reg j.region + c) s.gov.cReg } }

/-- A charge to a job where there is one, else to the device alone. -/
def State.charge (s : State) (e : Option Nat) (c : Nat) : State :=
  match e with
  | some j => s.chargeJob j c
  | none => s.chargeDev c

/-- The aligned 64-byte lines that B bytes from address a touch (R1157). -/
def lines64 (a b : Nat) : Nat := if b = 0 then 0 else (a + b - 1) / 64 - a / 64 + 1

/-- B_dev (R684), in pJ. -/
def State.bDev (s : State) : Nat := s.rf Reg.GOV_BUDGET 9 0 * s.gov.epochLen * 1000

/-- B_reg (R684): none for a region with no cap. -/
def State.bReg (s : State) (r : Nat) : Option Nat :=
  let b := s.rg (govRg r Reg.GRG_RG_BUDGET)
  if b = allOnes32 then none else some (b * 1000000)

/-- F_j fits the remaining budgets (R688, R689). -/
def State.fits (s : State) (j : Job) : Bool :=
  decide (j.fit + s.gov.cDev + s.gov.resDev ≤ s.bDev) &&
  match s.bReg j.region with
  | none => true
  | some b => decide (j.fit + s.gov.reg j.region + s.gov.res j.region ≤ b)

/-- F_j exceeds the device's remaining budget: R_dev < F_j (R693). -/
def State.unfitDev (s : State) (j : Job) : Bool := decide (s.bDev < j.fit + s.gov.cDev + s.gov.resDev)

/-- F_j can never fit (R690). -/
def State.unfitEver (s : State) (j : Job) : Bool :=
  decide (s.bDev < j.fit) ||
  match s.bReg j.region with
  | none => false
  | some b => decide (b < j.fit)

/-- F_j of a descriptor (R685), in pJ. -/
def State.fitDemand (s : State) (kind : JobKind) (ceil : Option Nat) (region : Nat) : Nat :=
  match kind with
  | .arm => 0
  | _ =>
    match ceil with
    | some c => c * 1000000
    | none => s.rg (govRg region Reg.GRG_RG_DEFAULT_FIT) * 1000000

/-- Reserve F_j for a job that starts (R686). -/
def State.reserve (s : State) (e : Nat) : State :=
  match s.job e with
  | none => s
  | some j =>
    let s := s.updJob e (fun j => { j with res := j.fit })
    { s with gov := { s.gov with
        resDev := s.gov.resDev + j.fit
        resReg := Tab.put (fun _ => 0) j.region (s.gov.res j.region + j.fit) s.gov.resReg } }

/-- Release what is left of a reservation (R687). -/
def State.release (s : State) (e : Nat) : State :=
  match s.job e with
  | none => s
  | some j =>
    let s := s.updJob e (fun j => { j with res := 0 })
    { s with gov := { s.gov with
        resDev := s.gov.resDev - j.res
        resReg := Tab.put (fun _ => 0) j.region (s.gov.res j.region - j.res) s.gov.resReg } }

/-- The ENERGY field of a completion record (R692), in µJ. -/
def Job.energyField (j : Job) : Nat := Nat.min (ceilDiv j.energy 1000000) allOnes32

end Sys2Proof.Machine
end

