-- ==== Sys2Proof/Machine/Status.lean ====
section
/-! DEFINITION. The status codes of Tables 11-8, 12-5, 13-6 and 20-4 and their order in one cycle (R66). -/

namespace Sys2Proof.Machine.St

abbrev OK : Nat := 0x0000
abbrev MISFIT_WIDE : Nat := 0x0001
abbrev PARTNER_LOST : Nat := 0x0002
abbrev ZERO_LENGTH : Nat := 0x0010
abbrev DEADLINE : Nat := 0x0011
abbrev ENERGY_CEILING : Nat := 0x0012
abbrev CANCELLED : Nat := 0x0013
abbrev LATE_ON_ARRIVAL : Nat := 0x0014
abbrev DRAINING : Nat := 0x0015
abbrev BUSY : Nat := 0x0016
abbrev NOT_READY : Nat := 0x0017
abbrev NO_GRIST : Nat := 0x0018
abbrev RSVD_NONZERO : Nat := 0x0020
abbrev DESC_INVALID : Nat := 0x0021
abbrev GRIST_INVALID : Nat := 0x0022
abbrev RUN_INVALID : Nat := 0x0023
abbrev EXT_INVALID : Nat := 0x0024
abbrev SOLVE_INVALID : Nat := 0x0025
abbrev PRED_INVALID : Nat := 0x0026
abbrev PLAN_INVALID : Nat := 0x0027
abbrev PROGRAM_INVALID : Nat := 0x0028
abbrev TUN_FAULT : Nat := 0x0030
abbrev SOLVER_FAULT : Nat := 0x0031
abbrev PREDICTOR_FAULT : Nat := 0x0032
abbrev PLANNER_FAULT : Nat := 0x0033
abbrev PROGRAM_FAULT : Nat := 0x0034
abbrev CORE_FAULT : Nat := 0x0035
abbrev MEMORY_FAULT : Nat := 0x0100
abbrev DEVICE_FAULT : Nat := 0x0101
abbrev NO_QUOTA : Nat := 0x0200
abbrev POOL_FULL : Nat := 0x0201
abbrev ENERGY_UNFIT : Nat := 0x0210

/-- A fault status (Table 20-4 and the engines' fault statuses). -/
def isFault (st : Nat) : Bool :=
  (decide (TUN_FAULT ≤ st) && decide (st ≤ CORE_FAULT)) || st == MEMORY_FAULT || st == DEVICE_FAULT

/-- The status of a stop (Table 01-6). -/
def isStop (st : Nat) : Bool := st == DEADLINE || st == ENERGY_CEILING || st == CANCELLED

/-- The place of a status in the order of R66: the least prevails in one MCLK cycle. -/
def rank (st : Nat) : Nat :=
  if st = DEADLINE then 2 else if st = ENERGY_CEILING then 3 else if st = CANCELLED then 4
  else if st = OK ∨ st = MISFIT_WIDE then 1 else 0

end Sys2Proof.Machine.St
end

