-- ==== Sys2Proof/Machine/Jobs.lean ====
section
/-! DEFINITION. The in-flight pool: deadlines and allowances, feasibility, the ending of jobs, and their
completion records (spec/01, 11 and 12). -/

namespace Sys2Proof.Machine

/-- The delivery allowance of a result area of b bytes in a space (R52, Table 01-4). -/
def allowance (space b : Nat) : Nat :=
  if space = 0 then 1000 + 5 * ceilDiv b 80 else 200 + 5 * ceilDiv b 320

/-- S = D − M − A (R53), all-ones where there is no deadline (R60), and 0 where the difference is negative, so
that it has passed at every TIME. -/
def stopTime (d m a : Nat) : Nat := if d = allOnes64 then allOnes64 else d - (m + a)

/-- The engine stop margin M of every engine (R51). -/
abbrev engineMargin : Nat := 2000

/-- t + T_first ≤ S for a job (R56, R60), with extra ns of T_first for ingress and wake (R589, R709). -/
def feasibleAt (t : Nat) (deadline margin allow tFirst extra : Nat) : Bool :=
  decide (deadline = allOnes64) || decide (t + tFirst + extra + margin + allow ≤ deadline)

/-- The margin M of a job (R51). -/
def Job.margin (j : Job) : Nat :=
  match j.kind with
  | .program => leAt j.desc 0x40 4
  | _ => engineMargin

/-- HOST_INGRESS_BACKLOG (R590). -/
def State.backlog (s : State) : Nat := s.rg64 Reg.HOST_HOST_INGRESS_BACKLOG_LO

/-- Host-memory read bytes requested (R590). -/
def State.addBacklog (s : State) (b : Nat) : State := s.wr64 Reg.HOST_HOST_INGRESS_BACKLOG_LO (s.backlog + b)

/-- Host-memory read bytes that were requested are no longer awaited (R590). -/
def State.backlogLess (s : State) (b : Nat) : State := s.wr64 Reg.HOST_HOST_INGRESS_BACKLOG_LO (s.backlog - b)

/-- A command requests bytes of host memory, and they have arrived or are no longer awaited (R590). -/
def State.await (s : State) (id n : Nat) : State :=
  if n = 0 then s else (s.addBacklog n).updCmd id (fun c => { c with awaits := c.awaits + n })
def State.arrived (s : State) (id : Nat) : State :=
  match s.cmd id with
  | some c => if c.awaits = 0 then s else (s.backlogLess c.awaits).updCmd id (fun c => { c with awaits := 0 })
  | none => s

/-- W of R589 for a job. -/
def State.ingress (s : State) (hostBytes : Bool) : Nat := if hostBytes then ceilDiv s.backlog 16 else 0

/-- σ_j's subtrahend: t + T_first + W (R653). -/
def State.jobNeed (s : State) (j : Job) : Nat := j.tFirst + s.ingress j.hostBytes

/-- The event source of a job: its region and queue. -/
def Job.ev (j : Job) : EvSource := { region := some j.region, queue := some j.queue }

abbrev pgDispatch : Nat := 0x006
abbrev pgHost : Nat := 0x007
abbrev pgGovernor : Nat := 0x005

/-- The outcome of a job stands: it waits for its completion record (R609). A job whose outcome stands
already keeps it, and a fault that has reached it prevails (R66). -/
def State.finishJob (s : State) (e status : Nat) (valid : Bool) (reason cause app : Nat) : State :=
  match s.job e with
  | none => s
  | some j =>
    if j.phase = .done then s
    else match (if St.isFault status then none else j.faulted) with
      | some st => s.updJob e (fun j => { j with
          phase := .done, status := st, resultValid := false, reason := 0, stopCause := cause, appCode := app })
      | none => s.updJob e (fun j => { j with
          phase := .done, status := status, resultValid := valid, reason := reason, stopCause := cause, appCode := app })

/-- A job that completes with a bare status: no result, no reason (R45, R640, R657, …). -/
def State.refuseJob (s : State) (e status : Nat) : State := s.finishJob e status false 0 0 0

/-- The completion record of a job (Table 11-7). -/
def completionBytes (j : Job) (phase late : Bool) (sqHead ret : Nat) : List Byte :=
  let flags := b2n phase + 2 * b2n j.resultValid + 4 * b2n late + 8 * b2n j.gust + 16 * b2n j.inline
  let tag := j.tag
  natLE 8 tag ++ natLE 2 j.status ++ natLE 2 flags ++ natLE 2 j.slot ++ natLE 2 sqHead ++
  natLE 1 j.reason ++ natLE 1 j.stopCause ++ natLE 2 j.appCode ++ natLE 4 j.energyField ++
  natLE 8 j.arrival ++ natLE 8 j.start ++ natLE 8 ret ++ natLE 2 j.queue ++ natLE 14 0

/-- Record a stop cause against a started job (R62): the first to take effect stands. -/
def Job.noteStop (j : Job) (status : Nat) : Job := { j with stopping := j.stopping.orElse (fun _ => some status) }

/-- A stop cause takes effect in this MCLK cycle. It is settled at the cycle's end, when every end of the cycle's own work
and every fault is in, so that R66 orders them. -/
def State.askStop (s : State) (t : StopTarget) (status : Nat) : State :=
  let a : StopAsk := { target := t, status := status }
  if s.stops.contains a then s else { s with stops := s.stops ++ [a] }

/-- The pool entries in use among 0 to 4,095 (R635). -/
def State.poolUsed (s : State) : Nat := countWhere (fun j => decide (j.entry < 4096)) s.jobs

/-- The lowest free pool entry: fetch takes entries 0 to 4,031, an inline submission any, the 64 reserved ones
last (R635, R636, R638). -/
def State.freeEntry (s : State) (inline : Bool) : Option Nat :=
  (List.range (if inline then 4096 else 4032)).find? (fun e => s.jobs.all (fun j => j.entry != e))

/-- The free completion slots of a queue (R573). -/
def Queue.freeSlots (q : Queue) : Nat :=
  let n := 1 <<< q.cqLog
  (n - 1) - ((q.tC + n - q.hC) % n) - q.reserved

/-- Jobs taken up and not completed, for Q_INFLIGHT. -/
def State.inflight (s : State) (q : Nat) : Nat := countWhere (fun j => j.queue == q) s.jobs

end Sys2Proof.Machine
end

