-- ==== Sys2Proof/Machine/Mem.lean ====
section
/-! DEFINITION. Regions and their windows, the memory spaces, their error correction, and the accesses that
engines, cores, banks and ports make (spec/14_fabric_and_regions.md R746 to R753, spec/15_memories.md). -/

namespace Sys2Proof.Machine

abbrev pgFabric : Nat := 0x008
abbrev pgMemory : Nat := 0x009
/-- The page of an HBM stack. -/
def pgHbm (k : Nat) : Nat := 0x010 + k

/-! Regions (R746 to R753). -/

def RegionRec.zero : RegionRec := { rect := 0, quota := 0, commons := 0, hbm := 0 }

/-- Region r's applied record. -/
def State.rgn (s : State) (r : Nat) : RegionRec := Tab.get (fun _ => RegionRec.zero) s.mem.applied r

/-- RG_RECT fields (Table 14-4). -/
def rectEn (w : Nat) : Bool := bit w 31
def rectX0 (w : Nat) : Nat := fld w 3 0
def rectY0 (w : Nat) : Nat := fld w 6 4
def rectX1 (w : Nat) : Nat := fld w 11 8
def rectY1 (w : Nat) : Nat := fld w 14 12

/-- A tun 16 · y + x lies in an enabled rectangle (R746). -/
def rectHas (w t : Nat) : Bool :=
  rectEn w && decide (rectX0 w ≤ t % 16) && decide (t % 16 ≤ rectX1 w) && decide (rectY0 w ≤ t / 16) && decide (t / 16 ≤ rectY1 w)

def State.rgnEnabled (s : State) (r : Nat) : Bool := decide (r < 16) && rectEn (s.rgn r).rect.toNat
def State.inRegion (s : State) (r t : Nat) : Bool := decide (r < 16) && rectHas (s.rgn r).rect.toNat t

/-- The region of a tun (R747). -/
def State.tunRegion (s : State) (t : Nat) : Option Nat := (List.range 16).find? (fun r => s.inRegion r t)

/-- The tuns of a rectangle word. -/
def rectTuns (w : Nat) : List Nat := (List.range 128).filter (rectHas w)

/-- The tuns of a rectangle given by its corners. -/
def boxTuns (x0 y0 x1 y1 : Nat) : List Nat :=
  (List.range 128).filter (fun t => decide (x0 ≤ t % 16) && decide (t % 16 ≤ x1) && decide (y0 ≤ t / 16) && decide (t / 16 ≤ y1))

/-- Quotas of a region (R751): engines, and the core mask. -/
def State.quota (s : State) (r : Nat) (e : Engine) : Nat :=
  let w := (s.rgn r).quota.toNat
  match e with
  | .solver => fld w 20 16 | .predictor => fld w 12 8 | .planner => fld w 4 0 | .tun => 0
def State.coreMask (s : State) (r : Nat) : Nat := fld (s.rgn r).quota.toNat 31 24

/-- The space codes of Table 04-5. -/
abbrev spHost : Nat := 0
abbrev spHbm : Nat := 1
abbrev spCom : Nat := 2

/-- Sizes of the HBM and commons spaces (R793, Table 15-1). -/
abbrev hbmSize : Nat := 0x1800000000
abbrev comSize : Nat := 0x2000000

/-- First address and end of region r's window in a space (R748). -/
def State.window (s : State) (r space : Nat) : Nat × Nat :=
  if s.rgnEnabled r = false then (0, 0)
  else if space = spHbm then
    let w := (s.rgn r).hbm.toNat
    (fld w 8 0 <<< 28, (fld w 8 0 + fld w 24 16) <<< 28)
  else if space = spCom then
    let w := (s.rgn r).commons.toNat
    (fld w 9 0 <<< 16, (fld w 9 0 + fld w 25 16) <<< 16)
  else (0, 0)

/-- An area of n bytes at a lies inside the space a job of region r names (R750). Host memory is governed by
the function. -/
def State.areaIn (s : State) (r space a n : Nat) : Bool :=
  if space = spHost then decide (a + n ≤ 1 <<< 64)
  else
    let w := s.window r space
    decide (space < 3) && decide (w.1 < w.2) && decide (w.1 ≤ a) && decide (a + n ≤ w.2)

/-! Words, and the marks of stored errors (R766, R768, R774, R775, R793, R1150). -/

/-- The name of a memory: KIND of Table 15-4 (8 for HBM) and the instance. -/
def memKey (kind inst : Nat) : Nat := kind * 256 + inst

/-- The mark key of word w of a memory. -/
def markKey (mem w : Nat) : Nat := (mem <<< 40) + w

/-- Bank and bank word of a commons offset (R768). -/
def comBank (o : Nat) : Nat := (o >>> 6) % 32
def comBankWord (o : Nat) : Nat := ((o >>> 11) <<< 3) + ((o >>> 3) &&& 7)

/-- The commons offset of a bank word. -/
def comOffset (bank w : Nat) : Nat := ((w >>> 3) <<< 11) + (bank <<< 6) + ((w &&& 7) <<< 3)

/-- Stack, port and channel of an HBM address (R793). -/
def hbmStack (a : Nat) : Nat := (a >>> 8) % 4
def hbmPort (a : Nat) : Nat := ((a >>> 8) / 4) % 4
def hbmChannel (a : Nat) : Nat := 4 * hbmPort a + ((a >>> 8) / 16) % 4

/-- The mark key of the word that holds byte a of a space. -/
def spaceMark (space a : Nat) : Nat :=
  if space = spHbm then markKey (memKey 8 0) (a >>> 3) else markKey (memKey 2 (comBank a)) (comBankWord a)

/-- Inverted bits stored in a word: 0, 1, or 2 and more (uncorrectable). -/
def State.mark (s : State) (k : Nat) : Nat := Tab.get (fun _ => 0) s.mem.marks k
def State.setMark (s : State) (k n : Nat) : State :=
  { s with mem := { s.mem with marks := Tab.put (fun _ => 0) k n s.mem.marks,
                               writeBacks := s.mem.writeBacks.filter (fun x => x != k) } }

/-- The words of an area, by the address of their first byte. -/
def areaWords (a n : Nat) : List Nat :=
  if n = 0 then [] else (List.range ((a + n - 1) / 8 - a / 8 + 1)).map (fun i => (a / 8 + i) * 8)

/-- The data bytes of a space. -/
def State.spaceBytes (s : State) (space func a n : Nat) : List Byte :=
  if space = spHost then Tab.getList (fun _ => 0) (Tab.get (fun _ => []) s.hostMem func) a n
  else if space = spHbm then Tab.getList (fun _ => 0) s.hbm a n
  else Tab.getList (fun _ => 0) s.commons a n

/-- Put bytes into a space, with no other effect. -/
def State.putBytes (s : State) (space func a : Nat) (bs : List Byte) : State :=
  if space = spHost then
    { s with hostMem := Tab.upd (fun _ => []) func (Tab.putList (fun _ => 0) a bs) s.hostMem }
  else if space = spHbm then { s with hbm := Tab.putList (fun _ => 0) a bs s.hbm }
  else { s with commons := Tab.putList (fun _ => 0) a bs s.commons }

/-- An area of the commons or HBM holds an uncorrectable word. -/
def State.areaBad (s : State) (space a n : Nat) : Bool :=
  space != spHost && (areaWords a n).any (fun w => decide (2 ≤ s.mark (spaceMark space w)))

/-- Read n bytes on behalf of a region (R744, R750, R775, R796): none outside its windows or at an uncorrectable
word. -/
def State.readSpace (s : State) (region func space a n : Nat) : Option (List Byte) :=
  if s.areaIn region space a n = false ∨ s.areaBad space a n then none else some (s.spaceBytes space func a n)

def State.hostRead (s : State) (func a n : Nat) : List Byte := s.spaceBytes spHost func a n
def State.hostWrite (s : State) (func a : Nat) (bs : List Byte) : State := s.putBytes spHost func a bs

/-- Record a corrected or uncorrectable word of a space found by a read (Table 15-7, R774, R794, R796). -/
def State.noteWord (s : State) (space w : Nat) : State :=
  let k := spaceMark space w
  let m := s.mark k
  if m = 0 then s
  else if space = spHbm then
    let st := hbmStack w
    let s := (s.wr64 (hbmReg st Reg.HBM_LAST_ERR_ADDR_LO) w).wr (hbmReg st Reg.HBM_LAST_ERR)
      ((Nat.min m 2 <<< 30) + hbmChannel w)
    if m = 1 then
      let s := ((s.bump (hbmReg st Reg.HBM_HBM_CE) 1).event 0x0B02 (pgHbm st) { inst := some st }).raiseErr (pgHbm st) 0x0B01 (w >>> 6)
      { s with mem := { s.mem with writeBacks := s.mem.writeBacks ++ [k] } }
    else ((s.bump (hbmReg st Reg.HBM_HBM_UE) 1).event 0x0B03 (pgHbm st) { inst := some st }).raiseErr (pgHbm st) 0x0B02 (w >>> 6)
  else
    let b := comBank w
    if m = 1 then
      let s := ((s.bump Reg.MEM_COMMONS_CE 1).event 0x0A01 pgMemory { inst := some b }).raiseErr pgMemory 0x0A01 (w >>> 3)
      { s with mem := { s.mem with writeBacks := s.mem.writeBacks ++ [k] } }
    else ((s.bump Reg.MEM_COMMONS_UE 1).event 0x0A02 pgMemory { inst := some b }).raiseErr pgMemory 0x0A02 (w >>> 3)

/-- The region of a job, for event filters. -/
def State.evJob (s : State) (job : Option Nat) : Option Nat := (job.bind s.job).map (·.region)

/-- The aligned 64-byte lines of an access, by stack. -/
def stackLines (a n st : Nat) : Nat :=
  countWhere (fun i => hbmStack ((a / 64 + i) * 64) == st) (List.range (lines64 a n))

/-- Bytes of an access that lie in a stack. -/
def stackBytes (a n st : Nat) : Nat :=
  countWhere (fun i => hbmStack (a + i) == st) (List.range n)

/-- What a read of n bytes counts, charges and finds (R1157, Table 13-3, Table 15-6, R590). -/
def State.noteRead (s : State) (job : Option Nat) (space a n : Nat) : State :=
  if n = 0 then s
  else if space = spHost then (s.charge job (512 * lines64 a n)).bump64 Reg.HOST_INGRESS_BYTES_LO n
  else
    let s := (areaWords a n).foldl (fun s w => s.noteWord space w) s
    if space = spHbm then
      let r := s.evJob job
      let s := s.charge job (1024 * lines64 a n)
      (List.range 4).foldl (fun s st =>
        (s.bump64 (hbmReg st Reg.HBM_RD_BYTES_LO) (stackBytes a n st)).event 0x0B00 (pgHbm st)
          { inst := some st, region := r } (stackLines a n st)) s
    else s

/-- Store one word's share of a write (R1150, R795, R1051): a partial write of an uncorrectable word leaves it as it
was and is recorded; any other write gives fresh check bits, or the armed injection. -/
def State.storePart (s : State) (space func w lo : Nat) (bs : List Byte) : State :=
  let k := spaceMark space w
  if s.mark k ≥ 2 ∧ bs.length < 8 then s.noteWord space w
  else
    let s := if s.mark k = 1 ∧ bs.length < 8 then s.noteWord space w else s
    let pg := if space = spHbm then pgHbm (hbmStack w) else pgMemory
    let inj := Tab.get (fun _ => 0) s.mem.inject pg
    let s := s.setMark k inj
    let s := if inj = 0 then s else { s with mem := { s.mem with inject := Tab.put (fun _ => 0) pg 0 s.mem.inject } }
    s.putBytes space func lo bs

/-- Write bytes into a space with every rule of its memory, charged to a job (R774, R795, R1150, R1157). -/
def State.writeSpace (s : State) (job : Option Nat) (space func a : Nat) (bs : List Byte) : State :=
  let n := bs.length
  if n = 0 then s
  else if space = spHost then
    ((s.putBytes space func a bs).charge job (512 * lines64 a n)).bump64 Reg.HOST_EGRESS_BYTES_LO n
  else
    let s := (areaWords a n).foldl (fun s w =>
      let lo := Nat.max w a
      let hi := Nat.min (w + 8) (a + n)
      s.storePart space func w lo ((bs.drop (lo - a)).take (hi - lo))) s
    if space = spHbm then
      let r := s.evJob job
      let s := s.charge job (1024 * lines64 a n)
      (List.range 4).foldl (fun s st =>
        (s.bump64 (hbmReg st Reg.HBM_WR_BYTES_LO) (stackBytes a n st)).event 0x0B01 (pgHbm st)
          { inst := some st, region := r } (stackLines a n st)) s
    else s

/-- Perform a list of writes of a command's result. -/
def State.writeAll (s : State) (job : Option Nat) (ws : List SpaceWrite) : State :=
  ws.foldl (fun s w => s.writeSpace job w.space w.func w.addr w.bytes) s

/-- An area of a space meets a range being sparged, so an access to it waits (R792). -/
def State.sparging (s : State) (space a n : Nat) : Bool :=
  s.mem.sparges.any (fun g => g.tun.isNone && g.space == space && decide (a < g.base + g.bytes) && decide (g.base < a + n))

/-! Accesses at the banks and ports (R769 to R772, R797, R803, R511). -/

/-- The value an atomic stores (Table 10-7). -/
def amoNew (fn : AmoFn) (n old v cmp : Nat) : Nat :=
  let b := 8 * n
  match fn with
  | .add => lowBits (old + v) b
  | .and => old &&& lowBits v b
  | .or => old ||| lowBits v b
  | .swap => lowBits v b
  | .min => if sInt b v < sInt b old then lowBits v b else old
  | .max => if sInt b old < sInt b v then lowBits v b else old
  | .cas => if old = lowBits cmp b then lowBits v b else old

/-- The bytes an operation touches. -/
def opSize : MemOp → Nat
  | .read n => n
  | .write bs => bs.length
  | .bitSet n _ => n
  | .bitClear n _ => n
  | .amo _ n _ _ => n

/-- It writes without reading. -/
def opPlainWrite : MemOp → Bool
  | .write _ => true
  | _ => false

/-- It writes. -/
def opWrites : MemOp → Bool
  | .read _ => false
  | _ => true

/-- Perform one access at its bank or port: the reply's data (none for an error), and what it leaves. -/
def State.access (s : State) (space : Nat) (r : MemReq) : State × Option (List Byte) :=
  let n := (opSize r.op)
  let s := if r.upset = 0 then s else s.setMark (spaceMark space r.addr) (s.mark (spaceMark space r.addr) + r.upset)
  let rd := fun (s : State) => if s.areaBad space r.addr n then none else some (s.spaceBytes space 0 r.addr n)
  match r.op with
  | .read _ => (s.noteRead r.job space r.addr n, rd s)
  | .write bs =>
    let bad := (s.areaBad space r.addr n) && decide (n < 8)
    (s.writeSpace r.job space 0 r.addr bs, if bad then none else some [])
  | .bitSet _ m =>
    match rd s with
    | none => (s.noteRead none space r.addr n, none)
    | some old => (s.writeSpace r.job space 0 r.addr (natLE n (leNat old ||| lowBits m (8 * n))), some [])
  | .bitClear _ m =>
    match rd s with
    | none => (s.noteRead none space r.addr n, none)
    | some old => (s.writeSpace r.job space 0 r.addr (natLE n (leNat old - (leNat old &&& lowBits m (8 * n)))), some [])
  | .amo fn _ v c =>
    match rd s with
    | none => (s.noteRead none space r.addr n, none)
    | some old => (s.writeSpace r.job space 0 r.addr (natLE n (amoNew fn n (leNat old) v c)), some old)

/-- The containment of a memory portal (R744): the request carries no region, or lies in its window. -/
def State.contained (s : State) (space : Nat) (r : MemReq) : Bool :=
  match r.region with
  | none => true
  | some g => s.areaIn g space r.addr (opSize r.op)

/-- A drop under R745: kind of EDGE_LAST, region, router (16 · y + x) and portal stop. -/
def State.edgeDrop (s : State) (kind region router stop : Nat) : State :=
  let w := (region <<< 28) ||| ((router % 16) <<< 24) ||| ((router / 16) <<< 20) ||| (kind <<< 16) ||| stop
  let s := (s.bump Reg.FAB_EDGE_DROPS 1).wr Reg.FAB_EDGE_LAST w
  let s := s.bumpSat (fabRg region Reg.FRG_RG_EDGE_DROPS) 1
  (s.event 0x0203 pgFabric { inst := some router, region := some region }).raiseErr pgFabric 0x0203 w (some region)

/-- The portal stop of a commons bank and of an HBM port (Table 14-1). -/
def comStop (bank : Nat) : Nat :=
  let c := bank / 4
  if c % 2 = 0 then 4 * (c / 2) else 4 * (c / 2) + 3
def hbmStop (stack port : Nat) : Nat := 32 + (15 - (4 * stack + port))

/-- Two addresses lie in one 64-bit word. -/
def sameWord (a b : Nat) : Bool := a / 8 == b / 8

/-- The least addresses in the two operations' common word clash: two plain writes to one word (R803). -/
def clash (a b : MemReq) : Bool :=
  opPlainWrite a.op && opPlainWrite b.op && (areaWords a.addr (opSize a.op)).any (fun w => (areaWords b.addr (opSize b.op)).contains w)

end Sys2Proof.Machine
end

