-- ==== Sys2Proof/Machine/Float.lean ====
section
/-! DEFINITION. Binary floating point, exactly: a value is an integer times a power of two, every operation is
computed exactly or with a sticky remainder, and rounded once, to nearest with ties to even, keeping subnormals (R18).
Formats: binary32, binary64, bfloat16 (IEEE 754-2019; the upper half of binary32). -/

namespace Sys2Proof.Machine

/-- A floating-point datum. fin neg m e is (−1)^neg · m · 2^e. -/
inductive Fp where
  | nan
  | inf (neg : Bool)
  | fin (neg : Bool) (m : Nat) (e : Int)
deriving DecidableEq, Repr

/-- A binary interchange format: exponent bits and fraction bits. -/
structure Fmt where
  eb : Nat
  fb : Nat
deriving DecidableEq, Repr

abbrev f32 : Fmt := ⟨8, 23⟩
abbrev f64 : Fmt := ⟨11, 52⟩
abbrev bf16 : Fmt := ⟨8, 7⟩

/-- The exponent bias. -/
def Fmt.bias (f : Fmt) : Nat := (1 <<< (f.eb - 1)) - 1
/-- The width in bits. -/
def Fmt.width (f : Fmt) : Nat := f.eb + f.fb + 1
/-- The least exponent of a unit in the last place. -/
def Fmt.emin (f : Fmt) : Int := 1 - (f.bias : Int) - (f.fb : Int)
/-- The pattern of infinity without sign. -/
def Fmt.infBits (f : Fmt) : Nat := ((1 <<< f.eb) - 1) <<< f.fb
/-- The quiet NaN whose fraction has its top bit set alone. -/
def Fmt.qnan (f : Fmt) : Nat := f.infBits ||| (1 <<< (f.fb - 1))

/-- The datum of a bit pattern. -/
def Fmt.dec (f : Fmt) (w : Nat) : Fp :=
  let neg := bit w (f.eb + f.fb)
  let ex := fld w (f.eb + f.fb - 1) f.fb
  let fr := lowBits w f.fb
  if ex = (1 <<< f.eb) - 1 then (if fr = 0 then .inf neg else .nan)
  else if ex = 0 then .fin neg fr f.emin
  else .fin neg (fr + (1 <<< f.fb)) (f.emin + (ex : Int) - 1)

/-- m · 2^(−n), and a sticky remainder st, rounded half to even. -/
def roundShift (m n : Nat) (st : Bool) : Nat :=
  let q := m >>> n
  let r := m % (1 <<< n)
  let half := if n = 0 then 0 else 1 <<< (n - 1)
  if n = 0 then q
  else if r < half then q
  else if r = half ∧ !st then (if q % 2 = 0 then q else q + 1)
  else q + 1

/-- Round (−1)^neg · (m + sticky) · 2^e to a format's bit pattern; the sticky part lies below one unit of m, and m
carries at least fb + 3 bits where the part is nonzero. Overflow gives infinity. -/
def Fmt.round (f : Fmt) (neg : Bool) (m : Nat) (e : Int) (st : Bool := false) : Nat :=
  let sign := b2n neg <<< (f.eb + f.fb)
  if m = 0 then sign
  else
    let l := (bitLen m : Int)
    -- exponent of the unit in the last place of the result
    let u := if e + l - (f.fb + 1 : Nat) < f.emin then f.emin else e + l - (f.fb + 1 : Nat)
    let q := if e ≥ u then m <<< (e - u).toNat else roundShift m (u - e).toNat st
    let u' := if q = 1 <<< (f.fb + 1) then u + 1 else u
    let q := if q = 1 <<< (f.fb + 1) then 1 <<< f.fb else q
    if q < 1 <<< f.fb then sign ||| q
    else
      let ex := (u' - f.emin + 1).toNat
      if (1 <<< f.eb) - 1 ≤ ex then sign ||| f.infBits
      else sign ||| (ex <<< f.fb) ||| (q - (1 <<< f.fb))

/-- A datum's pattern. -/
def Fmt.enc (f : Fmt) : Fp → Nat
  | .nan => f.qnan
  | .inf neg => (b2n neg <<< (f.eb + f.fb)) ||| f.infBits
  | .fin neg m e => f.round neg m e

/-- An integer with its sign, for the sum of two finite values: (negative, magnitude). -/
def signMag (x : Int) : Bool × Nat := (decide (x < 0), x.natAbs)

/-- The signed integer of a finite value at exponent e0 ≤ e. -/
def finAt (neg : Bool) (m : Nat) (e e0 : Int) : Int :=
  let v : Int := ((m <<< (e - e0).toNat : Nat) : Int)
  if neg then -v else v

def Fp.neg : Fp → Fp
  | .nan => .nan
  | .inf n => .inf (!n)
  | .fin n m e => .fin (!n) m e

/-- The exact sum; a zero sum of opposite signs is +0, of like signs has their sign. -/
def Fp.add : Fp → Fp → Fp
  | .nan, _ => .nan
  | _, .nan => .nan
  | .inf a, .inf b => if a = b then .inf a else .nan
  | .inf a, .fin _ _ _ => .inf a
  | .fin _ _ _, .inf b => .inf b
  | .fin n1 m1 e1, .fin n2 m2 e2 =>
    let e0 := if e1 ≤ e2 then e1 else e2
    let v := finAt n1 m1 e1 e0 + finAt n2 m2 e2 e0
    if v = 0 then .fin (if m1 = 0 ∧ m2 = 0 then n1 && n2 else false) 0 e0
    else .fin (decide (v < 0)) v.natAbs e0

def Fp.sub (a b : Fp) : Fp := a.add b.neg

/-- The exact product. -/
def Fp.mul : Fp → Fp → Fp
  | .nan, _ => .nan
  | _, .nan => .nan
  | .inf a, .inf b => .inf (a != b)
  | .inf a, .fin b m _ => if m = 0 then .nan else .inf (a != b)
  | .fin a m _, .inf b => if m = 0 then .nan else .inf (a != b)
  | .fin a m e, .fin b n g => .fin (a != b) (m * n) (e + g)

/-- a · b + c, exact. -/
def Fp.fma (a b c : Fp) : Fp := (a.mul b).add c

/-- a / b, rounded once to a format. -/
def Fmt.div (f : Fmt) (a b : Fp) : Nat :=
  match a, b with
  | .nan, _ => f.qnan
  | _, .nan => f.qnan
  | .inf _, .inf _ => f.qnan
  | .inf s, .fin t _ _ => f.enc (.inf (s != t))
  | .fin s _ _, .inf t => f.enc (.fin (s != t) 0 0)
  | .fin s m e, .fin t n g =>
    if n = 0 then (if m = 0 then f.qnan else f.enc (.inf (s != t)))
    else if m = 0 then f.enc (.fin (s != t) 0 0)
    else
      let k := f.fb + 4 + bitLen n - Nat.min (bitLen n) (bitLen m) + bitLen n
      let num := m <<< k
      f.round (s != t) (num / n) (e - g - (k : Int)) (decide (num % n ≠ 0))

/-- The square root, rounded once to a format. -/
def Fmt.sqrt (f : Fmt) (a : Fp) : Nat :=
  match a with
  | .nan => f.qnan
  | .inf true => f.qnan
  | .inf false => f.enc (.inf false)
  | .fin s m e =>
    if m = 0 then f.enc (.fin s 0 0)
    else if s then f.qnan
    else
      let k := 2 * (f.fb + 4)
      let odd := e % 2 ≠ 0
      let m' := if odd then m <<< (k + 1) else m <<< k
      let e' := if odd then e - 1 else e
      let r := Nat.sqrt m'
      f.round false r ((e' - (k : Int)) / 2) (decide (r * r ≠ m'))

/-- The value as a signed integer at a common exponent, for comparisons of finite values. -/
def Fp.ltFin (n1 : Bool) (m1 : Nat) (e1 : Int) (n2 : Bool) (m2 : Nat) (e2 : Int) : Bool :=
  let e0 := if e1 ≤ e2 then e1 else e2
  decide (finAt n1 m1 e1 e0 < finAt n2 m2 e2 e0)

/-- a < b; false where either is NaN. -/
def Fp.lt : Fp → Fp → Bool
  | .nan, _ => false
  | _, .nan => false
  | .inf a, .inf b => a && !b
  | .inf a, .fin _ _ _ => a
  | .fin _ _ _, .inf b => !b
  | .fin n1 m1 e1, .fin n2 m2 e2 => Fp.ltFin n1 m1 e1 n2 m2 e2

/-- a = b as values; false where either is NaN. -/
def Fp.eqv : Fp → Fp → Bool
  | .nan, _ => false
  | _, .nan => false
  | a, b => !a.lt b && !b.lt a

def Fp.le (a b : Fp) : Bool := a.lt b || a.eqv b

def Fp.isNan : Fp → Bool
  | .nan => true
  | _ => false

def Fp.isInf : Fp → Bool
  | .inf _ => true
  | _ => false

def Fp.isFinite : Fp → Bool
  | .fin _ _ _ => true
  | _ => false

/-- The sign bit of a datum. -/
def Fp.isNeg : Fp → Bool
  | .nan => false
  | .inf n => n
  | .fin n _ _ => n

def Fp.abs : Fp → Fp
  | .nan => .nan
  | .inf _ => .inf false
  | .fin _ m e => .fin false m e

/-- An integer as a datum. -/
def Fp.ofInt (x : Int) : Fp := .fin (decide (x < 0)) x.natAbs 0

/-- A finite datum as an integer rounded half to even. -/
def Fp.toIntRne : Fp → Int
  | .fin n m e =>
    let q : Nat := if 0 ≤ e then m <<< e.toNat else roundShift m (-e).toNat false
    if n then -(q : Int) else q
  | _ => 0

/-- A finite datum as an integer, truncated toward zero. -/
def Fp.toIntTrunc : Fp → Int
  | .fin n m e =>
    let q : Nat := if 0 ≤ e then m <<< e.toNat else m >>> (-e).toNat
    if n then -(q : Int) else q
  | _ => 0

/-- A finite datum as an integer, rounded down. -/
def Fp.toIntFloor : Fp → Int
  | .fin n m e =>
    let v : Int := if n then -(m : Int) else m
    if 0 ≤ e then v * ((1 <<< e.toNat : Nat) : Int) else v / ((1 <<< (-e).toNat : Nat) : Int)
  | _ => 0

/-! Operations on bit patterns of one format. -/

def Fmt.addB (f : Fmt) (a b : Nat) : Nat := f.enc ((f.dec a).add (f.dec b))
def Fmt.subB (f : Fmt) (a b : Nat) : Nat := f.enc ((f.dec a).sub (f.dec b))
def Fmt.mulB (f : Fmt) (a b : Nat) : Nat := f.enc ((f.dec a).mul (f.dec b))
def Fmt.fmaB (f : Fmt) (a b c : Nat) : Nat := f.enc ((f.dec a).fma (f.dec b) (f.dec c))
def Fmt.divB (f : Fmt) (a b : Nat) : Nat := f.div (f.dec a) (f.dec b)
def Fmt.sqrtB (f : Fmt) (a : Nat) : Nat := f.sqrt (f.dec a)
def Fmt.ltB (f : Fmt) (a b : Nat) : Bool := (f.dec a).lt (f.dec b)
def Fmt.leB (f : Fmt) (a b : Nat) : Bool := (f.dec a).le (f.dec b)
def Fmt.eqB (f : Fmt) (a b : Nat) : Bool := (f.dec a).eqv (f.dec b)
def Fmt.absB (f : Fmt) (a : Nat) : Nat := lowBits a (f.eb + f.fb)
def Fmt.negB (f : Fmt) (a : Nat) : Nat := Nat.xor a (1 <<< (f.eb + f.fb))
def Fmt.ofInt (f : Fmt) (x : Int) : Nat := f.enc (Fp.ofInt x)
/-- Convert a pattern of one format to another. -/
def Fmt.cvt (src dst : Fmt) (a : Nat) : Nat := dst.enc (src.dec a)
/-- Whether a pattern is a finite number. -/
def Fmt.finite (f : Fmt) (a : Nat) : Bool := (f.dec a).isFinite

end Sys2Proof.Machine
end

