-- ==== Sys2Proof/Machine/TunMath.lean ====
section
/-! DEFINITION. The bit-exact arithmetic of the tuns: the threshold table, the Metropolis threshold and test, and the
noise generator (spec/03_tuns_and_sweeps.md, R133 to R138, R156 to R158), and CRC-32C. -/

namespace Sys2Proof.Machine

/-- LN2_Q32 (R135). -/
abbrev ln2Q32 : Nat := 2977044472

/-- The sum of z^(2j+1) / (2j+1) for j from i on, in units of 2^(−80), for z = a / b; t is z^(2i+1). -/
def atanhSeries (a b : Nat) : Nat → Nat → Nat → Nat
  | 0, _, _ => 0
  | n + 1, i, t => t / (2 * i + 1) + atanhSeries a b n (i + 1) (t * a * a / (b * b))

/-- G[k] (R135): ln(1 + k / 2048) · 2^32 rounded to nearest, from 2 · atanh(k / (4096 + k)). -/
def thrG (k : Nat) : Nat :=
  if k = 2048 then ln2Q32
  else
    let a := k
    let b := 4096 + k
    (2 * atanhSeries a b 32 0 ((a <<< 80) / b) + (1 <<< 47)) >>> 48

/-- θ of R134. -/
def threshold (u : Nat) : Nat :=
  let v := 2 * u + 1
  let p := Nat.log2 v
  let f24 := (v - (1 <<< p)) <<< (24 - p)
  let k := f24 >>> 13
  let m := f24 % 8192
  let d := thrG (k + 1) - thrG k
  let l := thrG k + ((d * m + 4096) >>> 13)
  (25 - p) * ln2Q32 - l

/-- Whether a spin flips (R136 to R138): β as a binary32 pattern, the energy difference, and the noise word w. -/
def metropolis (beta : Nat) (dE : Int) (w : Nat) : Bool :=
  match f32.dec beta with
  | .inf _ => decide (dE < 0)
  | b =>
    let q := f32.dec (f32.enc (b.mul (Fp.ofInt dE)))
    q.lt (.fin false (threshold (fld w 31 8)) (-32))

/-- One Philox round (R158). -/
def philoxRound (k0 k1 : Nat) (x : Nat × Nat × Nat × Nat) : Nat × Nat × Nat × Nat :=
  let a := 0xD2511F53 * x.1
  let b := 0xCD9E8D57 * x.2.2.1
  (Nat.xor (Nat.xor (b >>> 32) x.2.1) k0, lowBits b 32, Nat.xor (Nat.xor (a >>> 32) x.2.2.2) k1, lowBits a 32)

/-- The rounds that are left. -/
def philoxRounds : Nat → Nat → Nat → Nat × Nat × Nat × Nat → Nat × Nat × Nat × Nat
  | 0, _, _, x => x
  | n + 1, k0, k1, x =>
    philoxRounds n (lowBits (k0 + 0x9E3779B9) 32) (lowBits (k1 + 0xBB67AE85) 32) (philoxRound k0 k1 x)

/-- Philox-4×32-10 (R158): the four words for a 64-bit key and counter words. -/
def philox (key x0 x1 x2 x3 : Nat) : List Nat :=
  let r := philoxRounds 10 (lowBits key 32) (lowBits (key >>> 32) 32) (lowBits x0 32, lowBits x1 32, lowBits x2 32, lowBits x3 32)
  [r.1, r.2.1, r.2.2.1, r.2.2.2]

/-- The noise word of spin i (R156, R157, Tables 03-6 and 03-7). -/
def noiseWord (seed i x1 purpose replica visit : Nat) : Nat :=
  (philox seed (i / 4) x1 ((purpose <<< 8) + replica) visit).getD (i % 4) 0

/-- One byte of a CRC-32C (polynomial 0x1EDC6F41, reflected). -/
def crc32cBits : Nat → Nat → Nat
  | 0, c => c
  | n + 1, c => crc32cBits n (if bit c 0 then Nat.xor (c >>> 1) 0x82F63B78 else c >>> 1)

/-- CRC-32C of a byte string (Castagnoli; Table 00-6). -/
def crc32c (bs : List Byte) : Nat :=
  Nat.xor (bs.foldl (fun c b => crc32cBits 8 (Nat.xor c b.toNat)) 0xFFFFFFFF) 0xFFFFFFFF

end Sys2Proof.Machine
end

