-- ==== Sys2Proof/Machine/Calib.lean ====
section
/-! DEFINITION. The calibration record (spec/21, R1087 to R1091, R1099) and what other blocks take from it. -/

namespace Sys2Proof.Machine

abbrev pgBoot : Nat := 0x003

/-- Bytes of a little-endian 16-bit two's-complement value. -/
def le16 (x : Int) : List Byte := natLE 2 (toTwos 16 x)

/-- The default kiln of the built-in record (Table 21-7), 96 bytes. -/
def builtInKiln : List Byte :=
  let betas := [0x3A800000, 0x3B000000, 0x3B800000, 0x3C000000, 0x3C800000, 0x3D000000, 0x3D800000, 0x3E000000]
  let head := natLE 4 0x4E4C494B ++ [1, 8, 1, 0] ++ natLE 4 96 ++ natLE 16 0
  let recd := natLE 8 0 ++ (betas.map (natLE 4)).flatten ++ natLE 24 0
  head ++ natLE 4 (crc32c (head ++ recd)) ++ recd

/-- The built-in record's body, before CAL_CRC (Table 21-7). -/
def builtInBody : List Byte :=
  natLE 4 0x524C4143 ++ [1] ++ natLE 3 0 ++ natLE 4 0 ++ natLE 4 0 ++
  (List.replicate 16 (le16 80)).flatten ++ (List.replicate 8 (le16 0 ++ natLE 2 32768)).flatten ++ natLE 4 0 ++
  (List.replicate 3 ([32, 0] ++ natLE 2 161 ++ natLE 2 990 ++ natLE 2 0x8000)).flatten ++ natLE 148 0 ++
  builtInKiln ++ natLE (2336 - 96) 0 ++ natLE 1500 0

/-- The built-in record (R1099), 4,096 bytes. -/
def builtInCal : List Byte := builtInBody ++ natLE 4 (crc32c builtInBody)

/-- A record as a sparse table. -/
def calTab (bs : List Byte) : Tab Byte := Tab.putList (fun _ => 0) 0 bs []

/-- Bytes of a record. -/
def calBytes (t : Tab Byte) (off n : Nat) : List Byte := Tab.getList (fun _ => 0) t off n

/-- A little-endian field of a record. -/
def calAt (t : Tab Byte) (off n : Nat) : Nat := leNat (calBytes t off n)

/-- The reserved fields of Table 21-6, as offsets and lengths; the bytes of DEFAULT_KILN past its TABLE_BYTES
count too. -/
def calReserved (t : Tab Byte) : Bool :=
  let nz := fun (o n : Nat) => !allZero (calBytes t o n)
  let kiln := calAt t 0x108 4
  nz 0x005 3 || nz 0x00C 4 || nz 0x052 2 || nz 0x055 1 || nz 0x05D 1 || nz 0x065 1 || nz 0x06C 148 || nz 0xA20 1500 ||
  (decide (kiln < 2336) && nz (0x100 + kiln) (2336 - kiln))

/-- MAGIC, VERSION and the ranges of Table 21-6. -/
def calInRange (t : Tab Byte) : Bool :=
  calAt t 0x000 4 == 0x524C4143 && calAt t 0x004 1 == 1 &&
  (List.range 8).all (fun k => calAt t (0x030 + 4 * k + 2) 2 != 0) &&
  (List.range 3).all (fun k =>
    decide (2 ≤ calAt t (0x054 + 8 * k + 2) 2) && decide (2 ≤ calAt t (0x054 + 8 * k + 4) 2) &&
    decide (calAt t (0x054 + 8 * k + 4) 2 ≤ 1024))

/-- A record passes R1090. -/
def calValid (t : Tab Byte) : Bool :=
  calAt t 0xFFC 4 == crc32c (calBytes t 0 0xFFC) && calInRange t && !calReserved t

/-- CAL_STATE.CAL_INVALID. -/
def State.calInvalid (s : State) : Bool := s.rf Reg.BOOT_CAL_STATE 31 31 == 1

/-- THERM_TRIM of junction sensor i, in 1/16 °C (R1130). -/
def State.thermTrim (s : State) (i : Nat) : Int := sInt 16 (calAt s.boot.calNow (0x010 + 2 * i) 2)

/-- A rail reading after its trim, in mV: OFFSET in 0.1 mV is added and GAIN / 32,768 applied. -/
def State.railMv (s : State) (rail : Nat) : Nat :=
  let raw : Int := (Config.railReading rail s.time : Nat)
  let off := sInt 16 (calAt s.boot.calNow (0x030 + 4 * rail) 2)
  let gain := calAt s.boot.calNow (0x032 + 4 * rail) 2
  ((raw + off) * gain / 327680).toNat

/-- The default kiln of the record in force (R206, R227). -/
def State.defaultKiln (s : State) : List Byte := calBytes s.boot.calNow 0x100 2336

/-- H, C_RCT and C_APT of an entropy source (Table 21-6). -/
def State.sourceFigures (s : State) (src : Nat) : Nat × Nat × Nat :=
  let o := 0x054 + 8 * src
  (calAt s.boot.calNow o 1, calAt s.boot.calNow (o + 2) 2, calAt s.boot.calNow (o + 4) 2)

/-- The AVS setpoint of a ratio code, in mV (Table 22-4). -/
def State.avsSetpoint (_ : State) (code : Nat) : Nat :=
  match code with
  | 0 => 830 | 1 => 775 | 2 => 735 | _ => 690

/-- GPIO_FUNC's function of pin g. -/
def State.gpioFunc (s : State) (g : Nat) : Nat := s.rf Reg.PINS_GPIO_FUNC (4 * g + 3) (4 * g)

/-- A sync source reaches the detector: SYNC_IN always, GPIO_0 while it carries SYNC_IN2 and no sample of it is being
discarded (R1120, R1122). -/
def State.syncSourceReady (s : State) (src : Nat) : Bool :=
  src == 0 || (src == 1 && s.gpioFunc 0 == 1 && match (s.boot.gpioSwitch.find? (fun e => e.1 == 0)).map (·.2) with
    | none => true
    | some t => decide (t + 5 * 40 ≤ s.time))

/-! CAL_CMD and CAL_DATA (R1088, R1089, R1091, R1100, R1105). -/

/-- CAL_STATE.CODE. -/
def State.calCode (s : State) (c : Nat) : State := s.wf Reg.BOOT_CAL_STATE 7 0 c

/-- CAL_LOAD (R1088). -/
def effectCalLoad (_p : Path) (_v : Word) (s : State) : Host.Outcome State Fault Refusal :=
  let src := if s.calInvalid then calTab builtInCal else s.boot.calStored
  .next ({ s with boot := { s.boot with calStage := src } }.calCode 0)

/-- CAL_CLEAR (R1088). -/
def effectCalClear (_p : Path) (_v : Word) (s : State) : Host.Outcome State Fault Refusal :=
  .next ({ s with boot := { s.boot with calStage := [] } }.calCode 0)

/-- KEY_STATE's life-cycle state code (Table 17-1). -/
def State.lcState (s : State) : Nat := s.rf Reg.KEY_LC_STATE 2 0

/-- CAL_COMMIT (R1089): the checks in order; an accepted commit forms the record, with its new WRITE_COUNT and CAL_CRC,
and writes it until CAL_COMMIT_DONE. -/
def effectCalCommit (_p : Path) (_v : Word) (s : State) : Host.Outcome State Fault Refusal :=
  let t := s.boot.calStage
  if s.lcState = 5 then .next (s.calCode 5)
  else if 0 < s.poolUsed ∨ s.boot.commit.isSome then .next (s.calCode 1)
  else if calReserved t then .next (s.calCode 3)
  else if calInRange t = false then .next (s.calCode 2)
  else
    let count := if s.calInvalid then 1 else calAt s.boot.calStored 0x008 4 + 1
    let body := Tab.putList (fun _ => 0) 0x008 (natLE 4 count) t
    let full := Tab.putList (fun _ => 0) 0xFFC (natLE 4 (crc32c (calBytes body 0 0xFFC))) body
    .next ({ s with boot := { s.boot with commit := some (s.time, full) } }.wf Reg.BOOT_CAL_STATE 30 30 1)

/-- A COMMIT accepted in an MCLK cycle that also takes up a job is refused after all (R1105). -/
def State.commitStep (s : State) : State :=
  match s.boot.commit with
  | some (t, _) =>
    if t = s.time ∧ 0 < s.poolUsed then
      ({ s with boot := { s.boot with commit := none } }.wf Reg.BOOT_CAL_STATE 30 30 0).calCode 1
    else s
  | none => s

/-- CAL_BAD_OP (R1100). -/
def effectCalBadOp (_p : Path) (v : Word) (s : State) : Host.Outcome State Fault Refusal :=
  let op := fld v.toNat 31 28
  if 1 ≤ op ∧ op ≤ 3 then .next s else .next (s.calCode 6)

/-- CAL_DATA_ACCESS (R1088): a write of CAL_DATA with a value, or a read of it, at word CAL_PTR, which advances. -/
def effectCalDataAccess (p : Path) (v : Option Word) (s : State) : Host.Outcome State Fault Refusal :=
  let w := s.rf Reg.BOOT_CAL_PTR 9 0
  let s := s.wr Reg.BOOT_CAL_PTR ((w + 1) % 1024)
  match v with
  | some d => .next { s with boot := { s.boot with calStage := Tab.putList (fun _ => 0) (4 * w) (natLE 4 d.toNat) s.boot.calStage } }
  | none =>
    let d := [BitVec.ofNat 32 (calAt s.boot.calStage (4 * w) 4)]
    match p with
    | .host => .next { s with hostPath := { s.hostPath with lastRead := d } }
    | .manager => .next { s with mgrPath := { s.mgrPath with lastRead := d } }

end Sys2Proof.Machine
end

