-- ==== Sys2Proof/Machine/Aes.lean ====
section
/-! DEFINITION. AES-256 (FIPS 197), the CBC-MAC conditioner and the CTR_DRBG of NIST SP 800-90A with AES-256 and no
derivation function (spec/16, R825, R832), and AES-256-GCM (spec/17, R889). -/

namespace Sys2Proof.Machine

/-- The S-box, byte i of this number. -/
def aesSboxWord : Nat := 0x16bb54b00f2d99416842e6bf0d89a18cdf2855cee9871e9b948ed9691198f8e19e1dc186b95735610ef6034866b53e708a8bbd4b1f74dde8c6b4a61c2e2578ba08ae7a65eaf4566ca94ed58d6d37c8e779e4959162acd3c25c2406490a3a32e0db0b5ede14b8ee4688902a22dc4f816073195d643d7ea7c41744975fec130ccdd2f3ff1021dab6bcf5389d928f40a351a89f3c507f02f94585334d43fbaaefd0cf584c4a39becb6a5bb1fc20ed00d153842fe329b3d63b52a05a6e1b1a2c830975b227ebe28012079a059618c323c7041531d871f1e5a534ccf73f362693fdb7c072a49cafa2d4adf04759fa7dc982ca76abd7fe2b670130c56f6bf27b777c63

def aesSub (b : Nat) : Nat := (aesSboxWord >>> (8 * b)) % 256

/-- Multiplication by x in the AES field. -/
def aesXtime (b : Nat) : Nat := if 128 ≤ b then Nat.xor ((2 * b) % 256) 0x1B else 2 * b

def xorList (a b : List Nat) : List Nat := List.zipWith Nat.xor a b

/-- Round constants of the key schedule. -/
def aesRcon : List Nat := [1, 2, 4, 8, 16, 32, 64]

/-- The words of the key schedule: 8 key words, newest first, extended to 60. -/
def aesExpand : Nat → Nat → List (List Nat) → List (List Nat)
  | 0, _, ws => ws
  | n + 1, i, ws =>
    let t := ws.getD 0 []
    let t := if i % 8 = 0 then
        let r := (t.drop 1 ++ t.take 1).map aesSub
        xorList r [aesRcon.getD (i / 8 - 1) 0, 0, 0, 0]
      else if i % 8 = 4 then t.map aesSub else t
    aesExpand n (i + 1) (xorList (ws.getD 7 []) t :: ws)

/-- l in pieces of n elements. -/
def chunks {α : Type} (n : Nat) : Nat → List α → List (List α)
  | 0, _ => []
  | k + 1, l => l.take n :: chunks n k (l.drop n)

/-- The 15 round keys of a 32-byte key. -/
def aesKeys (key : List Nat) : List (List Nat) :=
  let ws := (aesExpand 52 8 (chunks 4 8 key).reverse).reverse
  (chunks 4 15 ws).map List.flatten

def aesShiftRows (st : List Nat) : List Nat :=
  (List.range 16).map (fun i => st.getD ((i + 4 * (i % 4)) % 16) 0)

def aesMixColumn (c : List Nat) : List Nat :=
  let a := fun i => c.getD (i % 4) 0
  (List.range 4).map (fun i =>
    Nat.xor (Nat.xor (aesXtime (a i)) (Nat.xor (aesXtime (a (i + 1))) (a (i + 1)))) (Nat.xor (a (i + 2)) (a (i + 3))))

def aesMix (st : List Nat) : List Nat := ((chunks 4 4 st).map aesMixColumn).flatten

/-- The rounds over the round keys that are left; the last has no column mix. -/
def aesRounds : List (List Nat) → List Nat → List Nat
  | [], st => st
  | [k], st => xorList (aesShiftRows (st.map aesSub)) k
  | k :: ks, st => aesRounds ks (xorList (aesMix (aesShiftRows (st.map aesSub))) k)

/-- AES-256 of one 16-byte block, given the expanded key. -/
def aesBlock (ks : List (List Nat)) (b : List Nat) : List Nat := aesRounds (ks.drop 1) (xorList b (ks.getD 0 []))

/-- AES-256 under a 32-byte key. -/
def aes256 (key b : List Nat) : List Nat := aesBlock (aesKeys key) b

/-- A number as n bytes, most significant first. -/
def bytesBE (n x : Nat) : List Nat := (List.range n).map (fun i => (x >>> (8 * (n - 1 - i))) % 256)
def bytesLE (n x : Nat) : List Nat := (List.range n).map (fun i => (x >>> (8 * i)) % 256)
def ofBE (l : List Nat) : Nat := l.foldl (fun a b => (a <<< 8) + b) 0

/-- One CBC-MAC step of the conditioner under the fixed key 00 to 1F (R825). -/
def condAbsorb (v word : List Nat) : List Nat := aes256 (List.range 32) (xorList v word)

/-- n blocks of the counter stream after v. -/
def drbgBlocks (ks : List (List Nat)) (v : Nat) : Nat → List Nat
  | 0 => []
  | n + 1 => aesBlock ks (bytesBE 16 ((v + 1) % (1 <<< 128))) ++ drbgBlocks ks (v + 1) n

/-- CTR_DRBG_Update: key and V from 48 bytes of provided data. -/
def drbgUpdate (key : List Nat) (v : Nat) (data : List Nat) : List Nat × Nat :=
  let t := xorList (drbgBlocks (aesKeys key) v 3) data
  (t.take 32, ofBE (t.drop 32))

/-- Instantiate with 48 bytes of entropy and the channel's personalization string (R832). -/
def drbgInstantiate (entropy : List Nat) (chan : Nat) : List Nat × Nat :=
  drbgUpdate (List.replicate 32 0) 0 (xorList entropy ((chan + 1) :: List.replicate 47 0))

/-- Generate 64 bytes with no additional input: the bytes, and the key and V after (R832). -/
def drbgGenerate (key : List Nat) (v : Nat) : List Nat × List Nat × Nat :=
  let out := drbgBlocks (aesKeys key) v 4
  let u := drbgUpdate key ((v + 4) % (1 <<< 128)) (List.replicate 48 0)
  (out, u.1, u.2)

/-! GCM. -/

/-- Multiplication in GF(2^128) of NIST SP 800-38D, on 128-bit numbers with the first bit most significant. -/
def gfMulGo : Nat → Nat → Nat → Nat → Nat
  | 0, _, _, z => z
  | n + 1, x, v, z =>
    let z := if Nat.testBit x n then Nat.xor z v else z
    let v := if v % 2 = 1 then Nat.xor (v >>> 1) (0xE1 <<< 120) else v >>> 1
    gfMulGo n x v z
def gfMul (x y : Nat) : Nat := gfMulGo 128 x y 0

/-- GHASH over whole 16-byte blocks. -/
def ghash (h : Nat) : Nat → List Nat → Nat → Nat
  | 0, _, y => y
  | n + 1, l, y => ghash h n (l.drop 16) (gfMul (Nat.xor y (ofBE (l.take 16))) h)

/-- l padded with zeros to a multiple of 16 bytes. -/
def pad16 (l : List Nat) : List Nat := l ++ List.replicate ((16 - l.length % 16) % 16) 0

/-- The counter-mode stream of n blocks from a 12-byte nonce and counter c. -/
def gcmStream (ks : List (List Nat)) (nonce : List Nat) (c : Nat) : Nat → List Nat
  | 0 => []
  | n + 1 => aesBlock ks (nonce ++ bytesBE 4 c) ++ gcmStream ks nonce (c + 1) n

/-- The tag of a ciphertext with additional data. -/
def gcmTag (ks : List (List Nat)) (nonce aad ct : List Nat) : List Nat :=
  let h := ofBE (aesBlock ks (List.replicate 16 0))
  let m := pad16 aad ++ pad16 ct ++ bytesBE 8 (8 * aad.length) ++ bytesBE 8 (8 * ct.length)
  let y := ghash h (m.length / 16) m 0
  xorList (bytesBE 16 y) (aesBlock ks (nonce ++ bytesBE 4 1))

/-- AES-256-GCM encryption: the ciphertext and the 16-byte tag. -/
def gcmEncrypt (key nonce aad pt : List Nat) : List Nat × List Nat :=
  let ks := aesKeys key
  let ct := xorList pt (gcmStream ks nonce 2 ((pt.length + 15) / 16))
  (ct, gcmTag ks nonce aad ct)

/-- AES-256-GCM decryption: none where the tag does not match. -/
def gcmDecrypt (key nonce aad ct tag : List Nat) : Option (List Nat) :=
  let ks := aesKeys key
  if gcmTag ks nonce aad ct = tag then some (xorList ct (gcmStream ks nonce 2 ((ct.length + 15) / 16))) else none

end Sys2Proof.Machine
end

