-- ==== Sys2Proof/Machine/Crypto.lean ====
section
/-! DEFINITION. SHA-384 (FIPS 180-4) and ECDSA and ECDH on P-384 (FIPS 186-5), and the DER structures that a
certificate chain holds, as spec/17 and spec/18 use them (R867, R873 to R875, R942 to R949). -/

namespace Sys2Proof.Machine

/-! SHA-384. -/

/-- The primes below 410, of which there are 80. -/
def shaPrimes : List Nat := (List.range 410).filter (fun p => decide (2 ≤ p) && (List.range p).all (fun d => decide (d < 2) || p % d != 0))

/-- The first 64 bits of the fraction of the k-th root of p, for a root below 8. -/
def rootFrac (k p : Nat) : Nat :=
  ((List.range 67).reverse.foldl (fun r b => if (r + (1 <<< b)) ^ k ≤ p <<< (64 * k) then r + (1 <<< b) else r) 0) % (1 <<< 64)

/-- A round constant for each prime, from its cube root; and the initial hash value, from the square roots of the ninth prime on
(FIPS 180-4). -/
def shaK : List Nat := shaPrimes.map (rootFrac 3)
def shaInit : List Nat := ((shaPrimes.drop 8).take 8).map (rootFrac 2)

/-- The exclusive-or of a 64-bit word's rotations to the right by the amounts given. -/
def rotXor (ns : List Nat) (x : Nat) : Nat :=
  ns.foldl (fun y n => Nat.xor y ((x >>> n) ||| ((x <<< (64 - n)) % (1 <<< 64)))) 0

/-- A word of the message schedule from the words 2, 7, 15 and 16 places before it. -/
def shaWord (w2 w7 w15 w16 : Nat) : Nat :=
  (w16 + w7 + Nat.xor (rotXor [1, 8] w15) (w15 >>> 7) + Nat.xor (rotXor [19, 61] w2) (w2 >>> 6)) % (1 <<< 64)

/-- n more words of the schedule, onto those there are, newest first. -/
def shaSchedule : Nat → List Nat → List Nat
  | 0, w => w.reverse
  | n + 1, w => shaSchedule n (shaWord (w.getD 1 0) (w.getD 6 0) (w.getD 14 0) (w.getD 15 0) :: w)

/-- One round: the eight working variables move down by one place; the first takes both sums, and the fifth gains the first of them. -/
def shaRound (v : List Nat) (kw : Nat × Nat) : List Nat :=
  let x := fun (i : Nat) => v.getD i 0
  let choose := Nat.xor (x 6) (x 4 &&& Nat.xor (x 5) (x 6))
  let major := (x 0 &&& (x 1 ||| x 2)) ||| (x 1 &&& x 2)
  let sum := kw.1 + kw.2 + x 7 + choose + rotXor [14, 18, 41] (x 4)
  ((sum + major + rotXor [28, 34, 39] (x 0)) % (1 <<< 64) :: v.take 7).set 4 ((x 3 + sum) % (1 <<< 64))

/-- One block of 128 bytes. -/
def shaBlock (h block : List Nat) : List Nat :=
  let w := shaSchedule 64 (((chunks 8 16 block).map ofBE).reverse)
  ((shaK.zip w).foldl shaRound h).zipWith (fun a b => (a + b) % (1 <<< 64)) h
def shaBlocks : Nat → List Nat → List Nat → List Nat
  | 0, _, h => h
  | n + 1, m, h => shaBlocks n (m.drop 128) (shaBlock h (m.take 128))

/-- The 48 bytes of SHA-384 of a message. -/
def sha384 (msg : List Byte) : List Byte :=
  let m := msg.map BitVec.toNat
  let m := m ++ [0x80] ++ List.replicate ((128 - (m.length + 17) % 128) % 128) 0 ++ bytesBE 16 (8 * m.length)
  (((shaBlocks (m.length / 128) m shaInit).take 6).flatMap (bytesBE 8)).map (BitVec.ofNat 8)

/-- The SHA-384 digest as a number. -/
def shaNat (msg : List Byte) : Nat := beNat (sha384 msg)

/-- ASCII bytes. -/
def ascii (t : String) : List Byte := t.toList.map (fun c => BitVec.ofNat 8 c.toNat)

/-! P-384. A point is none at infinity. -/

def p384 : Nat := (1 <<< 384) - (1 <<< 128) - (1 <<< 96) + (1 <<< 32) - 1
def p384b : Nat := 0xb3312fa7e23ee7e4988e056be3f82d19181d9c6efe8141120314088f5013875ac656398d8a2ed19d2a85c8edd3ec2aef
/-- The order of the base point. -/
def p384n : Nat := 0xffffffffffffffffffffffffffffffffffffffffffffffffc7634d81f4372ddf581a0db248b0a77aecec196accc52973
def p384g : Nat × Nat :=
  (0xaa87ca22be8b05378eb1c71ef320ad746e1d3b628ba79b9859f741e082542a385502f25dbf55296c3a545e3872760ab7,
    0x3617de4a96262c6f5d9e98bf9292dc29f8f41dbd289a147ce9da3113b5f0b8c00a60b1ce1d7e819d7a431d7c90ea0e5f)

/-- a^e mod m over the low k bits of e, from the most significant. -/
def powMod (m a e : Nat) : Nat → Nat → Nat
  | 0, r => r
  | k + 1, r => powMod m a e k (let q := r * r % m; if Nat.testBit e k then q * a % m else q)

/-- The inverse modulo a prime. -/
def invMod (m a : Nat) : Nat := powMod m (a % m) (m - 2) 384 1

def subMod (a b : Nat) : Nat := (a + p384 - b % p384) % p384

/-- A point of the curve, in Jacobian coordinates; z = 0 at infinity. -/
structure Jac where
  x : Nat
  y : Nat
  z : Nat
deriving DecidableEq, Repr

def Jac.dbl (q : Jac) : Jac :=
  let zz := q.z * q.z % p384
  let yy := q.y * q.y % p384
  let s := 4 * q.x * yy % p384
  let m := 3 * (subMod q.x zz * ((q.x + zz) % p384)) % p384
  let x := subMod (m * m) (2 * s)
  ⟨x, subMod (m * subMod s x) (8 * yy * yy), 2 * q.y * q.z % p384⟩

def Jac.add (a b : Jac) : Jac :=
  if a.z = 0 then b else if b.z = 0 then a
  else
    let za := a.z * a.z % p384
    let zb := b.z * b.z % p384
    let u := a.x * zb % p384
    let v := b.x * za % p384
    let s := a.y * zb * b.z % p384
    let t := b.y * za * a.z % p384
    if u = v then (if s = t then a.dbl else ⟨1, 1, 0⟩)
    else
      let h := subMod v u
      let hh := h * h % p384
      let hhh := h * hh % p384
      let r := subMod t s
      let x := subMod (subMod (r * r) hhh) (2 * u * hh)
      ⟨x, subMod (r * subMod (u * hh) x) (s * hhh), h * a.z * b.z % p384⟩

/-- k · Q over the low n bits of k. -/
def Jac.mulGo (k : Nat) (q : Jac) : Nat → Jac → Jac
  | 0, r => r
  | n + 1, r => Jac.mulGo k q n (let d := r.dbl; if Nat.testBit k n then d.add q else d)

def toJac (q : Nat × Nat) : Jac := ⟨q.1 % p384, q.2 % p384, 1⟩
def Jac.mul (k : Nat) (q : Jac) : Jac := Jac.mulGo k q 384 ⟨1, 1, 0⟩

/-- The affine point; none at infinity. -/
def Jac.affine (q : Jac) : Option (Nat × Nat) :=
  if q.z = 0 then none
  else
    let i := invMod p384 q.z
    let ii := i * i % p384
    some (q.x * ii % p384, q.y * (ii * i % p384) % p384)

/-- The public key of a private scalar. -/
def pubKey (d : Nat) : Nat × Nat := ((Jac.mul d (toJac p384g)).affine).getD (0, 0)

/-- A point is on the curve. -/
def onCurve (q : Nat × Nat) : Bool :=
  decide (q.1 < p384) && decide (q.2 < p384) && (q.2 * q.2 % p384 == (q.1 * q.1 * q.1 + (p384 - 3) * q.1 + p384b) % p384)

/-- The x-coordinate of the shared point (R948); none at infinity. -/
def sharedX (d : Nat) (q : Nat × Nat) : Option Nat := ((Jac.mul d (toJac q)).affine).map (·.1)

/-- A secret scalar from 64 drawn bytes (R873, R875). -/
def scalarOf (bs : List Byte) : Nat := beNat bs % (p384n - 1) + 1

/-- ECDSA with SHA-384 under private key d and nonce k: r and s. -/
def ecSign (d k : Nat) (msg : List Byte) : Nat × Nat :=
  let r := (pubKey k).1 % p384n
  (r, invMod p384n k * ((shaNat msg + r * d) % p384n) % p384n)

/-- ECDSA verification of (r, s) under a public key. -/
def ecVerify (q : Nat × Nat) (msg : List Byte) (r s : Nat) : Bool :=
  onCurve q && decide (0 < r) && decide (r < p384n) && decide (0 < s) && decide (s < p384n) &&
  (let w := invMod p384n s
   let u := shaNat msg * w % p384n
   let v := r * w % p384n
   match ((Jac.mul u (toJac p384g)).add (Jac.mul v (toJac q))).affine with
   | none => false
   | some t => t.1 % p384n == r)

/-- A public key as x and y, 96 bytes big-endian (R873). -/
def keyBytes (q : Nat × Nat) : List Byte := natBE 48 q.1 ++ natBE 48 q.2
/-- A signature as r and s, each 48 bytes big-endian (R867). -/
def sigBytes (g : Nat × Nat) : List Byte := natBE 48 g.1 ++ natBE 48 g.2
/-- Two 48-byte big-endian numbers. -/
def pairBE (bs : List Byte) : Nat × Nat := (beNat (bs.take 48), beNat ((bs.drop 48).take 48))

/-- DEVICE_ID of a public key (R873). -/
def deviceId (q : Nat × Nat) : Nat := leNat ((sha384 (keyBytes q)).take 8)

/-! DER (the certificates of a chain). -/

/-- The element at the head of a list: its tag, its content, its whole encoding and what follows. -/
def derHead (bs : List Byte) : Option (Nat × List Byte × List Byte × List Byte) :=
  match bs with
  | t :: l :: rest =>
    let n := l.toNat
    let hdr := if n < 128 then 0 else n - 128
    let len := if n < 128 then n else beNat (rest.take hdr)
    if 3 < hdr ∨ rest.length < hdr + len then none
    else some (t.toNat, (rest.drop hdr).take len, bs.take (2 + hdr + len), rest.drop (hdr + len))
  | _ => none

/-- The elements of a constructed content. -/
def derItems : Nat → List Byte → Option (List (Nat × List Byte × List Byte))
  | 0, bs => if bs = [] then some [] else none
  | n + 1, bs =>
    if bs = [] then some []
    else match derHead bs with
      | none => none
      | some (t, c, w, rest) => (derItems n rest).map (fun l => (t, c, w) :: l)

/-- A certificate: the bytes that are signed, the public key and the signature. -/
structure Cert where
  tbs : List Byte
  key : Nat × Nat
  r : Nat
  s : Nat
deriving DecidableEq, Repr

/-- What an algorithm identifier of an EC key on secp384r1 holds. -/
def oidP384 : List Byte :=
  [0x06, 0x07, 0x2A, 0x86, 0x48, 0xCE, 0x3D, 0x02, 0x01, 0x06, 0x05, 0x2B, 0x81, 0x04, 0x00, 0x22]
/-- What an algorithm identifier of ecdsa-with-SHA384 holds. -/
def oidEcdsa384 : List Byte := [0x06, 0x08, 0x2A, 0x86, 0x48, 0xCE, 0x3D, 0x04, 0x03, 0x03]

/-- The subject public key of the items of a to-be-signed certificate. -/
def certKey (items : List (Nat × List Byte × List Byte)) : Option (Nat × Nat) :=
  let items := if (items.head?).map (·.1) = some 0xA0 then items.drop 1 else items
  match items[5]? with
  | none => none
  | some (_, spki, _) =>
    match derItems 8 spki with
    | some [(0x30, alg, _), (0x03, key, _)] =>
      if alg = oidP384 ∧ key.length = 98 ∧ key.take 2 = [0x00, 0x04] then some (pairBE (key.drop 2)) else none
    | _ => none

/-- Read one certificate. -/
def readCert (c : List Byte) : Option Cert :=
  match derItems 8 c with
  | some [(0x30, tbs, whole), (0x30, alg, _), (0x03, sig, _)] =>
    match derItems 64 tbs, derItems 4 (sig.drop 1) with
    | some items, some [(0x30, rs, _)] =>
      match certKey items, derItems 4 rs with
      | some key, some [(0x02, r, _), (0x02, s, _)] =>
        if alg = oidEcdsa384 then some { tbs := whole, key := key, r := beNat r, s := beNat s } else none
      | _, _ => none
    | _, _ => none
  | _ => none

/-- The certificates of a chain in the SPDM certificate-chain format, root first: length, a reserved field, the hash of
the root certificate and the certificates (DSP0274). -/
def chainCerts (chain : List Byte) : Option (List Cert) :=
  if leAt chain 0 2 ≠ chain.length ∨ chain.length < 52 then none
  else match derItems 64 (chain.drop 52) with
    | none => none
    | some items => items.mapM (fun (e : Nat × List Byte × List Byte) => if e.1 = 0x30 then readCert e.2.1 else none)

/-- Each certificate of a chain verifies under the key of the one above it (R944). -/
def chainVerifies : List Cert → Bool
  | [] => true
  | [_] => true
  | a :: b :: l => ecVerify a.key b.tbs b.r b.s && chainVerifies (b :: l)

end Sys2Proof.Machine
end

