-- ==== Sys2Proof/Machine/Entropy.lean ====
section
/-! DEFINITION. The entropy block (spec/16_entropy.md): noise sources and their health tests, the conditioner, the
DRBG channels, known-answer tests and the consumers' draws. -/

namespace Sys2Proof.Machine

abbrev pgEntropy : Nat := 0x00A

def State.src (s : State) (n : Nat) : NoiseSource := s.ent.sources.getD n NoiseSource.reset
def State.chan (s : State) (n : Nat) : Channel := s.ent.chans.getD n Channel.reset
def State.updSrc (s : State) (n : Nat) (f : NoiseSource → NoiseSource) : State :=
  { s with ent := { s.ent with sources := updAt n f s.ent.sources } }
def State.updChan (s : State) (n : Nat) (f : Channel → Channel) : State :=
  { s with ent := { s.ent with chans := updAt n f s.ent.chans } }

/-- The steward of a page (R978). -/
def State.steward (s : State) (page : Nat) : Path := if s.rf (pgReg page 0x1C) 0 0 = 1 then .manager else .host

/-- A channel's policy is SWITCH (R830, R831); TUNSEED and SOFT have the one that the last word offered found (R855). -/
def State.chanSwitch (s : State) (n : Nat) : Bool := decide (n < 2) || !bit s.ent.policy (n - 2)

/-- RESEED_INT of channels 1 to 3 (Table 16-4). -/
def State.reseedInt (s : State) (n : Nat) : Nat :=
  let v := s.rf (Reg.ENT_RESEED_CIPHER + 4 * (n - 1)) 15 0
  if v = 0 then 65536 else v

/-- A channel has no source that its policy accepts (R840, R841). -/
def State.chanStarved (s : State) (n : Nat) : Bool :=
  if s.chanSwitch n then s.ent.sources.all (fun x => x.st != 2)
  else s.ent.sources.all (fun x => x.st == 0 || x.st == 4)

/-- The state to which a STOPPED channel returns (R840). -/
def Channel.running (c : Channel) : Nat := if c.need.isSome then 3 else 2

/-- R840 and R841 for one channel: it becomes STOPPED, or returns. -/
def State.chanPolicy (s : State) (n : Nat) : State :=
  let c := s.chan n
  if c.st = 0 ∨ c.st = 4 ∨ c.st = 6 then s
  else if s.chanStarved n then
    (if c.st = 5 then s
     else
      let s := s.updChan n (fun c => { c with st := 5 })
      if n < 2 then s.raiseErr pgEntropy 0x0C03 n else s)
  else if c.st = 5 then s.updChan n (fun c => { c with st := c.running }) else s

/-- READY is set when all four channels are RUNNING (R860). -/
def State.entReadyCheck (s : State) : State :=
  if s.ent.chans.all (fun c => c.st == 2) then s.wf Reg.ENT_ENT_STATE 16 16 1 else s

def State.entReady (s : State) : Bool := s.rf Reg.ENT_ENT_STATE 16 16 == 1

/-- The end of an MCLK cycle: channels stop and return by the sources as the whole cycle leaves them (R840, R841, R856). -/
def State.entStep (s : State) : State := ((List.range 4).foldl State.chanPolicy s).entReadyCheck

/-! Sources (R815 to R823). -/

/-- Start a start-up or restart test with the next sample: both tests begin afresh (R820). -/
def NoiseSource.beginTest (x : NoiseSource) (startUp : Bool) : NoiseSource :=
  { x with testLeft := some 1024, startUp := startUp, testBad := false, nextTest := none, rctBit := none, rctRun := 0, aptPos := 0, aptEq := 0 }

/-- What one sample does to the two tests: the source after it, and whether each test fails (R817, R818). Figures
of the calibration record are taken at the start of a window (R851). -/
def NoiseSource.test (x : NoiseSource) (fig : Nat × Nat × Nat) (b : Bool) : NoiseSource × Bool × Bool :=
  let run := if x.rctBit = some b then x.rctRun + 1 else 1
  let x := if x.aptPos = 0 then { x with h := fig.1, cRct := fig.2.1, cApt := fig.2.2, aptRef := b, aptEq := 0 } else x
  let eq := if x.aptRef = b then x.aptEq + 1 else x.aptEq
  let rctFail := run == x.cRct
  let aptFail := eq == x.cApt && x.aptRef == b
  ({ x with rctBit := some b, rctRun := run, aptPos := (x.aptPos + 1) % 1024, aptEq := eq }, rctFail, aptFail)

/-- The last sample of a start-up or restart test has been judged at TIME t (R820, R821). -/
def NoiseSource.endTest (x : NoiseSource) (t : Nat) : NoiseSource :=
  let x := { x with testLeft := none }
  if x.testBad = false then { x with st := 2, failsRow := 0 }
  else if x.startUp then { x with st := 3, failsRow := 0, nextTest := some (t + 1000000) }
  else if 7 ≤ x.failsRow then { x with st := 4, failsRow := 8, nextTest := none }
  else { x with st := 3, failsRow := x.failsRow + 1, nextTest := some (t + 1000000) }

/-- A source's state after a sample at TIME t that has failed a test or not (R820, R821). A test goes on to its 1,024th sample. -/
def NoiseSource.judge (x : NoiseSource) (fail : Bool) (t : Nat) : NoiseSource :=
  match x.testLeft with
  | some n =>
    let x := { x with testLeft := some (n - 1), testBad := x.testBad || fail, st := if fail then 3 else x.st }
    if n ≤ 1 then x.endTest t else x
  | none => if fail && x.st == 2 then { x.beginTest false with st := 3, failsRow := 0 } else x

/-- A sample has failed a source's test, 0 repetition count or 1 adaptive proportion (Tables 16-4 and 16-5). -/
def State.healthFail (s : State) (n test : Nat) : State :=
  let f := Reg.ENT_SRC_0_FAILS + 4 * n
  let s := s.wf f (16 * test + 15) (16 * test) (satAdd 16 (s.rf f (16 * test + 15) (16 * test)) 1)
  (s.event 0x0C00 pgEntropy { inst := some n }).raiseErr pgEntropy 0x0C01 (n * 256 + test)

/-- One source takes a sample (R815, R817 to R823, R847). One that takes none has no healthy word, and new figures with an H of 0
disable it (R814, R851). -/
def State.sampleSource (bits : Nat) (s : State) (n : Nat) : State :=
  let x := s.src n
  if x.st = 0 ∨ x.st = 4 then s.updSrc n (fun x => { x with healthy := false })
  else if x.aptPos = 0 ∧ (s.sourceFigures n).1 = 0 then
    s.updSrc n (fun x => { x with st := 0, h := 0, testLeft := none, nextTest := none, healthy := false })
  else
    let tp := bit (s.rg Reg.ENT_TP_CTRL) n
    let b := if tp then bit (s.rg Reg.ENT_TP_DATA) (x.tpPos % 32) else bit bits n
    let r := x.test (s.sourceFigures n) b
    let fail := r.2.1 || r.2.2
    let y := r.1.judge fail s.time
    let y := { y with word := y.word + (b2n b <<< s.ent.samples), healthy := y.healthy && y.st == 2 && !fail
                      tpPos := if tp then x.tpPos + 1 else 0 }
    let s := s.updSrc n (fun _ => y)
    let s := if r.2.1 then s.healthFail n 0 else s
    let s := if r.2.2 then s.healthFail n 1 else s
    if y.st = 4 then s.raiseErr pgEntropy 0x0C02 n else s

/-- KAT_STATUS. -/
def State.katStatus (s : State) (st code target : Nat) : State :=
  s.wr Reg.ENT_KAT_STATUS ((st <<< 28) ||| (code <<< 16) ||| target)

/-- A test of the start-up sequence starts, with no reserve to wait for (R860 step 4). -/
def State.bootKat (s : State) (target : Nat) : State :=
  let s := { s with ent := { s.ent with kat := some { target := target, asked := s.time, started := some s.time, boot := true } } }
  (if target = 0 then s else s.updChan (target - 1) (fun c => { c with st := 4 })).katStatus 2 0 target

/-- Once no source is in its start-up test, the known-answer tests begin (R860 step 4). -/
def State.entStartKats (s : State) : State :=
  if s.ent.starting && s.ent.kat.isNone && s.ent.sources.all (fun x => !(x.testLeft.isSome && x.startUp)) then s.bootKat 0 else s

/-- After the last known-answer test the channels instantiate (R860 step 5). -/
def State.entStartChans (s : State) : State :=
  { s with ent := { s.ent with
      starting := false, chans := s.ent.chans.map (fun c => if c.st = 6 then c else { c with st := 1, need := some false }) } }

/-- NOISE_SAMPLE (R815 to R821): bit n of the operand is source n's sample. Due every 40 ns. A word of 128 samples is
completed by NOISE_WORD before the next sample. -/
def execNoiseSample (bits : Nat) (s : State) : Host.Outcome State Fault Refusal :=
  if s.time < s.ent.lastSample + 40 ∨ 128 ≤ s.ent.samples then .next s
  else
    let s := { s with ent := { s.ent with lastSample := s.time } }
    let s := (List.range 3).foldl (State.sampleSource bits) s
    let s := { s with ent := { s.ent with samples := s.ent.samples + 1 } }
    .next s.entStartKats

/-- RESTART_TEST_START (R821): due 1 ms after a failed restart test. -/
def execRestartTestStart (src : Nat) (s : State) : Host.Outcome State Fault Refusal :=
  match (s.src src).nextTest with
  | none => .next s
  | some t => if s.time < t then .next s else .next (s.updSrc src (fun x => x.beginTest false))

/-! Words and the conditioner (R823 to R830, R845). -/

/-- A channel still needs entropy: its operation waits for fewer than three blocks (R828). -/
def Channel.hungry (c : Channel) : Bool := c.need.isSome && decide (c.blocks.length + c.coming.length < 3)

/-- Offer one word of source n to the channels in order (R829, R830, R824 to R826). -/
def State.offerWord (s : State) (n : Nat) : State :=
  let x := s.src n
  if x.st = 0 ∨ x.st = 4 then s
  else
    let takes := fun k =>
      let c := s.chan k
      c.hungry && c.st != 0 && c.st != 6 && (x.healthy || !s.chanSwitch k)
    match (List.range 4).find? takes with
    | none => s
    | some k =>
      let c := s.chan k
      let mac := condAbsorb c.mac (bytesLE 16 x.word)
      let credit := c.credit + (if x.healthy then 128 * x.h else 0)
      if 49152 ≤ credit then
        if s.ent.condFailed then s.updChan k (fun c => { c with mac := List.replicate 16 0, credit := 0 })
        else
          let s := s.updChan k (fun c => { c with mac := List.replicate 16 0, credit := 0, coming := c.coming ++ [(s.time + 100, mac)] })
          (s.bump Reg.ENT_COND_BLOCKS 1).event 0x0C01 pgEntropy { inst := some k }
      else s.updChan k (fun c => { c with mac := mac, credit := credit })

/-- NOISE_WORD (R815, R823, R829): the words of 128 samples are judged and offered. While a conditioner test runs no
word is absorbed (R845). -/
def execNoiseWord (s : State) : Host.Outcome State Fault Refusal :=
  if s.ent.samples < 128 then .next s
  else
    let s := { s with ent := { s.ent with policy := s.rf Reg.ENT_CHAN_CTRL 1 0 } }
    let held := match s.ent.kat with
      | some k => k.target == 0 && k.started.isSome
      | none => false
    let s := if held then s else (List.range 3).foldl State.offerWord s
    .next { s with ent := { s.ent with samples := 0,
                                       sources := s.ent.sources.map (fun x => { x with word := 0, healthy := true }) } }

/-- CONDITIONED_BLOCK_READY (R827). -/
def execConditionedBlockReady (chan : Nat) (s : State) : Host.Outcome State Fault Refusal :=
  match (s.chan chan).coming with
  | [] => .next s
  | (t, b) :: rest =>
    if s.time < t then .next s
    else .next (s.updChan chan (fun c => { c with coming := rest, blocks := c.blocks ++ [b], readyAt := t }))

/-! DRBG channels (R832 to R836). -/

/-- A channel must reseed before its next generate request (R834). -/
def State.reseedDue (s : State) (n : Nat) : Bool :=
  let c := s.chan n
  if n = 0 then !c.freshReseed else decide (s.reseedInt n ≤ c.since)

/-- DRBG_GENERATE_START (R833, R834): where the reserve has 64 bytes free, a channel that need not reseed starts a
request, and one that must reseed begins to need entropy. -/
def execDrbgGenerateStart (chan : Nat) (s : State) : Host.Outcome State Fault Refusal :=
  let c := s.chan chan
  if 4 ≤ chan ∨ c.instantiated = false ∨ c.gen.isSome ∨ c.need.isSome ∨ c.st ≠ 2 ∨ 4096 - 64 < c.reserve.length then .next s
  else if s.reseedDue chan then .next ((s.updChan chan (fun c => { c with need := some true, st := 3 })))
  else .next (s.updChan chan (fun c => { c with gen := some s.time }))

/-- DRBG_GENERATE_DONE (R832, R834, R835): 560 ns after its start. -/
def execDrbgGenerateDone (chan : Nat) (s : State) : Host.Outcome State Fault Refusal :=
  let c := s.chan chan
  match c.gen with
  | none => .next s
  | some t =>
    if s.time < t + 560 then .next s
    else
      let g := drbgGenerate c.key c.v
      let s := s.updChan chan (fun c => { c with
        key := g.2.1, v := g.2.2, gen := none, since := c.since + 1, freshReseed := false
        reserve := c.reserve ++ g.1.map (BitVec.ofNat 8) })
      if chan ≠ 0 ∧ s.reseedDue chan then
        .next (s.updChan chan (fun c => { c with need := some true, st := if c.st = 2 then 3 else c.st }))
      else .next s

/-- DRBG_RESEED_DONE (R832, R835): an instantiate or reseed completes 60 ns after its third block is ready. -/
def execDrbgReseedDone (chan : Nat) (s : State) : Host.Outcome State Fault Refusal :=
  let c := s.chan chan
  match c.need with
  | none => .next s
  | some reseed =>
    if c.blocks.length < 3 ∨ s.time < c.readyAt + 60 ∨ c.st = 6 then .next s
    else
      let e := ((c.blocks.take 3).flatten)
      let u := if reseed then drbgUpdate c.key c.v e else drbgInstantiate e chan
      let s := s.updChan chan (fun c => { c with
        key := u.1, v := u.2, need := none, blocks := [], since := 0, instantiated := true, freshReseed := reseed
        st := if c.st = 5 then 5 else 2 })
      let s := if reseed then s.event 0x0C02 pgEntropy { inst := some chan } else s
      .next s

/-! Consumers (R812, R837 to R839). -/

/-- Take n bytes of a channel's reserve; none where it holds fewer, or the block is not ready (R860). -/
def State.draw (s : State) (chan n : Nat) : State × Option (List Byte) :=
  let c := s.chan chan
  if s.entReady = false ∨ c.reserve.length < n ∨ (c.st = 6 ∧ 2 ≤ chan) then (s, none)
  else (s.updChan chan (fun c => { c with reserve := c.reserve.drop n }), some (c.reserve.take n))

/-- A NOT_READY response of TUNSEED or SOFT (Table 16-4). -/
def State.notReady (s : State) (chan : Nat) : State :=
  (s.bumpSat (Reg.ENT_CHAN_0_WAITS + 4 * chan) 1).event 0x0C03 pgEntropy { inst := some chan }

/-- A TUNSEED draw (R838, R852). -/
def State.drawSeed (s : State) : State × Option Nat :=
  match s.draw 2 8 with
  | (s, some b) => (s, some (leNat b))
  | (s, none) => (s.notReady 2, none)

/-- The last value a path has read. -/
def State.pathRead (s : State) (p : Path) (v : List Word) : State :=
  match p with
  | .host => { s with hostPath := { s.hostPath with lastRead := v } }
  | .manager => { s with mgrPath := { s.mgrPath with lastRead := v } }

/-- What a read of SOFT_DATA answers a path: the word, and LAST_VALID (R839, R850). -/
def State.softAnswer (s : State) (r : SoftRead) : State :=
  let s := { s with ent := match r.path with
    | .host => { s.ent with softHost := r.ok }
    | .manager => { s.ent with softMgr := r.ok } }
  s.pathRead r.path [r.word]

/-- SOFT_DATA_READ (R839, R850, R853): of two reads in one MCLK cycle the steward's takes the older bytes, whichever came first. -/
def effectSoftDataRead (p : Path) (s : State) : Host.Outcome State Fault Refusal :=
  let d := s.draw 3 4
  let r : SoftRead := { path := p, word := BitVec.ofNat 32 (leNat (d.2.getD [])), ok := d.2.isSome }
  let s := if r.ok then d.1 else d.1.notReady 3
  match s.ent.softRead with
  | some o =>
    if o.path ≠ p ∧ s.steward pgEntropy = p then
      .next { ((s.softAnswer { o with path := p }).softAnswer { r with path := o.path }) with
        ent := { ((s.softAnswer { o with path := p }).softAnswer { r with path := o.path }).ent with softRead := none } }
    else .next (s.softAnswer r)
  | none => .next { s.softAnswer r with ent := { (s.softAnswer r).ent with softRead := some r } }

/-! Known-answer tests (R842 to R846, R857). -/

/-- The code of KAT_STATUS changes and nothing else. -/
def State.katCode (s : State) (code : Nat) : State := s.wf Reg.ENT_KAT_STATUS 23 16 code

/-- A KAT_CMD write with GO for a target 0 to 4 (R842, R846, R857). -/
def State.katAsk (s : State) (target : Nat) : State :=
  if s.ent.kat.isSome ∨ s.ent.katEnded then { s with ent := { s.ent with katBusy := true } }.katCode 2
  else if target = 0 then
    { s with ent := { s.ent with kat := some { target := 0, asked := s.time, started := some s.time, boot := false } } }.katStatus 2 0 0
  else if (s.chan (target - 1)).st = 5 ∨ (s.chan (target - 1)).st = 6 then s.katCode 4
  else { s with ent := { s.ent with kat := some { target := target, asked := s.time, started := none, boot := false } } }.katStatus 1 0 target

/-- KAT_CONDITIONER (R845, R846): a write of KAT_CMD with GO and TARGET 0. -/
def effectKatConditioner (_p : Path) (v : Word) (s : State) : Host.Outcome State Fault Refusal :=
  if bit v.toNat 31 = false ∨ fld v.toNat 2 0 ≠ 0 then .next s else .next (s.katAsk 0)

/-- KAT_CHANNEL (R843, R846): a write of KAT_CMD with GO and a channel's TARGET. -/
def effectKatChannel (_p : Path) (v : Word) (s : State) : Host.Outcome State Fault Refusal :=
  let t := fld v.toNat 2 0
  if bit v.toNat 31 = false ∨ t = 0 ∨ 4 < t then .next s else .next (s.katAsk t)

/-- KAT_START (R843): once the reserve is full, or after 100 µs. The test takes the place of what the channel's DRBG was doing, which the
re-instantiation after it replaces. -/
def execKatStart (s : State) : Host.Outcome State Fault Refusal :=
  match s.ent.kat with
  | none => .next s
  | some k =>
    if k.started.isSome ∨ k.target = 0 then .next s
    else if (s.chan (k.target - 1)).reserve.length < 4096 ∧ s.time < k.asked + 100000 then .next s
    else
      let s := { s with ent := { s.ent with kat := some { k with started := some s.time } } }
      .next ((s.updChan (k.target - 1) (fun c => { c with
        st := 4, gen := none, need := none, blocks := [], coming := [] })).katStatus 2 0 k.target)

/-- A failed known-answer test (Table 16-5). -/
def State.katFailed (s : State) (target : Nat) : State :=
  if target = 0 then { s with ent := { s.ent with condFailed := true } }.raiseErr pgEntropy 0x0C04 0
  else
    let c := target - 1
    let s := (s.updChan c (fun c => { c with st := 6, need := none, gen := none })).raiseErr pgEntropy 0x0C05 c
    if c < 2 then s.raiseErr pgEntropy 0x0C03 c else s

/-- A test of a channel has passed: it re-instantiates (R843), or waits for the end of the start-up sequence. -/
def State.katPassed (s : State) (k : Kat) : State :=
  if k.target = 0 then s
  else if k.boot then s.updChan (k.target - 1) (fun c => { c with st := 0 })
  else s.updChan (k.target - 1) (fun c => { c with st := 3, need := some false, instantiated := false })

/-- KAT_DONE (R843, R845, R857, R860): 2,000 ns after a channel test's start, 1,000 ns after the conditioner's; whether the hardware's answer
compares equal is the operand. In the start-up sequence the next test follows, and after the last the channels instantiate. -/
def execKatDone (pass : Bool) (s : State) : Host.Outcome State Fault Refusal :=
  match s.ent.kat with
  | none => .next s
  | some k => match k.started with
    | none => .next s
    | some t =>
      if s.time < t + (if k.target = 0 then 1000 else 2000) then .next s
      else
        let s := { s with ent := { s.ent with kat := none, katEnded := true } }
        let s := s.katStatus 3 (if s.ent.katBusy then 2 else if pass then 0 else 1) k.target
        let s := if pass then s.katPassed k else s.katFailed k.target
        .next (if k.boot = false then s else if k.target < 4 then s.bootKat (k.target + 1) else s.entStartChans)

/-- KAT_BAD_TARGET (R849). -/
def effectKatBadTarget (_p : Path) (v : Word) (s : State) : Host.Outcome State Fault Refusal :=
  if bit v.toNat 31 && decide (4 < fld v.toNat 2 0) then .next (s.katCode 3) else .next s

/-! Source controls and test patterns (R816, R822, R847 to R849). -/

/-- Start a source that its H leaves enabled on its start-up test (R814, R820). -/
def State.startSource (s : State) (n : Nat) : State :=
  let fig := s.sourceFigures n
  s.updSrc n (fun x => { x.beginTest true with h := fig.1, cRct := fig.2.1, cApt := fig.2.2, failsRow := 0,
                                               st := if fig.1 = 0 then 0 else 1 })

/-- What a write of SRC_CTRL does to source n: DISABLE stops it or, cleared, starts it, and RESTART restarts an EXCLUDED or DEAD one
(R816, R822). -/
def State.srcCtrl (v : Nat) (s : State) (n : Nat) : State :=
  let was := bit (s.rg Reg.ENT_SRC_CTRL) n
  let s := s.wf Reg.ENT_SRC_CTRL n n (b2n (bit v n))
  if bit v n then s.updSrc n (fun x => { x with st := 0, testLeft := none, nextTest := none })
  else if was then s.startSource n
  else if bit v (8 + n) && ((s.src n).st == 3 || (s.src n).st == 4) then
    s.updSrc n (fun x => { x.beginTest false with st := 3, failsRow := 0 })
  else s

/-- A write of SRC_CTRL (Table 16-4). -/
def State.srcCtrlWrite (s : State) (v : Nat) : State := (List.range 3).foldl (State.srcCtrl v) s

/-- SOURCE_RESTART (R822): a write of SRC_CTRL, of which RESTART concerns sources that are EXCLUDED or DEAD. -/
def effectSourceRestart (_p : Path) (v : Word) (s : State) : Host.Outcome State Fault Refusal := .next (s.srcCtrlWrite v.toNat)

/-- SOURCE_DISABLE (R816, R841): a write of SRC_CTRL; its DISABLE bits stop their sources. -/
def effectSourceDisable (_p : Path) (v : Word) (s : State) : Host.Outcome State Fault Refusal := .next (s.srcCtrlWrite v.toNat)

/-- SOURCE_ENABLE (R849): a write of SRC_CTRL; a DISABLE bit that it clears starts its source. -/
def effectSourceEnable (_p : Path) (v : Word) (s : State) : Host.Outcome State Fault Refusal := .next (s.srcCtrlWrite v.toNat)

/-- TEST_PATTERN_WRITE (R847, R848): TP_CTRL or TP_DATA. The life-cycle code of FACTORY is 1 (Table 17-1). -/
def effectTestPatternWrite (_p : Path) (ctrl : Bool) (v : Word) (s : State) : Host.Outcome State Fault Refusal :=
  if s.lcState ≠ 1 then .next (s.wr Reg.ENT_ENT_CFG_ERR 1)
  else if ctrl then
    let old := s.rg Reg.ENT_TP_CTRL
    let s := s.wr Reg.ENT_TP_CTRL (fld v.toNat 2 0)
    .next ((List.range 3).foldl (fun s n =>
      if bit v.toNat n && !bit old n then s.updSrc n (fun x => { x with tpPos := 0 }) else s) s)
  else .next (s.wr Reg.ENT_TP_DATA v.toNat)

/-- Steps 1 to 3 of R860, after a reset of the entropy page. -/
def State.entStart (s : State) : State :=
  let s := { s with ent := { EntState.reset with starting := true, lastSample := s.time, softHost := s.ent.softHost, softMgr := s.ent.softMgr } }
  (List.range 3).foldl (fun s n => if bit (s.rg Reg.ENT_SRC_CTRL) n then s else s.startSource n) s

end Sys2Proof.Machine
end

