-- ==== Sys2Proof/Machine/CoreIsa.lean ====
section
/-! DEFINITION. The slots of a Gnomos bundle, the opcode maps with their operands and latencies, the rules that make a slot
or a bundle illegal, and the results of the S and V classes (spec/10_gnomos_encoding.md). -/

namespace Sys2Proof.Machine

/-- The register files of a core. -/
inductive RegFile where
  | s | v | p
deriving DecidableEq, Repr

/-- Registers of a file, and the number by which the model holds the first. -/
def RegFile.size : RegFile → Nat
  | .s => 64 | .v => 32 | .p => 8
def RegFile.base : RegFile → Nat
  | .s => 0 | .v => 64 | .p => 96

/-- One slot of a bundle (Tables 10-1 and 10-2): its number k and its fields. -/
structure Slot where
  k : Nat
  op : Nat
  pr : Nat
  pn : Bool
  mod : Nat
  d : Nat
  a : Nat
  low : Nat
deriving DecidableEq, Repr

/-- Slot k of value w (Table 10-1). -/
def slotOf (k w : Nat) : Slot :=
  { k := k, op := fld w 63 56, pr := fld w 55 53, pn := bit w 52, mod := fld w 51 48, d := fld w 47 40, a := fld w 39 32
    low := fld w 31 0 }

/-- The slots of a bundle's 64 bytes (R530). -/
def bundleSlots (bs : List Byte) : List Slot := (List.range 8).map (fun k => slotOf k (leAt bs (8 * k) 8))

def Slot.b (x : Slot) : Nat := fld x.low 31 24
def Slot.c (x : Slot) : Nat := fld x.low 23 16
def Slot.imm (x : Slot) : Int := sInt 32 x.low
def Slot.sp1 (x : Slot) : Nat := fld x.low 15 14
def Slot.sp2 (x : Slot) : Nat := fld x.low 13 12
def Slot.pd (x : Slot) : Nat := fld x.low 11 9

/-- The form of bits [31:0] (Table 10-2): i n is an immediate of which n bits are used, e tells which of SP1, SP2 and PD the
opcode names, and none reserves every field after PN. -/
inductive SlotForm where
  | none
  | r
  | i (n : Nat)
  | e (sp1 sp2 pd : Bool)
deriving DecidableEq, Repr

/-- What the opcode tables say of an opcode: the file of each register field, whether D is written and whether it is read,
the form, the MOD values allowed (R546, R549) and the latency. -/
structure OpInfo where
  d : Option RegFile
  dw : Bool
  dr : Bool
  a : Option RegFile
  b : Option RegFile
  c : Option RegFile
  form : SlotForm
  mods : List Nat
  lat : Nat
deriving DecidableEq, Repr

/-- A form-R opcode that writes D. -/
def opR (d a : RegFile) (b c : Option RegFile) (lat : Nat) (mods : List Nat := [0]) : OpInfo :=
  { d := some d, dw := true, dr := false, a := some a, b := b, c := c, form := .r, mods := mods, lat := lat }

/-- A form-I opcode that writes D. -/
def opI (d : RegFile) (a : Option RegFile) (n lat : Nat) : OpInfo :=
  { d := some d, dw := true, dr := false, a := a, b := none, c := none, form := .i n, mods := [0], lat := lat }

/-- An opcode with no operand field. -/
def opNone (lat : Nat) : OpInfo :=
  { d := none, dw := false, dr := false, a := none, b := none, c := none, form := .none, mods := [0], lat := lat }

def inRange (x lo hi : Nat) : Bool := decide (lo ≤ x) && decide (x ≤ hi)

/-- Table 10-4. -/
def sInfo (op : Nat) : Option OpInfo :=
  let s := some RegFile.s
  if op = 0 then some (opNone 1)
  else if inRange op 0x01 0x0C then some (opR .s .s s none 1)
  else if op = 0x0D then some (opR .s .s s (some .p) 1)
  else if inRange op 0x0E 0x13 then some (opR .s .s none none 1)
  else if inRange op 0x18 0x1A then some (opR .s .s s none 3)
  else if inRange op 0x1C 0x1F then some (opR .s .s s none 18)
  else if inRange op 0x20 0x23 then some (opI .s s 32 1)
  else if inRange op 0x24 0x26 then some (opI .s s 6 1)
  else if op = 0x27 then some (opI .s none 32 1)
  else if op = 0x28 then some { opI .s none 32 1 with dr := true }
  else if inRange op 0x30 0x35 then some (opR .p .s s none 1)
  else if inRange op 0x38 0x3D then some (opI .p s 32 1)
  else if inRange op 0x40 0x43 then some (opR .p .p (some .p) none 1)
  else if inRange op 0x50 0x59 || inRange op 0x60 0x69 then
    match op % 16 with
    | 3 => some (opR .s .s s s 4)
    | 4 => some (opR .s .s s none 12)
    | 5 => some (opR .s .s none none 12)
    | 6 => some (opR .s .s s none 2)
    | 7 => some (opR .s .s s none 2)
    | 8 => some (opR .s .s none none 1)
    | 9 => some (opR .s .s none none 1)
    | _ => some (opR .s .s s none 4)
  else if inRange op 0x70 0x72 || inRange op 0x74 0x76 then some (opR .p .s s none 2)
  else if inRange op 0x78 0x7F then some (opR .s .s none none 4)
  else none

/-- Table 10-6, with MOD for the latency of a reduction. -/
def vInfo (op mod : Nat) : Option OpInfo :=
  let v := some RegFile.v
  let s := some RegFile.s
  let ints := [0, 1, 2, 3]
  let any := [0, 1, 2, 3, 4, 5]
  if op = 0 then some (opNone 1)
  else if inRange op 0x08 0x0A then some (opR .v .v s none 2 ints)
  else if inRange op 0x01 0x0D then some (opR .v .v v none (if op = 3 then 3 else 2) ints)
  else if inRange op 0x10 0x12 then some (opR .v .v v none 2)
  else if op = 0x13 then some (opR .v .v v v 2)
  else if op = 0x14 then some (opR .v .v none none 2)
  else if op = 0x23 then some (opR .v .v v v 4 [4, 5])
  else if inRange op 0x20 0x29 then some (opR .v .v v none (if op = 0x24 then 12 else if op < 0x24 then 4 else 2) [4, 5])
  else if op = 0x30 then some (opR .v .s none none 2 any)
  else if op = 0x31 then some (opR .s .v s none 2 any)
  else if op = 0x32 then some { opR .v .s s none 2 any with dr := true }
  else if inRange op 0x33 0x35 then some (opR .s .v none none (if mod < 4 then 3 else if mod = 4 then 20 else 16) any)
  else if inRange op 0x38 0x3B then some (opR .v .v none none 4)
  else none

/-- What slot 4 does. -/
inductive MKind where
  | load | store | alias_ | amo | fence | other
deriving DecidableEq, Repr

def mKind (op : Nat) : MKind :=
  if inRange op 0x01 0x08 then .load else if inRange op 0x10 0x14 then .store else if inRange op 0x18 0x1B then .alias_
  else if inRange op 0x20 0x2D then .amo else if inRange op 0x30 0x32 then .fence else .other

/-- Table 10-5: slot 4, and slot 5 up to 0x08. Latencies of memory accesses depend on the address. -/
def mInfo (slot op : Nat) : Option OpInfo :=
  let s := some RegFile.s
  if op = 0 then some (opNone 1)
  else if inRange op 0x01 0x07 then some (opI .s s 32 3)
  else if op = 0x08 then some (opI .v s 32 4)
  else if slot = 5 then none
  else if inRange op 0x10 0x13 || inRange op 0x18 0x1B then some { opI .s s 32 1 with dw := false, dr := true }
  else if op = 0x14 then some { opI .v s 32 1 with dw := false, dr := true }
  else if inRange op 0x20 0x2B then some (opR .s .s s none 7)
  else if inRange op 0x2C 0x2D then some (opR .s .s s s 7)
  else if inRange op 0x30 0x32 then some (opNone 1)
  else none

/-- Table 10-7. -/
def eInfo (op : Nat) : Option OpInfo :=
  let s := some RegFile.s
  let mk := fun (d : Option RegFile) (dw : Bool) (b c : Option RegFile) (form : SlotForm) (lat : Nat) =>
    ({ d := d, dw := dw, dr := false, a := s, b := b, c := c, form := form, mods := [0], lat := lat } : OpInfo)
  if op = 0 then some (opNone 1)
  else if inRange op 0x01 0x04 then some (mk s true none none (.e true false false) 2)
  else if op = 0x08 then some (mk s true s s (.e true true false) 2)
  else if op = 0x10 then some (mk s true none none (.e false false false) 2)
  else if op = 0x11 then some (mk s true none none (.e false false true) 2)
  else if op = 0x12 then some (mk none false none none (.e false false false) 1)
  else none

/-- Table 10-8. -/
def cInfo (op : Nat) : Option OpInfo :=
  let s := some RegFile.s
  match op with
  | 0x00 => some (opNone 1)
  | 0x01 => some { opI .s none 32 3 with d := none, dw := false }
  | 0x02 => some (opI .s none 32 3)
  | 0x03 => some { opR .s .s none none 3 with d := none, dw := false }
  | 0x04 => some (opR .s .s none none 3)
  | 0x08 => some (opI .s none 8 1)
  | 0x09 => some { opI .s s 8 1 with d := none, dw := false }
  | 0x10 => some (opNone 3)
  | 0x11 => some (opNone 1)
  | 0x12 => some { opI .s none 16 1 with d := none, dw := false }
  | 0x13 => some (opNone 1)
  | _ => none

/-- The opcode map of a slot (Table 09-1, R550). -/
def Slot.info (x : Slot) : Option OpInfo :=
  match x.k with
  | 0 => sInfo x.op | 1 => sInfo x.op | 2 => vInfo x.op x.mod | 3 => vInfo x.op x.mod
  | 4 => mInfo 4 x.op | 5 => mInfo 5 x.op | 6 => eInfo x.op | _ => cInfo x.op

/-- A register field names a register of its file, by the model's number. -/
def regOf (f : Option RegFile) (n : Nat) : List Nat :=
  match f with
  | none => []
  | some f => if n < f.size then [f.base + n] else []

/-- The registers that a slot reads beside its predicate. -/
def Slot.reads (x : Slot) : List Nat :=
  match x.info with
  | none => []
  | some o => (if o.dr then regOf o.d x.d else []) ++ regOf o.a x.a ++ regOf o.b x.b ++ regOf o.c x.c

/-- The registers that a slot writes (R540); s0 and p0 count as none. -/
def Slot.writes (x : Slot) : List Nat :=
  match x.info with
  | none => []
  | some o =>
    let l := (if o.dw then regOf o.d x.d else []) ++ (match o.form with | .e _ _ true => [96 + x.pd] | _ => [])
    l.filter (fun r => r != 0 && r != 96)

/-- The lowest active slot that takes part in a conflict of R540. -/
def conflict (act : List Slot) : Option Nat :=
  (act.find? (fun x => act.any (fun y => y.k != x.k && x.writes.any (fun r => y.writes.contains r)))).map (·.k)

/-- The special registers of Table 09-5 that are read only. -/
def csrReadOnly (n : Nat) : Bool :=
  n == 0x08 || n == 0x09 || inRange n 0x0B 0x14 || n == 0x16

/-- ILLEGAL_OP of an active slot (R539), but for the length of a dma.start. -/
def Slot.illegal (x : Slot) : Bool :=
  match x.info with
  | none => true
  | some o =>
    let bad := fun (f : Option RegFile) (n : Nat) => match f with | none => decide (n ≠ 0) | some f => decide (f.size ≤ n)
    !o.mods.contains x.mod || bad o.d x.d || bad o.a x.a ||
    match o.form with
    | .none => decide (x.low ≠ 0)
    | .r => bad o.b x.b || bad o.c x.c || decide (fld x.low 15 0 ≠ 0)
    | .i n => decide (n < 32 ∧ x.low >>> n ≠ 0) ||
        (x.k == 7 && ((x.op == 8 && decide (0x16 < fld x.low 7 0)) ||
          (x.op == 9 && (decide (0x16 < fld x.low 7 0) || csrReadOnly (fld x.low 7 0)))))
    | .e s1 s2 p => bad o.b x.b || bad o.c x.c || decide (fld x.low 8 0 ≠ 0) || (if s1 then x.sp1 == 3 else x.sp1 != 0) ||
        (if s2 then x.sp2 == 3 else x.sp2 != 0) || (!p && x.pd != 0)

/-! Arithmetic (R534 to R537). -/

abbrev two64 : Nat := 1 <<< 64

/-- The low 64 bits of an integer. -/
def to64 (x : Int) : Nat := toTwos 64 x

/-- min and max of R535: −0 below +0, and the canonical NaN where either operand is a NaN. -/
def Fmt.minMax (f : Fmt) (isMax : Bool) (x y : Nat) : Nat :=
  let a := f.dec x
  let b := f.dec y
  if a.isNan || b.isNan then f.qnan
  else
    let below := a.lt b || (a.eqv b && a.isNeg && !b.isNeg)
    if below != isMax then x else y

/-- Two-operand arithmetic on patterns: add, subtract, multiply, divide by an operation number 0 to 4 (3 is the fused form,
with c). -/
def Fmt.arith (f : Fmt) (o x y c : Nat) : Nat :=
  let a := f.dec x
  let b := f.dec y
  match o with
  | 0 => f.enc (a.add b)
  | 1 => f.enc (a.sub b)
  | 2 => f.enc (a.mul b)
  | 3 => f.enc (a.fma b (f.dec c))
  | _ => f.div a b

/-- eq, lt and le; false on a NaN. -/
def Fmt.rel (f : Fmt) (o x y : Nat) : Bool :=
  match o with
  | 0 => (f.dec x).eqv (f.dec y)
  | 1 => (f.dec x).lt (f.dec y)
  | _ => (f.dec x).le (f.dec y)

/-- A pattern converted to an n-bit signed integer (R536). -/
def Fmt.toSigned (f : Fmt) (n x : Nat) : Nat :=
  let hi : Int := ((1 <<< (n - 1) : Nat) : Int) - 1
  match f.dec x with
  | .nan => 0
  | .inf neg => toTwos n (if neg then -hi - 1 else hi)
  | d => toTwos n (clampInt (-hi - 1) hi d.toIntRne)

/-- The quotient and the remainder of R537. -/
def divRem (signed : Bool) (a b : Nat) : Nat × Nat :=
  if b = 0 then (two64 - 1, a)
  else if signed then
    let x := sInt 64 a
    let y := sInt 64 b
    let q : Int := if (x < 0) = (y < 0) then ((x.natAbs / y.natAbs : Nat) : Int) else -((x.natAbs / y.natAbs : Nat) : Int)
    (to64 q, to64 (x - q * y))
  else (a / b, a % b)

/-- The integer operations 0x01 to 0x0C of Table 10-4. -/
def sAlu (op a b : Nat) : Nat :=
  let n := b % 64
  match op with
  | 0x01 => (a + b) % two64
  | 0x02 => (a + two64 - b) % two64
  | 0x03 => a &&& b
  | 0x04 => a ||| b
  | 0x05 => a ^^^ b
  | 0x06 => (a <<< n) % two64
  | 0x07 => a >>> n
  | 0x08 => to64 (sInt 64 a / ((1 <<< n : Nat) : Int))
  | 0x09 => if sInt 64 a < sInt 64 b then a else b
  | 0x0A => if sInt 64 a < sInt 64 b then b else a
  | 0x0B => Nat.min a b
  | _ => Nat.max a b

/-- eq, ne, lt, ltu, ge and geu of Table 10-4. -/
def sCmp (o a b : Nat) : Bool :=
  match o with
  | 0 => a == b
  | 1 => a != b
  | 2 => decide (sInt 64 a < sInt 64 b)
  | 3 => decide (a < b)
  | 4 => decide (sInt 64 b ≤ sInt 64 a)
  | _ => decide (b ≤ a)

/-- A floating operation of 0x50 to 0x59 or 0x60 to 0x69 in a format. abs and neg change only the sign bit. -/
def sFloat (f : Fmt) (o a b c : Nat) : Nat :=
  let m := lowBits a f.width
  let sign := 1 <<< (f.width - 1)
  match o with
  | 5 => f.sqrt (f.dec m)
  | 6 => f.minMax false m (lowBits b f.width)
  | 7 => f.minMax true m (lowBits b f.width)
  | 8 => lowBits m (f.width - 1)
  | 9 => m ^^^ sign
  | _ => f.arith o m (lowBits b f.width) (lowBits c f.width)

/-- The conversions 0x78 to 0x7F. -/
def sConvert (o a : Nat) : Nat :=
  let w := lowBits a 32
  match o with
  | 0 => f32.enc (Fp.ofInt (sInt 64 a))
  | 1 => f32.toSigned 64 w
  | 2 => f64.enc (Fp.ofInt (sInt 64 a))
  | 3 => f64.toSigned 64 a
  | 4 => f64.enc (f32.dec w)
  | 5 => f32.enc (f64.dec a)
  | 6 => f32.enc (bf16.dec (lowBits a 16))
  | _ => bf16.enc (f32.dec w)

/-- The result of an S-class slot (Table 10-4): operands a, b and c, the immediate and the old D. -/
def sEval (x : Slot) (a b c d : Nat) : Nat :=
  let op := x.op
  let im := to64 x.imm
  if inRange op 0x01 0x0C then sAlu op a b
  else if op = 0x0D then (if c ≠ 0 then a else b)
  else if inRange op 0x0E 0x10 then (let n := 8 <<< (op - 0x0E); to64 (sInt n a))
  else if inRange op 0x11 0x13 then lowBits a (8 <<< (op - 0x11))
  else if op = 0x18 then (a * b) % two64
  else if op = 0x19 then to64 (sInt 64 a * sInt 64 b / (two64 : Int))
  else if op = 0x1A then a * b / two64
  else if op = 0x1C then (divRem true a b).1
  else if op = 0x1D then (divRem false a b).1
  else if op = 0x1E then (divRem true a b).2
  else if op = 0x1F then (divRem false a b).2
  else if op = 0x20 then sAlu 0x01 a im
  else if inRange op 0x21 0x23 then sAlu (op - 0x21 + 0x03) a im
  else if inRange op 0x24 0x26 then sAlu (op - 0x24 + 0x06) a im
  else if op = 0x27 then im
  else if op = 0x28 then lowBits d 32 + (x.low <<< 32)
  else if inRange op 0x30 0x35 then b2n (sCmp (op - 0x30) a b)
  else if inRange op 0x38 0x3D then b2n (sCmp (op - 0x38) a im)
  else if op = 0x40 then a &&& b
  else if op = 0x41 then a ||| b
  else if op = 0x42 then a ^^^ b
  else if op = 0x43 then b2n (a != 0 && b == 0)
  else if inRange op 0x50 0x59 then sFloat f32 (op - 0x50) a b c
  else if inRange op 0x60 0x69 then sFloat f64 (op - 0x60) a b c
  else if inRange op 0x70 0x72 then b2n (f32.rel (op - 0x70) (lowBits a 32) (lowBits b 32))
  else if inRange op 0x74 0x76 then b2n (f64.rel (op - 0x74) a b)
  else sConvert (op - 0x78) a

/-! Vectors (Table 10-6, R549, R553). -/

/-- The element width of a MOD value (Table 10-3). -/
def elemBits (mod : Nat) : Nat :=
  match mod with
  | 0 => 8 | 1 => 16 | 2 => 32 | 3 => 64 | 4 => 32 | _ => 64

/-- The elements of a vector register, and a register from its elements. -/
def vElems (w x : Nat) : List Nat := (List.range (1024 / w)).map (fun e => fld x (w * e + w - 1) (w * e))
def vPack (w : Nat) : List Nat → Nat
  | [] => 0
  | e :: es => lowBits e w + (vPack w es <<< w)

/-- One element of the integer operations 0x01 to 0x0D. -/
def vInt (op w a b : Nat) : Nat :=
  let ones := (1 <<< w) - 1
  let n := b % w
  match op with
  | 0x01 => a + b
  | 0x02 => a + (1 <<< w) - b
  | 0x03 => a * b
  | 0x04 => if sInt w a < sInt w b then a else b
  | 0x05 => if sInt w a < sInt w b then b else a
  | 0x06 => Nat.min a b
  | 0x07 => Nat.max a b
  | 0x08 => a <<< n
  | 0x09 => a >>> n
  | 0x0A => toTwos w (sInt w a / ((1 <<< n : Nat) : Int))
  | 0x0B => if a = b then ones else 0
  | 0x0C => if sInt w a < sInt w b then ones else 0
  | _ => if a < b then ones else 0

/-- One element of the floating operations 0x20 to 0x29. -/
def vFloat (f : Fmt) (o a b c : Nat) : Nat :=
  if o ≤ 4 then f.arith o a b c
  else if o = 5 then f.minMax false a b
  else if o = 6 then f.minMax true a b
  else if f.rel (o - 7) a b then (1 <<< f.width) - 1 else 0

/-- The floating reduction of R553 over 2^k elements. -/
def vReduce (op : Nat → Nat → Nat) : Nat → List Nat → Nat
  | 0, l => l.getD 0 0
  | k + 1, l => let h := l.length / 2
                vReduce op k (((l.take h).zip (l.drop h)).map (fun p => op p.1 p.2))

/-- vsum, vrmin and vrmax. -/
def vFold (o mod : Nat) (es : List Nat) : Nat :=
  let w := elemBits mod
  if mod < 4 then
    let is := es.map (sInt w)
    match o with
    | 0 => to64 (sumInt id is)
    | 1 => to64 (is.foldl (fun m x => if x < m then x else m) (is.getD 0 0))
    | _ => to64 (is.foldl (fun m x => if m < x then x else m) (is.getD 0 0))
  else
    let f := if mod = 4 then f32 else f64
    vReduce (fun a b => match o with | 0 => f.arith 0 a b 0 | 1 => f.minMax false a b | _ => f.minMax true a b) (if mod = 4 then 5 else 4) es

/-- The result of a V-class slot: operands and the old D. -/
def vEval (x : Slot) (a b c d : Nat) : Nat :=
  let op := x.op
  let w := elemBits x.mod
  let n := 1024 / w
  let f := if x.mod = 4 then f32 else f64
  let zip2 := fun (g : Nat → Nat → Nat) => vPack w (((vElems w a).zip (vElems w b)).map (fun p => g p.1 p.2))
  if inRange op 0x08 0x0A then vPack w ((vElems w a).map (fun e => vInt op w e b))
  else if inRange op 0x01 0x0D then zip2 (vInt op w)
  else if op = 0x10 then a &&& b
  else if op = 0x11 then a ||| b
  else if op = 0x12 then a ^^^ b
  else if op = 0x13 then (c &&& a) ||| ((((1 <<< 1024) - 1) ^^^ c) &&& b)
  else if op = 0x14 then a
  else if op = 0x23 then vPack w (((vElems w a).zip ((vElems w b).zip (vElems w c))).map (fun p => vFloat f 3 p.1 p.2.1 p.2.2))
  else if inRange op 0x20 0x29 then zip2 (fun p q => vFloat f (op - 0x20) p q 0)
  else if op = 0x30 then vPack w (List.replicate n (lowBits a w))
  else if op = 0x31 then (let e := (vElems w a).getD (b % n) 0; if x.mod < 4 then to64 (sInt w e) else e)
  else if op = 0x32 then vPack w (updAt (b % n) (fun _ => lowBits a w) (vElems w d))
  else if inRange op 0x33 0x35 then vFold (op - 0x33) x.mod (vElems w a)
  else if op = 0x38 then vPack 32 ((vElems 32 a).map (fun e => f32.enc (Fp.ofInt (sInt 32 e))))
  else if op = 0x39 then vPack 32 ((vElems 32 a).map (f32.toSigned 32))
  else if op = 0x3A then vPack 64 ((vElems 64 a).map (fun e => f64.enc (Fp.ofInt (sInt 64 e))))
  else vPack 64 ((vElems 64 a).map (f64.toSigned 64))

/-! Memory accesses (Table 10-5). -/

/-- The bytes of a slot-4 or slot-5 access. -/
def accessBytes (op : Nat) : Nat :=
  match op with
  | 0x01 => 1 | 0x02 => 1 | 0x03 => 2 | 0x04 => 2 | 0x05 => 4 | 0x06 => 4 | 0x07 => 8 | 0x08 => 128
  | 0x10 => 1 | 0x11 => 2 | 0x12 => 4 | 0x13 => 8 | 0x14 => 128
  | _ => if op % 2 = 0 then 4 else 8

/-- The register value of loaded bytes. -/
def loadValue (op : Nat) (bs : List Byte) : Nat :=
  let v := leNat bs
  match op with
  | 0x01 => to64 (sInt 8 v)
  | 0x03 => to64 (sInt 16 v)
  | 0x05 => to64 (sInt 32 v)
  | _ => v

/-- The atomic of an opcode 0x20 to 0x2D. -/
def amoFn (op : Nat) : AmoFn :=
  match (op - 0x20) / 2 with
  | 0 => .add | 1 => .and | 2 => .or | 3 => .swap | 4 => .min | 5 => .max | _ => .cas

end Sys2Proof.Machine
end

