-- ==== Sys2Proof/Machine/RunBlock.lean ====
section
/-! DEFINITION. Run blocks, kilns and grist headers: their fields, their validation in order, first-result times
and required sizes (spec/02 R93 to R113, spec/04 R169 to R209 and R1152, spec/05 R283 to R288). -/

namespace Sys2Proof.Machine

/-- A defect: the status, its reason code, and the EXT reason of Table 05-4. -/
structure Bad where
  status : Nat
  reason : Nat
  ext : Nat
deriving DecidableEq, Repr

abbrev badRun (r : Nat) : Bad := { status := St.RUN_INVALID, reason := r, ext := 0 }
abbrev badGrist (r : Nat) : Bad := { status := St.GRIST_INVALID, reason := r, ext := 0 }
abbrev badExt (r : Nat) : Bad := { status := St.EXT_INVALID, reason := 0, ext := r }
abbrev badRsvd : Bad := { status := St.RSVD_NONZERO, reason := 0, ext := 0 }
abbrev badSt (st : Nat) : Bad := { status := st, reason := 0, ext := 0 }

/-- The first defect of a list of checks in order. -/
def firstBad : List (Bool × Bad) → Option Bad
  | [] => none
  | (c, b) :: rest => if c then some b else firstBad rest

/-! Run block fields (Table 04-2, Table 05-1). -/

abbrev rbOp (b : List Byte) : Nat := leAt b 0x05 1
abbrev rbInit (b : List Byte) : Nat := leAt b 0x06 1
abbrev rbFlags (b : List Byte) : Nat := leAt b 0x07 1
abbrev rbX0 (b : List Byte) : Nat := leAt b 0x08 1
abbrev rbY0 (b : List Byte) : Nat := leAt b 0x09 1
abbrev rbX1 (b : List Byte) : Nat := leAt b 0x0A 1
abbrev rbY1 (b : List Byte) : Nat := leAt b 0x0B 1
abbrev rbReplicas (b : List Byte) : Nat := leAt b 0x0C 1
abbrev rbSpaces (b : List Byte) : Nat := leAt b 0x0E 2
abbrev rbGristSpace (b : List Byte) : Nat := fld (rbSpaces b) 1 0
abbrev rbKilnSpace (b : List Byte) : Nat := fld (rbSpaces b) 3 2
abbrev rbInitSpace (b : List Byte) : Nat := fld (rbSpaces b) 5 4
abbrev rbResSpace (b : List Byte) : Nat := fld (rbSpaces b) 7 6
abbrev rbGrist (b : List Byte) : Nat := leAt b 0x10 8
abbrev rbKiln (b : List Byte) : Nat := leAt b 0x18 8
abbrev rbInitAddr (b : List Byte) : Nat := leAt b 0x20 8
abbrev rbResult (b : List Byte) : Nat := leAt b 0x28 8
abbrev rbResultBytes (b : List Byte) : Nat := leAt b 0x30 4
abbrev rbSweeps (b : List Byte) : Nat := leAt b 0x34 4
abbrev rbSeed (b : List Byte) : Nat := leAt b 0x38 8
abbrev rbTarget (b : List Byte) : Int := sInt 128 (leAt b 0x40 16)
abbrev rbStall (b : List Byte) : Nat := leAt b 0x50 4
abbrev rbExch (b : List Byte) : Nat := leAt b 0x54 2
abbrev rbDeadline (b : List Byte) : Nat := leAt b 0x58 8
abbrev rbKind (b : List Byte) : Nat := leAt b 0x60 1
abbrev rbChip (b : List Byte) : Nat := leAt b 0x61 1
abbrev rbChipsX (b : List Byte) : Nat := leAt b 0x62 1
abbrev rbChipsY (b : List Byte) : Nat := leAt b 0x63 1
abbrev rbLinkMap (b : List Byte) : Nat := leAt b 0x64 3
abbrev rbMaxLag (b : List Byte) : Nat := leAt b 0x67 1
abbrev rbRdv (b : List Byte) : Nat := leAt b 0x68 2
abbrev rbSpanId (b : List Byte) : Nat := leAt b 0x6C 4
abbrev rbAux (b : List Byte) : Nat := leAt b 0x70 8
abbrev rbJoinUs (b : List Byte) : Nat := leAt b 0x78 2
abbrev rbRdvUs (b : List Byte) : Nat := leAt b 0x7A 2
/-- FLAGS of a run block. -/
abbrev rbSeedGiven (b : List Byte) : Bool := bit (rbFlags b) 0
abbrev rbTargetEn (b : List Byte) : Bool := bit (rbFlags b) 1
abbrev rbOutReplicas (b : List Byte) : Bool := bit (rbFlags b) 2
abbrev rbOutAll (b : List Byte) : Bool := bit (rbFlags b) 3
abbrev rbDefaultKiln (b : List Byte) : Bool := bit (rbFlags b) 4
/-- The tuns of a run block's rectangle. -/
def rbTuns (b : List Byte) : List Nat := boxTuns (rbX0 b) (rbY0 b) (rbX1 b) (rbY1 b)
/-- Width, tun count, lead tun and reduction term B_d of a rectangle (R92, R149, R172). -/
def rbW (b : List Byte) : Nat := rbX1 b + 1 - rbX0 b
def rbT (b : List Byte) : Nat := rbW b * (rbY1 b + 1 - rbY0 b)
def rbLead (b : List Byte) : Nat := 16 * rbY0 b + rbX0 b
def rbBd (b : List Byte) : Nat := (rbX1 b - rbX0 b) + (rbY1 b - rbY0 b) + 2

/-- Precision in bits (Table 02-5), and bytes of a value. -/
def precBits (p : Nat) : Nat := if p = 0 then 16 else if p = 1 then 32 else 64
def precBytes (p : Nat) : Nat := precBits p / 8

/-- STATE_BYTES (R76). -/
def stateBytes (n : Nat) : Nat := ceilDiv n 64 * 8

/-! EXT (R284 to R286, R244, R261). -/

/-- Chip offset of a direction: E, W, N, S, NE, SW are 0 to 5. -/
def dirDx (d : Nat) : Int := if d = 0 ∨ d = 4 then 1 else if d = 1 ∨ d = 5 then -1 else 0
def dirDy (d : Nat) : Int := if d = 2 ∨ d = 4 then 1 else if d = 3 ∨ d = 5 then -1 else 0

/-- The chip that lies in a direction of the chip grid, where there is one (R229, R244). -/
def partnerChip (cx cy c d : Nat) : Option Nat :=
  let x := (c % cx : Nat) + dirDx d
  let y := (c / cx : Nat) + dirDy d
  if 0 ≤ x ∧ x < cx ∧ 0 ≤ y ∧ y < cy then some (y.toNat * cx + x.toNat) else none

/-- LINK_MAP's nibble of a direction. -/
def linkOf (map d : Nat) : Nat := fld map (4 * d + 3) (4 * d)

/-- LINK_MAP names a link 0–7 exactly for the directions that have a partner, each once (R244). -/
def linksOk (b : List Byte) : Bool :=
  let m := rbLinkMap b
  let dirs := List.range 6
  dirs.all (fun d => if (partnerChip (rbChipsX b) (rbChipsY b) (rbChip b) d).isSome then decide (linkOf m d < 8) else linkOf m d == 15) &&
  dirs.all (fun d => dirs.all (fun e => e == d || linkOf m d == 15 || linkOf m d != linkOf m e))

/-- An HBM area of a job. -/
def State.inHbm (s : State) (region a n : Nat) : Bool := a % 64 == 0 && s.areaIn region spHbm a n

/-- The checks of EXT in offset order (R286). -/
def State.extChecks (s : State) (region : Nat) (b : List Byte) : List (Bool × Bad) :=
  let k := rbKind b
  let op := rbOp b
  let split := k == 2 || k == 3
  let rs := fun (used : Bool) (v : Nat) => (!used && v != 0, badRsvd)
  let c := rbChipsX b * rbChipsY b
  [(decide (4 ≤ k), badExt 1),
   ((k == 1 || k == 3) && op != 3 || k == 2 && op == 1, badExt 2),
   rs split (rbChip b), rs split (rbChipsX b), rs split (rbChipsY b),
   (split && (decide (c < 2) || decide (16 < c) || decide (c ≤ rbChip b)), badExt 3),
   rs split (rbLinkMap b), (split && !linksOk b, badExt 4),
   rs (k == 2) (rbMaxLag b), (k == 2 && rbMaxLag b == 0, badExt 5),
   rs (k == 2) (rbRdv b), (k == 2 && (rbRdv b == 0 || rbExch b % rbRdv b != 0), badExt 5),
   (leAt b 0x6A 2 != 0, badRsvd),
   rs split (rbSpanId b), (split && rbSpanId b == 0, badExt 6),
   rs (k != 0) (rbAux b), ((k == 1 || k == 3) && !s.inHbm region (rbAux b) 64, badRun 8),
   (k == 2 && rbChip b == 0 && !s.inHbm region (rbAux b) 0, badRun 8),
   rs split (rbJoinUs b), (split && rbJoinUs b == 0, badExt 5),
   rs split (rbRdvUs b), (split && rbRdvUs b == 0, badExt 5),
   (split && rbOutAll b, badExt 0x0C)]

/-- Step 1 of R176 without its tun checks. -/
def State.blockChecks (s : State) (region : Nat) (b : List Byte) : List (Bool × Bad) :=
  let sp := rbSpaces b
  [(leAt b 0 4 != 0x424E5552, badRun 1), (leAt b 4 1 != 1, badRun 2), (leAt b 0x7C 4 != crc32c (b.take 0x7C), badRun 3),
   (rbOp b == 0 || decide (3 < rbOp b), badRun 4), (decide (2 < rbInit b), badRun 5), (decide (fld (rbFlags b) 7 5 ≠ 0), badRsvd),
   (decide (15 < rbX0 b) || decide (7 < rbY0 b) || decide (15 < rbX1 b) || decide (7 < rbY1 b) || decide (rbX1 b < rbX0 b) ||
     decide (rbY1 b < rbY0 b) || !(rbTuns b).all (s.inRegion region), badRun 6),
   (rbReplicas b == 0 || decide (64 < rbReplicas b), badRun 7), (leAt b 0x0D 1 != 0, badRsvd),
   ((List.range 4).any (fun i => fld sp (2 * i + 1) (2 * i) == 3), badRun 8), (decide (fld sp 15 8 ≠ 0), badRsvd),
   (rbOp b != 2 && !s.areaIn region (rbGristSpace b) (rbGrist b) 128, badRun 8),
   (!rbDefaultKiln b && (rbKiln b % 64 != 0 || !s.areaIn region (rbKilnSpace b) (rbKiln b) 32), badRun 8),
   (rbResult b % 64 != 0 || !s.areaIn region (rbResSpace b) (rbResult b) (rbResultBytes b), badRun 8),
   (leAt b 0x56 2 != 0, badRsvd)] ++ s.extChecks region b

/-- The block's MAGIC, VERSION and CRC hold (R212). -/
def blockGenuine (b : List Byte) : Bool :=
  leAt b 0 4 == 0x424E5552 && leAt b 4 1 == 1 && leAt b 0x7C 4 == crc32c (b.take 0x7C)

/-- The K16 may write to the result area (R212). -/
def State.resultOk (s : State) (region : Nat) (genuine : Bool) (space a n : Nat) : Bool :=
  genuine && space != 3 && a % 64 == 0 && s.areaIn region space a n && decide (128 ≤ n)

/-! Kilns (R202 to R206, step 2 of R176). -/

/-- L_s (R203). -/
def stageLen (rungs : Nat) : Nat := 32 * ceilDiv (8 + 4 * rungs) 32

/-- A β may stand in a kiln (R204). -/
def betaOk (w : Nat) : Bool :=
  let m := lowBits w 31
  decide (m = 0) || (!bit w 31 && decide (m ≤ 0x7F800000))

/-- A ladder does not decrease (R205). -/
def ladderOk : List Nat → Bool
  | a :: b :: rest => decide (lowBits a 31 ≤ lowBits b 31) && ladderOk (b :: rest)
  | _ => true

/-- START_SWEEP and β of stage i of a table. -/
def kilnStage (t : List Byte) (rungs i : Nat) : Nat × List Nat :=
  let o := 32 + i * stageLen rungs
  (leAt t o 4, (List.range rungs).map (fun r => leAt t (o + 8 + 4 * r) 4))

/-- The defects of a kiln table whose bytes are t, in order (step 2 of R176). -/
def kilnChecks (t : List Byte) : List (Bool × Bad) :=
  let nr := leAt t 5 1
  let ns := leAt t 6 1
  let len := leAt t 8 4
  let stages := (List.range ns).map (kilnStage t nr)
  let stageBad := (List.range ns).map (fun i =>
    let o := 32 + i * stageLen nr
    (leAt t (o + 4) 4 != 0 || leAt t (o + 8 + 4 * nr) (stageLen nr - 8 - 4 * nr) != 0, badRsvd))
  let perStage := (List.range ns).map (fun i =>
    let st := stages.getD i (0, [])
    let prev := (stages.getD (i - 1) (0, [])).1
    [(if i = 0 then st.1 != 0 else decide (st.1 ≤ prev), badRun 0x0D), (!(st.2.all betaOk && ladderOk st.2), badRun 0x0C)])
  [(leAt t 0 4 != 0x4E4C494B || leAt t 4 1 != 1, badRun 0x0A),
   (nr == 0 || decide (64 < nr) || ns == 0 || decide (8 < ns) || len != 32 + ns * stageLen nr, badRun 0x0B),
   (leAt t 0x1C 4 != crc32c (t.take 0x1C ++ (t.take len).drop 0x20), badRun 0x0A),
   (leAt t 7 1 != 0 || leAt t 0x0C 16 != 0, badRsvd)] ++ stageBad ++ perStage.flatten

/-- A kiln header whose MAGIC, VERSION and shape allow the table to be read: N_RUNGS, N_STAGES and TABLE_BYTES agree. -/
def kilnShapeOk (h : List Byte) : Bool :=
  let nr := leAt h 5 1
  let ns := leAt h 6 1
  leAt h 0 4 == 0x4E4C494B && leAt h 4 1 == 1 && nr != 0 && decide (nr ≤ 64) && ns != 0 && decide (ns ≤ 8) &&
  leAt h 8 4 == 32 + ns * stageLen nr

/-- The bytes of a run's kiln: the default, or those read at KILN_ADDR, of which a header that breaks its own checks is all.
A table that runs past its space gives ADDR (Table 04-6), one that cannot be read MEMORY_FAULT (R223). -/
def State.kilnRead (s : State) (region func : Nat) (b : List Byte) : Except Bad (List Byte) :=
  if rbDefaultKiln b then .ok s.defaultKiln
  else
    match s.readSpace region func (rbKilnSpace b) (rbKiln b) 32 with
    | none => .error (badSt St.MEMORY_FAULT)
    | some h =>
      if kilnShapeOk h = false then .ok h
      else if s.areaIn region (rbKilnSpace b) (rbKiln b) (leAt h 8 4) = false then .error (badRun 8)
      else match s.readSpace region func (rbKilnSpace b) (rbKiln b) (leAt h 8 4) with
        | none => .error (badSt St.MEMORY_FAULT)
        | some t => .ok t

/-- Step 2 of R176 over a kiln's bytes, with the check of N_REPLICAS at its end. A default kiln that is not valid gives
KILN_HEADER (R227). -/
def kilnDefect (b t : List Byte) : Option Bad :=
  match firstBad (kilnChecks t) with
  | some e => some (if rbDefaultKiln b then badRun 0x0A else e)
  | none => if rbReplicas b % (leAt t 5 1) != 0 then some (badRun 7) else none

/-- Step 2 of R176: the kiln's bytes, or its first defect. -/
def State.kilnStep (s : State) (region func : Nat) (b : List Byte) : Except Bad (List Byte) :=
  match s.kilnRead region func b with
  | .error e => .error e
  | .ok t => match kilnDefect b t with
    | some e => .error e
    | none => .ok t

/-- The ladder in force for a sweep (R182). -/
def ladderFor (stages : List (Nat × List Nat)) (k : Nat) : List Nat :=
  ((stages.filter (fun st => decide (st.1 ≤ k))).getLastD (0, [])).2

/-! Grist headers (R95 to R104, steps 1 to 5 of R108). -/

/-- W_LAYERS allowed at a precision (R83), and the replicas a lattice run may have (R91). -/
def layersOk (p w : Nat) : Bool := w == 1 || w == 2 || (w == 4 && p != 2)
def latticeReplicas (p w : Nat) : Nat := if 2 * w ≤ (if p = 2 then 2 else 4) then 64 else 32
/-- Table 02-2's spin limit. -/
def denseLimit (p : Nat) : Nat := if p = 0 then 16384 else if p = 1 then 11264 else 8192

/-- Padded bytes of dense row i (R99). -/
def rowBytes (n p i : Nat) : Nat := 32 * ceilDiv ((n - 1 - i) * precBits p) 256

/-- B_0 of R93 over T tuns. -/
def bZero (n p t : Nat) : Nat := sumOf (fun q => rowBytes n p (q * t)) (List.range (ceilDiv n (Nat.max t 1)))

/-- Section lengths of a dense body (R99, R101). -/
def pad64 (n : Nat) : Nat := ceilDiv n 64 * 64
def denseH (n p : Nat) : Nat := pad64 (n * precBytes p)
def denseC (n : Nat) (coloured : Bool) : Nat := if coloured then pad64 n else 0
def denseBytes (n p : Nat) (coloured : Bool) : Nat := denseH n p + denseC n coloured + sumOf (rowBytes n p) (List.range n)

/-- Offset of dense row i in a body. -/
def rowOff (n p : Nat) (coloured : Bool) (i : Nat) : Nat := denseH n p + denseC n coloured + sumOf (rowBytes n p) (List.range i)

/-- The header's fields as a Grist with no body. -/
def parseGrist (id : Nat) (b h : List Byte) : Grist :=
  { id := id, x0 := rbX0 b, y0 := rbY0 b, x1 := rbX1 b, y1 := rbY1 b, mode := leAt h 5 1, prec := leAt h 6 1
    scale := leAt h 7 1, coloured := bit (leAt h 8 4) 0, n := leAt h 0x0C 4, offset := sInt 128 (leAt h 0x10 16)
    tx := if leAt h 5 1 = 1 then leAt h 0x30 1 else 0, ty := if leAt h 5 1 = 1 then leAt h 0x31 1 else 0
    wl := if leAt h 5 1 = 1 then leAt h 0x32 1 else 0, ncol := if leAt h 5 1 = 2 then leAt h 0x30 2 else 0
    bodyBytes := leAt h 0x20 8, bodyCrc := leAt h 0x28 4, body := #[]
    nnz := if leAt h 5 1 = 3 then leAt h 0x30 4 else 0, rowptr := leAt h 0x38 8, col := leAt h 0x40 8
    val := leAt h 0x48 8, h := leAt h 0x50 8 }

/-- Reserved header fields (step 4 of R108). -/
def headerReserved (h : List Byte) : Bool :=
  let mode := leAt h 5 1
  let fl := leAt h 8 4
  decide (fl >>> 1 ≠ 0) || (mode != 2 && fl != 0) || leAt h 0x2C 4 != 0 || leAt h 0x70 12 != 0 ||
  (if mode = 1 then leAt h 0x33 61 != 0 else if mode = 2 then leAt h 0x32 62 != 0
   else leAt h 0x34 4 != 0 || leAt h 0x58 24 != 0)

/-- SIZE_MISMATCH of step 5. -/
def sizeMismatch (g : Grist) : Bool :=
  match g.mode with
  | 1 => g.tx == 0 || decide (16 < g.tx) || g.ty == 0 || decide (8 < g.ty) || !layersOk g.prec g.wl ||
         g.n != g.tx * g.ty * 2 * g.wl * 16384 || g.bodyBytes != g.tx * g.ty * 20480 * g.wl * precBits g.prec
  | 2 => g.n == 0 || (if g.coloured then g.ncol == 0 || decide (256 < g.ncol) else g.ncol != 0) ||
         g.bodyBytes != denseBytes g.n g.prec g.coloured
  | _ => g.n == 0 || g.bodyBytes != 0

/-- CAPACITY of step 5 (R90, R91, R93, R94). -/
def State.overCapacity (s : State) (region : Nat) (b : List Byte) (g : Grist) : Bool :=
  match g.mode with
  | 1 => (List.range (g.tx * g.ty)).any (fun i =>
           let x := rbX0 b + i % g.tx
           let y := rbY0 b + i / g.tx
           decide (15 < x) || decide (7 < y) || !s.inRegion region (16 * y + x))
  | 2 => decide (denseLimit g.prec < g.n) || decide (2359296 < bZero g.n g.prec (rbT b))
  | _ => decide (1048576 < g.n)

/-- A window array does not start on a 64-byte boundary (R102). -/
def arraysUnaligned (g : Grist) : Bool := [g.rowptr, g.col, g.val, g.h].any (fun a => a % 64 != 0)

/-- A window array does not lie within the job's HBM, so that boundary 0 cannot read it (R102, R240, R750). -/
def State.arraysOutside (s : State) (region : Nat) (g : Grist) : Bool :=
  !(s.areaIn region spHbm g.rowptr (4 * (g.n + 1)) && s.areaIn region spHbm g.h (precBytes g.prec * g.n) &&
    (g.nnz == 0 || (s.areaIn region spHbm g.col (4 * g.nnz) && s.areaIn region spHbm g.val (precBytes g.prec * g.nnz))))

/-- The MODE that a KIND expects (Table 05-2, R285). -/
def modeFits (kind mode : Nat) : Bool :=
  match kind with
  | 0 => mode == 1 || mode == 2
  | 2 => mode == 1
  | _ => mode == 3

/-- Steps 1 to 5 of R108 over a header h read at the image's address. Of a window image these are all (R111): its arrays are
checked by each window load. -/
def State.headerChecks (s : State) (region : Nat) (b h : List Byte) : List (Bool × Bad) :=
  let g := parseGrist 0 b h
  [(rbGrist b % 64 != 0, badGrist 0x10), (leAt h 0 4 != 0x54535247, badGrist 1), (leAt h 4 1 != 1, badGrist 2),
   (g.mode == 0 || decide (3 < g.mode) || !modeFits (rbKind b) g.mode, badGrist 3), (decide (2 < g.prec), badGrist 4),
   (leAt h 0x7C 4 != crc32c (h.take 0x7C), badGrist 5), (headerReserved h, badRsvd),
   (sizeMismatch g, badGrist 7), (g.mode == 3 && g.bodyCrc != 0, badGrist 6), (s.overCapacity region b g, badGrist 8)]

/-! Sizes and first-result times (R149, R151, R197, R198, R209, R283). -/

/-- C_L (R149). -/
def latticeCycles (tx ty wl nr : Nat) : Nat :=
  let x := if tx * ty = 1 then 0 else ceilDiv (128 * wl * nr) 1024 + 4
  let u := 2048 * wl * ceilDiv nr 32
  2 * (x + u + 16) + (tx - 1) + (ty - 1) + 2

/-- Coupling values held by tun number m of T (R197). -/
def couplingsHeld (n t m : Nat) : Nat := sumOf (fun q => n - 1 - (m + q * t)) (List.range (ceilDiv (n - m) (Nat.max t 1)))

/-- C_init (R197). -/
def initCycles (b : List Byte) (g : Grist) : Nat :=
  if g.mode = 1 then latticeCycles g.tx g.ty g.wl (rbReplicas b)
  else ceilDiv (couplingsHeld g.n (rbT b) 0 * rbReplicas b) 512 + rbBd b

/-- x · 1.25 ns plus y ns, rounded up to a multiple of 5 ns. -/
def ns125 (x y : Nat) : Nat := ceilDiv (5 * x + 4 * y) 20 * 5

/-- R_all (R283). -/
def windowBytes (b : List Byte) (g : Grist) : Nat :=
  4 * (g.n + 1) + g.nnz * (4 + precBytes g.prec) + g.n * precBytes g.prec + rbReplicas b * stateBytes g.n

/-- The chip's own T_first of a lattice or dense command (R197, R198), before rounding: cycles and ns. -/
def ownTFirst (b : List Byte) (g : Grist) : Nat × Nat :=
  match rbOp b with
  | 1 => (0, 2000 + ceilDiv (128 + g.bodyBytes) 16)
  | 2 => (initCycles b g + 256, 0)
  | _ => (initCycles b g + 256, 2000 + ceilDiv (128 + g.bodyBytes) 16)

/-- T_first of an anneal command with its grist (R197, R198, R283). T_own of a split lattice run is the chip's own figure, which
R197 and R198 round up to 5 ns. -/
def runTFirst (b : List Byte) (g : Grist) : Nat :=
  match rbKind b with
  | 0 => let t := ownTFirst b g; ns125 t.1 t.2
  | 1 => ceilDiv (4000 + ceilDiv (windowBytes b g) 1024) 5 * 5
  | 3 => ceilDiv (4000 + ceilDiv (windowBytes b g) 1024 + 1000 * rbJoinUs b) 5 * 5
  | _ =>
    let t := ownTFirst b g
    ceilDiv (ns125 t.1 t.2 + 1000 * rbJoinUs b + ceilDiv ((rbChipsX b * rbChipsY b - 1) * g.n) 320 + 5000) 5 * 5

/-- The spins of the whole problem: of C chips in a split lattice run (R231, R282). -/
def problemSpins (b : List Byte) (g : Grist) : Nat := if rbKind b = 2 then rbChipsX b * rbChipsY b * g.n else g.n

/-- The required result size (R209). -/
def requiredBytes (b : List Byte) (g : Grist) : Nat :=
  let sb := stateBytes (problemSpins b g)
  128 + (if rbOutReplicas b then 32 * rbReplicas b else 0) + sb + (if rbOutAll b then rbReplicas b * sb else 0)

/-- The replicas that grist admits (R91, Table 02-2). -/
def replicaLimit (g : Grist) : Nat := if g.mode = 1 then latticeReplicas g.prec g.wl else 64

/-- The grist-dependent checks of R1152. The extent of the gather work area (Table 05-1) is known with the grist, and is
checked beside the initial-state area (log 133). A body that runs past its space gives ADDR (Table 04-6). -/
def State.gristDependent (s : State) (region : Nat) (b : List Byte) (g : Grist) : List (Bool × Bad) :=
  let run := rbOp b != 1
  let sb := stateBytes (problemSpins b g)
  [(g.mode == 1 && (rbX1 b + 1 != rbX0 b + g.tx || rbY1 b + 1 != rbY0 b + g.ty), badRun 6),
   (run && decide (replicaLimit g < rbReplicas b), badRun 7),
   (rbOp b != 2 && !s.areaIn region (rbGristSpace b) (rbGrist b) (128 + g.bodyBytes), badRun 8),
   (run && rbInit b != 0 && !s.areaIn region (rbInitSpace b) (rbInitAddr b) (if rbInit b = 1 then sb else rbReplicas b * sb), badRun 8),
   (rbKind b == 2 && rbChip b == 0 && !s.inHbm region (rbAux b) (2 * sb), badRun 8),
   (run && decide (rbResultBytes b < requiredBytes b g), badRun 9)]

/-! Tuns and the grist they hold (R119, R166, R174). -/

def State.tunSt (s : State) (t : Nat) : TunSt := Tab.get (fun _ => TunSt.reset) s.tun.tuns t
def State.updTun (s : State) (t : Nat) (f : TunSt → TunSt) : State :=
  { s with tun := { s.tun with tuns := Tab.upd (fun _ => TunSt.reset) t f s.tun.tuns } }
def State.grist (s : State) (id : Nat) : Option Grist := s.tun.grists.find? (fun g => g.id == id)
def State.updGrist (s : State) (id : Nat) (f : Grist → Grist) : State :=
  { s with tun := { s.tun with grists := s.tun.grists.map (fun g => if g.id == id then f g else g) } }
def State.run (s : State) (cmd : Nat) : Option Run := s.tun.runs.find? (fun r => r.cmd == cmd)
def State.updRun (s : State) (cmd : Nat) (f : Run → Run) : State :=
  { s with tun := { s.tun with runs := s.tun.runs.map (fun r => if r.cmd == cmd then f r else r) } }

/-- The tuns of a run. -/
def Run.tuns (r : Run) : List Nat := boxTuns r.x0 r.y0 r.x1 r.y1
def Run.width (r : Run) : Nat := r.x1 + 1 - r.x0
def Run.count (r : Run) : Nat := r.width * (r.y1 + 1 - r.y0)
def Run.lead (r : Run) : Nat := 16 * r.y0 + r.x0
/-- The tun of tun number m (R92). -/
def Run.tunOf (r : Run) (m : Nat) : Nat := 16 * (r.y0 + m / r.width) + r.x0 + m % r.width

/-- A tun is in use by a running run (R115). -/
def State.tunRunning (s : State) (t : Nat) : Bool := s.tun.runs.any (fun r => decide (r.phase ≠ .stopped) && r.tuns.contains t)

/-- A tun is in use by a running run, or a load streams into it. -/
def State.tunInUse (s : State) (t : Nat) : Bool := (s.tunSt t).loading || s.tunRunning t

/-- A tun is in use, or a started job's anneal command has claimed it (Table 11-3, Table 12-2). -/
def State.tunClaimed (s : State) (t : Nat) : Bool :=
  s.tunInUse t || s.cmds.any (fun (c : Command) =>
    c.engine == .tun && c.core.isNone && decide (c.phase ≠ .ended) && (rbTuns c.block).contains t)

/-- The grist writer has made its first write to a tun's rectangle and not its last (R392). -/
def State.gwClaims (s : State) (t : Nat) : Bool :=
  match (s.tunSt t).gw, s.pred.run with
  | some c, some r => r.cmd == c && r.claimed
  | _, _ => false

/-- The one load that every tun of a rectangle holds, and whose rectangle equals it (R174). -/
def State.rectGrist (s : State) (b : List Byte) : Option Grist :=
  match (s.tunSt (rbLead b)).load with
  | none => none
  | some id =>
    match s.grist id with
    | none => none
    | some g =>
      if (rbTuns b).all (fun t => decide ((s.tunSt t).load = some id)) && g.x0 == rbX0 b && g.y0 == rbY0 b && g.x1 == rbX1 b && g.y1 == rbY1 b
      then some g else none

/-- The tun checks at the end of step 1 (R166, R115), and for RUN those of R119, R174 and R1152. -/
def State.tunChecks (s : State) (region : Nat) (b : List Byte) : Option Bad :=
  let ts := rbTuns b
  match firstBad [(ts.any (fun t => (s.tunSt t).failed), badSt St.TUN_FAULT), (ts.any (fun t => s.tunRunning t || (rbOp b != 2 && s.gwClaims t)), badSt St.BUSY)] with
  | some e => some e
  | none =>
    if rbOp b ≠ 2 then none
    else if ts.any (fun t => (s.tunSt t).load.isNone) then some (badSt St.NO_GRIST)
    else match s.rectGrist b with
      | none => some (badRun 6)
      | some g => firstBad ((!modeFits (rbKind b) g.mode, badGrist 3) :: s.gristDependent region b g)

end Sys2Proof.Machine
end

