-- ==== Sys2Proof/Machine/Lattice.lean ====
section
/-! DEFINITION. Coefficients, local fields and energies of lattice and dense grist (spec/02 R73 to R101, spec/03 R124,
R140, spec/05 R230 to R237). -/

namespace Sys2Proof.Machine

/-- n bytes of a body from an offset on; past its end it holds zeros. -/
def bodyAt (body : Array Byte) (off n : Nat) : List Byte := (List.range n).map (fun i => body.getD (off + i) 0)

/-- Bytes written into a body from an offset on. -/
def putBody (body : Array Byte) (off : Nat) : List Byte → Array Byte
  | [] => body
  | b :: bs => putBody (body.setIfInBounds off b) (off + 1) bs

/-- The signed value of P bits at a byte offset of a body (R77). -/
def Grist.coef (g : Grist) (off : Nat) : Int :=
  sInt (precBits g.prec) (leNat (bodyAt g.body off (precBytes g.prec)))

/-- s_i of a bit (R74). -/
def spinOf (b : Bool) : Int := if b then 1 else -1

/-! Lattice (R81 to R87, R98). -/

/-- The extent of a lattice in u and v. -/
def Grist.uMax (g : Grist) : Nat := 128 * g.tx
def Grist.vMax (g : Grist) : Nat := 128 * g.ty

/-- Tile number and point index of (u, v, w) within its tile's layers (R84, R85). -/
def Grist.tile (g : Grist) (u v : Nat) : Nat := (v / 128) * g.tx + u / 128
def pointIdx (u v w : Nat) : Nat := w * 16384 + (v % 128) * 128 + u % 128

/-- The problem index of a spin, sublattice sub 0 for A and 1 for B (R86). -/
def Grist.latIndex (g : Grist) (sub u v w : Nat) : Nat :=
  g.tile u v * (2 * g.wl * 16384) + sub * (g.wl * 16384) + pointIdx u v w

/-- h of a lattice spin, and coupling k of B(u, v, w) (R98). -/
def Grist.latH (g : Grist) (sub u v w : Nat) : Int :=
  g.coef (g.tile u v * 20480 * g.wl * precBits g.prec + (sub * (g.wl * 16384) + pointIdx u v w) * precBytes g.prec)
def Grist.latJ (g : Grist) (u v w k : Nat) : Int :=
  g.coef (g.tile u v * 20480 * g.wl * precBits g.prec + (2 * g.wl * 16384 + 8 * pointIdx u v w + k) * precBytes g.prec)

/-- Where the A end of a coupling of B(u, v, ·) lies: 6 on this chip, else the direction E 0, N 2 or NE 4 (R87). -/
def Grist.aEnd (g : Grist) (u v : Nat) : Nat :=
  if u < g.uMax then (if v < g.vMax then 6 else 2) else if v < g.vMax then 0 else 4

/-- The rank of an edge spin among the edge bits of a halo, in ascending tile index: of the west or east edge by
(v, w), of the south or north edge by (u, w), of a corner by w (R252, Table 05-5). -/
def edgeRank (wl d u v w : Nat) : Nat :=
  if d = 0 ∨ d = 1 then (v / 128) * (128 * wl) + w * 128 + v % 128
  else if d = 2 ∨ d = 3 then (u / 128) * (128 * wl) + w * 128 + u % 128
  else w

/-- The partner of a run in a direction. -/
def Run.partner (r : Run) (d : Nat) : Option Partner := r.span.bind (fun sp => sp.partners.find? (fun p => p.dir == d))

/-- The opposite direction. -/
def oppDir (d : Nat) : Nat := if d % 2 = 0 then d + 1 else d - 1

/-- The bit of a partner's spin in its newest halo: of its A spins (west, south or south-west edge) for E, N and NE, of
its B spins for W, S and SW. -/
def Partner.bitAt (p : Partner) (wl replica u v w : Nat) : Option Bool :=
  let halo := if p.dir % 2 = 0 then p.haloA else p.haloB
  halo.map (fun h => bit (h.2.getD replica 0) (edgeRank wl p.dir u v w))

/-- Own bit of replica r. -/
def Run.bitOf (r : Run) (replica i : Nat) : Bool := bit (r.bits.getD replica 0) i

/-- One term of A(u, v, w)'s field: coupling k, whose B end lies at (u − du, v − dv, w − dw) (R75, R81, R232). -/
def Run.aTerm (r : Run) (g : Grist) (replica u v w k : Nat) : Int :=
  let du := k % 2
  let dv := k / 2 % 2
  let dw := k / 4
  if w < dw then 0
  else
    let bw := w - dw
    let d := if u < du then (if v < dv then 5 else 1) else if v < dv then 3 else 6
    let bu := if u < du then g.uMax - 1 else u - du
    let bv := if v < dv then g.vMax - 1 else v - dv
    if d = 6 then g.latJ bu bv bw k * spinOf (r.bitOf replica (g.latIndex 1 bu bv bw))
    else match r.partner d with
      | none => 0
      | some p => match p.coef, p.bitAt g.wl replica bu bv bw with
        | some c, some b => Tab.get (fun _ => 0) c (g.latIndex 1 bu bv bw * 8 + k) * spinOf b
        | _, _ => 0

/-- One term of B(u, v, w)'s field. -/
def Run.bTerm (r : Run) (g : Grist) (replica u v w k : Nat) : Int :=
  let au := u + k % 2
  let av := v + k / 2 % 2
  let aw := w + k / 4
  if g.wl ≤ aw then 0
  else
    let d := g.aEnd au av
    let su := au % g.uMax
    let sv := av % g.vMax
    if d = 6 then g.latJ u v w k * spinOf (r.bitOf replica (g.latIndex 0 au av aw))
    else match r.partner d with
      | none => 0
      | some p => match p.bitAt g.wl replica su sv aw with
        | some b => g.latJ u v w k * spinOf b
        | none => 0

/-- The local field of a lattice spin (R75). -/
def Run.latField (r : Run) (g : Grist) (replica sub u v w : Nat) : Int :=
  g.latH sub u v w + sumInt (fun k => if sub = 0 then r.aTerm g replica u v w k else r.bTerm g replica u v w k) (List.range 8)

/-- The points of a tile (tx, ty), every layer. -/
def tilePoints (g : Grist) (tx ty : Nat) : List (Nat × Nat × Nat) :=
  (List.range (g.wl * 16384)).map (fun q => (128 * tx + q % 128, 128 * ty + q / 128 % 128, q / 16384))

/-- The energy that a chip owns: its B spins' couplings and its own biases (R73, R140, R233). -/
def Run.latEnergy (r : Run) (g : Grist) (replica : Nat) : Int :=
  sumInt (fun i => sumInt (fun p =>
    spinOf (r.bitOf replica (g.latIndex 0 p.1 p.2.1 p.2.2)) * g.latH 0 p.1 p.2.1 p.2.2 +
    spinOf (r.bitOf replica (g.latIndex 1 p.1 p.2.1 p.2.2)) *
      (g.latH 1 p.1 p.2.1 p.2.2 + sumInt (fun k => r.bTerm g replica p.1 p.2.1 p.2.2 k) (List.range 8)))
    (tilePoints g (i % g.tx) (i / g.tx))) (List.range (g.tx * g.ty))

/-- The crossing couplings of a chip towards a partner in direction d (E, N or NE), keyed by 8 · B index + k, in
ascending key (R251). -/
def Grist.crossing (g : Grist) (d : Nat) : List (Nat × Int) :=
  (List.range (g.tx * g.ty)).flatMap (fun i =>
    (tilePoints g (i % g.tx) (i / g.tx)).flatMap (fun p =>
      (List.range 8).filterMap (fun k =>
        if p.2.2 + k / 4 < g.wl ∧ g.aEnd (p.1 + k % 2) (p.2.1 + k / 2 % 2) = d
        then some (g.latIndex 1 p.1 p.2.1 p.2.2 * 8 + k, g.latJ p.1 p.2.1 p.2.2 k) else none)))

/-! Dense (R75, R99). -/

/-- h_i and J_ij of a dense body. -/
def Grist.denseHAt (g : Grist) (i : Nat) : Int := g.coef (i * precBytes g.prec)
def Grist.denseJ (g : Grist) (i j : Nat) : Int :=
  if i = j then 0
  else
    let a := Nat.min i j
    let b := Nat.max i j
    g.coef (rowOff g.n g.prec g.coloured a + (b - a - 1) * precBytes g.prec)
/-- The colour of spin i. -/
def Grist.colour (g : Grist) (i : Nat) : Nat := (g.body.getD (denseH g.n g.prec + i) 0).toNat

/-- E(s) of a state of a dense problem (R73). -/
def Grist.denseEnergy (g : Grist) (st : Nat) : Int :=
  sumInt (fun i => spinOf (bit st i) * (g.denseHAt i +
    sumInt (fun j => if i < j then g.denseJ i j * spinOf (bit st j) else 0) (List.range g.n))) (List.range g.n)

/-! The dense problem that a run sweeps: its grist, or the loaded window (R228). -/

/-- Number of spins, class of a position, and the problem index of a position. -/
def Run.dn (r : Run) (g : Grist) : Nat := match r.visit with | some v => v.spins.length | none => g.n
def Run.cls (r : Run) (g : Grist) (i : Nat) : Nat :=
  match r.visit with
  | some v => if v.colours = [] then i else v.colours.getD i 0
  | none => if g.coloured then g.colour i else i
def Run.spinIdx (r : Run) (i : Nat) : Nat := match r.visit with | some v => v.spins.getD i 0 | none => i
def Run.dj (r : Run) (g : Grist) (i j : Nat) : Int :=
  match r.visit with
  | some v => if i = j then 0 else Tab.get (fun _ => 0) v.j (Nat.min i j * 1048576 + Nat.max i j)
  | none => g.denseJ i j

/-- The state of replica `rep` as tun number m has applied it: the flips that m has not applied yet are undone
(R131, R132). -/
def Run.view (r : Run) (m rep : Nat) : Nat :=
  (r.pendFlips.filter (fun f => f.dst == m && f.replica == rep)).foldl (fun st f => Nat.xor st (1 <<< r.spinIdx f.spin)) (r.bits.getD rep 0)

/-- The local field of position i as tun number m holds it (R75, R236). -/
def Run.denseField (r : Run) (g : Grist) (m rep i : Nat) : Int :=
  let st := r.view m rep
  match r.visit with
  | none => g.denseHAt i + sumInt (fun j => g.denseJ i j * spinOf (bit st j)) (List.range g.n)
  | some v =>
    let at0 := v.start.getD rep 0
    Tab.get (fun _ => 0) v.fields (64 * i + rep) +
    sumInt (fun j => r.dj g i j * (spinOf (bit st (r.spinIdx j)) - spinOf (bit at0 (r.spinIdx j)))) (List.range v.spins.length)

/-- The classes of the sweep that are not empty, ascending (R130). -/
def Run.classes (r : Run) (g : Grist) : List Nat :=
  match r.visit, g.coloured with
  | none, false => List.range g.n
  | _, _ => (List.range (Nat.max 256 (r.dn g))).filter (fun c => (List.range (r.dn g)).any (fun i => r.cls g i == c))

/-- The members of class c whose home is tun number m (R92, R121). -/
def Run.members (r : Run) (g : Grist) (m c : Nat) : List Nat :=
  (List.range (r.dn g)).filter (fun i => i % r.count == m && r.cls g i == c)

/-- The non-empty classes of which tun number m is home to a member, ascending. -/
def Run.tunClasses (r : Run) (g : Grist) (m : Nat) : List Nat := (r.classes g).filter (fun c => r.members g m c != [])

end Sys2Proof.Machine
end

