-- ==== Sys2Proof/Machine/Anneal.lean ====
section
/-! DEFINITION. Anneal commands: result blocks, the validation steps before a run, initial states, the exchange, and
how a command ends (spec/03 R133 to R146, spec/04 R173 to R219, R1152, R1153). -/

namespace Sys2Proof.Machine

/-! Result blocks (R207 to R214). -/

/-- What a result header holds whether or not the result is valid (Table 04-9, R211). -/
structure RunHead where
  mode : Nat := 0
  prec : Nat := 0
  scale : Nat := 0
  n : Nat := 0
  nr : Nat := 0
  rungs : Nat := 0
  seed : Nat := 0
  drawn : Bool := false
  timing : Bool := false
  start : Nat := 0
  fin : Nat := 0
deriving DecidableEq, Repr

/-- What only a valid result holds. -/
structure RunOut where
  bestReplica : Nat
  bestRung : Nat
  sweeps : Nat
  bestBoundary : Nat
  bestEnergy : Int
  lastEnergy : Int
  att : Nat
  acc : Nat
  flips : Nat
  stale : Nat
  /-- FLAGS bits 0 and 3 to 5. -/
  flags : Nat
deriving DecidableEq, Repr

def RunOut.none : RunOut :=
  { bestReplica := 0, bestRung := 0, sweeps := 0, bestBoundary := 0, bestEnergy := 0, lastEnergy := 0, att := 0, acc := 0
    flips := 0, stale := 0, flags := 0 }

/-- A result header with its RESULT_CRC over the sections that follow (Table 04-9). -/
def annealHeader (h : RunHead) (o : RunOut) (status reason cause : Nat) (body : List Byte) : List Byte :=
  let flags := o.flags ||| (2 * b2n h.drawn) ||| (4 * b2n h.timing)
  let top := natLE 4 0x544C5352 ++ natLE 1 1 ++ natLE 1 h.mode ++ natLE 1 h.prec ++ natLE 1 h.scale ++ natLE 2 status ++
    natLE 1 reason ++ natLE 1 cause ++ natLE 4 flags ++ natLE 4 h.n ++ natLE 1 h.nr ++ natLE 1 h.rungs ++
    natLE 1 o.bestReplica ++ natLE 1 o.bestRung ++ natLE 4 o.sweeps ++ natLE 4 o.bestBoundary ++
    natLE 16 (toTwos 128 o.bestEnergy) ++ natLE 16 (toTwos 128 o.lastEnergy) ++ natLE 8 h.seed ++ natLE 8 h.start ++
    natLE 8 h.fin ++ natLE 4 o.att ++ natLE 4 o.acc ++ natLE 8 o.flips ++ natLE 8 o.stale ++
    natLE 4 (stateBytes h.n) ++ natLE 4 (128 + body.length) ++ natLE 4 0
  top ++ natLE 4 (crc32c (top ++ body))

/-- The header fields that a command's block and grist establish. -/
def headOf (b : List Byte) (g : Option Grist) (rungs : Nat) : RunHead :=
  let h : RunHead := { nr := rbReplicas b, rungs := rungs, timing := rbKind b == 2 || rbKind b == 3 }
  match g with
  | none => h
  | some g => { h with mode := g.mode, prec := g.prec, scale := g.scale, n := problemSpins b g }

/-- The end of an anneal command with no valid result (R211, R212): a header-only result where R212 allows one. -/
def State.annealRefusal (s : State) (c : Command) (h : RunHead) (status reason cause : Nat) : CmdEnd :=
  let b := c.block
  { status := status, valid := false, reason := reason, stopCause := cause
    writes := if s.resultOk c.region (blockGenuine b) (rbResSpace b) (rbResult b) (rbResultBytes b) then
        [{ space := rbResSpace b, func := c.func, addr := rbResult b, bytes := annealHeader h RunOut.none status reason cause [] }]
      else [] }

/-- An ending that a fault of the engine still replaces: a stop whose result is not yet complete (R72), or an ending of the same
MCLK cycle (R66). -/
def CmdEnd.yields (e : CmdEnd) (now : Nat) : Bool :=
  !St.isFault e.status &&
  (e.at_ == now || St.isStop e.status || (e.status == St.PARTNER_LOST && decide (4 ≤ e.stopCause) && decide (e.stopCause ≤ 6)))

/-- A command has ended: its ending waits for ENGINE_COMMAND_END (R214, R481). A command that has ended keeps its ending, unless
a fault replaces it (R66, R72). -/
def State.endCmd (s : State) (id : Nat) (e : CmdEnd) : State :=
  let e := { e with at_ := s.time }
  (s.arrived id).updCmd id (fun c =>
    if c.phase ≠ .ended then { c with phase := .ended, ending := some e }
    else if St.isFault e.status && c.ending.any (fun x => x.yields s.time) then { c with ending := some e }
    else c)

/-- An anneal command refused for a defect (R201, R286): SPAN_ERR takes an EXT reason. -/
def State.annealBad (s : State) (c : Command) (h : RunHead) (b : Bad) : State :=
  let s := if b.ext ≠ 0 ∧ rbX0 c.block < 16 ∧ rbY0 c.block < 8 then s.wr (tunReg (rbLead c.block) Reg.TUN_SPAN_ERR) b.ext else s
  s.endCmd c.id (s.annealRefusal c h b.status b.reason 0)

/-- STOP_CAUSE of a stop's status (Table 04-10). -/
def stopCauseOf (status : Nat) : Nat :=
  if status = St.DEADLINE then 4 else if status = St.ENERGY_CEILING then 5 else if status = St.CANCELLED then 6 else 7

/-! Steps 1 and 2 of R176, and the deadline test of R65. -/

/-- The rungs of an armed block's kiln, established at ARM (R593); 0 for another block. -/
def armedRungs (c : Command) : Nat := if c.armed then leAt c.kiln 5 1 else 0

/-- The header fields established for a command that has no run: its block's, and once its load streams those of the grist
header and of the kiln that were checked before it (R211). -/
def State.headKnown (s : State) (c : Command) : RunHead :=
  let b := c.block
  if c.began ≠ allOnes64 then
    let g := if rbOp b = 2 then s.rectGrist b else s.grist c.id
    headOf b g (leAt c.kiln 5 1)
  else headOf b none (armedRungs c)

/-- Steps 1 and 2 with the test of R65 between them: a defect with the header fields known then, or the kiln's bytes. An
armed block's kiln was checked and stored by ARM (R591, R593). -/
def State.annealSteps (s : State) (c : Command) : Except (Bad × RunHead) (List Byte) :=
  let b := c.block
  match firstBad (s.blockChecks c.region b) with
  | some e => .error (e, { rungs := armedRungs c, timing := rbKind b == 2 || rbKind b == 3 })
  | none =>
    let g := if rbOp b = 2 then s.rectGrist b else none
    match s.tunChecks c.region b with
    | some e => .error (e, headOf b g (armedRungs c))
    | none =>
      if c.stop ≠ allOnes64 ∧ c.stop ≤ s.time then .error (badSt St.DEADLINE, headOf b g (armedRungs c))
      else if c.armed then .ok c.kiln
      else match s.kilnStep c.region c.func b with
        | .error e => .error (e, headOf b g (armedRungs c))
        | .ok t => .ok t

/-! Initial states (R76, R179, R180, R231). -/

/-- The problem index of this chip's spin 0. -/
def indexBase (b : List Byte) (g : Grist) : Nat := if rbKind b = 2 then rbChip b * g.n else 0

/-- The random initial state of a replica, bit i for this chip's spin i. -/
def randomState (seed base n r : Nat) : Nat :=
  (List.range n).foldl (fun st i => if bit (noiseWord seed (base + i) 0 2 r 0) 31 then st + (1 <<< i) else st) 0

/-- State vectors read for INIT ONE or EACH: a memory fault, a reserved bit set, or the replicas' bits of this
chip. -/
def State.readStates (s : State) (c : Command) (g : Grist) : Except Nat (List Nat) :=
  let b := c.block
  let n := problemSpins b g
  let sb := stateBytes n
  let k := if rbInit b = 1 then 1 else rbReplicas b
  match s.readSpace c.region c.func (rbInitSpace b) (rbInitAddr b) (k * sb) with
  | none => .error St.MEMORY_FAULT
  | some bs =>
    let vs := (List.range k).map (fun r => leAt bs (r * sb) sb)
    if vs.any (fun v => decide ((1 <<< n) ≤ v)) then .error St.RSVD_NONZERO
    else
      let own := vs.map (fun v => lowBits (v >>> indexBase b g) g.n)
      .ok (if rbInit b = 1 then List.replicate (rbReplicas b) (own.getD 0 0) else own)

/-! Boundaries (R142 to R145, R182 to R195). -/

/-- The command of a run. -/
def State.runCmd (s : State) (r : Run) : Option Command := s.cmd r.cmd

/-- An event of a run at a tun. -/
def State.tunEvent (s : State) (r : Run) (t code n : Nat) : State :=
  s.event code (pageIdx .tun t) { inst := some t, region := (s.runCmd r).map (·.region) } n

/-- Least energy and the lowest replica that holds it (R142, R161). -/
def leastEnergy (es : List Int) : Int × Nat :=
  match leastBy (fun (a b : Int × Nat) => decide (a.1 < b.1)) (es.zip (List.range es.length)) with
  | some p => p
  | none => (0, 0)

/-- The reported energy of a grist, modulo 2^128 as a signed value (R80). -/
def reported (offset e : Int) : Int := sInt 128 (toTwos 128 (e + offset))

/-- The stop tests of Table 04-1 at boundary k: the cause, 0 for none. -/
def stopTest (b : List Byte) (offset : Int) (k : Nat) (best : Int) (bestBoundary : Nat) : Nat :=
  if k = rbSweeps b then 1
  else if rbTargetEn b ∧ reported offset best ≤ rbTarget b then 2
  else if 1 ≤ rbStall b ∧ rbStall b ≤ k - bestBoundary then 3
  else 0

/-- One exchange test (R187 to R191): ladder values β_ρ and β_{ρ+1}, the energies, and the noise word. -/
def exchanges (b0 b1 : Nat) (ea eb : Int) (w : Nat) : Bool :=
  let inf := f32.infBits
  if b1 = inf ∧ b0 ≠ inf then decide (ea ≤ eb)
  else
    let dB := if b1 = inf then 0 else f32.subB b1 b0
    let q := f32.dec (f32.enc ((f32.dec dB).mul (Fp.ofInt (eb - ea))))
    q.neg.lt (.fin false (threshold (fld w 31 8)) (-32))

/-- The exchange number at boundary k (R184). -/
def exchangeAt (interval rungs k : Nat) : Option Nat :=
  if 2 ≤ rungs ∧ 1 ≤ interval ∧ 1 ≤ k ∧ k % interval = 0 then some (k / interval - 1) else none

/-- The replica of a copy that sits on a rung. -/
def onRung (rungs : List Nat) (nRungs copy rho : Nat) : Nat :=
  ((List.range nRungs).map (fun i => copy * nRungs + i)).find? (fun r => rungs.getD r 0 == rho) |>.getD 0

/-- The pairs that an exchange tests: copy and lower rung (R185). -/
def exchangePairs (nr nRungs e : Nat) : List (Nat × Nat) :=
  (List.range (nr / Nat.max nRungs 1)).flatMap (fun c =>
    ((List.range (nRungs - 1)).filter (fun rho => rho % 2 == e % 2)).map (fun rho => (c, rho)))

/-- The exchange of boundary k (R184 to R192) over energies es, with the ladder in force for sweep k − 1. -/
def Run.exchange (r : Run) (es : List Int) (k visit : Nat) : Run :=
  match exchangeAt (rbExch r.block) r.nRungs k with
  | none => r
  | some e =>
    let ladder := ladderFor r.stages (k - 1)
    let tests := (exchangePairs r.nr r.nRungs e).map (fun p =>
      let a := onRung r.rungs r.nRungs p.1 p.2
      let b := onRung r.rungs r.nRungs p.1 (p.2 + 1)
      let w := (philox r.seed p.2 (lowBits e 32) (256 + a) visit).getD 0 0
      (p.2, a, b, exchanges (ladder.getD p.2 0) (ladder.getD (p.2 + 1) 0) (es.getD a 0) (es.getD b 0) w))
    tests.foldl (fun r t =>
      let r := { r with exchAtt := r.exchAtt + 1, rungAtt := Tab.upd (fun _ => 0) t.1 (· + 1) r.rungAtt }
      if t.2.2.2 then
        { r with exchAcc := r.exchAcc + 1, rungAcc := Tab.upd (fun _ => 0) t.1 (· + 1) r.rungAcc
                 rungs := (r.rungs.set t.2.1 (t.1 + 1)).set t.2.2.1 t.1 }
      else r) r

/-- Step 1 of R193: the capture at boundary k (R143, R144), where the state of r* is st of its index. -/
def Run.capture (r : Run) (es : List Int) (k : Nat) (st : Nat → Nat) : Run × Bool :=
  let m := leastEnergy es
  let r := { r with lastMin := m.1, lastBoundary := k, lastEnergies := es }
  let better := match r.best with | none => true | some b => decide (m.1 < b.1)
  if better then ({ r with best := some (m.1, m.2, r.rungs.getD m.2 0, k, st m.2) }, true) else (r, false)

/-! Ends of runs (R58, R148, R206 to R214, R276, R281). -/

/-- The replica table (R208). -/
def Run.replicaTable (r : Run) (offset : Int) : List Byte :=
  (List.range r.nr).flatMap (fun i =>
    natLE 16 (toTwos 128 (reported offset (r.lastEnergies.getD i 0))) ++ natLE 1 (r.rungs.getD i 0) ++ natLE 15 0)

/-- The best that a result describes: energy, replica, rung, boundary and state vector. A split lattice run's is its
complete slot, whose vector stands in its work area (R262 to R264). -/
def State.runBest (s : State) (r : Run) (sb : Nat) : Option (Int × Nat × Nat × Nat × List Byte) :=
  match r.span with
  | some sp =>
    if sp.kind = 2 then
      sp.complete.map (fun c => (c.2.2.1, c.2.1, c.2.2.2, c.1, s.spaceBytes spHbm 0 (sp.aux + ((sp.gathers + 1) % 2) * sb) sb))
    else r.best.map (fun b => (b.1, b.2.1, b.2.2.1, b.2.2.2.1, natLE sb b.2.2.2.2))
  | none => r.best.map (fun b => (b.1, b.2.1, b.2.2.1, b.2.2.2.1, natLE sb b.2.2.2.2))

/-- A split run has lost a chip (R276). -/
def Run.lostAny (r : Run) : Bool := match r.span with | some sp => sp.lost != [] || sp.found != [] | none => false
/-- This chip is the coordinator, or the run is not split. -/
def Run.leads (r : Run) : Bool := match r.span with | some sp => sp.chip == 0 | none => true

/-- The ending of a run: status, cause, and whether a sweep in progress was abandoned (R210). -/
def State.runEnd (s : State) (r : Run) (c : Command) (g : Grist) (status cause : Nat) (validOk mid : Bool) : CmdEnd :=
  let b := r.block
  let status := if r.lostAny ∧ (status = St.OK ∨ status = St.DEADLINE) then St.PARTNER_LOST else status
  let h : RunHead := { headOf b (some g) r.nRungs with
    seed := r.seed, drawn := r.seedDrawn, start := r.startTime, fin := s.time }
  let sb := stateBytes (problemSpins b g)
  match if validOk ∧ r.leads then s.runBest r sb else none with
  | none => s.annealRefusal c h status 0 cause
  | some best =>
    let body := (if rbOutReplicas b then r.replicaTable g.offset else []) ++ best.2.2.2.2 ++
      (if rbOutAll b then r.bits.flatMap (natLE sb) else [])
    let o : RunOut :=
      { bestReplica := best.2.1, bestRung := best.2.2.1, sweeps := r.lastBoundary, bestBoundary := best.2.2.2.1
        bestEnergy := reported g.offset best.1, lastEnergy := reported g.offset r.lastMin, att := r.exchAtt, acc := r.exchAcc
        flips := r.flips, stale := match r.span with | some sp => sp.staleSum | none => 0
        flags := 1 + 8 * b2n (rbOutReplicas b) + 16 * b2n (rbOutAll b) + 32 * b2n mid }
    { status := status, valid := true, reason := 0, stopCause := cause
      writes := [{ space := rbResSpace b, func := c.func, addr := rbResult b + 128, bytes := body },
        { space := rbResSpace b, func := c.func, addr := rbResult b, bytes := annealHeader h o status 0 cause body }] }

/-- Window bits of a visit in progress (R235). -/
def Run.windowBits (r : Run) (v : Visit) (rep : Nat) : List Bool := v.spins.map (fun i => bit (r.bits.getD rep 0) i)

/-- Address of a replica's vector in the state store (R287), with the list's WORK_ADDR. -/
def State.workAddr (s : State) (r : Run) : Nat := leNat (s.spaceBytes spHbm 0 (rbAux r.block + 0x10) 8)

/-- Write every replica's vector into the state store (R235). -/
def State.storeStates (s : State) (r : Run) (job : Option Nat) (n : Nat) : State :=
  (List.range r.nr).foldl (fun s i =>
    s.writeSpace job spHbm 0 (s.workAddr r + i * stateBytes n) (natLE (stateBytes n) (r.bits.getD i 0))) s

/-- RUN_STATE.LAST_CAUSE of a run's lead tun takes the cause of its end (R215). -/
def State.noteCause (s : State) (r : Run) (e : CmdEnd) : State := s.wr (tunReg r.lead Reg.TUN_RUN_STATE) (e.stopCause % 16)

/-- A word of a block's memory stored with inverted bits is read: its corrected error for one, its uncorrectable one for more
(R1051). The INFO of Table 20-3, the word's address, is the model's free value below a bound. -/
def State.wordRead (s : State) (page bits ce ue bound : Nat) (ceBase : Nat := 0) : State :=
  if bits = 0 then s
  else { s with fresh := s.fresh + 1 }.raiseErr page (if bits = 1 then ce else ue)
    (Config.markedWord s.fresh % bound + (if bits = 1 then ceBase else 0))

/-- A word of a tun's memory stored with inverted bits is read: TUN_CE (0x0101) for one, the code given for more (R165). -/
def State.tunWordRead (s : State) (t bits code : Nat) : State := s.wordRead (pageIdx .tun t) bits 0x0101 code allOnes32

/-- The best-state buffer of a run reads back without an uncorrectable word (R165). -/
def State.bestClean (s : State) (r : Run) : Bool := r.tuns.all (fun t => decide ((s.tunSt t).bestMark < 2))

/-- The best-state buffer is read for a result: what its marked words raise. -/
def State.readBest (s : State) (r : Run) : State :=
  r.tuns.foldl (fun s t => (s.tunWordRead t (s.tunSt t).bestMark 0x0103).updTun t (fun x => { x with bestMark := 0 })) s

/-- A run stops (R58, R62, R148, R194, R225): its ending waits for ENGINE_COMMAND_END; a window visit in progress is
written back first (R235). A best-state buffer that does not read back ends the run with TUN_FAULT and no valid result
(TUN_SSRAM_UE). -/
def State.finishRun (s : State) (r : Run) (status cause : Nat) (validOk mid : Bool) : State :=
  match s.runCmd r, s.grist r.load with
  | some c, some g =>
    let s := if r.visit.isSome && r.span.isNone then s.storeStates r (some c.job) g.n else s
    let clean := s.bestClean r
    let s := if validOk then s.readBest r else s
    let e := if validOk && !clean then s.runEnd r c g St.TUN_FAULT 7 false false else s.runEnd r c g status cause validOk mid
    let s := s.updRun r.cmd (fun _ => { r with phase := .stopped })
    let s := r.tuns.foldl (fun s t => s.updTun t (fun x => { x with idleSince := s.time })) s
    (s.noteCause r e).endCmd r.cmd e
  | _, _ => s.updRun r.cmd (fun _ => { r with phase := .stopped })

/-! Whether a sweep has ended in every tun (R141, R1155). -/

/-- A dense sweep has ended in tun number m: every marker of the sweep has come, and no flip waits. -/
def Run.denseEnded (r : Run) (g : Grist) (m : Nat) : Bool :=
  (List.range r.nr).all (fun rep => (List.range r.count).all (fun src =>
    Tab.get (fun _ => 0) r.seen (64 * (128 * m + src) + rep) == (r.tunClasses g src).length)) &&
  r.pendFlips.all (fun f => f.dst != m)

/-- Every tun has ended the sweep's decisions and applied its flips. -/
def Run.sweepDone (r : Run) (g : Grist) : Bool :=
  if g.mode = 1 then (List.range r.count).all (fun m => Tab.get (fun _ => 0) r.phases m == 2)
  else (List.range r.count).all (r.denseEnded g)

def Run.sweepEnded (r : Run) (g : Grist) : Bool := decide (r.phase = .sweeping) && r.sweepDone g

/-- A leased visit is loaded (R266): its sweeps are no boundaries. -/
def Run.leased (r : Run) : Bool := r.span.isSome && r.visit.isSome

/-- Boundary 0 has not occurred. -/
def Run.unbegun (r : Run) : Bool := r.best.isNone && r.lastEnergies == [] && !r.leased

/-- The boundary that is due: 0 before the first capture, else the end of the sweep. -/
def Run.boundaryDue (r : Run) (g : Grist) : Option Nat :=
  if r.phase = .sweeping then (if r.unbegun then some 0 else if r.sweepEnded g then some (r.sweep + 1) else none)
  else none

/-- The next sweep starts (R193): the sweep's own counts begin again. gap tells that a boundary precedes it (R163). -/
def Run.startSweep (r : Run) (k now : Nat) (gap : Bool) : Run :=
  { r with sweep := k, phases := [], steps := [], pendFlips := [], pendMarks := [], seen := [], applying := [], sweepFrom := now, atGap := gap }

/-- A sweep in progress that a stop now abandons (R210). -/
def Run.midSweep (r : Run) (g : Grist) : Bool :=
  (decide (r.phase = .sweeping) || decide (r.phase = .stopped)) && r.best.isSome && !r.sweepDone g

/-! Stops and faults of tun commands (R62, R162, R165, R218, R1153). -/

/-- Every tun of a block's rectangle that a load streams into holds no grist (R110, R1153). -/
def State.dropLoad (s : State) (b : List Byte) : State :=
  (rbTuns b).foldl (fun s t => s.updTun t (fun x =>
    if x.loading then { x with load := none, loading := false, idleSince := s.time } else x)) s

/-- STOP_CAUSE of a command that has no run: a LOAD's is 0 (R213), and so is one's that had not begun. -/
def loadCause (c : Command) (cause : Nat) : Nat := if c.phase = .running ∧ rbOp c.block ≠ 1 then cause else 0

/-- A best that a stopped run returns: a split lattice run's is its complete slot (R264). -/
def Run.hasBest (r : Run) : Bool := r.best.isSome || (r.span.bind (·.complete)).isSome

/-- A stop or a fault with a status reaches a tun command. A run on one chip whose sweep has ended completes its boundary first (R162); a
split run ends at once, as does a run whose program is halted (R491). -/
def State.stopTun (s : State) (c : Command) (status : Nat) (halt : Bool) : State :=
  match s.run c.id with
  | none =>
    let e := s.annealRefusal c (s.headKnown c) status 0 (loadCause c (stopCauseOf status))
    (if c.phase = .running then s.dropLoad c.block else s).endCmd c.id e
  | some r =>
    match s.grist r.load with
    | none => s
    | some g =>
      if St.isFault status then s.finishRun r status 7 r.hasBest (r.midSweep g)
      else if r.phase = .stopped then s
      else if !halt && r.span.isNone && r.best.isSome && (r.boundaryDue g).isSome then
        s.updRun c.id (fun r => { r with stopAsked := r.stopAsked.orElse (fun _ => some status) })
      else s.finishRun r status (stopCauseOf status) r.hasBest (r.midSweep g)

/-- A command that a fault still reaches: it has not ended, or its ending yields (R66, R72). -/
def State.faultable (s : State) (id : Nat) : Bool :=
  match s.cmd id with
  | some c => decide (c.phase ≠ .ended) || c.ending.any (fun e => e.yields s.time)
  | none => false

/-- A fault at a tun ends its run or load with TUN_FAULT (Table 03-10); valid tells whether the best-state buffer
reads back. -/
def State.tunFault (s : State) (t : Nat) (valid : Bool) : State :=
  let s := s.tun.runs.foldl (fun s r =>
    if s.faultable r.cmd ∧ r.tuns.contains t then
      s.finishRun r St.TUN_FAULT 7 (valid && r.hasBest) (match s.grist r.load with | some g => valid && r.midSweep g | none => false)
    else s) s
  s.cmds.foldl (fun s c =>
    if c.engine = .tun ∧ c.began ≠ allOnes64 ∧ s.faultable c.id ∧ (s.run c.id).isNone ∧ (rbTuns c.block).contains t then
      let e := s.annealRefusal c (s.headKnown c) St.TUN_FAULT 0 (if rbOp c.block = 1 then 0 else 7)
      (s.dropLoad c.block).endCmd c.id e
    else s) s

/-! Words stored by a tun while a CORRUPT is armed on its page (R165, R1051). -/

/-- The inverted bits of a page's armed CORRUPT, and the page with none armed: the next word written takes them (R1051). -/
def State.armedBits (s : State) (page : Nat) : Nat := Tab.get (fun _ => 0) s.mem.inject page
def State.disarm (s : State) (page : Nat) : State := { s with mem := { s.mem with inject := Tab.put (fun _ => 0) page 0 s.mem.inject } }

/-- A tun writes to its memory: the armed inverted bits go into the next word written, and f notes where. -/
def State.tunStores (s : State) (t : Nat) (f : TunSt → Nat → TunSt) : State :=
  let n := s.armedBits (pageIdx .tun t)
  if n = 0 then s else (s.disarm (pageIdx .tun t)).updTun t (fun x => f x n)

/-- Whether a run's tuns still hold their best states after a fault of SSRAM or a side-link that the buffer may have shared: a
physical input (R165). -/
def State.bestReads (s : State) (t : Nat) : Bool := Config.bestReads s.fresh && s.tun.runs.all (fun r => !r.tuns.contains t || s.bestClean r)

/-- The best-state buffer takes a capture: a tun's copy replaces what was there, with an armed CORRUPT (R1051). -/
def State.copyBest (s : State) (r : Run) : State :=
  r.tuns.foldl (fun s t => (s.updTun t (fun x => { x with bestMark := 0 })).tunStores t (fun x n => { x with bestMark := n })) s

/-- A tun of a run that holds an uncorrectable word. -/
def State.markedTun (s : State) (r : Run) : Option Nat :=
  r.tuns.find? (fun t => decide (2 ≤ (s.tunSt t).csMark) || decide (2 ≤ (s.tunSt t).ssMark))

/-- A run reads a tun's CSRAM and SSRAM: what words stored with inverted bits do (Table 03-10). -/
def State.tunReads (s : State) (t : Nat) : State :=
  let x := s.tunSt t
  let s := (s.tunWordRead t x.csMark 0x0102).tunWordRead t x.ssMark 0x0103
  let s := s.updTun t (fun x => { x with csMark := 0, ssMark := 0 })
  if 2 ≤ x.csMark then (s.tunFault t false).updTun t (fun x => { x with load := none, loading := false })
  else if 2 ≤ x.ssMark then s.tunFault t (s.tun.runs.all (fun r => !r.tuns.contains t || s.bestClean r))
  else s

end Sys2Proof.Machine
end

