-- ==== Sys2Proof/Machine/EngineCmd.lean ====
section
/-! DEFINITION. What the solver, the predictor array and the planner share: the heads of their queues, the checks of their
blocks, areas that overlap, and the header-only results (R38, R65, R211, R212, R331 to R333). -/

namespace Sys2Proof.Machine

/-- The key of an engine's lull. -/
def engineKey : Engine → Nat
  | .tun => 0 | .solver => 1 | .predictor => 2 | .planner => 3
def State.engLull (s : State) (e : Engine) : EngineLull := Tab.get (fun _ => EngineLull.reset) s.gnm.engines (engineKey e)
def State.setEngLull (s : State) (e : Engine) (x : EngineLull) : State :=
  { s with gnm := { s.gnm with engines := Tab.put (fun _ => EngineLull.reset) (engineKey e) x s.gnm.engines } }

/-- The command at the head of an engine's queue. -/
def State.engineHead (s : State) (e : Engine) : Option Command :=
  s.cmds.find? (fun c => decide (c.engine = e) && decide (c.phase = .queued))

/-- The command with a number, where it stands at the head of the queue of an engine that may start it: the engine holds no
command, its page is ready, and it is awake (R38, R339, R708). -/
def State.engineNext (s : State) (e : Engine) (page : Nat) (busy : Bool) (id : Nat) : Option Command :=
  match s.engineHead e with
  | some c => if c.id = id ∧ !busy ∧ (s.pageReady page ∨ s.pageFailed page) ∧ (s.engLull e).lull = .awake then some c else none
  | none => none

/-- A command's stop time has passed (R54, R65). -/
def State.stopPassed (s : State) (c : Command) : Bool := decide (c.stop ≠ allOnes64) && decide (c.stop ≤ s.time)

/-- An array or a result area: space, first byte and length. -/
structure Area where
  space : Nat
  addr : Nat
  len : Nat
deriving DecidableEq, Repr

/-- Two areas share a byte. -/
def Area.meets (a b : Area) : Bool :=
  a.space == b.space && decide (a.addr < b.addr + b.len) && decide (b.addr < a.addr + a.len) && decide (0 < a.len) && decide (0 < b.len)

/-- An area of a block breaks a rule: a reserved space code, misalignment, or outside its space. -/
def State.areaBadAt (s : State) (region : Nat) (a : Area) : Bool :=
  a.space == 3 || a.addr % 64 != 0 || !s.areaIn region a.space a.addr a.len

/-- Bytes of areas in host memory, and in HBM or the commons (R322, R383). -/
def hostLen (l : List Area) : Nat := sumOf (fun a => if a.space = spHost then a.len else 0) l
def devLen (l : List Area) : Nat := sumOf (fun a => if a.space = spHost then 0 else a.len) l

/-- An area of a command is read: what it counts and charges. -/
def State.noteArea (s : State) (c : Command) (a : Area) : State := s.noteRead (some c.job) a.space a.addr a.len

/-- What reading areas counts and charges. -/
def State.noteAreas (s : State) (c : Command) (l : List Area) : State := l.foldl (fun s a => s.noteArea c a) s

/-- The first of some areas that cannot be read, with the first byte of it that fails. -/
def State.badArea (s : State) (region : Nat) (l : List Area) : Option (Area × Nat) :=
  (l.find? (fun a => !s.areaIn region a.space a.addr a.len || s.areaBad a.space a.addr a.len)).map (fun a =>
    (a, if s.areaIn region a.space a.addr a.len then
        Nat.max a.addr (((areaWords a.addr a.len).find? (fun w => decide (2 ≤ s.mark (spaceMark a.space w)))).getD a.addr)
      else a.addr))

/-- An operand read of an engine fails: its own error is raised for an access fault only; an uncorrectable word has been raised by its
memory (R1025). INFO is the failing offset. -/
def State.operandFault (s : State) (page code region : Nat) (l : List Area) : State :=
  match s.badArea region l with
  | some (a, off) => if s.areaIn region a.space a.addr a.len then s else s.raiseErr page code (lowBits off 32)
  | none => s

/-- CCLK cycles in n ns at the ratio in force. -/
def State.nsCycles (s : State) (n : Nat) : Nat := ceilDiv (n * 32) (5 * cclkDiv s.ratio)

/-- Read an area for a command. -/
def State.readArea (s : State) (c : Command) (a : Area) : Option (List Byte) := s.readSpace c.region c.func a.space a.addr a.len

/-- Values of w bytes from a byte list. -/
def values (w : Nat) (bs : List Byte) (n : Nat) : List Nat := (List.range n).map (fun i => leAt bs (w * i) w)

/-- A write of a command's result. -/
def Command.put (c : Command) (space addr : Nat) (bs : List Byte) : SpaceWrite := { space := space, func := c.func, addr := addr, bytes := bs }

/-- Bytes padded with zeros to a multiple of 64. -/
def padTo64 (bs : List Byte) : List Byte := bs ++ List.replicate (pad64 bs.length - bs.length) 0

/-- The command's region as an event's source. -/
def Command.ev (c : Command) : EvSource := { region := some c.region }


end Sys2Proof.Machine
end

