-- ==== Sys2Proof/Machine/PlanBlock.lean ====
section
/-! DEFINITION. The planner's structures and their checks (spec/08_spacetime_planner.md R432 to R441), and its first-result
time (R431). -/

namespace Sys2Proof.Machine

abbrev pgPlan : Nat := 0x00F

abbrev badPlan (r : Nat) : Bad := { status := St.PLAN_INVALID, reason := r, ext := 0 }

/-! Operand block (Table 08-3). -/

abbrev plOp (b : List Byte) : Nat := leAt b 5 1
abbrev plFlags (b : List Byte) : Nat := leAt b 6 1
abbrev plLoad (b : List Byte) : Bool := bit (plFlags b) 0
abbrev plSave (b : List Byte) : Bool := bit (plFlags b) 1
abbrev plCommit (b : List Byte) : Bool := bit (plFlags b) 2
/-- Space code i of SPACES: grid, primitives, requests, updates, result, previous result. -/
abbrev plSpace (b : List Byte) (i : Nat) : Nat := fld (leAt b 8 2) (2 * i + 1) (2 * i)
abbrev plGridId (b : List Byte) : Nat := leAt b 0x0C 4
abbrev plNPrim (b : List Byte) : Nat := leAt b 0x10 2
abbrev plNReq (b : List Byte) : Nat := leAt b 0x12 2
abbrev plNUpd (b : List Byte) : Nat := leAt b 0x14 4
abbrev plGridAddr (b : List Byte) : Nat := leAt b 0x18 8
abbrev plPrimAddr (b : List Byte) : Nat := leAt b 0x20 8
abbrev plReqAddr (b : List Byte) : Nat := leAt b 0x28 8
abbrev plUpdAddr (b : List Byte) : Nat := leAt b 0x30 8
abbrev plResult (b : List Byte) : Nat := leAt b 0x38 8
abbrev plResultBytes (b : List Byte) : Nat := leAt b 0x40 4
abbrev plPrevAddr (b : List Byte) : Nat := leAt b 0x48 8
abbrev plPen (b : List Byte) (v : Nat) : Nat := leAt b (0x50 + 2 * v) 2
abbrev plRepair (b : List Byte) : Bool := plOp b == 2

/-- The block's MAGIC, VERSION and CRC hold (R212). -/
def plGenuine (b : List Byte) : Bool := leAt b 0 4 == 0x4E414C50 && leAt b 4 1 == 1 && leAt b 0x7C 4 == crc32c (b.take 0x7C)

/-! Residency keys (R402 to R404). -/

def State.residentGrid (s : State) (region id : Nat) : Option PlanGrid := s.plan.grids.find? (fun g => g.region == region && g.id == id)
def State.residentTable (s : State) (region addr : Nat) : Option PlanTable := s.plan.tables.find? (fun t => t.region == region && t.addr == addr)

/-- The resident grid that a command uses: none where it loads. -/
def State.gridFor (s : State) (c : Command) : Option PlanGrid := if plLoad c.block then none else s.residentGrid c.region (plGridId c.block)
def State.tableFor (s : State) (c : Command) : Option PlanTable := s.residentTable c.region (plPrimAddr c.block)

def gridBody (sx sy nt : Nat) : Nat := 64 * ceilDiv (sx * sy * nt) 128

/-! The areas that a command names; a length that a header gives is read from it. -/

/-- Bytes of a length field, as a read finds it. -/
def State.peekAt (s : State) (c : Command) (space a off n : Nat) : Nat :=
  match s.readSpace c.region c.func space a 128 with
  | some bs => leAt bs off n
  | none => match s.readSpace c.region c.func space a 64 with
    | some bs => leAt bs off n
    | none => 0

def State.plGridArea (s : State) (c : Command) : Area :=
  let b := c.block
  let body := match s.gridFor c with | some g => gridBody g.sx g.sy g.nt | none => s.peekAt c (plSpace b 0) (plGridAddr b) 0x10 4
  { space := plSpace b 0, addr := plGridAddr b, len := 64 + body }

def State.plPrimArea (s : State) (c : Command) : Area :=
  let b := c.block
  let n := match s.tableFor c with | some t => t.data.length | none => Nat.max 64 (s.peekAt c (plSpace b 1) (plPrimAddr b) 8 4)
  { space := plSpace b 1, addr := plPrimAddr b, len := n }

def plReqArea (b : List Byte) : Area := { space := plSpace b 2, addr := plReqAddr b, len := 32 * plNReq b }
def plUpdArea (b : List Byte) : Area := { space := plSpace b 3, addr := plUpdAddr b, len := 4 * plNUpd b }
def plResArea (b : List Byte) : Area := { space := plSpace b 4, addr := plResult b, len := plResultBytes b }
def State.plPrevArea (s : State) (c : Command) : Area :=
  let b := c.block
  { space := plSpace b 5, addr := plPrevAddr b, len := Nat.max 128 (s.peekAt c (plSpace b 5) (plPrevAddr b) 0x50 4) }

/-- Every array that a command names. -/
def State.plArrays (s : State) (c : Command) : List Area :=
  [s.plGridArea c, s.plPrimArea c, plReqArea c.block] ++ (if plNUpd c.block = 0 then [] else [plUpdArea c.block]) ++
  (if plRepair c.block then [s.plPrevArea c] else [])

/-- Step 1 of R440. -/
def State.plChecks (s : State) (c : Command) : List (Bool × Bad) :=
  let b := c.block
  let bad := fun (a : Area) => s.areaBadAt c.region a

  [(leAt b 0 4 != 0x4E414C50, badPlan 1), (leAt b 4 1 != 1, badPlan 2), (leAt b 0x7C 4 != crc32c (b.take 0x7C), badPlan 3),
   (plOp b != 1 && plOp b != 2, badPlan 4), (fld (plFlags b) 7 3 != 0, badRsvd), (leAt b 7 1 != 0, badRsvd),
   ((List.range 6).any (fun i => plSpace b i == 3), badPlan 6), (fld (leAt b 8 2) 15 12 != 0, badRsvd), (leAt b 0x0A 2 != 0, badRsvd),
   (plGridId b == 0, badPlan 5), (plNPrim b == 0 || decide (4096 < plNPrim b), badPlan 5), (decide (256 < plNReq b), badPlan 5),
   (decide (1048576 < plNUpd b), badPlan 5),
   (bad { s.plGridArea c with len := 64 }, badPlan 6), (bad { s.plPrimArea c with len := 64 }, badPlan 6), (bad (plReqArea b), badPlan 6),
   (plNUpd b != 0 && bad (plUpdArea b), badPlan 6), (bad (plResArea b), badPlan 6),
   (decide (plResultBytes b < 128 + pad64 (32 * plNReq b)), badPlan 8), (leAt b 0x44 4 != 0, badRsvd),
   (plRepair b && bad { s.plPrevArea c with len := 128 }, badPlan 6), (leAt b 0x78 4 != 0, badRsvd)]

/-! Grid image (R433, Table 08-4). -/

def gridHeaderChecks (b h : List Byte) : List (Bool × Bad) :=
  let sx := leAt h 6 2
  let sy := leAt h 8 2
  let nt := leAt h 0x0A 2
  [(leAt h 0 4 != 0x44495247, badPlan 9), (leAt h 4 1 != 1, badPlan 9), (leAt h 5 1 != 0, badRsvd),
   (sx == 0 || decide (256 < sx) || sy == 0 || decide (256 < sy) || nt == 0 || decide (1024 < nt), badPlan 9),
   (leAt h 0x0C 4 != plGridId b, badPlan 9), (leAt h 0x10 4 != gridBody sx sy nt, badPlan 9), (!allZero ((h.drop 0x18).take 36), badRsvd),
   (leAt h 0x3C 4 != crc32c (h.take 0x3C), badPlan 9)]

/-- Cell q of a body. -/
def bodyCell (body : List Byte) (q : Nat) : Nat := fld (leAt body (q / 2) 1) (4 * (q % 2) + 3) (4 * (q % 2))

/-- A grid from its image. -/
def parseGrid (region : Nat) (img : List Byte) : PlanGrid :=
  let body := img.drop 64
  let n := leAt img 6 2 * leAt img 8 2 * leAt img 0x0A 2
  { region := region, id := leAt img 0x0C 4, sx := leAt img 6 2, sy := leAt img 8 2, nt := leAt img 0x0A 2
    cells := (List.range n).filterMap (fun q => if bodyCell body q = 0 then none else some (q, bodyCell body q)), mark := 0 }

/-- A grid's image, with fresh CRCs (R423). -/
def packGrid (g : PlanGrid) : List Byte :=
  let n := gridBody g.sx g.sy g.nt
  let cell := fun (q : Nat) => Tab.get (fun _ => 0) g.cells q
  let body := (List.range n).map (fun i => BitVec.ofNat 8 (cell (2 * i) + 16 * cell (2 * i + 1)))
  let h := natLE 4 0x44495247 ++ natLE 1 1 ++ natLE 1 0 ++ natLE 2 g.sx ++ natLE 2 g.sy ++ natLE 2 g.nt ++ natLE 4 g.id ++ natLE 4 n ++
    natLE 4 (crc32c body) ++ natLE 36 0
  h ++ natLE 4 (crc32c h) ++ body

/-- Read and check the grid image (step 3 of R440): a defect, a failed read (none), or the grid. -/
def State.readGrid (s : State) (c : Command) : Except (Option Bad) PlanGrid :=
  let b := c.block
  match s.readSpace c.region c.func (plSpace b 0) (plGridAddr b) 64 with
  | none => .error none
  | some h =>
    match firstBad (gridHeaderChecks b h) with
    | some e => .error (some e)
    | none =>
      let n := 64 + leAt h 0x10 4
      if !s.areaIn c.region (plSpace b 0) (plGridAddr b) n then .error (some (badPlan 6))
      else match s.readSpace c.region c.func (plSpace b 0) (plGridAddr b) n with
        | none => .error none
        | some img =>
          let cells := leAt img 6 2 * leAt img 8 2 * leAt img 0x0A 2
          if crc32c (img.drop 64) ≠ leAt img 0x14 4 then .error (some (badPlan 9))
          else if (List.range (2 * (n - 64) - cells)).any (fun i => bodyCell (img.drop 64) (cells + i) != 0) then .error (some badRsvd)
          else .ok (parseGrid c.region img)

/-! Primitive table (R434, R435, Table 08-5). -/

abbrev tbCellsMax (t : List Byte) : Nat := leAt t 5 1
abbrev tbNPrim (t : List Byte) : Nat := leAt t 6 2
/-- L_p. -/
def tbStride (t : List Byte) : Nat := 16 + 4 * tbCellsMax t
/-- A field of record p. -/
def prim (t : List Byte) (p off n : Nat) : Nat := leAt t (64 + p * tbStride t + off) n
abbrev primN (t : List Byte) (p : Nat) : Nat := prim t p 0 1
abbrev primCost (t : List Byte) (p : Nat) : Nat := prim t p 2 2
/-- The cells of primitive p: dx, dy, dt and demand. -/
def primCells (t : List Byte) (p : Nat) : List (Int × Int × Nat × Nat) :=
  (List.range (primN t p)).map (fun j =>
    (sInt 8 (prim t p (16 + 4 * j) 1), sInt 8 (prim t p (17 + 4 * j) 1), prim t p (18 + 4 * j) 1, fld (prim t p (19 + 4 * j) 1) 3 0))

def primChecks (t : List Byte) (p : Nat) : List (Bool × Bad) :=
  let n := primN t p
  let m := tbCellsMax t
  let shape := (List.range n).map (fun j => prim t p (16 + 4 * j) 3)
  [(n == 0, badPlan 0x0B), (decide (m < n), badPlan 0x0C), (prim t p 1 1 != 0, badRsvd), (prim t p 6 1 == 0, badPlan 0x0C), (prim t p 7 9 != 0, badRsvd)] ++
  (List.range n).flatMap (fun j =>
    [(fld (prim t p (19 + 4 * j) 1) 3 0 == 0, badPlan 0x0C), (fld (prim t p (19 + 4 * j) 1) 7 4 != 0, badRsvd)]) ++
  [(decide (¬ shape.Nodup), badPlan 0x0C), ((List.range (m - n)).any (fun j => prim t p (16 + 4 * (n + j)) 4 != 0), badRsvd)]

def tableHeaderChecks (b h : List Byte) : List (Bool × Bad) :=
  let m := tbCellsMax h
  [(leAt h 0 4 != 0x4D495250, badPlan 0x0A), (leAt h 4 1 != 1, badPlan 0x0A), (decide (m < 4) || decide (64 < m) || m % 4 != 0, badPlan 0x0A),
   (tbNPrim h != plNPrim b, badPlan 0x0A), (leAt h 8 4 != 64 + tbNPrim h * tbStride h, badPlan 0x0A), (!allZero ((h.drop 0x0C).take 48), badRsvd)]

/-- Read and check the primitive table (step 4 of R440). -/
def State.readTable (s : State) (c : Command) : Except (Option Bad) PlanTable :=
  let b := c.block
  match s.readSpace c.region c.func (plSpace b 1) (plPrimAddr b) 64 with
  | none => .error none
  | some h =>
    match firstBad (tableHeaderChecks b h) with
    | some e => .error (some e)
    | none =>
      let n := leAt h 8 4
      if !s.areaIn c.region (plSpace b 1) (plPrimAddr b) n then .error (some (badPlan 6))
      else match s.readSpace c.region c.func (plSpace b 1) (plPrimAddr b) n with
        | none => .error none
        | some t =>
          match firstBad ((crc32c (t.take 0x3C ++ t.drop 0x40) != leAt t 0x3C 4, badPlan 0x0A) :: (List.range (tbNPrim t)).flatMap (primChecks t)) with
          | some e => .error (some e)
          | none => .ok { region := c.region, addr := plPrimAddr b, data := t, mark := 0 }

/-! Requests (R436, Table 08-6). -/

def rq (rs : List Byte) (i off n : Nat) : Nat := leAt rs (32 * i + off) n
abbrev rqKind (rs : List Byte) (i : Nat) : Nat := rq rs i 0 1
abbrev rqConflict (rs : List Byte) (i : Nat) : Bool := bit (rq rs i 1 1) 0
abbrev rqPFirst (rs : List Byte) (i : Nat) : Nat := rq rs i 2 2
abbrev rqPLast (rs : List Byte) (i : Nat) : Nat := rq rs i 4 2
abbrev rqFront (rs : List Byte) (i : Nat) : Nat := rq rs i 6 2
abbrev rqXs (rs : List Byte) (i : Nat) : Nat := rq rs i 8 1
abbrev rqYs (rs : List Byte) (i : Nat) : Nat := rq rs i 9 1
abbrev rqTs (rs : List Byte) (i : Nat) : Nat := rq rs i 0x0A 2
abbrev rqGt0 (rs : List Byte) (i : Nat) : Nat := rq rs i 0x14 2
abbrev rqGt1 (rs : List Byte) (i : Nat) : Nat := rq rs i 0x16 2
/-- BX0, BX1, BY0, BY1 are k 0 to 3, and GX0, GX1, GY0, GY1 are 4 to 7. -/
abbrev rqBox (rs : List Byte) (i k : Nat) : Nat := rq rs i (0x0C + k) 1
/-- SPAN of a SEARCH request. -/
def rqSpan (rs : List Byte) (i : Nat) : Nat := if rqKind rs i = 1 then rqGt1 rs i - rqTs rs i else 0
/-- Primitives of a request. -/
def rqPrims (rs : List Byte) (i : Nat) : List Nat := (List.range (rqPLast rs i + 1 - rqPFirst rs i)).map (fun k => rqPFirst rs i + k)

/-- lo ≤ hi < n. -/
def boxIn (lo hi n : Nat) : Bool := decide (lo ≤ hi) && decide (hi < n)

/-- A rule of Table 08-6 is broken by the record's fields. -/
def requestBroken (b rs : List Byte) (g : PlanGrid) (i : Nat) : Bool :=
  let bx := rqBox rs i
  let range := decide (rqPFirst rs i ≤ rqPLast rs i) && decide (rqPLast rs i < plNPrim b)
  let times := boxIn (rqGt0 rs i) (rqGt1 rs i) g.nt
  if rqKind rs i = 1 then
    !(range && times && decide (1 ≤ rqFront rs i) && decide (rqFront rs i ≤ 4096) && boxIn (bx 0) (bx 1) g.sx && boxIn (bx 2) (bx 3) g.sy &&
      decide (bx 0 ≤ rqXs rs i) && decide (rqXs rs i ≤ bx 1) && decide (bx 2 ≤ rqYs rs i) && decide (rqYs rs i ≤ bx 3) &&
      decide (rqTs rs i ≤ rqGt1 rs i) && decide (bx 0 ≤ bx 4) && decide (bx 4 ≤ bx 5) && decide (bx 5 ≤ bx 1) && decide (bx 2 ≤ bx 6) &&
      decide (bx 6 ≤ bx 7) && decide (bx 7 ≤ bx 3))
  else !(range && times && boxIn (bx 4) (bx 5) g.sx && boxIn (bx 6) (bx 7) g.sy)

def requestChecks (b rs : List Byte) (g : PlanGrid) (i : Nat) : List (Bool × Bad) :=
  [(rqKind rs i != 1 && rqKind rs i != 2, badPlan 0x0D), (fld (rq rs i 1 1) 7 1 != 0, badRsvd), (requestBroken b rs g i, badPlan 0x0D),
   (rq rs i 0x18 8 != 0, badRsvd)]

/-- The required size (R438). -/
def plRequired (b rs : List Byte) : Nat :=
  128 + pad64 (32 * plNReq b) + pad64 (2 * sumOf (rqSpan rs) (List.range (plNReq b)))

/-! Updates (R437). -/

/-- Entry i: cell x, y, t and class. -/
def upd (us : List Byte) (i : Nat) : Nat × Nat × Nat × Nat :=
  let w := leAt us (4 * i + 2) 2
  (leAt us (4 * i) 1, leAt us (4 * i + 1) 1, fld w 9 0, fld w 13 10)

def updateChecks (us : List Byte) (g : PlanGrid) (i : Nat) : List (Bool × Bad) :=
  let u := upd us i
  [(decide (g.sx ≤ u.1) || decide (g.sy ≤ u.2.1) || decide (g.nt ≤ u.2.2.1), badPlan 0x0E), (fld (leAt us (4 * i + 2) 2) 15 14 != 0, badRsvd)]

/-- Index of a cell (R433). -/
def PlanGrid.index (g : PlanGrid) (x y t : Nat) : Nat := (t * g.sy + y) * g.sx + x

/-! First-result time (R429, R431, Table 08-2). -/

def cellSum (t rs : List Byte) (i : Nat) : Nat := sumOf (primN t) (rqPrims rs i)

/-- The cycle bound of a request (Table 08-2). -/
def requestBound (t rs : List Byte) (i : Nat) : Nat :=
  if rqKind rs i = 1 then rqSpan rs i * (ceilDiv (rqFront rs i * cellSum t rs i) 32 + 16) + 3 * rqSpan rs i + 32
  else
    let cand := (rqBox rs i 5 + 1 - rqBox rs i 4) * (rqBox rs i 7 + 1 - rqBox rs i 6) * (rqGt1 rs i + 1 - rqGt0 rs i)
    ceilDiv (cand * cellSum t rs i) 32 + 50

/-- Every cell of a previous plan: of each record's path, or its primitive. -/
def prevCells (t prev : List Byte) (n : Nat) : Nat :=
  sumOf (fun i =>
    let r := 128 + 32 * i
    if leAt prev (r + 0x18) 2 = 0xFFFF then
      sumOf (fun k => primN t (leAt prev (128 + pad64 (32 * n) + 2 * (leAt prev (r + 4) 4 + k)) 2)) (List.range (leAt prev (r + 2) 2))
    else primN t (leAt prev (r + 0x18) 2)) (List.range n)

/-- What a command fetches (R431). -/
def State.plFetched (s : State) (c : Command) : List Area :=
  let b := c.block
  (if (s.gridFor c).isSome then [] else [s.plGridArea c]) ++ (if (s.tableFor c).isSome then [] else [s.plPrimArea c]) ++
    [plReqArea b] ++ (if plNUpd b = 0 then [] else [plUpdArea b]) ++ (if plRepair b then [s.plPrevArea c] else [])

/-- T_first (R431), with only the sum rounded; 0 where its figures cannot be read. -/
def State.plTFirst (s : State) (c : Command) : Nat :=
  let b := c.block
  let fetched := s.plFetched c
  let table := match s.tableFor c with | some t => some t.data | none => s.readArea c (s.plPrimArea c)
  match table, s.readArea c { plReqArea b with len := 32 * plNReq b } with
  | some t, some rs =>
    let c1 := if plRepair b then
        (match s.readArea c (s.plPrevArea c) with
         | some prev => ceilDiv (prevCells t prev (plNReq b)) 32 + 16
         | none => 0)
      else if plNReq b = 0 then 0 else requestBound t rs 0
    ceilDiv (64 * 2000 + 4 * hostLen fetched + devLen fetched + 80 * (ceilDiv (plNUpd b) 32 + 16 + c1)) 320 * 5
  | _, _ => 0

end Sys2Proof.Machine
end

