-- ==== Sys2Proof/Machine/Planner.lean ====
section
/-! DEFINITION. The space-time planner (spec/08_spacetime_planner.md): placement, search, commitment, repair, stops, results and
residency. -/

namespace Sys2Proof.Machine

/-! Residency (R402 to R406, R443). -/

/-- Units of a grid (64 KiB) and of a table (4 KiB) (R405). -/
def gridUnits (g : PlanGrid) : Nat := ceilDiv (gridBody g.sx g.sy g.nt) 65536
def tableUnits (t : PlanTable) : Nat := ceilDiv t.data.length 4096

/-- Keep a list's least recent entries out until the rest take at most n units. -/
def evictBy {α : Type} (u : α → Nat) : Nat → Nat → List α → List α
  | 0, _, l => l
  | f + 1, n, l => if sumOf u l ≤ n then l else evictBy u f n l.dropLast

/-- Replace the resident grids and tables, and PLN_RESIDENT with them. -/
def State.setPlanResident (s : State) (gs : List PlanGrid) (ts : List PlanTable) : State :=
  { s with plan := { s.plan with grids := gs, tables := ts } }.wr Reg.PLN_PLN_RESIDENT
    ((gs.length <<< 24) + (lowBits ts.length 8 <<< 16) + lowBits (sumOf gridUnits gs) 16)

/-- A grid or a table is used: it becomes the most recently used of its memory, evicting others (R405). -/
def State.useGrid (s : State) (g : PlanGrid) : State :=
  let gs := s.plan.grids.filter (fun x => !(x.region == g.region && x.id == g.id))
  s.setPlanResident (g :: evictBy gridUnits gs.length (512 - gridUnits g) gs) s.plan.tables
def State.useTable (s : State) (t : PlanTable) : State :=
  let ts := s.plan.tables.filter (fun x => !(x.region == t.region && x.addr == t.addr))
  s.setPlanResident s.plan.grids (t :: evictBy tableUnits ts.length (512 - tableUnits t) ts)

/-- Grids and tables of the regions that p names are discarded; those of the command in progress go when it ends (R443). -/
def State.dropPlans (s : State) (p : Nat → Bool) : State :=
  match s.plan.run with
  | none => s.setPlanResident (s.plan.grids.filter (fun g => !p g.region)) (s.plan.tables.filter (fun t => !p t.region))
  | some r =>
    let s := s.setPlanResident
      (s.plan.grids.filter (fun g => !p g.region || (g.region == r.table.region && g.id == r.grid)))
      (s.plan.tables.filter (fun t => !p t.region || (t.region == r.table.region && t.addr == r.table.addr)))
    if p r.table.region then { s with plan := { s.plan with run := some { r with flush := true } } } else s

/-- PLN_FLUSH_ALL (R443): a write of PLN_FLUSH with ALL set. -/
def effectPlnFlushAll (_p : Path) (v : Word) (s : State) : Host.Outcome State Fault Refusal :=
  if bit v.toNat 4 then .next (s.dropPlans (fun _ => true)) else .next s

/-- PLN_FLUSH_REGION (R443): a write with ALL clear. -/
def effectPlnFlushRegion (_p : Path) (v : Word) (s : State) : Host.Outcome State Fault Refusal :=
  if bit v.toNat 4 then .next s else .next (s.dropPlans (fun r => r == fld v.toNat 3 0))

/-! Candidates (R407 to R412). -/

/-- (c, w) is lexicographically below (R411). -/
def keyLt (c w c' w' : Nat) : Bool := decide (c < c') || (c == c' && decide (w < w'))

/-- The cells of a primitive at an anchor, with their demands: none where one lies outside the grid (R407). -/
def placedCells (g : PlanGrid) (t : List Byte) (p x y tm : Nat) : Option (List (Nat × Nat)) :=
  let cs := (primCells t p).map (fun c => ((x : Int) + c.1, (y : Int) + c.2.1, tm + c.2.2.1, c.2.2.2))
  if cs.all (fun c => decide (0 ≤ c.1) && decide (c.1 < (g.sx : Int)) && decide (0 ≤ c.2.1) && decide (c.2.1 < (g.sy : Int)) && decide (c.2.2.1 < g.nt))
  then some (cs.map (fun c => (g.index c.1.toNat c.2.1.toNat c.2.2.1, c.2.2.2))) else none

/-- The class of cell q. -/
def PlanGrid.cls (g : PlanGrid) (q : Nat) : Nat := Tab.get (fun _ => 0) g.cells q

/-- The step key of a candidate's cells (R408, R409). -/
def stepKey (g : PlanGrid) (pen : Nat → Nat) (cost : Nat) (cells : List (Nat × Nat)) : Nat × Nat :=
  (countWhere (fun (c : Nat × Nat) => decide (15 < g.cls c.1 + c.2)) cells, cost + sumOf (fun (c : Nat × Nat) => pen (g.cls c.1)) cells)

/-- What evaluating candidates has come to: the lookups and the expansions, the banks looked up, as bits, and whether two lookups
share one. -/
structure PlanCount where
  lookups : Nat
  expansions : Nat
  banks : Nat
  shared : Bool
deriving DecidableEq, Repr

def PlanCount.zero : PlanCount := { lookups := 0, expansions := 0, banks := 0, shared := false }

/-- The bank of a cell (R429). -/
def cellBank (q : Nat) : Nat := (q >>> 4) % 32

/-- An in-bounds candidate is evaluated: one lookup for each cell. -/
def PlanCount.see (n : PlanCount) (cells : List (Nat × Nat)) : PlanCount :=
  cells.foldl (fun n q => { n with banks := n.banks ||| (1 <<< cellBank q.1), shared := n.shared || bit n.banks (cellBank q.1) })
    { n with lookups := n.lookups + cells.length, expansions := n.expansions + 1 }

/-! Wavefront search (R413, R414). -/

/-- (key, t, y, x) of a node is below another's. -/
def PlanNode.before (a b : PlanNode) : Bool :=
  keyLt a.c a.w b.c b.w || (a.c == b.c && a.w == b.w && (decide (a.t < b.t) || (a.t == b.t && (decide (a.y < b.y) || (a.y == b.y && decide (a.x < b.x))))))

/-- Hold an end state, unless it is held with a better key or primitive. -/
def holdNode (e : PlanNode) (p : Nat) : List PlanNode → List PlanNode
  | [] => [e]
  | h :: hs =>
    if h.x = e.x ∧ h.y = e.y ∧ h.t = e.t then
      let better := keyLt e.c e.w h.c h.w || (e.c == h.c && e.w == h.w && (match h.pred with | some q => decide (p < q.2.2.2) | none => false))
      (if better then e else h) :: hs
    else h :: holdNode e p hs

/-- The end state of primitive p at a state, where it lies in the search (R413). -/
def endState (rs t : List Byte) (i p : Nat) (s : PlanNode) : Option (Nat × Nat × Nat) :=
  let x := (s.x : Int) + sInt 8 (prim t p 4 1)
  let y := (s.y : Int) + sInt 8 (prim t p 5 1)
  let tm := s.t + prim t p 6 1
  if (rqBox rs i 0 : Int) ≤ x ∧ x ≤ (rqBox rs i 1 : Int) ∧ (rqBox rs i 2 : Int) ≤ y ∧ y ≤ (rqBox rs i 3 : Int) ∧ rqTs rs i ≤ tm ∧ tm ≤ rqGt1 rs i
  then some (x.toNat, y.toNat, tm) else none

/-- One candidate of a search step. -/
def expandOne (b rs t : List Byte) (g : PlanGrid) (i : Nat) (s : PlanNode) (a : List PlanNode × PlanCount) (p : Nat) : List PlanNode × PlanCount :=
  match endState rs t i p s, placedCells g t p s.x s.y s.t with
  | some e, some cells =>
    let n := a.2.see cells
    let k := stepKey g (plPen b) (primCost t p) cells
    if 0 < k.1 ∧ rqConflict rs i = false then (a.1, n)
    else (holdNode { x := e.1, y := e.2.1, t := e.2.2, c := s.c + k.1, w := s.w + k.2, pred := some (s.x, s.y, s.t, p) } p a.1, n)
  | _, _ => a

/-- One time step of a search (R414): the search after it, the counts, and whether the beam cut. -/
def searchStep (b rs t : List Byte) (g : PlanGrid) (i : Nat) (q : PlanSearch) : PlanSearch × PlanCount × Bool :=
  let f := sortBy PlanNode.before (q.held.filter (fun n => n.t == q.t))
  let cut := decide (rqFront rs i < f.length)
  let kept := f.take (rqFront rs i)
  let bx := rqBox rs i
  let goals := kept.filter (fun n => decide (rqGt0 rs i ≤ n.t) && decide (bx 4 ≤ n.x) && decide (n.x ≤ bx 5) && decide (bx 6 ≤ n.y) && decide (n.y ≤ bx 7))
  let goal := goals.foldl (fun (o : Option PlanNode) n => match o with | none => some n | some m => if n.before m then some n else some m) q.goal
  let r := kept.foldl (fun a n => (rqPrims rs i).foldl (expandOne b rs t g i n) a) (q.held, PlanCount.zero)
  ({ t := q.t + 1, held := r.1, goal := goal }, r.2, cut)

/-- The path to a node, traced back through predecessors: each primitive with the state it is placed at. -/
def tracePath (held : List PlanNode) : Nat → PlanNode → List (Nat × Nat × Nat × Nat) → List (Nat × Nat × Nat × Nat)
  | 0, _, acc => acc
  | f + 1, n, acc => match n.pred with
    | none => acc
    | some q => match held.find? (fun m => m.x == q.1 && m.y == q.2.1 && m.t == q.2.2.1) with
      | none => q :: acc
      | some m => tracePath held f m (q :: acc)

/-! All-candidates placement (R416). -/

/-- The least candidate of a PLACE request by (key, p, t, y, x), with the counts. -/
def placeBest (b rs t : List Byte) (g : PlanGrid) (i : Nat) : Option (PlanNode × Nat) × PlanCount :=
  let bx := rqBox rs i
  let anchors := (List.range (rqGt1 rs i + 1 - rqGt0 rs i)).flatMap (fun dt => (List.range (bx 7 + 1 - bx 6)).flatMap (fun dy =>
    (List.range (bx 5 + 1 - bx 4)).map (fun dx => (bx 4 + dx, bx 6 + dy, rqGt0 rs i + dt))))
  (rqPrims rs i).foldl (fun (o : Option (PlanNode × Nat) × PlanCount) p => anchors.foldl (fun (o : Option (PlanNode × Nat) × PlanCount) a =>
    match placedCells g t p a.1 a.2.1 a.2.2 with
    | none => o
    | some cells =>
      let n := o.2.see cells
      let k := stepKey g (plPen b) (primCost t p) cells
      let v : PlanNode := { x := a.1, y := a.2.1, t := a.2.2, c := k.1, w := k.2, pred := none }
      if 0 < k.1 ∧ rqConflict rs i = false then (o.1, n)
      else match o.1 with
        | none => (some (v, p), n)
        | some m => if keyLt v.c v.w m.1.c m.1.w then (some (v, p), n) else (o.1, n)) o) (none, PlanCount.zero)

/-! Commitment (R420, R427). -/

/-- Add cells' demands (R420). -/
def addCells (g : PlanGrid) (cells : List (Nat × Nat)) : PlanGrid :=
  { g with cells := cells.foldl (fun m c => Tab.upd (fun _ => 0) c.1 (fun v => Nat.min 15 (v + c.2)) m) g.cells }

/-- The cells of a result's placement: along its path from the request's start, or of its one primitive. -/
def resCells (g : PlanGrid) (t rs : List Byte) (i : Nat) (r : PlanRes) : List (Nat × Nat) :=
  if r.prim ≠ 0xFFFF then (placedCells g t r.prim r.x r.y r.t).getD []
  else
    (r.path.foldl (fun (a : (Int × Int × Nat) × List (Nat × Nat)) p =>
      let st := a.1
      ((st.1 + sInt 8 (prim t p 4 1), st.2.1 + sInt 8 (prim t p 5 1), st.2.2 + prim t p 6 1),
       a.2 ++ (if 0 ≤ st.1 ∧ 0 ≤ st.2.1 then (placedCells g t p st.1.toNat st.2.1.toNat st.2.2).getD [] else [])))
      (((rqXs rs i : Int), (rqYs rs i : Int), rqTs rs i), [])).2

/-- A request's result where it is not placed. -/
def PlanRes.none (state : Nat) : PlanRes :=
  { state := state, repaired := false, x := 0, y := 0, t := 0, c := 0, w := 0, prim := 0xFFFF, path := [], off := 0 }

/-! Results (R438, R439, Tables 08-7 and 08-8). -/

/-- Whether a request counts as PLACED. -/
def PlanRes.placed (r : PlanRes) : Bool := r.state == 1 || r.state == 3

/-- The end of a path in the path array, and the words that paths end at. -/
def PlanRes.pathEnd (r : PlanRes) : Nat := r.off + r.path.length
def pathEnds (rs : List PlanRes) : List Nat := (rs.filter (fun r => decide (r.path ≠ []))).map PlanRes.pathEnd

/-- Where a path of n words goes in the path array: the first place, at its start or behind a path, where it meets no path that stands
there (R428, log 70). -/
def pathPlace (rs : List PlanRes) (n : Nat) : Nat :=
  let free := fun (a : Nat) => rs.all (fun r => decide (r.path = []) || decide (a + n ≤ r.off) || decide (r.pathEnd ≤ a))
  if n = 0 then 0 else ((sortBy (fun a b => decide (a < b)) (0 :: pathEnds rs)).find? free).getD 0

/-- What a result header holds beyond the block. -/
structure PlanOut where
  flags : Nat
  replaced : Nat
  updDone : Nat
  lookups : Nat
  cuts : Nat
  results : List PlanRes
deriving DecidableEq, Repr

/-- A planner result header with its RESULT_CRC. -/
def planHeader (b : List Byte) (o : Option PlanOut) (fetchFlags reqCrc status reason cause start fin : Nat) (body : List Byte) : List Byte :=
  let w := o.getD { flags := 0, replaced := 0, updDone := 0, lookups := 0, cuts := 0, results := [] }
  let placed := w.results.filter PlanRes.placed
  let top := natLE 4 0x524E4C50 ++ natLE 1 1 ++ natLE 1 (plOp b) ++ natLE 2 status ++ natLE 1 reason ++ natLE 1 cause ++
    natLE 2 (b2n o.isSome + w.flags + fetchFlags) ++ natLE 2 (plNReq b) ++ natLE 2 placed.length ++ natLE 2 (w.results.length - placed.length) ++
    natLE 2 w.replaced ++ natLE 4 (sumOf (fun (r : PlanRes) => r.c) placed) ++
    natLE 8 (sumOf (fun (r : PlanRes) => r.w) placed) ++ natLE 4 w.updDone ++ natLE 4 (plGridId b) ++ natLE 4 reqCrc ++
    natLE 4 (sumOf (fun (r : PlanRes) => r.path.length) w.results) ++ natLE 8 w.lookups ++ natLE 4 w.cuts ++ natLE 4 0 ++
    natLE 8 start ++ natLE 8 fin ++ natLE 4 (128 + body.length) ++ natLE 40 0
  top ++ natLE 4 (crc32c (top ++ body))

/-- The request results and the path array. -/
def planBody (rs : List PlanRes) : List Byte :=
  let recs := rs.flatMap (fun r =>
    natLE 1 r.state ++ natLE 1 (b2n r.repaired) ++ natLE 2 r.path.length ++ natLE 4 r.off ++ natLE 1 r.x ++ natLE 1 r.y ++
      natLE 2 r.t ++ natLE 4 r.c ++ natLE 8 r.w ++ natLE 2 r.prim ++ natLE 6 0)
  let word := fun (i : Nat) => match rs.find? (fun r => decide (r.off ≤ i) && decide (i < r.pathEnd)) with
    | some r => r.path.getD (i - r.off) 0
    | none => 0
  padTo64 recs ++ padTo64 ((List.range ((pathEnds rs).foldl Nat.max 0)).flatMap (fun i => natLE 2 (word i)))

/-- The run of a command that the planner holds. -/
def State.planRunOf (s : State) (c : Command) : Option PlanRun := s.plan.run.bind (fun r => if r.cmd = c.id then some r else none)

/-- GRID_LOADED and PRIM_FETCHED. -/
def PlanRun.fetchFlags (r : PlanRun) : Nat := 8 * b2n r.gridLoaded + 64 * b2n r.primFetched

/-- PLN_POS (Table 08-11). -/
def State.plPos (s : State) (req tstep phase : Nat) : State :=
  s.wr Reg.PLN_PLN_POS ((lowBits req 8 <<< 24) + (lowBits tstep 10 <<< 14) + phase)

/-- A planner command ends: PHASE shows WRITING until its result is written. One that has ended already takes only a fault (R66,
R72). -/
def State.plEnd (s : State) (c : Command) (e : CmdEnd) : State :=
  if s.faultable c.id = false then s
  else
    let s := s.wr Reg.PLN_PLN_LAST ((e.stopCause <<< 8) + e.reason)
    (if (s.planRunOf c).isSome then s.wf Reg.PLN_PLN_POS 2 0 6 else s).endCmd c.id e

/-- A planner command ends with no valid result (R211, R212, R441). -/
def State.plRefuse (s : State) (c : Command) (status reason cause : Nat) : State :=
  let b := c.block
  let run := s.planRunOf c
  let h := planHeader b none ((run.map PlanRun.fetchFlags).getD 0) ((run.map (fun r => crc32c r.reqs)).getD 0) status reason cause
    ((run.map (·.start)).getD 0) (if run.isSome then s.time else 0) []
  s.plEnd c { status := status, valid := false, reason := reason, stopCause := cause
              writes := if s.resultOk c.region (plGenuine b) (plSpace b 4) (plResult b) (plResultBytes b) then
                  [c.put (plSpace b 4) (plResult b) h] else [] }

/-- The working grid of a run. -/
def State.planGridOf (s : State) (r : PlanRun) : Option PlanGrid := s.residentGrid r.table.region r.grid

/-- Replace the working grid. -/
def State.setPlanGrid (s : State) (g : PlanGrid) : State :=
  s.setPlanResident (s.plan.grids.map (fun x => if x.region = g.region ∧ x.id = g.id then g else x)) s.plan.tables

/-- T_save (R423). -/
def saveTime (space body : Nat) : Nat := ceilDiv (64 + body) (if space = spHost then 16 else 64)

/-- The planner's command ends with its results: it commits or undoes, saves, and writes (R418 steps 4 to 6, R421 to R423). A fault
commits and saves nothing. -/
def State.plFinish (s : State) (r : PlanRun) (status cause : Nat) : State :=
  match s.cmd r.cmd, s.planGridOf r with
  | some c, some g =>
    let b := c.block
    let complete := r.results.all (fun x => x.state == 1 && x.c == 0)
    let commit := plCommit b && complete && cause == 1
    let g := if commit then g else { g with cells := r.base }
    let s := s.setPlanGrid g
    let ts := saveTime (plSpace b 0) (gridBody g.sx g.sy g.nt)
    let save := plSave b && cause != 5
    let can := c.stop == allOnes64 || decide (s.time + ts ≤ c.stop)
    let flags := 2 * b2n complete + 4 * b2n commit + 16 * b2n (save && can) + 32 * b2n (save && !can)
    let body := planBody r.results
    let o : PlanOut := { flags := flags, replaced := r.replaced, updDone := plNUpd b, lookups := r.lookups, cuts := r.cuts, results := r.results }
    let h := planHeader b (some o) r.fetchFlags (crc32c r.reqs) status 0 cause r.start s.time body
    s.plEnd c { status := status, valid := true, reason := 0, stopCause := cause
                writes := (if save && can then [c.put (plSpace b 0) (plGridAddr b) (packGrid g)] else []) ++
                  [c.put (plSpace b 4) (plResult b + 128) body, c.put (plSpace b 4) (plResult b) h] }
  | some c, none => s.plRefuse c St.PLANNER_FAULT 0 5
  | _, _ => s

/-! Handling requests (R418, R427, R445). -/

/-- Set the held run. -/
def State.setPlan (s : State) (r : PlanRun) : State := { s with plan := { s.plan with run := some r } }

/-- What a step's lookups count (Table 08-11). No cycle stalls unless two lookups share a bank; how many do then is the model's free
value, below the lookups (R429, R430). -/
def State.plCount (s : State) (c : Command) (n : PlanCount) : State :=
  let stalls := if n.shared then Config.stallCycles s.fresh % n.lookups else 0
  let s := { s with fresh := s.fresh + 1 }
  let s := ((s.bump64 Reg.PLN_LOOKUPS_LO n.lookups).event 0x0501 pgPlan c.ev n.lookups).bump64 Reg.PLN_GRID_PORT_STALL_LO stalls
  ((s.event 0x0540 pgPlan c.ev stalls).bump64 Reg.PLN_EXPANSIONS_LO n.expansions).event 0x0502 pgPlan c.ev n.expansions

/-- The request in progress has its result: its cells join the working grid where it is placed (R420). -/
def State.conclude (s : State) (r : PlanRun) (i : Nat) (res : PlanRes) : State :=
  let rep := match s.cmd r.cmd with | some c => plRepair c.block | none => false
  let res := if res.placed then { res with repaired := rep, off := pathPlace r.results res.path.length } else res
  let s := match s.planGridOf r with
    | some g => if res.placed then s.setPlanGrid (addCells g (resCells g r.table.data r.reqs i res)) else s
    | none => s
  s.setPlan { r with todo := r.todo.drop 1, search := none, results := r.results.set i res, replaced := r.replaced + b2n res.repaired }

/-- The result of a search that holds a goal. -/
def goalRes (q : PlanSearch) (g : PlanNode) (state : Nat) : PlanRes :=
  { state := state, repaired := false, x := g.x, y := g.y, t := g.t, c := g.c, w := g.w, prim := 0xFFFF
    path := (tracePath q.held (g.t + 1) g []).map (fun p => p.2.2.2), off := 0 }

/-- One unit of work of a started command: a search time step, or a PLACE request. -/
def State.planUnit (s : State) (c : Command) (r : PlanRun) : State :=
  match r.todo, s.planGridOf r with
  | i :: _, some g =>
    let rs := r.reqs
    let t := r.table.data
    if rqKind rs i = 1 then
      let q := r.search.getD { t := rqTs rs i, held := [{ x := rqXs rs i, y := rqYs rs i, t := rqTs rs i, c := 0, w := 0, pred := none }], goal := none }
      let p := searchStep c.block rs t g i q
      let s := s.plCount c p.2.1
      let s := if p.2.2 then (s.bump Reg.PLN_BEAM_CUTS 1).event 0x0503 pgPlan c.ev else s
      let r := { r with search := some p.1, lookups := r.lookups + p.2.1.lookups, cuts := r.cuts + b2n p.2.2 }
      if p.1.t ≤ rqGt1 rs i then (s.setPlan r).plPos i p.1.t 3
      else (s.conclude r i (match p.1.goal with | none => PlanRes.none 2 | some n => goalRes p.1 n 1)).plPos i q.t 3
    else
      let p := placeBest c.block rs t g i
      let r := { r with lookups := r.lookups + p.2.lookups }
      ((s.plCount c p.2).conclude r i (match p.1 with
        | none => PlanRes.none 2
        | some m => { state := 1, repaired := false, x := m.1.x, y := m.1.y, t := m.1.t, c := m.1.c, w := m.1.w, prim := m.2, path := [], off := 0 })).plPos i 0 4
  | _, _ => s

/-- A unit reads grid and primitive SRAM: words stored with inverted bits are found (Table 08-12). An uncorrectable one discards its grid or
its table and ends the command; the answer tells whether one was found. -/
def State.planReads (s : State) (r : PlanRun) : State × Bool :=
  let mine := fun (g : PlanGrid) => g.region == r.table.region && g.id == r.grid
  let tab := fun (t : PlanTable) => t.region == r.table.region && t.addr == r.table.addr
  let gm := ((s.plan.grids.find? mine).map (·.mark)).getD 0
  let tm := ((s.plan.tables.find? tab).map (·.mark)).getD 0
  let s := (s.wordRead pgPlan gm 0x0501 0x0502 0x80000000).wordRead pgPlan tm 0x0501 0x0503 0x80000000 0x80000000
  let s := s.setPlanResident (s.plan.grids.map (fun g => if mine g then { g with mark := 0 } else g))
    (s.plan.tables.map (fun t => if tab t then { t with mark := 0 } else t))
  if 2 ≤ gm ∨ 2 ≤ tm then
    let s := s.plFinish r St.PLANNER_FAULT 5
    (s.setPlanResident (s.plan.grids.filter (fun g => !(mine g && decide (2 ≤ gm)))) (s.plan.tables.filter (fun t => !(tab t && decide (2 ≤ tm)))), true)
  else (s, false)

/-- Up to n units of the command that the planner holds: a search time step, a PLACE request, and last the commit or undo with
which it completes (PHASE COMMIT before it). -/
def State.planRunUnits (s : State) (c : Command) : Nat → State
  | 0 => s
  | n + 1 => match s.planRunOf c with
    | none => s
    | some r =>
      if r.loaded = false then s
      else
        let p := s.planReads r
        if p.2 then p.1
        else if r.todo = [] then p.1.plFinish r St.OK 1
        else
          let s := p.1.planUnit c r
          let s := if r.todo.length = 1 ∧ (s.planRunOf c).any (fun r => decide (r.todo = [])) then s.wf Reg.PLN_PLN_POS 2 0 5 else s
          s.planRunUnits c n

/-! Starting (R418 steps 1 and 2, R424 to R428, R440). -/

/-- A previous result's records and paths (R424). -/
def parsePrev (n : Nat) (prev : List Byte) : List PlanRes :=
  (List.range n).map (fun i =>
    let r := fun (off k : Nat) => leAt prev (128 + 32 * i + off) k
    { state := r 0 1, repaired := bit (r 1 1) 0, x := r 8 1, y := r 9 1, t := r 0x0A 2, c := r 0x0C 4, w := r 0x10 8, prim := r 0x18 2
      path := (List.range (r 2 2)).map (fun k => leAt prev (128 + pad64 (32 * n) + 2 * (r 4 4 + k)) 2)
      off := r 4 4 })

/-- Step 6 of R440: what R424 asks of the previous result, its RESULT_CRC first, and its reserved fields (R10), in offset order. -/
def prevChecks (b rs prev : List Byte) : List (Bool × Bad) :=
  [(leAt prev 0 4 != 0x524E4C50 || leAt prev 4 1 != 1 || leAt prev 0x7C 4 != crc32c (prev.take 0x7C ++ prev.drop 0x80), badPlan 0x0F),
   (!bit (leAt prev 0x0A 2) 2, badPlan 0x0F), (fld (leAt prev 0x0A 2) 15 7 != 0, badRsvd), (leAt prev 0x0C 2 != plNReq b, badPlan 0x0F),
   (leAt prev 0x24 4 != plGridId b, badPlan 0x0F), (leAt prev 0x28 4 != crc32c rs, badPlan 0x0F), (leAt prev 0x3C 4 != 0, badRsvd),
   (leAt prev 0x54 40 != 0, badRsvd)] ++
  (List.range (plNReq b)).flatMap (fun i =>
    [(fld (leAt prev (128 + 32 * i + 1) 1) 7 1 != 0, badRsvd), (leAt prev (128 + 32 * i + 0x1A) 6 != 0, badRsvd)])

/-- What the fetch and validation of a command give. -/
structure PlanInput where
  grid : PlanGrid
  table : PlanTable
  reqs : List Byte
  prev : List Byte
  upds : List Byte
deriving DecidableEq, Repr

/-- Steps 3 and 4 of R440: the resident grid or table, or the one that is read. -/
def State.gridOrRead (s : State) (c : Command) : Except (Option Bad) PlanGrid :=
  match s.gridFor c with
  | some g => .ok g
  | none => s.readGrid c
def State.tableOrRead (s : State) (c : Command) : Except (Option Bad) PlanTable :=
  match s.tableFor c with
  | some t => if tbNPrim t.data = plNPrim c.block then .ok t else .error (some (badPlan 0x0A))
  | none => s.readTable c

/-- Why a fetch fails, a defect or an area that cannot be read, and what it had established before (R211): whether a grid was read, a
table that was fetched, and the request list. -/
structure PlanFail where
  why : Sum Bad Area
  gridRead : Bool
  table : Option PlanTable
  reqs : List Byte

/-- Steps 3 to 7 of R440. -/
def State.planFetch (s : State) (c : Command) : Except PlanFail PlanInput :=
  let b := c.block
  let start : PlanFail := { why := .inl (badPlan 0), gridRead := false, table := none, reqs := [] }
  match s.gridOrRead c with
  | .error none => .error { start with why := .inr (s.plGridArea c) }
  | .error (some e) => .error { start with why := .inl e }
  | .ok g =>
    let got := { start with gridRead := (s.gridFor c).isNone }
    if plSave b && !s.areaIn c.region (plSpace b 0) (plGridAddr b) (64 + gridBody g.sx g.sy g.nt) then .error { got with why := .inl (badPlan 6) }
    else match s.tableOrRead c with
    | .error none => .error { got with why := .inr (s.plPrimArea c) }
    | .error (some e) => .error { got with why := .inl e }
    | .ok t =>
      let got := { got with table := if (s.tableFor c).isNone then some t else none }
      match s.readArea c (plReqArea b) with
      | none => .error { got with why := .inr (plReqArea b) }
      | some rs =>
        let got := { got with reqs := rs }
        match firstBad ((List.range (plNReq b)).flatMap (requestChecks b rs g) ++ [(decide (plResultBytes b < plRequired b rs), badPlan 8)]) with
        | some e => .error { got with why := .inl e }
        | none =>
          let pa := s.plPrevArea c
          match if plRepair b then s.readArea c pa else some [] with
          | none => .error { got with why := if s.areaIn c.region pa.space pa.addr pa.len then .inr pa else .inl (badPlan 6) }
          | some prev =>
            match if plRepair b then firstBad (prevChecks b rs prev) else none with
            | some e => .error { got with why := .inl e }
            | none =>
              match if plNUpd b = 0 then some [] else s.readArea c (plUpdArea b) with
              | none => .error { got with why := .inr (plUpdArea b) }
              | some us =>
                match firstBad ((List.range (plNUpd b)).flatMap (updateChecks us g)) with
                | some e => .error { got with why := .inl e }
                | none => .ok { grid := g, table := t, reqs := rs, prev := prev, upds := us }

/-- Steps 1 to 3 of R427 on a grid: the updates, and the rip-up of disturbed requests; with the disturbed requests. -/
def PlanInput.prepare (p : PlanInput) (b : List Byte) : PlanGrid × List Nat × List PlanRes :=
  let n := plNReq b
  let cellsUpd := (List.range (plNUpd b)).map (fun i => let u := upd p.upds i; (p.grid.index u.1 u.2.1 u.2.2.1, u.2.2.2))
  let g := { p.grid with cells := cellsUpd.foldl (fun m u => Tab.put (fun _ => 0) u.1 u.2 m) p.grid.cells }
  if plRepair b then
    let prev := parsePrev n p.prev
    let cellsOf := fun (i : Nat) => resCells g p.table.data p.reqs i (prev.getD i (PlanRes.none 0))
    let named := fun (q : Nat) => cellsUpd.any (fun u => u.1 == q)
    let hit := (List.range n).filter (fun i => (cellsOf i).any (fun q => named q.1))
    let g := hit.foldl (fun (g : PlanGrid) i =>
      { g with cells := (cellsOf i).foldl (fun m q => if named q.1 then m else Tab.upd (fun _ => 0) q.1 (fun v => v - q.2) m) g.cells }) g
    (g, hit, ((List.range n).zip prev).map (fun q => if hit.contains q.1 then PlanRes.none 0 else q.2))
  else (g, List.range n, List.replicate n (PlanRes.none 0))

/-- An operand read failed (PLN_OPERAND, Table 08-12). -/
def State.plOperand (s : State) (c : Command) (a : Area) : State :=
  (s.operandFault pgPlan 0x0504 c.region [a]).plRefuse c St.MEMORY_FAULT 0 5

/-- A fetched command: its arrays become resident, its updates apply, and what it disturbs is ripped up. The first word that this
writes into grid or primitive SRAM takes an armed CORRUPT (R1051). -/
def State.planBegin (s : State) (c : Command) (r : PlanRun) (p : PlanInput) : State :=
  let b := c.block
  let loaded := (s.gridFor c).isNone
  let fetched := (s.tableFor c).isNone
  let q := p.prepare b
  let bits := s.armedBits pgPlan
  let wrote := loaded || decide (q.1.cells ≠ p.grid.cells)
  let g := { q.1 with region := c.region, mark := if wrote && bits != 0 then bits else q.1.mark }
  let t := { p.table with mark := if !wrote && fetched && bits != 0 then bits else p.table.mark }
  let s := if wrote || fetched then s.disarm pgPlan else s
  let s := (s.useGrid g).useTable t
  (s.setPlan { r with
    loaded := true, grid := g.id, table := t, reqs := p.reqs, base := g.cells, todo := q.2.1, results := q.2.2, gridLoaded := loaded, primFetched := fetched }).plPos
    (q.2.1.headD 0) 0 (if q.2.1 = [] then 5 else 2)

/-- What the planner's command fetches has come, in the time that its bytes take (R431): it is validated and applied, or the command ends.
A table that was fetched without defect stays resident; grids are as they were (R441). -/
def State.plLoad (s : State) : State :=
  match s.plan.run.bind (fun r => (s.cmd r.cmd).map (fun c => (r, c))) with
  | none => s
  | some (r, c) =>
    if r.loaded ∨ c.phase ≠ .running ∨ s.time < r.due then s
    else
      let s := (s.noteAreas c (s.plFetched c)).arrived c.id
      match s.planFetch c with
      | .ok p => s.planBegin c r p
      | .error f =>
        let s := match f.table with | some t => s.useTable t | none => s
        let s := s.setPlan { r with gridLoaded := f.gridRead, primFetched := f.table.isSome, reqs := f.reqs }
        match f.why with
        | .inl e => s.plRefuse c e.status e.reason 0
        | .inr a => s.plOperand c a

/-- A command's run as it starts: it fetches. -/
def planStart (c : Command) (due now : Nat) : PlanRun :=
  { cmd := c.id, loaded := false, due := due, grid := plGridId c.block, table := { region := c.region, addr := plPrimAddr c.block, data := [], mark := 0 }
    reqs := [], base := [], todo := [], search := none, results := [], replaced := 0, gridLoaded := false, primFetched := false, lookups := 0, cuts := 0
    start := now, flush := false }

/-- A command of the planner is started, or advances by up to n units. -/
def State.planAdvance (s : State) (cmd n : Nat) (ours : Nat → Bool) : State :=
  match s.cmd cmd with
  | none => s
  | some c =>
    if ours (plOp c.block) = false then s
    else if (s.planRunOf c).isSome ∧ c.phase = .running then s.planRunUnits c n
    else match s.engineNext .planner pgPlan s.plan.run.isSome cmd with
      | none => s
      | some c =>
        if s.pageFailed pgPlan then s.plRefuse c St.PLANNER_FAULT 0 0
        else match firstBad (s.plChecks c) with
          | some e => s.plRefuse c e.status e.reason 0
          | none =>
            if s.stopPassed c then s.plRefuse c St.DEADLINE 0 0
            else if (s.plArrays c).any (fun a => a.meets (plResArea c.block)) then s.plRefuse c St.PLAN_INVALID 7 0
            else
              let l := s.plFetched c
              let r := planStart c (s.time + ceilDiv (4 * hostLen l + devLen l) 64) s.time
              let s := ((s.setPlan r).wr64 Reg.PLN_PLN_STOP_LO c.stop).plPos 0 0 1
              (s.updCmd cmd (fun c => { c with phase := .running })).await cmd (hostLen l)

/-- PLAN (R418): the command starts where it has not, and its fetch begins; once that has ended it handles up to n search time steps and
PLACE requests, and commits. A block whose OP is reserved is refused here. -/
def execPlanCmd (cmd n : Nat) (s : State) : Host.Outcome State Fault Refusal := .next (s.planAdvance cmd n (fun op => op != 2))

/-- REPAIR (R427). -/
def execRepairCmd (cmd n : Nat) (s : State) : Host.Outcome State Fault Refusal := .next (s.planAdvance cmd n (fun op => op == 2))

/-! Stops and faults (R445 to R447, Table 08-12). -/

/-- A stop with a status reaches a planner command: a search in progress gives the goal it holds. One whose last request has ended is
COMPLETE (R446, R448); one whose updates have not applied has no valid result (R447). -/
def State.stopPlan (s : State) (c : Command) (status : Nat) (valid : Bool) : State :=
  let cause := if status = St.DEADLINE then 2 else if status = St.ENERGY_CEILING then 3 else if status = St.CANCELLED then 4 else 5
  match s.planRunOf c with
  | some r =>
    if s.faultable c.id = false then s
    else if valid = false ∨ r.loaded = false then s.plRefuse c status 0 cause
    else if cause ≠ 5 ∧ r.todo = [] then s.plFinish r St.OK 1
    else
      let s := match r.todo, r.search with
        | i :: _, some q => match q.goal with
          | some n => if cause = 5 then s else s.conclude r i (goalRes q n 3)
          | none => s
        | _, _ => s
      match s.planRunOf c with
      | some r => s.plFinish r status cause
      | none => s
  | none => s.plRefuse c status 0 0

/-- The planner lets go of an ended command (R443). -/
def State.releasePlan (s : State) : State :=
  match s.plan.run with
  | none => s
  | some r =>
    let s := { s with plan := { s.plan with run := none } }.plPos 0 0 0
    if r.flush then s.dropPlans (fun g => g == r.table.region) else s

end Sys2Proof.Machine
end

