-- ==== Sys2Proof/Machine/FloatFn.lean ====
section
/-! DEFINITION. Correctly rounded functions of binary floating point (R18, R299, R349): the exponential and the natural
logarithm, computed in 320-bit fixed point, whose error lies far below half a unit in the last place of binary32, and the
64-partial sums of R300. -/

namespace Sys2Proof.Machine

/-- Fraction bits of the fixed-point values below. -/
abbrev fixBits : Nat := 320

/-- z + z^3/3 + z^5/5 + …, for a fixed-point z below 1/3: p holds the present odd power. -/
def atanhSum (z2 : Nat) : Nat → Nat → Nat → Nat → Nat
  | 0, _, _, acc => acc
  | n + 1, p, d, acc => if p = 0 then acc else atanhSum z2 n ((p * z2) >>> fixBits) (d + 2) (acc + p / d)

/-- 2 · atanh(num / den) in fixed point, for num / den ≤ 1/3. -/
def twoAtanh (num den : Nat) : Nat :=
  let z := (num <<< fixBits) / den
  2 * atanhSum ((z * z) >>> fixBits) 160 z 1 0

/-- ln 2 in fixed point. -/
def ln2Fix : Nat := twoAtanh 1 3

/-- 1 + r + r^2/2! + …, for a fixed-point r below 1: t holds the present term. -/
def expSum (r : Nat) : Nat → Nat → Nat → Nat → Nat
  | 0, _, _, acc => acc
  | n + 1, t, i, acc => if t = 0 then acc else expSum r n (((t * r) >>> fixBits) / i) (i + 1) (acc + t)

/-- exp of a finite value, rounded once to a format (R299). -/
def Fmt.exp (f : Fmt) : Fp → Nat
  | .nan => f.qnan
  | .inf true => 0
  | .inf false => f.infBits
  | .fin neg m e =>
    if m = 0 then f.ofInt 1
    else if (2000 : Int) < e + bitLen m ∨ (12 : Int) < e + bitLen m then (if neg then 0 else f.infBits)
    else
      let x : Int := if 0 ≤ e + fixBits then ((m <<< (e + fixBits).toNat : Nat) : Int) else ((m >>> (-(e + fixBits)).toNat : Nat) : Int)
      let x := if neg then -x else x
      let k := x / (ln2Fix : Int)
      let r := (x - k * (ln2Fix : Int)).toNat
      if x = 0 then f.ofInt 1
      else f.round false (expSum r 200 (1 <<< fixBits) 1 0) (k - (fixBits : Int)) true

/-- ln of m · 2^e with m > 0, rounded once to a format. -/
def Fmt.lnPos (f : Fmt) (m : Nat) (e : Int) : Nat :=
  let l := bitLen m
  -- m · 2^e = c · 2^q with 1 ≤ c < 2
  let q := e + (l : Int) - 1
  let one := 1 <<< (l - 1)
  if m = one ∧ q = 0 then 0
  else
    let v : Int := q * (ln2Fix : Int) + (twoAtanh (m - one) (m + one) : Int)
    f.round (decide (v < 0)) v.natAbs (-(fixBits : Int)) true

/-- ln, rounded once to a format (R299). -/
def Fmt.ln (f : Fmt) : Fp → Nat
  | .nan => f.qnan
  | .inf true => f.qnan
  | .inf false => f.infBits
  | .fin neg m e => if m = 0 then f.enc (.inf true) else if neg then f.qnan else f.lnPos m e

/-! Sums in 64 partials (R300, R301). -/

/-- Partial q of a sum takes one more term. -/
def laneStep {α : Type} (add : α → Nat → Nat) (p : List Nat) (jt : Nat × α) : List Nat := updAt (jt.1 % 64) (add jt.2) p

/-- Fold 2h partials into h. -/
def foldLanes (f : Fmt) (p : List Nat) : List Nat → Nat
  | [] => p.getD 0 0
  | h :: hs => foldLanes f (List.zipWith f.addB (p.take h) ((p.drop h).take h)) hs

/-- A sum over terms that each add themselves to a partial. -/
def laneSum {α : Type} (f : Fmt) (add : α → Nat → Nat) (ts : List α) : Nat :=
  foldLanes f (((List.range ts.length).zip ts).foldl (laneStep add) (List.replicate 64 0)) [32, 16, 8, 4, 2, 1]

/-- Σ a_j · b_j (R300). -/
def Fmt.dot (f : Fmt) (a b : List Nat) : Nat := laneSum f (fun (t : Nat × Nat) p => f.fmaB t.1 t.2 p) (a.zip b)

/-- Σ t_j of plain terms (R300). -/
def Fmt.sum (f : Fmt) (ts : List Nat) : Nat := laneSum f (fun (t : Nat) p => f.addB p t) ts

/-- ‖v‖₂ (R301). -/
def Fmt.norm (f : Fmt) (v : List Nat) : Nat := f.sqrtB (f.dot v v)

/-- The greatest of a list (R301); 0 for none. -/
def Fmt.maxOf (f : Fmt) : List Nat → Nat
  | [] => 0
  | x :: xs => xs.foldl (fun m y => if f.ltB m y then y else m) x

/-- A list of patterns converted to another format. -/
def cvtList (a b : Fmt) (l : List Nat) : List Nat := l.map (Fmt.cvt a b)

end Sys2Proof.Machine
end

