-- ==== Sys2Proof/Machine/PredMath.lean ====
section
/-! DEFINITION. The arithmetic of the predictor array (spec/07_predictor_array.md R340 to R361): number formats, quantisation,
accumulation, requantisation and the wide output. Integers are Int; FP values are binary32 patterns. -/

namespace Sys2Proof.Machine

/-! Formats (Table 07-2): FMT codes 0 INT4, 1 INT8, 2 E4M3, 3 E5M2. -/

def predQmax (fmt : Nat) : Nat := if fmt = 0 then 7 else if fmt = 1 then 127 else if fmt = 2 then 448 else 57344
def predLo (fmt : Nat) : Int := if fmt = 0 then -8 else -128
def predHi (fmt : Nat) : Int := if fmt = 0 then 7 else 127

/-- An E4M3 or E5M2 byte as a datum (OFP8). -/
def fp8Dec (fmt w : Nat) : Fp :=
  if fmt = 3 then (Fmt.mk 5 2).dec w
  else if lowBits w 7 = 0x7F then .nan
  else
    let ex := fld w 6 3
    if ex = 0 then .fin (bit w 7) (lowBits w 3) (-9) else .fin (bit w 7) (8 + lowBits w 3) ((ex : Int) - 10)

/-- A saturating conversion (R353, R358): fb fraction bits, least exponent emin of a unit, greatest magnitude mm · 2^me. The
binary32 pattern of the result, and whether it is a clamp. -/
def satRound (fb : Nat) (emin : Int) (mm : Nat) (me : Int) : Fp → Nat × Bool
  | .nan => (0, true)
  | .inf n => (f32.enc (.fin n mm me), true)
  | .fin n m e =>
    let u := if e + (bitLen m : Int) - (fb + 1 : Nat) < emin then emin else e + (bitLen m : Int) - (fb + 1 : Nat)
    let q := if u ≤ e then m <<< (e - u).toNat else roundShift m (u - e).toNat false
    if Fp.ltFin false mm me false q u then (f32.enc (.fin n mm me), true) else (f32.enc (.fin n q u), false)

/-- fp8 of R353 and bf16 of R358. -/
def toFp8 (fmt : Nat) (x : Fp) : Nat × Bool := if fmt = 2 then satRound 3 (-9) 7 6 x else satRound 2 (-16) 7 13 x
def toBf16 (x : Fp) : Nat × Bool := satRound 7 (-133) 255 120 x

/-- rhe of a binary32 value, held to a range (R346, R349); a NaN's integer is one that R349 does not state. -/
def rheSat (lo hi : Int) (o : Nat) (w : Nat) : Int :=
  match f32.dec w with
  | .nan => clampInt lo hi (Config.roundOfNan o)
  | .inf n => if n then lo else hi
  | x => clampInt lo hi x.toIntRne

/-- x modulo 2^n as a signed value (R341). -/
def wrapInt (n : Nat) (x : Int) : Int := sInt n (toTwos n x)

/-- An element of the input (R346): INT or FP. -/
def quantIn (fmt s0 x : Nat) : Int :=
  let q := f32.divB x s0
  if fmt < 2 then rheSat (predLo fmt) (predHi fmt) 0 q else ((toFp8 fmt (f32.dec q)).1 : Int)

/-- A layer's data for one pass: weights by output channel, weight scales, and biases. -/
structure LayerData where
  weights : List (List Int)
  scales : List Nat
  bias : List Nat
deriving DecidableEq, Repr

/-- c_o of every channel (R344). -/
def LayerData.c (d : LayerData) (sIn : Nat) : List Nat := d.scales.map (f32.mulB sIn)

/-- An INT accumulator (R349). -/
def accInt (wide : Bool) (row zero w : List Int) (o bias c : Nat) : Int :=
  let n := if wide then 64 else 32
  let lim : Int := ((1 <<< (n - 1) : Nat) : Int)
  let bq := rheSat (-lim) (lim - 1) o (f32.divB bias c)
  wrapInt n (bq + sumInt (fun (t : (Int × Int) × Int) => (t.1.1 - t.1.2) * t.2) ((row.zip zero).zip w))

/-- An FP accumulator (R350). -/
def accFp (row w : List Int) (bias : Nat) : Int :=
  ((row.zip w).foldl (fun acc t => f32.fmaB t.1.toNat t.2.toNat acc) bias : Nat)

/-- RELU (R351): of a NaN or −0 it gives +0. -/
def reluOf (fp : Bool) (a : Int) : Int :=
  if fp then (if f32.ltB 0 a.toNat then a else 0) else (if a < 0 then 0 else a)

/-- The accumulators of one layer over the rows of a block. -/
def accumulate (fp wide relu : Bool) (d : LayerData) (c : List Nat) (zero : List Int) (rows : List (List Int)) : List (List Int) :=
  let chans := ((List.range d.weights.length).zip d.weights).zip (d.bias.zip c)
  rows.map (fun row => chans.map (fun ch =>
    let a := if fp then accFp row ch.1.2 ch.2.1 else accInt wide row zero ch.1.2 ch.1.1 ch.2.1 ch.2.2
    if relu then reluOf fp a else a))

/-- float32(acc) (R355). -/
def accF32 (fp : Bool) (a : Int) : Nat := if fp then a.toNat else f32.ofInt a

/-- y of the last layer (R355). -/
def dequant (fp : Bool) (c : List Nat) (accs : List (List Int)) : List Nat :=
  accs.flatMap (fun r => List.zipWith (fun a co => f32.mulB (accF32 fp a) co) r c)

/-- The largest |float32(acc)| · c_o (R358, R361). -/
def amaxOf (fp : Bool) (c : List Nat) (accs : List (List Int)) : Nat :=
  accs.foldl (fun m r => (List.zipWith (fun a co => f32.mulB (f32.absB (accF32 fp a)) co) r c).foldl (fun m v =>
    if f32.ltB m v then v else m) m) 0

/-! Requantisation (R352 to R354). -/

/-- A requantisation entry: MULT (or MULT_F), SHIFT and ZERO. -/
structure RqEntry where
  mult : Nat
  shift : Nat
  zero : Int
deriving DecidableEq, Repr

/-- The entry that R354 derives from M in the INT family. An M of 0 takes MULT 0, and one that is infinite saturates. -/
def rqFromM (o m : Nat) : RqEntry :=
  match f32.dec m with
  | .nan => { mult := lowBits (Config.roundOfNan o).toNat 32, shift := 63, zero := 0 }
  | .inf _ => { mult := 0xFFFFFFFF, shift := 0, zero := 0 }
  | .fin _ k e =>
    if k = 0 then { mult := 0, shift := 63, zero := 0 }
    else
      let mult := k <<< (32 - bitLen k)
      let sh : Int := 8 - (e + (bitLen k : Int) - 24)
      if 63 < sh then { mult := roundShift mult (sh - 63).toNat false, shift := 63, zero := 0 }
      else if sh < 0 then { mult := 0xFFFFFFFF, shift := 0, zero := 0 }
      else { mult := mult, shift := sh.toNat, zero := 0 }

/-- The entries of a RUNNING layer, or of a wide pass: from M = c_o / s_out (R354). -/
def rqDerive (fp : Bool) (c : List Nat) (sOut : Nat) : List RqEntry :=
  ((List.range c.length).zip c).map (fun p =>
    let m := f32.divB p.2 sOut
    if fp then { mult := m, shift := 0, zero := 0 } else rqFromM p.1 m)

/-- A value held to a range, and whether that changed it. -/
def clampCount (lo hi x : Int) : Int × Bool := (clampInt lo hi x, decide (x < lo) || decide (hi < x))

/-- Apply f to every element of rows, with its channel's entry, counting the clamps. -/
def requantRows {α : Type} (f : Int → α → Int × Bool) (es : List α) (accs : List (List Int)) : List (List Int) × Nat :=
  let p := accs.map (fun r => List.zipWith f r es)
  (p.map (fun r => r.map (·.1)), sumOf (fun r => countWhere (fun (x : Int × Bool) => x.2) r) p)

/-- The narrow output of a layer in the format of the next (R352, R353). -/
def requant (fmt : Nat) (es : List RqEntry) (accs : List (List Int)) : List (List Int) × Nat :=
  requantRows (fun a (e : RqEntry) =>
    if fmt < 2 then clampCount (predLo fmt) (predHi fmt) (e.zero + rheShift (a * (e.mult : Int)) e.shift)
    else
      let r := toFp8 fmt (f32.dec (f32.mulB a.toNat e.mult))
      ((r.1 : Int), r.2)) es accs

/-! The wide format (R358). -/

/-- The least t with x ≤ 2^t, for a positive finite x. -/
def ceilLog2 : Fp → Int
  | .fin _ m e => e + (bitLen m : Int) - (if m = 1 <<< (bitLen m - 1) then 1 else 0)
  | _ => Config.residualScale 0

/-- The scale of an INT16 output: the ring value A, a_cur and INIT_SCALE. -/
def wideScale (a aCur init : Nat) : Nat :=
  let x := if f32.ltB a aCur then aCur else a
  let e := if f32.eqB x 0 then ceilLog2 (f32.dec init) else ceilLog2 (f32.dec x) - 14
  f32.enc (.fin false 1 e)

/-- The wide output of a layer: its rows, scale and clamps. -/
def requantWide (fp : Bool) (c : List Nat) (sOut : Nat) (accs : List (List Int)) : List (List Int) × Nat :=
  if fp then
    requantRows (fun a (co : Nat) =>
      let r := toBf16 ((f32.dec a.toNat).mul (f32.dec co))
      ((r.1 : Int), r.2)) c accs
  else requantRows (fun a (e : RqEntry) => clampCount (-32768) 32767 (rheShift (a * (e.mult : Int)) e.shift)) (rqDerive false c sOut) accs

end Sys2Proof.Machine
end

