-- ==== Sys2Proof/Machine/PredBlock.lean ====
section
/-! DEFINITION. The predictor array's structures and their checks (spec/07_predictor_array.md R370 to R380): operand block,
weight image, scale record, grist-writer block, and the first-result time (R381, R383). -/

namespace Sys2Proof.Machine

abbrev pgPred : Nat := 0x00E

abbrev badPred (r : Nat) : Bad := { status := St.PRED_INVALID, reason := r, ext := 0 }

/-! Operand block (Table 07-4). -/

abbrev pbFamily (b : List Byte) : Nat := leAt b 5 1
abbrev pbFp (b : List Byte) : Bool := pbFamily b == 1
abbrev pbLayers (b : List Byte) : Nat := leAt b 6 1
abbrev pbFlags (b : List Byte) : Nat := leAt b 7 1
abbrev pbRerun (b : List Byte) : Bool := bit (pbFlags b) 0
abbrev pbGrist (b : List Byte) : Bool := bit (pbFlags b) 1
abbrev pbSpaces (b : List Byte) : Nat := leAt b 8 2
abbrev pbInSpace (b : List Byte) : Nat := fld (pbSpaces b) 1 0
abbrev pbScaleSpace (b : List Byte) : Nat := fld (pbSpaces b) 3 2
abbrev pbGwSpace (b : List Byte) : Nat := fld (pbSpaces b) 5 4
abbrev pbResSpace (b : List Byte) : Nat := fld (pbSpaces b) 7 6
abbrev pbHist (b : List Byte) : Nat := leAt b 0x0A 1
abbrev pbBatch (b : List Byte) : Nat := leAt b 0x0C 4
abbrev pbWeight (b : List Byte) : Nat := leAt b 0x10 8
abbrev pbWeightBytes (b : List Byte) : Nat := leAt b 0x18 4
abbrev pbWeightCrc (b : List Byte) : Nat := leAt b 0x1C 4
abbrev pbInput (b : List Byte) : Nat := leAt b 0x20 8
abbrev pbScale (b : List Byte) : Nat := leAt b 0x28 8
abbrev pbGw (b : List Byte) : Nat := leAt b 0x30 8
abbrev pbResult (b : List Byte) : Nat := leAt b 0x38 8
abbrev pbResultBytes (b : List Byte) : Nat := leAt b 0x40 4

/-- The block's MAGIC, VERSION and CRC hold (R212). -/
def pbGenuine (b : List Byte) : Bool := leAt b 0 4 == 0x44455250 && leAt b 4 1 == 1 && leAt b 0x7C 4 == crc32c (b.take 0x7C)

/-! Weight image (Table 07-5). -/

/-- A field of layer l's descriptor. -/
def lyr (img : List Byte) (l off n : Nat) : Nat := leAt img (64 * l + off) n
abbrev lyKin (img : List Byte) (l : Nat) : Nat := lyr img l 0 2
abbrev lyKout (img : List Byte) (l : Nat) : Nat := lyr img l 2 2
abbrev lyFmt (img : List Byte) (l : Nat) : Nat := lyr img l 4 1
abbrev lyRelu (img : List Byte) (l : Nat) : Bool := lyr img l 5 1 == 1
abbrev lyStatic (img : List Byte) (l : Nat) : Bool := lyr img l 6 1 == 1
abbrev lyLimit (img : List Byte) (l : Nat) : Nat := lyr img l 8 2
abbrev lyInit (img : List Byte) (l : Nat) : Nat := lyr img l 0x0C 4

/-- Row pitch of narrow and wide weights. -/
def rowPitch (fmt kin : Nat) : Nat := pad64 (if fmt = 0 then ceilDiv kin 2 else kin)

/-- The resident image of a command's key (R385, R386). -/
def State.residentFor (s : State) (region : Nat) (b : List Byte) : Option Resident :=
  s.pred.resident.find? (fun r => r.region == region && r.addr == pbWeight b && r.bytes == pbWeightBytes b && r.crc == pbWeightCrc b)

/-- The first n bytes of the image that a command uses: resident ones, or as HBM holds them. -/
def State.imageHead (s : State) (c : Command) (n : Nat) : Option (List Byte) :=
  match s.residentFor c.region c.block with
  | some r => some (r.data.take n)
  | none => s.readSpace c.region c.func spHbm (pbWeight c.block) n

/-- The arrays that layer l needs: offset field, and length (R371, R373). The last layer needs no requantisation table. -/
def lyArrays (b img : List Byte) (l : Nat) : List (Nat × Nat) :=
  let ki := lyKin img l
  let ko := lyKout img l
  let last := l + 1 == pbLayers b
  [(lyr img l 0x10 4, ko * rowPitch (lyFmt img l) ki), (lyr img l 0x14 4, 4 * ko), (lyr img l 0x18 4, 4 * ko)] ++
  (if lyStatic img l && !last then [(lyr img l 0x1C 4, 8 * ko)] else []) ++
  (if pbRerun b && !last then [(lyr img l 0x20 4, ko * pad64 (2 * ki)), (lyr img l 0x24 4, 4 * ko)] else [])

/-- A binary32 pattern is positive and finite. -/
def posFinite (w : Nat) : Bool := f32.finite w && f32.ltB 0 w

/-- The descriptor checks of layer l (step 3 of R379). -/
def layerChecks (b img : List Byte) (l : Nat) : List (Bool × Bad) :=
  let ki := lyKin img l
  let ko := lyKout img l
  [(ki == 0 || decide (4096 < ki), badPred 7), (l != 0 && ki != lyKout img (l - 1), badPred 5), (ko == 0 || decide (4096 < ko), badPred 7),
   (decide (3 < lyFmt img l), badPred 6), (lyFmt img l / 2 != pbFamily b, badPred 4), (decide (1 < lyr img l 5 1), badPred 6),
   (decide (1 < lyr img l 6 1), badPred 6), (lyr img l 7 1 != 0, badRsvd), (lyr img l 0x0A 2 != 0, badRsvd), (!posFinite (lyInit img l), badPred 6)] ++
  (lyArrays b img l).flatMap (fun a => [(a.1 == 0xFFFFFFFF || decide (pbWeightBytes b < a.1 + a.2), badPred 7), (a.1 % 64 != 0, badPred 8)]) ++
  [(!allZero ((img.drop (64 * l + 0x28)).take 24), badRsvd)]

/-- The checks of layer l's arrays: weight scales, biases, STATIC entries and wide weight scales. -/
def layerValueChecks (b img : List Byte) (l : Nat) : List (Bool × Bad) :=
  let ko := lyKout img l
  let at4 := fun (off : Nat) => values 4 (img.drop off) ko
  let last := l + 1 == pbLayers b
  let rq := if lyStatic img l && !last then
      let nf := lyFmt img (l + 1)
      (List.range ko).flatMap (fun o =>
        let e := (img.drop (lyr img l 0x1C 4 + 8 * o)).take 8
        let z := sInt 16 (leAt e 6 2)
        [(pbFp b && !posFinite (leAt e 0 4), badPred 6), (fld (leAt e 4 1) 7 6 != 0, badRsvd), (pbFp b && leAt e 4 1 != 0, badPred 6),
         (leAt e 5 1 != 0, badRsvd), (if pbFp b then z != 0 else decide (z < predLo nf) || decide (predHi nf < z), badPred 6)])
    else []
  [((at4 (lyr img l 0x14 4)).any (fun w => !posFinite w), badPred 6), ((at4 (lyr img l 0x18 4)).any (fun w => !f32.finite w), badPred 0x0C)] ++ rq ++
  (if pbRerun b && !last then [((at4 (lyr img l 0x24 4)).any (fun w => !posFinite w), badPred 6)] else [])

/-- Step 3 of R379 over a whole image; WEIGHT_CRC is not checked again for a resident one. -/
def imageDefect (b img : List Byte) (resident : Bool) : Option Bad :=
  let ls := List.range (pbLayers b)
  firstBad ([(decide (pbWeightBytes b < 64 * pbLayers b), badPred 7)] ++ ls.flatMap (layerChecks b img) ++
    [(!resident && crc32c img != pbWeightCrc b, badPred 9)] ++ ls.flatMap (layerValueChecks b img))

/-- The data of layer l for a narrow or a wide pass. The last layer's wide copy is its narrow one, widened (R358, R373). -/
def layerData (b img : List Byte) (l : Nat) (wide : Bool) : LayerData :=
  let ki := lyKin img l
  let ko := lyKout img l
  let w := wide && l + 1 != pbLayers b
  let fmt := lyFmt img l
  let base := lyr img l (if w then 0x20 else 0x10) 4
  let pitch := if w then pad64 (2 * ki) else rowPitch fmt ki
  let elem := fun (row : List Byte) (j : Nat) =>
    if w then (if pbFp b then ((leAt row (2 * j) 2 <<< 16 : Nat) : Int) else sInt 16 (leAt row (2 * j) 2))
    else if fmt = 0 then sInt 4 (leAt row (j / 2) 1 >>> (4 * (j % 2)))
    else if fmt = 1 then sInt 8 (leAt row j 1)
    else (f32.enc (fp8Dec fmt (leAt row j 1)) : Int)
  { weights := (List.range ko).map (fun o => (List.range ki).map (elem ((img.drop (base + pitch * o)).take pitch)))
    scales := values 4 (img.drop (lyr img l (if w then 0x24 else 0x14) 4)) ko
    bias := values 4 (img.drop (lyr img l 0x18 4)) ko }

/-- The STATIC entries of layer l (R372). -/
def staticEntries (img : List Byte) (l : Nat) : List RqEntry :=
  (List.range (lyKout img l)).map (fun o =>
    let e := (img.drop (lyr img l 0x1C 4 + 8 * o)).take 8
    { mult := leAt e 0 4, shift := fld (leAt e 4 1) 5 0, zero := sInt 16 (leAt e 6 2) })

/-! Scale record (Table 07-6). -/

def scaleBytes (layers : Nat) : Nat := 32 + 80 * (layers - 1)

/-- CRC-32C of a structure without the 4 bytes at off. -/
def crcWithout (bs : List Byte) (off : Nat) : Nat := crc32c (bs.take off ++ bs.drop (off + 4))

/-- Step 4 of R379. -/
def scaleChecks (b rec : List Byte) : List (Bool × Bad) :=
  let h := pbHist b
  [(leAt rec 0 4 != 0x4C435350, badPred 1), (leAt rec 4 1 != 1, badPred 2), (leAt rec 5 1 != h, badPred 0x0A), (leAt rec 6 2 != 0, badRsvd),
   (leAt rec 8 4 != pbWeightCrc b, badPred 0x0A), (leAt rec 0x0C 4 != 0, badRsvd), (leAt rec 0x18 4 != 0, badRsvd),
   (crcWithout rec 0x1C != leAt rec 0x1C 4, badPred 0x0A)] ++
  (List.range (pbLayers b - 1)).flatMap (fun l =>
    let e := (rec.drop (32 + 80 * l)).take 80
    let n := leAt e 0 1
    let am := values 4 (e.drop 16) 16
    [(decide (h < n), badPred 0x0A), (!allZero ((e.drop 1).take 15), badRsvd),
     ((am.take n).any (fun w => !f32.finite w || f32.ltB w 0), badPred 0x0A), ((am.drop n).any (fun w => w != 0), badRsvd)])

/-- The rings of a scale record, newest first. -/
def scaleRings (layers : Nat) (rec : List Byte) : List (List Nat) :=
  (List.range (layers - 1)).map (fun l =>
    let e := (rec.drop (32 + 80 * l)).take 80
    (values 4 (e.drop 16) 16).take (leAt e 0 1))

/-- A scale record's bytes, with its SCALE_CRC. -/
def packScale (b : List Byte) (invocations : Nat) (rings : List (List Nat)) : List Byte :=
  let top := natLE 4 0x4C435350 ++ natLE 1 1 ++ natLE 1 (pbHist b) ++ natLE 2 0 ++ natLE 4 (pbWeightCrc b) ++ natLE 4 0 ++
    natLE 8 invocations ++ natLE 4 0
  let body := rings.flatMap (fun r => natLE 1 r.length ++ natLE 15 0 ++ (List.range 16).flatMap (fun i => natLE 4 (r.getD i 0)))
  top ++ natLE 4 (crc32c (top ++ body)) ++ body

/-! Grist-writer block (Table 07-7, R376). -/

abbrev gwTarget (g : List Byte) : Nat := leAt g 5 1
abbrev gwMode (g : List Byte) : Nat := leAt g 6 1
abbrev gwTuns (g : List Byte) : List Nat := boxTuns (leAt g 8 1) (leAt g 9 1) (leAt g 0x0A 1) (leAt g 0x0B 1)
abbrev gwN (g : List Byte) : Nat := leAt g 0x1C 4
abbrev gwMul (g : List Byte) (o : Nat) : Nat := leAt g (64 + 8 * o) 4
abbrev gwZero (g : List Byte) (o : Nat) : Int := sInt 32 (leAt g (68 + 8 * o) 4)

/-- The one load that every tun of a grist-writer rectangle holds, and whose rectangle equals it. -/
def State.gwGrist (s : State) (g : List Byte) : Option Grist :=
  match (s.tunSt (16 * leAt g 9 1 + leAt g 8 1)).load.bind s.grist with
  | none => none
  | some gr =>
    if (gwTuns g).all (fun t => decide ((s.tunSt t).load = some gr.id)) && gr.x0 == leAt g 8 1 && gr.y0 == leAt g 9 1 &&
        gr.x1 == leAt g 0x0A 1 && gr.y1 == leAt g 0x0B 1 then some gr else none

/-- The grist's mode suits TARGET. -/
def gwModeOk (target mode : Nat) : Bool := if target = 0 then mode == 1 || mode == 2 else mode == target

/-- Step 2 of R379 but its CRC and entries. -/
def State.gwChecks (s : State) (region : Nat) (g : List Byte) (kout : Nat) : List (Bool × Bad) :=
  let x0 := leAt g 8 1
  let y0 := leAt g 9 1
  let x1 := leAt g 0x0A 1
  let y1 := leAt g 0x0B 1
  [(leAt g 0 4 != 0x54525747, badPred 1), (leAt g 4 1 != 1, badPred 2), (decide (2 < gwTarget g) || decide (1 < gwMode g), badPred 0x0D),
   (leAt g 7 1 != 0, badRsvd), (decide (x1 < x0) || decide (15 < x1) || decide (y1 < y0) || decide (7 < y1), badPred 0x0E),
   ((gwTuns g).any (fun t => !s.inRegion region t), badPred 0x0E), ((gwTuns g).any (fun t => (s.tunSt t).load.isNone), badPred 0x0F),
   ((s.gwGrist g).isNone, badPred 0x0E), (match s.gwGrist g with | some gr => !gwModeOk (gwTarget g) gr.mode | none => false, badPred 0x0F),
   (gwN g != kout, badPred 0x0D), (!allZero ((g.drop 0x20).take 28), badRsvd)]

/-- Step 2 of R379: a defect, an area that fails (ADDR), a failed read (none), or the block. -/
def State.gwRead (s : State) (c : Command) (kout : Nat) : Except (Option Bad) (List Byte) :=
  let b := c.block
  match s.readSpace c.region c.func (pbGwSpace b) (pbGw b) 64 with
  | none => .error none
  | some h =>
    match firstBad (s.gwChecks c.region h kout) with
    | some e => .error (some e)
    | none =>
      if !s.areaIn c.region (pbGwSpace b) (pbGw b) (64 + 8 * kout) then .error (some (badPred 8))
      else match s.readSpace c.region c.func (pbGwSpace b) (pbGw b) (64 + 8 * kout) with
        | none => .error none
        | some g =>
          if crcWithout g 0x3C ≠ leAt g 0x3C 4 ∨ (List.range kout).any (fun o => !f32.finite (gwMul g o)) then .error (some (badPred 0x0D))
          else .ok g

/-! Step 1 of R379. -/

/-- The required size (R377). -/
def pbRequired (b : List Byte) (kout : Nat) : Nat := 128 + pad64 (4 * pbBatch b * kout)

/-- The operand block's checks; kin and kout are K_IN(0) and K_OUT(L − 1) as the image holds them. -/
def State.pbChecks (s : State) (region : Nat) (b : List Byte) (kin kout : Nat) : List (Bool × Bad) :=
  let bad := fun (sp a n : Nat) => s.areaBadAt region { space := sp, addr := a, len := n }
  [(leAt b 0 4 != 0x44455250, badPred 1), (leAt b 4 1 != 1, badPred 2), (leAt b 0x7C 4 != crc32c (b.take 0x7C), badPred 3),
   (decide (1 < pbFamily b), badPred 4), (pbLayers b == 0 || decide (64 < pbLayers b), badPred 5), (fld (pbFlags b) 7 2 != 0, badRsvd),
   (pbInSpace b == 3 || pbScaleSpace b == 3 || pbGwSpace b == 3 || pbResSpace b == 3, badPred 8), (fld (pbSpaces b) 15 8 != 0, badRsvd),
   (pbHist b == 0 || decide (16 < pbHist b), badPred 7), (leAt b 0x0B 1 != 0, badRsvd), (decide (65536 < pbBatch b), badPred 7),
   (bad spHbm (pbWeight b) (Nat.min (pbWeightBytes b) 67108864), badPred 8), (decide (67108864 < pbWeightBytes b), badPred 7),
   (bad (pbInSpace b) (pbInput b) (4 * pbBatch b * kin), badPred 8), (bad (pbScaleSpace b) (pbScale b) (scaleBytes (pbLayers b)), badPred 8),
   (pbGrist b && bad (pbGwSpace b) (pbGw b) 64, badPred 8), (bad (pbResSpace b) (pbResult b) (pbResultBytes b), badPred 8),
   (decide (pbResultBytes b < pbRequired b kout), badPred 0x0B), (leAt b 0x44 4 != 0, badRsvd), (!allZero ((b.drop 0x50).take 44), badRsvd)]

/-- K_IN(0) and K_OUT(L − 1) as the image holds them; 0 where they cannot be read. -/
def State.pbShape (s : State) (c : Command) : Nat × Nat :=
  let b := c.block
  let l := pbLayers b
  if l = 0 ∨ 64 < l ∨ pbWeightBytes b < 64 * l then (0, 0)
  else match s.imageHead c (64 * l) with
    | none => (0, 0)
    | some img => (lyKin img 0, lyKout img (l - 1))

/-! Timing (R381, R383). -/

def layerCycles (kin kout b : Nat) (wide : Bool) : Nat := (if wide then 2 else 1) * ceilDiv kin 128 * ceilDiv kout 128 * (b + 128) + 32
def gwCycles (b kout : Nat) : Nat := ceilDiv (b * kout) 8 + 64

/-- Cycles in which a block's input is quantised (R381). -/
def quantCycles (b kin : Nat) : Nat := ceilDiv (b * kin) 1024

/-- Rows of row block j (R342). -/
def blockRows (batch j : Nat) : Nat := Nat.min 1024 (batch - 1024 * j)

/-- C_rw of R359. -/
def rerunCycles (b img : List Byte) (l rows : Nat) : Nat :=
  sumOf (fun k => layerCycles (lyKin img (l + k)) (lyKout img (l + k)) rows true) (List.range (pbLayers b - l)) +
  (if pbGrist b then gwCycles rows (lyKout img (pbLayers b - 1)) else 0)

/-- Bytes of input per ns (R383). -/
def pbRate (b : List Byte) : Nat := if pbInSpace b = spHost then 16 else 64

/-- T_first (R383): only the weight fetch and the sum are rounded; 0 where the descriptors cannot be read. -/
def State.pbTFirst (s : State) (c : Command) : Nat :=
  let b := c.block
  let l := pbLayers b
  if l = 0 ∨ 64 < l ∨ pbWeightBytes b < 64 * l then 0
  else match s.imageHead c (64 * l) with
    | none => 0
    | some img =>
      let rows := blockRows (pbBatch b) 0
      let k0 := lyKin img 0
      let w := if (s.residentFor c.region b).isSome then 0 else ceilDiv (pbWeightBytes b) 64
      let cyc := quantCycles rows k0 + sumOf (fun i => layerCycles (lyKin img i) (lyKout img i) rows false) (List.range l) +
        (if pbGrist b then gwCycles rows (lyKout img (l - 1)) else 0)
      ceilDiv (64 * (2000 + w) + (64 / pbRate b) * (4 * pbBatch b * k0 + 4 * rows * k0) + 80 * cyc) 320 * 5

end Sys2Proof.Machine
end

