-- ==== Sys2Proof/Machine/Predictor.lean ====
section
/-! DEFINITION. The predictor array (spec/07_predictor_array.md): the start of a command, its scan, layer passes, row blocks,
grist writes, stops and results, and weight residency. -/

namespace Sys2Proof.Machine

/-! Residency (R385 to R387, R390). -/

/-- 4 KiB units that images take (PRD_RESIDENT.UNITS). -/
def residentUnits (l : List Resident) : Nat := sumOf (fun r => ceilDiv r.bytes 4096) l

/-- Replace the list of resident images. -/
def State.setResident (s : State) (l : List Resident) : State :=
  { s with pred := { s.pred with resident := l } }.wr Reg.PRD_PRD_RESIDENT ((l.length <<< 16) + lowBits (residentUnits l) 16)

/-- Drop the least recently used images until the rest take at most n units. -/
def evictTo : Nat → Nat → List Resident → List Resident
  | 0, _, l => l
  | f + 1, n, l => if residentUnits l ≤ n then l else evictTo f n l.dropLast

/-- Two images have one key (R385). -/
def Resident.is (x y : Resident) : Bool := x.region == y.region && x.addr == y.addr && x.bytes == y.bytes && x.crc == y.crc

/-- An image is used: it becomes the most recently used, evicting others where it is new (R387). -/
def State.useImage (s : State) (r : Resident) : State :=
  let rest := s.pred.resident.filter (fun x => !x.is r)
  s.setResident (r :: evictTo rest.length (16384 - ceilDiv r.bytes 4096) rest)

/-- Images that p names are discarded; that of the command in progress goes when the command ends (R390). -/
def State.dropImages (s : State) (p : Resident → Bool) : State :=
  let held := fun (x : Resident) => (s.pred.run.map (fun r => r.image.is x)).getD false
  let s' := s.setResident (s.pred.resident.filter (fun x => !p x || held x))
  { s' with pred := { s'.pred with run := s'.pred.run.map (fun r => if p r.image then { r with flush := true } else r) } }

/-- RES_FLUSH_ALL (R390): a write of RES_FLUSH with ALL set. -/
def effectResFlushAll (_p : Path) (v : Word) (s : State) : Host.Outcome State Fault Refusal :=
  if bit v.toNat 4 then .next (s.dropImages (fun _ => true)) else .next s

/-- RES_FLUSH_REGION (R390): a write with ALL clear. -/
def effectResFlushRegion (_p : Path) (v : Word) (s : State) : Host.Outcome State Fault Refusal :=
  if bit v.toNat 4 then .next s else .next (s.dropImages (fun r => r.region == fld v.toNat 3 0))

/-! Results (R377, Table 07-8). -/

/-- A predictor result header with its RESULT_CRC. -/
def predHeader (b : List Byte) (valid fetched : Bool) (rows : Nat) (t : PredTally) (status reason cause start fin : Nat) (body : List Byte) : List Byte :=
  let flags := b2n valid + 2 * b2n (decide (0 < t.wideBlocks)) + 4 * b2n (decide (0 < t.writes)) + 8 * b2n fetched
  let top := natLE 4 0x53455250 ++ natLE 1 1 ++ natLE 1 cause ++ natLE 2 status ++ natLE 1 reason ++ natLE 1 (pbLayers b) ++ natLE 2 flags ++
    natLE 4 (pbBatch b) ++ natLE 4 rows ++ natLE 4 t.wideBlocks ++ natLE 8 t.misfit ++ natLE 8 t.noRerun ++ natLE 8 t.clamps ++
    natLE 4 t.wideClamps ++ natLE 4 t.writes ++ natLE 4 t.saturated ++ natLE 4 t.skipped ++ natLE 8 start ++ natLE 8 fin ++
    natLE 4 (128 + body.length) ++ natLE 40 0
  top ++ natLE 4 (crc32c (top ++ body))

/-- The run of a command that the array holds. -/
def State.predRunOf (s : State) (c : Command) : Option PredRun := s.pred.run.bind (fun r => if r.cmd = c.id then some r else none)

/-- PRD_POS (Table 07-11): the row block, the layer and the phase. -/
def State.prPos (s : State) (block layer phase : Nat) : State := s.wr Reg.PRD_PRD_POS ((lowBits block 16 <<< 16) + (layer <<< 8) + phase)

/-- A predictor command ends: its page's record, the phase WRITING, and its claim on tuns (R392). One that has ended already takes only
a fault (R66, R72). -/
def State.prEnd (s : State) (c : Command) (e : CmdEnd) : State :=
  if s.faultable c.id = false then s
  else
    let s := s.wr Reg.PRD_PRD_LAST ((e.stopCause <<< 8) + e.reason)
    let s := match s.predRunOf c with
      | some r => s.prPos r.block r.layer 6
      | none => s
    let s := { s with tun := { s.tun with tuns := Tab.mapV (fun _ => TunSt.reset) (fun _ t => if t.gw = some c.id then { t with gw := none } else t) s.tun.tuns } }
    s.endCmd c.id e

/-- A predictor command ends with no valid result (R211, R212, R380), after the writes that its completed row blocks call for. -/
def State.prRefuse (s : State) (c : Command) (status reason cause : Nat) (pre : List SpaceWrite := []) : State :=
  let b := c.block
  let run := s.predRunOf c
  let h := predHeader b false ((run.map (·.fetched)).getD false) 0 PredTally.zero status reason cause
    ((run.map (·.start)).getD 0) (if run.isSome then s.time else 0) []
  s.prEnd c { status := status, valid := false, reason := reason, stopCause := cause
              writes := pre ++ (if s.resultOk c.region (pbGenuine b) (pbResSpace b) (pbResult b) (pbResultBytes b) then
                  [c.put (pbResSpace b) (pbResult b) h] else []) }

/-- The scale record that a command writes back (R362). -/
def PredRun.record (r : PredRun) (b : List Byte) : List Byte :=
  let rings := ((List.range r.rings.length).zip r.rings).map (fun p => (Tab.get (fun _ => 0) r.total.amax p.1 :: p.2).take (pbHist b))
  packScale b (r.invocations + 1) rings

/-- The command that the array holds ends with its completed row blocks (R377, R378, R383, R394). -/
def State.prStop (s : State) (status cause : Nat) (valid : Bool) : State :=
  match s.pred.run with
  | none => s
  | some r =>
    match s.cmd r.cmd with
    | none => s
    | some c =>
      let b := c.block
      let rec_ := if 0 < r.rowsDone then [c.put (pbScaleSpace b) (pbScale b) (r.record b)] else []
      if valid = false ∨ r.rowsDone = 0 then s.prRefuse c status 0 cause rec_
      else
        let n := 4 * pbBatch b * lyKout r.image.data (pbLayers b - 1)
        let out := r.total.out.flatMap (natLE 4) ++ (if r.rowsDone = pbBatch b then List.replicate (pad64 n - n) 0 else [])
        let kept := s.spaceBytes (pbResSpace b) c.func (pbResult b + 128 + out.length) (pad64 n - out.length)
        let h := predHeader b true r.fetched r.rowsDone r.total status 0 cause r.start s.time (out ++ kept)
        s.prEnd c { status := status, valid := true, reason := 0, stopCause := cause
                    writes := rec_ ++ [c.put (pbResSpace b) (pbResult b + 128) out, c.put (pbResSpace b) (pbResult b) h] }

/-- An operand read failed (PRD_OPERAND, Table 07-12). -/
def State.prOperand (s : State) (c : Command) (a : Area) : State :=
  (s.operandFault pgPred 0x0404 c.region [a]).prStop St.MEMORY_FAULT 5 false

/-- A defect found in a started command (R380). -/
def State.prDefect (s : State) (c : Command) (e : Bad) : State := s.prRefuse c e.status e.reason 0

/-! Starting a command (R379, R65, R333, R385, R393, R398). -/

/-- A command that the array has begun. -/
def State.setRun (s : State) (r : PredRun) : State := { s with pred := { s.pred with run := some r } }

/-- Its image is in weight SRAM: read from HBM once the fetch has had its time, where it is not resident (R385); it takes an armed
CORRUPT with it (R1051). Steps 3 and 4 of R379 follow, and the input scan begins. An image whose bytes do not have the CRC of its
key does not become resident under that key (log 146). -/
def State.prLoad (s : State) (c : Command) (r : PredRun) : State :=
  let b := c.block
  let weights : Area := { space := spHbm, addr := pbWeight b, len := pbWeightBytes b }
  let held := decide (r.image.data ≠ [])
  match if held then some r.image.data else s.readArea c weights with
  | none => (s.noteArea c weights).prOperand c weights
  | some img =>
    let im := { r.image with data := img, mark := if held then r.image.mark else s.armedBits pgPred }
    let r := { r with image := im, fetched := !held }
    let s := (if held then s else (s.noteArea c weights).disarm pgPred).setRun r
    let s := if held || crc32c img == pbWeightCrc b then s.useImage im else s
    match imageDefect b img held with
    | some e => s.prDefect c e
    | none =>
      let scale : Area := { space := pbScaleSpace b, addr := pbScale b, len := scaleBytes (pbLayers b) }
      let s := s.noteArea c scale
      match s.readArea c scale with
      | none => s.prOperand c scale
      | some rec_ =>
        match firstBad (scaleChecks b rec_) with
        | some e => s.prDefect c e
        | none =>
          let n := 4 * pbBatch b * lyKin img 0
          let r := { r with phase := .scan, rings := scaleRings (pbLayers b) rec_, invocations := leAt rec_ 0x10 8, due := s.time + ceilDiv n (pbRate b) }
          ((s.setRun r).prPos 0 0 2).await c.id (if pbInSpace b = spHost then n else 0)

/-- A command's run as it starts: it fetches its weights. -/
def predStart (c : Command) (im : Resident) (due now : Nat) : PredRun :=
  { cmd := c.id, phase := .fetch, due := due, want := none, next := none, from_ := 0, aMark := 0, image := im, fetched := false, rings := []
    invocations := 0, gw := [], claimed := false, s0 := 0, block := 0, layer := 0, wide := false, tensor := [], zero := [], scale := 0, aCur := 0
    cur := PredTally.zero, total := PredTally.zero, rowsDone := 0, start := now, flush := false }

/-- The grist-writer block. -/
def pbGwArea (b : List Byte) (kout : Nat) : Area := { space := pbGwSpace b, addr := pbGw b, len := 64 + 8 * kout }

/-- PREDICTOR_COMMAND (R379): the command at the head of the array's queue is validated, its weights are made resident and its input
scan begins. Weights that are not resident stream in from HBM first. -/
def execPredictorCommand (cmd : Nat) (s : State) : Host.Outcome State Fault Refusal :=
  match s.engineNext .predictor pgPred s.pred.run.isSome cmd with
  | none => .next s
  | some c =>
    let b := c.block
    let sh := s.pbShape c
    if s.pageFailed pgPred then .next (s.prRefuse c St.PREDICTOR_FAULT 0 0)
    else match firstBad (s.pbChecks c.region b sh.1 sh.2) with
      | some e => .next (s.prRefuse c e.status e.reason 0)
      | none =>
        if s.stopPassed c then .next (s.prRefuse c St.DEADLINE 0 0)
        else if pbBatch b = 0 then .next (s.prRefuse c St.ZERO_LENGTH 0 0)
        else
          let held := s.residentFor c.region b
          let im : Resident := held.getD { region := c.region, addr := pbWeight b, bytes := pbWeightBytes b, crc := pbWeightCrc b, data := [], mark := 0 }
          let r := predStart c im (s.time + (if held.isSome then 0 else ceilDiv (pbWeightBytes b) 64)) s.time
          let s := ((s.setRun r).wr64 Reg.PRD_PRD_STOP_LO c.stop).prPos 0 0 1
          let s := s.updCmd cmd (fun c => { c with phase := .running })
          match if pbGrist b then s.gwRead c sh.2 else .ok [] with
          | .error none => .next (s.prOperand c (pbGwArea b sh.2))
          | .error (some e) => .next (s.prDefect c e)
          | .ok g =>
            let s := if pbGrist b then (gwTuns g).foldl (fun s t => s.updTun t (fun x => { x with gw := some cmd })) (s.noteArea c (pbGwArea b sh.2)) else s
            let s := s.setRun { r with gw := g }
            if held.isSome then .next (s.prLoad c { r with gw := g }) else .next s

/-! Row blocks (R342, R345, R346, R382, R396). -/

/-- The scale record's A of a layer (R347). -/
def PredRun.ringMax (r : PredRun) (l : Nat) : Nat := f32.maxOf (r.rings.getD l [])

/-- The input of row block j. -/
def PredRun.inputArea (r : PredRun) (b : List Byte) (j : Nat) : Area :=
  let k0 := lyKin r.image.data 0
  { space := pbInSpace b, addr := pbInput b + 4 * 1024 * j * k0, len := 4 * blockRows (pbBatch b) j * k0 }

/-- The fetch of row block j begins, where there is one (R382). -/
def State.wantBlock (s : State) (c : Command) (r : PredRun) (j : Nat) : State :=
  let b := c.block
  if pbBatch b ≤ 1024 * j then s.setRun r
  else
    let a := r.inputArea b j
    (s.setRun { r with want := some j, due := s.time + ceilDiv a.len (pbRate b) }).await c.id (if a.space = spHost then a.len else 0)

/-- Row block j, whose input has come, is computed: its input is quantised, and the fetch of the next block begins. An armed CORRUPT
goes into the tensor (R1051). -/
def State.beginBlock (s : State) (c : Command) (r : PredRun) (j : Nat) (vs : List Nat) : State :=
  let b := c.block
  let img := r.image.data
  let k0 := lyKin img 0
  let rows := blockRows (pbBatch b) j
  let q := (List.range rows).map (fun i => ((vs.drop (i * k0)).take k0).map (quantIn (lyFmt img 0) r.s0))
  let r := { r with phase := .pass, block := j, layer := 0, wide := false, tensor := q, zero := List.replicate k0 0, scale := r.s0
                    aCur := 0, cur := PredTally.zero, next := none, want := none, from_ := s.gov.ccycles + quantCycles rows k0
                    aMark := Nat.max r.aMark (s.armedBits pgPred) }
  ((s.disarm pgPred).prPos j 0 3).wantBlock c r (j + 1)

/-- The input of a row block that was fetched has come (R382): it is read as it stands now (R396), and computed at once where the array
waits for it. Only the scan tests the input for non-finite words: a defect leaves no grist written (R380, log 147). -/
def State.prInput (s : State) (c : Command) (r : PredRun) (j : Nat) : State :=
  let a := r.inputArea c.block j
  let s := (s.noteArea c a).arrived c.id
  match s.readArea c a with
  | none => s.prOperand c a
  | some bs =>
    let vs := values 4 bs (a.len / 4)
    if r.phase = .await then s.beginBlock c r j vs else s.setRun { r with want := none, next := some vs }

/-- What the array awaits from memory has come: its weights, or the input of a row block. -/
def State.prFetched (s : State) : State :=
  match s.pred.run.bind (fun r => (s.cmd r.cmd).map (fun c => (r, c))) with
  | none => s
  | some (r, c) =>
    if c.phase ≠ .running ∨ s.time < r.due then s
    else if r.phase = .fetch then s.prLoad c r
    else match r.want with
      | some j => s.prInput c r j
      | none => s

/-- The command's run, where the array holds it, it runs, and it stands at a phase. -/
def State.predAt (s : State) (cmd : Nat) (ph : PredPhase) : Option (Command × PredRun) :=
  match s.pred.run, s.cmd cmd with
  | some r, some c => if r.cmd = cmd ∧ c.phase = .running ∧ r.phase = ph then some (c, r) else none
  | _, _ => none

/-- INPUT_SCAN_DONE (R345): the input has been scanned, in the time that its bytes take (R383), and s_0 is fixed. The fetch of row block 0
begins. -/
def execInputScanDone (cmd : Nat) (s : State) : Host.Outcome State Fault Refusal :=
  match s.predAt cmd .scan with
  | none => .next s
  | some (c, r) =>
    let b := c.block
    let k0 := lyKin r.image.data 0
    let a : Area := { space := pbInSpace b, addr := pbInput b, len := 4 * pbBatch b * k0 }
    if s.time < r.due then .next s
    else
      let s := (s.noteArea c a).arrived cmd
      match s.readArea c a with
      | none => .next (s.prOperand c a)
      | some bs =>
        let vs := values 4 bs (pbBatch b * k0)
        if vs.any (fun v => !f32.finite v) then .next (s.prDefect c (badPred 0x0C))
        else
          let am := f32.maxOf (vs.map f32.absB)
          let s0 := if f32.eqB am 0 then f32.ofInt 1 else f32.divB am (f32.ofInt (predQmax (lyFmt r.image.data 0)))
          .next ((s.prPos 0 0 1).wantBlock c { r with s0 := s0, phase := .await } 0)

/-! Layer passes (R347 to R360). -/

/-- The output scale and entries of a narrow pass of layer l (R347, R348, R354). -/
def PredRun.narrowOut (r : PredRun) (b : List Byte) (l : Nat) (c : List Nat) : Nat × List RqEntry :=
  let img := r.image.data
  if lyStatic img l then (lyInit img l, staticEntries img l)
  else
    let a := r.ringMax l
    let s := if r.rings.getD l [] = [] ∨ f32.eqB a 0 then lyInit img l else f32.divB a (f32.ofInt (predQmax (lyFmt img (l + 1))))
    (s, rqDerive (pbFp b) c s)

/-- The tests of R359 for a re-run of layer l in a block of rows rows. -/
def State.rerunAllowed (s : State) (c : Command) (img : List Byte) (l rows : Nat) : Bool :=
  let crw := rerunCycles c.block img l rows
  (c.stop == allOnes64 || decide (4 * s.time + 5 * crw ≤ 4 * c.stop)) &&
  (match s.job c.job with
   | none => true
   | some j => match j.ceiling with
     | none => true
     | some u => decide (j.energy + crw * s.scaled 2688 ≤ u * 1000000))

/-- Put an AMAX into a tally. -/
def PredTally.setAmax (t : PredTally) (l a : Nat) : PredTally := { t with amax := Tab.put (fun _ => 0) l a t.amax }

/-- A narrow pass of a layer other than the last ends with a misfit that re-runs (R357, R358): the same layer begins again in the
wide format. -/
def PredRun.beginWide (r : PredRun) (fp : Bool) (aCur : Nat) : PredRun :=
  { r with wide := true, aCur := aCur, zero := r.zero.map (fun _ => 0), cur := { r.cur with wideBlocks := 1 }
           tensor := if fp then r.tensor else r.tensor.map (fun row => List.zipWith (fun q z => q - z) row r.zero) }

/-- The kept output of a layer becomes the next layer's input. -/
def PredRun.advance (r : PredRun) (out : List (List Int)) (scale : Nat) (zero : List Int) (amax : Nat) : PredRun :=
  { r with tensor := out, scale := scale, zero := zero, layer := r.layer + 1, aCur := 0, cur := r.cur.setAmax r.layer amax }

/-- A pass has ended: what comes next begins now, and the tensor that it has written takes an armed CORRUPT (R1051). -/
def State.setPred (s : State) (r : PredRun) : State :=
  ((s.disarm pgPred).setRun { r with from_ := s.gov.ccycles, aMark := s.armedBits pgPred }).prPos r.block r.layer (if r.wide then 4 else 3)

/-- The cycle in which the pass in progress ends (R381). -/
def PredRun.passEnd (r : PredRun) : Nat :=
  r.from_ + layerCycles (lyKin r.image.data r.layer) (lyKout r.image.data r.layer) r.tensor.length r.wide

/-- The mark of the image in use, as weight SRAM holds it. -/
def State.imageMark (s : State) (r : PredRun) : Nat := ((s.pred.resident.find? (fun x => x.is r.image)).map (·.mark)).getD 0

/-- A pass reads weight and activation SRAM: words stored with inverted bits are found (Table 07-12). -/
def State.passReads (s : State) (r : PredRun) : State :=
  let s := (s.wordRead pgPred (s.imageMark r) 0x0401 0x0402 0x80000000).wordRead pgPred r.aMark 0x0401 0x0403 0x80000000 0x80000000
  { s with pred := { s.pred with resident := s.pred.resident.map (fun x => if x.is r.image then { x with mark := 0 } else x) } }

/-- LAYER_PASS_DONE (R356, R381): the pass of a layer over the row block ends, once its cycles have passed. -/
def execLayerPassDone (cmd : Nat) (s : State) : Host.Outcome State Fault Refusal :=
  match s.predAt cmd .pass with
  | none => .next s
  | some (c, r) =>
    let b := c.block
    let img := r.image.data
    let l := r.layer
    let fp := pbFp b
    if s.gov.ccycles < r.passEnd then .next s
    else if 2 ≤ s.imageMark r then .next (((s.passReads r).dropImages (fun x => x.is r.image)).prStop St.PREDICTOR_FAULT 5 true)
    else if 2 ≤ r.aMark then .next ((s.passReads r).prStop St.PREDICTOR_FAULT 5 true)
    else
      let s := s.passReads r
      let d := layerData b img l r.wide
      let cs := d.c r.scale
      let accs := accumulate fp r.wide (lyRelu img l) d cs r.zero r.tensor
      if l + 1 = pbLayers b then
        .next (s.setPred { r with phase := .passed, cur := { r.cur with out := dequant fp cs accs } })
      else if r.wide then
        let sOut := if fp then f32.ofInt 1 else wideScale (r.ringMax l) r.aCur (lyInit img l)
        let q := requantWide fp cs sOut accs
        let r := { r with cur := { r.cur with wideClamps := r.cur.wideClamps + q.2 } }
        .next (s.setPred (r.advance q.1 sOut (List.replicate (lyKout img l) 0) (amaxOf fp cs accs)))
      else
        let o := r.narrowOut b l cs
        let q := requant (lyFmt img (l + 1)) o.2 accs
        let s := (s.bump64 Reg.PRD_CLAMPS_LO q.2).event 0x0402 pgPred c.ev q.2
        let r := { r with cur := { r.cur with clamps := r.cur.clamps + q.2 } }
        let am := amaxOf fp cs accs
        let zs := if lyStatic img l then o.2.map (·.zero) else List.replicate (lyKout img l) 0
        if q.2 ≤ lyLimit img l then .next (s.setPred (r.advance q.1 o.1 zs am))
        else
          let r := { r with cur := { r.cur with misfit := r.cur.misfit ||| (1 <<< l) } }
          if pbRerun b = false then .next (s.setPred (r.advance q.1 o.1 zs am))
          else if s.rerunAllowed c img l r.tensor.length then
            .next (((s.bump Reg.PRD_RERUNS 1).event 0x0403 pgPred c.ev).setPred (r.beginWide fp am))
          else
            let r := { r with cur := { r.cur with noRerun := r.cur.noRerun ||| (1 <<< l) } }
            .next (((s.bump Reg.PRD_RERUN_SKIPS 1).event 0x0404 pgPred c.ev).setPred (r.advance q.1 o.1 zs am))

/-! Completing row blocks (R361 to R369, R378). -/

/-- Add a completed block's tally to the command's. -/
def PredTally.plus (t u : PredTally) : PredTally :=
  { clamps := t.clamps + u.clamps, wideClamps := t.wideClamps + u.wideClamps, misfit := t.misfit ||| u.misfit, noRerun := t.noRerun ||| u.noRerun
    wideBlocks := t.wideBlocks + u.wideBlocks, writes := t.writes + u.writes, saturated := t.saturated + u.saturated, skipped := t.skipped + u.skipped
    amax := u.amax.foldl (fun m e => Tab.upd (fun _ => 0) e.1 (fun v => if f32.ltB v e.2 then e.2 else v) m) t.amax
    out := t.out ++ u.out }

/-- A row block has completed: the command ends with its last one (R378). -/
def State.blockComplete (s : State) (c : Command) (r : PredRun) : State :=
  let rows := blockRows (pbBatch c.block) r.block
  let r := { r with total := r.total.plus r.cur, rowsDone := r.rowsDone + rows }
  let s := (s.setRun r).event 0x0401 pgPred c.ev
  if pbBatch c.block ≤ r.rowsDone then s.prStop (if r.total.noRerun = 0 then St.OK else St.MISFIT_WIDE) 1 true
  else match r.next with
    | some vs => s.beginBlock c r (r.block + 1) vs
    | none => (s.setRun { r with phase := .await }).prPos (r.block + 1) 0 1

/-- ROW_BLOCK_DONE (R342): the block's outputs pass to the result, and to the grist writer where GRIST_EN is set. -/
def execRowBlockDone (cmd : Nat) (s : State) : Host.Outcome State Fault Refusal :=
  match s.predAt cmd .passed with
  | none => .next s
  | some (c, r) =>
    if pbGrist c.block then
      .next ((s.setRun { r with phase := .grist, from_ := s.gov.ccycles }).prPos r.block (pbLayers c.block - 1) 5)
    else .next (s.blockComplete c r)

/-- Where element (b, o) goes in the body of the grist: none where its target does not exist (R366, R367). -/
def gwOffset (w : List Byte) (g : Grist) (row o : Nat) : Option Nat :=
  let pb := precBytes g.prec
  let a := leAt w 0x0C 4 + row * leAt w 0x10 4 + o * leAt w 0x14 4
  let tileSpins := 2 * g.wl * 16384
  if gwTarget w = 0 then
    if g.n ≤ a then none
    else if g.mode = 1 then some ((a / tileSpins) * 20480 * g.wl * precBits g.prec + (a % tileSpins) * pb)
    else some (a * pb)
  else if gwTarget w = 1 then
    let js := 8 * g.wl * 16384
    if g.tx * g.ty ≤ a / js then none
    else some ((a / js) * 20480 * g.wl * precBits g.prec + (tileSpins + a % js) * pb)
  else
    let i := leAt w 0x0C 4 + row
    let j := leAt w 0x18 4 + o
    if i = j ∨ g.n ≤ i ∨ g.n ≤ j then none
    else some (rowOff g.n g.prec g.coloured (Nat.min i j) + (Nat.max i j - Nat.min i j - 1) * pb)

/-- One element of the grist writer (R364, R365): the new body, and whether it wrote, saturated or skipped. -/
def gwElement (w : List Byte) (g : Grist) (row o y : Nat) (t : PredTally) (body : Array Byte) : PredTally × Array Byte :=
  let p := precBits g.prec
  let lim : Int := ((1 <<< (p - 1) : Nat) : Int)
  let v := f32.dec (f32.mulB y (gwMul w o))
  match gwOffset w g row o with
  | none => ({ t with skipped := t.skipped + 1 }, body)
  | some off =>
    match match v with
        | .nan => none
        | .inf n => some (if n then -lim - 1 else lim)
        | x => some (x.toIntRne + gwZero w o) with
    | none => ({ t with skipped := t.skipped + 1 }, body)
    | some x =>
      let sat1 := decide (x < -lim) || decide (lim - 1 < x)
      let x := clampInt (-lim) (lim - 1) x
      let old := sInt p (leNat (bodyAt body off (precBytes g.prec)))
      let x' := if gwMode w = 1 then old + x else x
      let sat2 := decide (x' < -lim) || decide (lim - 1 < x')
      let x' := clampInt (-lim) (lim - 1) x'
      ({ t with writes := t.writes + 1, saturated := t.saturated + b2n (sat1 || sat2) },
       putBody body off (natLE (precBytes g.prec) (toTwos p x')))

/-- The block's elements in ascending (b, o) (R369). -/
def gwBlock (w : List Byte) (g : Grist) (row0 kout : Nat) (t : PredTally) : PredTally × Array Byte :=
  ((List.range t.out.length).zip t.out).foldl (fun (a : PredTally × Array Byte) p =>
    gwElement w g (row0 + p.1 / kout) (p.1 % kout) p.2 a.1 a.2) (t, g.body)

/-- GRIST_WRITER_WRITE (R364, R381): the row block's predictions are written, once no run uses the grist (R117, R391) and the writer's
cycles have passed. A tun that has failed, or grist that the rectangle no longer holds, refuses the write (PRD_GW). -/
def execGristWriterWrite (cmd : Nat) (s : State) : Host.Outcome State Fault Refusal :=
  match s.predAt cmd .grist with
  | none => .next s
  | some (c, r) =>
    let ts := gwTuns r.gw
    let inRun := fun (t : Nat) => s.tun.runs.any (fun x => decide (x.phase ≠ .stopped) && x.tuns.contains t)
    if ts.any inRun ∨ s.gov.ccycles < r.from_ + gwCycles r.tensor.length (lyKout r.image.data (pbLayers c.block - 1)) then .next s
    else
      let bad := ts.find? (fun t => (s.tunSt t).failed)
      match bad, s.gwGrist r.gw with
      | none, some g =>
        if gwModeOk (gwTarget r.gw) g.mode = false then
          .next ((s.raiseErr pgPred 0x0405 (ts.getD 0 0)).prStop St.PREDICTOR_FAULT 5 true)
        else
          let p := gwBlock r.gw g (1024 * r.block) (lyKout r.image.data (pbLayers c.block - 1)) r.cur
          let s := s.updGrist g.id (fun g => { g with body := p.2 })
          let s := (s.bump Reg.PRD_GW_COUNT p.1.writes).event 0x0405 pgPred c.ev p.1.writes
          .next (s.blockComplete c { r with cur := p.1, claimed := true })
      | _, _ => .next ((s.raiseErr pgPred 0x0405 (bad.getD (ts.getD 0 0))).prStop St.PREDICTOR_FAULT 5 true)

/-! Stops and faults (R62, R394, Table 07-12). -/

/-- STOP_CAUSE of a stop's status (Table 07-9). -/
def predCause (status : Nat) : Nat :=
  if status = St.DEADLINE then 2 else if status = St.ENERGY_CEILING then 3 else if status = St.CANCELLED then 4 else 5

/-- A stop with a status reaches a predictor command. -/
def State.stopPred (s : State) (c : Command) (status : Nat) (valid : Bool) : State :=
  if (s.pred.run.map (·.cmd)) = some c.id then s.prStop status (predCause status) valid else s.prRefuse c status 0 0

/-- The array lets go of an ended command: an image that was flushed meanwhile is discarded (R390). -/
def State.releasePred (s : State) : State :=
  match s.pred.run with
  | none => s
  | some r =>
    let s := { s with pred := { s.pred with run := none } }.prPos 0 0 0
    if r.flush then s.setResident (s.pred.resident.filter (fun x => !x.is r.image)) else s

end Sys2Proof.Machine
end

