-- ==== Sys2Proof/Machine/Linear.lean ====
section
/-! DEFINITION. The numerical methods of the solver engine: the inner solves CG and GMRES, the refinement step, the
balancing and the repair of ASSIGN, and projected gradient (spec/06_solver_engine.md R305 to R320). Values are bit patterns
of binary32 or binary64. -/

namespace Sys2Proof.Machine

/-- The stored terms of a matrix row: column and binary32 value, in stored order (R302). -/
abbrev MatRow := List (Nat × Nat)

/-- A x in a format, the entries widened (R300, R302). -/
def matVec (f : Fmt) (a : List MatRow) (x : List Nat) : List Nat :=
  a.map (fun r => f.dot (r.map (fun t => Fmt.cvt f32 f t.2)) (r.map (fun t => x.getD t.1 0)))

/-- The diagonal of a matrix. -/
def matDiag (a : List MatRow) : List Nat :=
  ((List.range a.length).zip a).map (fun p => ((p.2.find? (fun t => t.1 == p.1)).map (·.2)).getD 0)

/-- M⁻¹ v (R307). -/
def precond (diag : Option (List Nat)) (v : List Nat) : List Nat :=
  match diag with
  | none => v
  | some d => List.zipWith f32.divB v d

/-- fma(s, x, y) over vectors. -/
def axpy (f : Fmt) (s : Nat) (x y : List Nat) : List Nat := List.zipWith (fun a b => f.fmaB s a b) x y

/-- How an inner solve ends: the correction d, its iterations, the products with A that it has made, and whether it broke down. -/
structure InnerEnd where
  d : List Nat
  count : Nat
  prods : Nat
  broke : Bool
deriving DecidableEq, Repr

/-! CG (R308). -/

def cgLoop (a : List MatRow) (diag : Option (List Nat)) (bound : Nat) :
    Nat → Nat → List Nat → List Nat → List Nat → Nat → InnerEnd
  | 0, i, d, _, _, _ => { d := d, count := i, prods := i, broke := false }
  | fuel + 1, i, d, r, p, gamma =>
    let q := matVec f32 a p
    let eta := f32.dot p q
    if f32.leB eta 0 then { d := d, count := i + 1, prods := i + 1, broke := true }
    else
      let alpha := f32.divB gamma eta
      let d := axpy f32 alpha p d
      let r := axpy f32 (f32.negB alpha) q r
      if f32.leB (f32.norm r) bound then { d := d, count := i + 1, prods := i + 1, broke := false }
      else
        let z := precond diag r
        let gamma' := f32.dot r z
        let beta := f32.divB gamma' gamma
        cgLoop a diag bound fuel (i + 1) d r (axpy f32 beta p z) gamma'

def cg (a : List MatRow) (diag : Option (List Nat)) (innerMax rtol : Nat) (r32 : List Nat) : InnerEnd :=
  let z := precond diag r32
  cgLoop a diag (f32.mulB rtol (f32.norm r32)) innerMax 0 (r32.map (fun _ => 0)) r32 z (f32.dot r32 z)

/-! GMRES (R309, R310). -/

/-- A rotation's c and s (R310). -/
def rotation (a b : Nat) : Nat × Nat :=
  let rho := f32.sqrtB (f32.fmaB a a (f32.mulB b b))
  if f32.eqB rho 0 then (f32.ofInt 1, 0) else (f32.divB a rho, f32.divB b rho)

/-- A rotation applied to elements l and l + 1 of a column. -/
def rotate (col : List Nat) (l : Nat) (cs : Nat × Nat) : List Nat :=
  let x := col.getD l 0
  let y := col.getD (l + 1) 0
  (col.set l (f32.fmaB cs.1 x (f32.mulB cs.2 y))).set (l + 1) (f32.fmaB (f32.negB cs.2) x (f32.mulB cs.1 y))

/-- The state of one restart: basis, rotated columns, rotations, g, products made, and whether the for loop is left. -/
structure Arnoldi where
  vs : List (List Nat)
  cols : List (List Nat)
  rots : List (Nat × Nat)
  g : List Nat
  i : Nat
  left : Bool
deriving DecidableEq, Repr

/-- One pass of the for loop of R309. -/
def arnoldiStep (a : List MatRow) (diag : Option (List Nat)) (bound : Nat) (w : Arnoldi) : Arnoldi :=
  let j := w.cols.length
  let v := w.vs.getD j []
  let t0 := matVec f32 a (precond diag v)
  let p := (w.vs.take (j + 1)).foldl (fun (p : List Nat × List Nat) vl =>
    let h := f32.dot vl p.2
    (p.1 ++ [h], axpy f32 (f32.negB h) vl p.2)) (([] : List Nat), t0)
  let hn := f32.norm p.2
  let col := ((List.range j).zip w.rots).foldl (fun c q => rotate c q.1 q.2) (p.1 ++ [hn])
  let rot := rotation (col.getD j 0) hn
  let col := rotate col j rot
  let g := rotate (w.g ++ [0]) j rot
  let stop := f32.eqB hn 0 || f32.leB (f32.absB (g.getD (j + 1) 0)) bound
  { vs := if stop then w.vs else w.vs ++ [p.2.map (fun x => f32.divB x hn)], cols := w.cols ++ [col], rots := w.rots ++ [rot]
    g := g, i := w.i + 1, left := stop }

def arnoldi (a : List MatRow) (diag : Option (List Nat)) (bound innerMax : Nat) : Nat → Arnoldi → Arnoldi
  | 0, w => w
  | m + 1, w => if w.left ∨ innerMax ≤ w.i then w else arnoldi a diag bound innerMax m (arnoldiStep a diag bound w)

/-- Back substitution of H y = g (R310): the rows from the last up. -/
def backSub (cols : List (List Nat)) (g : List Nat) : Nat → List Nat → List Nat
  | 0, y => y
  | j + 1, y =>
    let row := ((cols.drop (j + 1)).map (fun c => c.getD j 0))
    backSub cols g j (f32.divB (f32.subB (g.getD j 0) (f32.dot row y)) ((cols.getD j []).getD j 0) :: y)

/-- V y, element by element. -/
def combine (vs : List (List Nat)) (y : List Nat) (n : Nat) : List Nat :=
  (List.range n).map (fun e => f32.dot y (vs.map (fun v => v.getD e 0)))

/-- The restarts of R309: k of them have come to their end, each with a product of its own. -/
def gmresLoop (a : List MatRow) (diag : Option (List Nat)) (bound innerMax m : Nat) (r32 : List Nat) :
    Nat → Nat → Nat → List Nat → List Nat → InnerEnd
  | 0, i, k, d, _ => { d := d, count := i, prods := i + k, broke := false }
  | fuel + 1, i, k, d, w =>
    if innerMax ≤ i then { d := d, count := i, prods := i + k, broke := false }
    else
      let beta := f32.norm w
      if f32.eqB beta 0 then { d := d, count := i, prods := i + k, broke := false }
      else
        let r := arnoldi a diag bound innerMax m
          { vs := [w.map (fun x => f32.divB x beta)], cols := [], rots := [], g := [beta], i := i, left := false }
        let last := r.cols.length
        if ((List.range last).zip r.cols).any (fun c => f32.eqB (c.2.getD c.1 0) 0) then
          { d := d, count := r.i, prods := r.i + k, broke := true }
        else
          let y := backSub r.cols r.g last []
          let d := List.zipWith f32.addB d (precond diag (combine (r.vs.take last) y d.length))
          let w := List.zipWith f32.subB r32 (matVec f32 a d)
          if f32.leB (f32.absB (r.g.getD last 0)) bound then { d := d, count := r.i, prods := r.i + k + 1, broke := false }
          else gmresLoop a diag bound innerMax m r32 fuel r.i (k + 1) d w

def gmres (a : List MatRow) (diag : Option (List Nat)) (innerMax m rtol : Nat) (r32 : List Nat) : InnerEnd :=
  gmresLoop a diag (f32.mulB rtol (f32.norm r32)) innerMax m r32 innerMax 0 0 (r32.map (fun _ => 0)) r32

/-! The refinement loop (R305, R306). -/

/-- b − A x in binary64. -/
def residual64 (a : List MatRow) (b x : List Nat) : List Nat := List.zipWith f64.subB b (matVec f64 a x)

/-- The exponent of the greatest magnitude of r, where it is finite; k names the iterate. -/
def residualExp (k : Nat) (r : List Nat) : Int :=
  match f64.dec (f64.maxOf (r.map f64.absB)) with
  | .fin _ m e => e + (bitLen m : Int) - 1
  | _ => Config.residualScale k

/-- r · 2^(−e), rounded to binary32. -/
def scaleDown (r : List Nat) (e : Int) : List Nat :=
  r.map (fun v => f32.enc ((f64.dec v).mul (.fin false 1 (-e))))

/-- x + d · 2^e. -/
def scaleUpAdd (x d : List Nat) (e : Int) : List Nat :=
  List.zipWith (fun xi di => f64.enc ((f64.dec xi).add ((f32.dec di).mul (.fin false 1 e)))) x d

/-! ASSIGN (R309a to R318). -/

/-- LSE of binary32 values (R309a). -/
def lse (xs : List Nat) : Nat :=
  let mu := f32.maxOf xs
  f32.addB mu (f32.ln (f32.dec (f32.sum (xs.map (fun x => f32.exp (f32.dec (f32.subB x mu)))))))

/-- ln of an unsigned integer. -/
def lnNat (n : Nat) : Nat := f32.ln (Fp.ofInt n)

/-- 1 / ε. -/
def invEps (eps : Nat) : Nat := f32.divB (f32.ofInt 1) eps

/-- The row update of R309a. -/
def rowUpdate (s : List (List Nat)) (g : List Nat) (k eps : Nat) : List Nat :=
  s.map (fun row => f32.mulB eps (f32.subB (lnNat k)
    (lse (List.zipWith (fun a b => f32.mulB (f32.addB a b) (invEps eps)) row g))))

/-- The column update of R309a. -/
def colUpdate (s : List (List Nat)) (f cap : List Nat) (eps : Nat) : List Nat :=
  ((List.range cap.length).zip cap).map (fun c =>
    let xs := List.zipWith (fun row fi => f32.mulB (f32.addB (row.getD c.1 0) fi) (invEps eps)) s f
    let v := f32.mulB eps (f32.subB (lnNat c.2) (lse xs))
    if f32.ltB v 0 then v else 0)

/-- The residual of R313. -/
def assignRho (s : List (List Nat)) (f g cap : List Nat) (k eps : Nat) : Nat :=
  let p := List.zipWith (fun row fi => List.zipWith (fun a gj =>
    Fmt.cvt f32 f64 (f32.exp (f32.dec (f32.mulB (f32.addB (f32.addB a fi) gj) (invEps eps))))) row g) s f
  let rows := p.map (fun r => f64.subB (f64.sum r) (f64.ofInt k))
  let cols := ((List.range cap.length).zip cap).map (fun c =>
    let v := f64.subB (f64.sum (p.map (fun r => r.getD c.1 0))) (f64.ofInt c.2)
    if f64.ltB 0 v then v else 0)
  f64.sqrtB (f64.addB (f64.dot rows rows) (f64.dot cols cols))

/-- What the repair has taken: each row's columns in order, and the columns' loads. -/
structure Repaired where
  rows : Tab (List Nat)
  loads : List Nat
deriving DecidableEq, Repr

/-- The order of a list's indices by descending value, ties to the lower index. -/
def descending (vs : List Nat) : List Nat :=
  (sortBy (fun (a b : Nat × Nat) => f32.ltB b.2 a.2) ((List.range vs.length).zip vs)).map (·.1)

/-- One row of the repair: up to k columns below their capacity, in descending key. -/
def repairRow (keys cap : List Nat) (k : Nat) (loads : List Nat) : List Nat × List Nat :=
  (descending keys).foldl (fun (p : List Nat × List Nat) j =>
    if p.1.length < k ∧ p.2.getD j 0 < cap.getD j 0 then (p.1 ++ [j], p.2.set j (p.2.getD j 0 + 1)) else p) ([], loads)

/-- The repair of R316. -/
def repair (s : List (List Nat)) (g cap : List Nat) (k : Nat) : Repaired :=
  let keys := s.map (fun row => List.zipWith f32.addB row g)
  (descending (keys.map f32.maxOf)).foldl (fun (r : Repaired) i =>
    let p := repairRow (keys.getD i []) cap k r.loads
    { rows := Tab.put (fun _ => []) i p.1 r.rows, loads := p.2 }) { rows := [], loads := cap.map (fun _ => 0) }

/-- UNPLACED and OBJECTIVE (R318). -/
def Repaired.taken (r : Repaired) (i : Nat) : List Nat := Tab.get (fun _ => []) r.rows i
def Repaired.unplaced (r : Repaired) (nRows k : Nat) : Nat := k * nRows - sumOf (fun i => (r.taken i).length) (List.range nRows)
def Repaired.objective (r : Repaired) (s : List (List Nat)) : Nat :=
  f64.sum (((List.range s.length).zip s).flatMap (fun p =>
    (sortBy (fun (a b : Nat) => decide (a < b)) (r.taken p.1)).map (fun j => Fmt.cvt f32 f64 (p.2.getD j 0))))

/-! BOXQP (R319, R320). -/

/-- Row i of the symmetric matrix, from its upper triangle by rows. -/
def symRow (q : List (List Nat)) (n i : Nat) : List Nat :=
  (List.range n).map (fun j => (q.getD (Nat.min i j) []).getD (Nat.max i j - Nat.min i j) 0)

/-- Π in a format (R319). -/
def clampTo (f : Fmt) (lo up x : List Nat) : List Nat :=
  ((lo.zip up).zip x).map (fun p => if f.ltB p.2 p.1.1 then p.1.1 else if f.ltB p.1.2 p.2 then p.1.2 else p.2)

/-- Q x + c. -/
def boxGrad (q : List (List Nat)) (c x : List Nat) : List Nat :=
  ((List.range c.length).zip c).map (fun p => f32.addB (f32.dot (symRow q c.length p.1) x) p.2)

/-- The projected-gradient norm of R319, in binary64. -/
def boxRho (lo up x g : List Nat) : Nat :=
  let w := cvtList f32 f64
  let y := clampTo f64 (w lo) (w up) (List.zipWith f64.subB (w x) (w g))
  f64.norm (List.zipWith f64.subB (w x) y)

/-- The step length of R319. -/
def boxStep (q : List (List Nat)) (n step : Nat) : Nat :=
  if f32.ltB 0 step then step
  else
    let gm := f32.maxOf ((List.range n).map (fun i => f32.sum ((symRow q n i).map f32.absB)))
    if f32.eqB gm 0 then f32.ofInt 1 else f32.divB (f32.ofInt 1) gm

/-- OBJECTIVE of BOXQP (R320). -/
def boxObjective (c x g : List Nat) : Nat :=
  let w := cvtList f32 f64
  f64.mulB (f64.enc (.fin false 1 (-1))) (f64.dot (w x) (List.zipWith f64.addB (w g) (w c)))

end Sys2Proof.Machine
end

