-- ==== Sys2Proof/Machine/Solver.lean ====
section
/-! DEFINITION. The solver engine (spec/06_solver_engine.md): the operand block and its checks, the start of LINSOLVE, ASSIGN
and BOXQP commands, their iterates, and how they end. -/

namespace Sys2Proof.Machine

abbrev pgSolver : Nat := 0x00D

/-! The operand block (R324 to R328, Tables 06-3 to 06-7). -/

abbrev svOp (b : List Byte) : Nat := leAt b 5 1
abbrev svMethod (b : List Byte) : Nat := leAt b 6 1
abbrev svFlags (b : List Byte) : Nat := leAt b 7 1
abbrev svSparse (b : List Byte) : Bool := bit (svFlags b) 0
abbrev svJacobi (b : List Byte) : Bool := bit (svFlags b) 1
abbrev svWarm (b : List Byte) : Bool := bit (svFlags b) 2
abbrev svSpaces (b : List Byte) : Nat := leAt b 8 2
abbrev svMatSpace (b : List Byte) : Nat := fld (svSpaces b) 1 0
abbrev svVecSpace (b : List Byte) : Nat := fld (svSpaces b) 3 2
abbrev svResSpace (b : List Byte) : Nat := fld (svSpaces b) 5 4
abbrev svN (b : List Byte) : Nat := leAt b 0x0C 4
abbrev svM (b : List Byte) : Nat := leAt b 0x10 4
abbrev svRestart (b : List Byte) : Nat := leAt b 0x14 1
abbrev svTopK (b : List Byte) : Nat := leAt b 0x15 1
abbrev svScoreFmt (b : List Byte) : Nat := leAt b 0x16 1
abbrev svMaxIters (b : List Byte) : Nat := leAt b 0x18 4
abbrev svInnerMax (b : List Byte) : Nat := leAt b 0x1C 4
abbrev svTol (b : List Byte) : Nat := leAt b 0x20 8
abbrev svParam (b : List Byte) : Nat := leAt b 0x28 4
abbrev svAddr (b : List Byte) (i : Nat) : Nat := leAt b (0x30 + 8 * i) 8
abbrev svResult (b : List Byte) : Nat := leAt b 0x60 8
abbrev svResultBytes (b : List Byte) : Nat := leAt b 0x68 4

/-- Bytes of a score (SCORE_FMT). -/
def scoreBytes (b : List Byte) : Nat := if svScoreFmt b = 1 then 2 else 4

/-- The matrix arrays that a command uses, with their padding, which are what R327 and R322 take (R325, Table 06-5). -/
def svMats (b : List Byte) : List Area :=
  let n := svN b
  let mat := fun (i len : Nat) => { space := svMatSpace b, addr := svAddr b i, len := len : Area }
  if svOp b = 1 then
    if svSparse b then [mat 0 (pad64 (4 * (n + 1))), mat 3 (pad64 (4 * svM b)), mat 4 (pad64 (4 * svM b))]
    else [mat 0 (n * pad64 (4 * n))]
  else if svOp b = 2 then [mat 0 (n * pad64 (scoreBytes b * svM b))]
  else [mat 0 (sumOf (fun i => pad64 (4 * (n - i))) (List.range n))]

/-- The vectors that a command uses, with their padding. -/
def svVecs (b : List Byte) : List Area :=
  let n := svN b
  let vec := fun (i len : Nat) => { space := svVecSpace b, addr := svAddr b i, len := pad64 len : Area }
  let warm := fun (len : Nat) => if svWarm b then [vec 2 len] else []
  if svOp b = 1 then vec 1 (8 * n) :: warm (8 * n)
  else if svOp b = 2 then vec 1 (4 * svM b) :: warm (4 * svM b)
  else [vec 1 (4 * n)] ++ warm (4 * n) ++ [vec 3 (4 * n), vec 4 (4 * n)]

/-- All operand arrays. -/
def svArrays (b : List Byte) : List Area := svMats b ++ svVecs b

/-- The rows of a dense matrix, of scores or of an upper triangle, without the padding, which is not read (R325). -/
def svRows (b : List Byte) : List Area :=
  let n := svN b
  let row := fun (off len : Nat) => { space := svMatSpace b, addr := svAddr b 0 + off, len := len : Area }
  if svOp b = 1 then if svSparse b then [] else (List.range n).map (fun i => row (i * pad64 (4 * n)) (4 * n))
  else if svOp b = 2 then (List.range n).map (fun i => row (i * pad64 (scoreBytes b * svM b)) (scoreBytes b * svM b))
  else (List.range n).map (fun i => row (sumOf (fun k => pad64 (4 * (n - k))) (List.range i)) (4 * (n - i)))

/-- A vector of a command without its padding: which array, and its length in bytes. -/
def svVec (b : List Byte) (i len : Nat) : Area := { space := svVecSpace b, addr := svAddr b i, len := len }

/-- The vectors that a command reads, without their padding. -/
def svVecReads (b : List Byte) : List Area :=
  let n := svN b
  let warm := fun (len : Nat) => if svWarm b then [svVec b 2 len] else []
  if svOp b = 1 then svVec b 1 (8 * n) :: warm (8 * n)
  else if svOp b = 2 then svVec b 1 (4 * svM b) :: warm (4 * svM b)
  else [svVec b 1 (4 * n)] ++ warm (4 * n) ++ [svVec b 3 (4 * n), svVec b 4 (4 * n)]

/-- What a command fetches into solver SRAM before iterate 0, and the arrays of a sparse matrix, read at every product and
residual (R336). -/
def svFetched (b : List Byte) : List Area := svRows b ++ svVecReads b
def svSparseReads (b : List Byte) : List Area :=
  [{ space := spHbm, addr := svAddr b 0, len := 4 * (svN b + 1) }, { space := spHbm, addr := svAddr b 3, len := 4 * svM b },
   { space := spHbm, addr := svAddr b 4, len := 4 * svM b }]

/-- The required size (Table 06-9). -/
def svRequired (b : List Byte) : Nat :=
  let n := svN b
  if svOp b = 1 then 128 + pad64 (8 * n)
  else if svOp b = 2 then 128 + pad64 (16 * n) + 2 * pad64 (4 * svM b)
  else 128 + pad64 (4 * n)

abbrev badSolve (r : Nat) : Bad := { status := St.SOLVE_INVALID, reason := r, ext := 0 }

/-- Step 1 of R327. -/
def State.svBlockChecks (s : State) (region : Nat) (b : List Byte) : List (Bool × Bad) :=
  let op := svOp b
  let n := svN b
  let gm := op == 1 && svMethod b == 1
  let asg := op == 2
  let lin := op == 1
  let arr := svArrays b
  let tol := f64.dec (svTol b)
  let par := f32.dec (svParam b)
  [(leAt b 0 4 != 0x564C4F53, badSolve 1), (leAt b 4 1 != 1, badSolve 2), (leAt b 0x7C 4 != crc32c (b.take 0x7C), badSolve 3),
   (op == 0 || decide (3 < op), badSolve 4),
   ((lin && decide (1 < svMethod b)) || (!lin && svMethod b != 0), badSolve 5),
   (!lin && fld (svFlags b) 1 0 != 0, badSolve 5), (fld (svFlags b) 7 3 != 0, badRsvd),
   (svMatSpace b == 3 || svVecSpace b == 3 || svResSpace b == 3, badSolve 7),
   (lin && svSparse b && svMatSpace b != spHbm, badSolve 7), (fld (svSpaces b) 15 6 != 0, badRsvd), (leAt b 0x0A 2 != 0, badRsvd),
   (decide ((if lin then (if svSparse b then 65536 else 3072) else if asg then 16384 else 4096) < n), badSolve 6),
   (lin && svSparse b && decide (268435456 < svM b), badSolve 6),
   (asg && (svM b == 0 || decide (1024 < svM b) || decide (33554432 < n * svM b * scoreBytes b)), badSolve 6),
   (!asg && !(lin && svSparse b) && svM b != 0, badRsvd),
   (gm && (svRestart b == 0 || decide (64 < svRestart b)), badSolve 6), (!gm && svRestart b != 0, badRsvd),
   (asg && (svTopK b == 0 || decide (8 < svTopK b) || decide (svM b < svTopK b)), badSolve 6), (!asg && svTopK b != 0, badRsvd),
   (if asg then decide (1 < svScoreFmt b) else svScoreFmt b != 0, badRsvd), (leAt b 0x17 1 != 0, badRsvd),
   (!lin && svInnerMax b != 0, badRsvd),
   (!tol.isFinite || tol.lt (.fin false 0 0), badSolve 0x0D),
   (!par.isFinite || par.lt (.fin false 0 0) || (asg && par.eqv (.fin false 0 0)), badSolve 0x0D),
   (leAt b 0x2C 4 != 0, badRsvd),
   (arr.any (fun a => s.areaBadAt region a), badSolve 7),
   (s.areaBadAt region { space := svResSpace b, addr := svResult b, len := svResultBytes b }, badSolve 7),
   (decide (svResultBytes b < svRequired b), badSolve 9), (leAt b 0x6C 4 != 0, badRsvd), (leAt b 0x78 4 != 0, badRsvd)]

/-- Step 2 of R327. -/
def svOverlap (b : List Byte) : Bool :=
  (svArrays b).any (fun a => a.meets { space := svResSpace b, addr := svResult b, len := svResultBytes b })

/-- The block's MAGIC, VERSION and CRC hold (R212). -/
def svGenuine (b : List Byte) : Bool := leAt b 0 4 == 0x564C4F53 && leAt b 4 1 == 1 && leAt b 0x7C 4 == crc32c (b.take 0x7C)

/-! First-result time (R321, R322, Table 06-2). -/

/-- C_rep. -/
def svRepair (b : List Byte) : Nat := ceilDiv (svN b * svM b) 2048 + svN b + 64

/-- Terms of a product with A. -/
def svTerms (b : List Byte) : Nat := if svSparse b then svM b else svN b * svN b

/-- Cycles of a residual of LINSOLVE and of a product with A in an inner solve (Table 06-2). -/
def svResidual (b : List Byte) : Nat := ceilDiv (svTerms b) 128 + 64
def svProduct (b : List Byte) : Nat := ceilDiv (svTerms b) 2048 + 64

/-- Cycles of a step of ASSIGN or BOXQP with its residual: iterate 0, or a later one (Table 06-2). -/
def svStep (b : List Byte) (first : Bool) : Nat :=
  let n := svN b
  if svOp b = 2 then if first then 2 * ceilDiv (n * svM b) 2048 + 128 else 3 * ceilDiv (n * svM b) 2048 + 192
  else ceilDiv (n * n) 2048 + 192

/-- C_0. -/
def svCycles0 (b : List Byte) : Nat :=
  if svOp b = 1 then svResidual b else if svOp b = 2 then svStep b true + svRepair b else svStep b true

/-- T_first (R322). -/
def svTFirst (b : List Byte) : Nat :=
  let f := ceilDiv (hostLen (svArrays b)) 16 + ceilDiv (devLen (svArrays b)) 64
  ceilDiv (4 * (2000 + f) + 5 * svCycles0 b) 20 * 5

/-- T_rep (R314). -/
def svTRep (b : List Byte) : Nat := ceilDiv (5 * svRepair b) 20 * 5

/-! Results (R329, Table 06-8). -/

/-- What a result header holds of the command's work. -/
structure SolveOut where
  cut : Bool
  broke : Bool
  done : Nat
  best : Nat
  inner : Nat
  bestRho : Nat
  rho0 : Nat
  objective : Nat
  unplaced : Nat
deriving DecidableEq, Repr

/-- A solver result header with its RESULT_CRC. -/
def solverHeader (b : List Byte) (o : Option SolveOut) (status reason cause start fin : Nat) (body : List Byte) : List Byte :=
  let w := o.getD { cut := false, broke := false, done := 0, best := 0, inner := 0, bestRho := 0, rho0 := 0, objective := 0, unplaced := 0 }
  let top := natLE 4 0x53455253 ++ natLE 1 1 ++ natLE 1 (svOp b) ++ natLE 2 status ++ natLE 1 reason ++ natLE 1 cause ++
    natLE 2 (b2n o.isSome + 2 * b2n w.broke + 4 * b2n w.cut) ++ natLE 4 (svN b) ++ natLE 4 (svM b) ++ natLE 4 w.done ++ natLE 4 w.best ++
    natLE 4 w.inner ++ natLE 8 w.bestRho ++ natLE 8 w.rho0 ++ natLE 8 w.objective ++ natLE 4 w.unplaced ++ natLE 4 0 ++
    natLE 8 start ++ natLE 8 fin ++ natLE 4 (128 + body.length) ++ natLE 40 0
  top ++ natLE 4 (crc32c (top ++ body))

/-- A solver command ends (Table 06-11). The engine holds it until its result is written. One that has ended already takes only a
fault (R66, R72). -/
def State.svEnd (s : State) (c : Command) (e : CmdEnd) : State :=
  if s.faultable c.id = false then s else (s.wr Reg.SLV_SLV_LAST ((e.stopCause <<< 8) + e.reason)).endCmd c.id e

/-- A solver command ends with no valid result (R211, R212). -/
def State.svRefuse (s : State) (c : Command) (status reason cause : Nat) : State :=
  let b := c.block
  let run := s.solver.bind (fun r => if r.cmd = c.id then some r else none)
  let h := solverHeader b none status reason cause ((run.map (·.start)).getD 0) (if run.isSome then s.time else 0) []
  s.svEnd c { status := status, valid := false, reason := reason, stopCause := cause
              writes := if s.resultOk c.region (svGenuine b) (svResSpace b) (svResult b) (svResultBytes b) then
                  [c.put (svResSpace b) (svResult b) h] else [] }

/-- The body of a result, its objective and UNPLACED, from the best iterate (R316, R318, R320, Table 06-9). -/
def SolverRun.report (r : SolverRun) (b : List Byte) (it : Iterate) : List Byte × Nat × Nat :=
  if r.op = 1 then (padTo64 (it.x.flatMap (natLE 8)), f64.norm r.vec, 0)
  else if r.op = 2 then
    let q := repair r.mat it.g r.vec (svTopK b)
    let rows := (List.range (svN b)).flatMap (fun i =>
      (List.range 8).flatMap (fun j => natLE 2 ((q.taken i).getD j 0xFFFF)))
    (padTo64 rows ++ padTo64 (q.loads.flatMap (natLE 4)) ++ padTo64 (it.g.flatMap (natLE 4)), q.objective r.mat, q.unplaced (svN b) (svTopK b))
  else (padTo64 (it.x.flatMap (natLE 4)), boxObjective r.vec it.x it.g, 0)

/-- The command that the engine holds ends with a status and a cause: with its best iterate where it has one (R296, R315,
R335). -/
def State.svStop (s : State) (status cause : Nat) (cut broke valid : Bool) : State :=
  match s.solver with
  | none => s
  | some r =>
    match s.cmd r.cmd with
    | none => s
    | some c =>
      match if valid then r.best else none with
        | none => s.svRefuse c status 0 cause
        | some it =>
          let b := c.block
          let p := r.report b it
          let o : SolveOut := { cut := cut, broke := broke, done := r.done - 1, best := it.k, inner := r.inner, bestRho := it.rho
                                rho0 := r.rho0, objective := p.2.1, unplaced := p.2.2 }
          s.svEnd c { status := status, valid := true, reason := 0, stopCause := cause
                      writes := [c.put (svResSpace b) (svResult b + 128) p.1,
                                 c.put (svResSpace b) (svResult b) (solverHeader b (some o) status 0 cause r.start s.time p.1)] }

/-! Reading operands (R325, R327 step 3, R336, R337). -/


/-- A sparse matrix as its rows stand in HBM, checked as it streams in (R302, R336): a defect, a failed read (none), or its
rows. -/
def State.sparseRows (s : State) (c : Command) : Except (Option Bad) (List MatRow) :=
  let b := c.block
  let n := svN b
  let rd := fun (i len : Nat) => s.readSpace c.region c.func spHbm (svAddr b i) len
  match rd 0 (4 * (n + 1)), rd 3 (4 * svM b), rd 4 (4 * svM b) with
  | some p, some cb, some vb =>
    let ptr := values 4 p (n + 1)
    let col := values 4 cb (svM b)
    let val := values 4 vb (svM b)
    if ptr.getD 0 0 ≠ 0 ∨ ptr.getD n 0 ≠ svM b ∨ (ptr.zip (ptr.drop 1)).any (fun q => decide (q.2 < q.1)) then .error (some (badSolve 0x0B))
    else
      let rows := (ptr.zip (ptr.drop 1)).map (fun q => (((col.zip val).drop q.1).take (q.2 - q.1) : MatRow))
      if rows.any (fun r => r.any (fun t => decide (n ≤ t.1)) || (r.zip (r.drop 1)).any (fun q => decide (q.2.1 ≤ q.1.1))) then
        .error (some (badSolve 0x0C))
      else if val.any (fun v => !f32.finite v) ∨ (svJacobi b ∧ (matDiag rows).any (fun d => f32.eqB d 0)) then .error (some (badSolve 0x0A))
      else .ok rows
  | _, _, _ => .error none


/-- An operand read failed (SLV_OPERAND, Table 06-12). -/
def State.svOperand (s : State) (c : Command) (l : List Area) : State :=
  (s.operandFault pgSolver 0x0304 c.region l).svRefuse c St.MEMORY_FAULT 0 7

/-- A started run before its operands are in solver SRAM. -/
def fetchingRun (c : Command) (now cycle : Nat) : SolverRun :=
  { cmd := c.id, op := svOp c.block, loaded := false, from_ := cycle, mark := 0, done := 0, x := [], g := [], mat := [], vec := [], lo := [], up := []
    rho0 := 0, rho := 0, best := none, inner := 0, start := now }

/-- The dense arrays, vectors and scores of a command, read once (R336): none where a read fails. BF16 scores are widened. The
start vector of BOXQP stands in g until its values have been checked. -/
def State.svFetch (s : State) (c : Command) (r : SolverRun) : Option SolverRun :=
  let b := c.block
  let n := svN b
  let vec := fun (i w len : Nat) => (s.readArea c (svVec b i (w * len))).map (fun bs => values w bs len)
  let warm := fun (w len : Nat) => if svWarm b then vec 2 w len else some (List.replicate len 0)
  let w := if svOp b = 2 then scoreBytes b else 4
  let row := fun (a : Area) => (s.readArea c a).map (fun bs => (values w bs (a.len / w)).map (fun v => if w = 2 then v <<< 16 else v))
  do
    let mat ← (svRows b).mapM row
    if svOp b = 1 then
      let v ← vec 1 8 n
      let x0 ← warm 8 n
      some { r with x := x0, mat := mat, vec := v }
    else if svOp b = 2 then
      let cap ← vec 1 4 (svM b)
      let g0 ← warm 4 (svM b)
      some { r with g := g0, mat := mat, vec := cap }
    else
      let cv ← vec 1 4 n
      let x0 ← warm 4 n
      let lo ← vec 3 4 n
      let up ← vec 4 4 n
      some { r with x := clampTo f32 lo up x0, g := x0, mat := mat, vec := cv, lo := lo, up := up }

/-- The defect VALUE in fetched operands (Table 06-7). -/
def SolverRun.badValue (r : SolverRun) (b : List Byte) : Bool :=
  let fin := fun (l : List Nat) => l.all f32.finite
  let ninf := f32.negB f32.infBits
  if r.op = 1 then
    !(r.mat.all fin) || !(r.vec.all f64.finite) || !(r.x.all f64.finite) ||
    (svJacobi b && !svSparse b && ((List.range r.mat.length).zip r.mat).any (fun p => f32.eqB (p.2.getD p.1 0) 0))
  else if r.op = 2 then !(r.mat.all fin) || !(fin r.g) || r.vec.all (fun v => v == 0)
  else
    !(r.mat.all fin) || !(fin r.vec) || !(fin r.g) || r.lo.any (fun v => !f32.finite v && v != ninf) ||
    r.up.any (fun v => !f32.finite v && v != f32.infBits) || (r.lo.zip r.up).any (fun p => f32.ltB p.2 p.1)

/-! Starting a command (R327, R328, R333, R338, R65). -/

/-- The command at the head of the solver's queue, whose OP is ours, reaches the idle engine. It starts where it passes steps 1
and 2, and its operands begin to stream in: PHASE FETCH, no iterate and no residual. -/
def State.svTake (s : State) (id : Nat) (ours : Nat → Bool) : State :=
  match s.engineNext .solver pgSolver s.solver.isSome id with
  | none => s
  | some c =>
    let b := c.block
    if ours (svOp b) = false then s
    else if s.pageFailed pgSolver then s.svRefuse c St.SOLVER_FAULT 0 0
    else match firstBad (s.svBlockChecks c.region b) with
      | some e => s.svRefuse c e.status e.reason 0
      | none =>
        if s.stopPassed c then s.svRefuse c St.DEADLINE 0 0
        else if svOverlap b then s.svRefuse c St.SOLVE_INVALID 8 0
        else if svN b = 0 then s.svRefuse c St.ZERO_LENGTH 0 0
        else
          let s := { s with solver := some (fetchingRun c s.time s.gov.ccycles) }.await id (hostLen (svFetched b))
          let s := ((s.wr64 Reg.SLV_SLV_STOP_LO c.stop).wr Reg.SLV_SLV_ITER 0).wr64 Reg.SLV_BEST_RES_LO 0
          s.updCmd id (fun c => { c with phase := .running })

/-- The bytes that a fetch counts in F of R322, from host memory and from the K16's own: with the padding for a dense matrix. -/
def svFetchLens (b : List Byte) : Nat × Nat :=
  let l := if svSparse b then svVecs b else svArrays b
  (hostLen l, devLen l)

/-- TIME at which a fetch has its host bytes, and all its bytes: at the rates of R322, with nothing else in the way (log 144). -/
def SolverRun.hostDue (r : SolverRun) (b : List Byte) : Nat := r.start + ceilDiv (svFetchLens b).1 16
def SolverRun.fetchDue (r : SolverRun) (b : List Byte) : Nat := r.hostDue b + ceilDiv (svFetchLens b).2 64

/-- The operands of the command that the engine holds are in solver SRAM: they are read, once, and their values checked (R327 step
3, R336). They may take an armed CORRUPT with them (R1051). -/
def State.svLoad (s : State) : State :=
  match s.solver.bind (fun r => (s.cmd r.cmd).map (fun c => (r, c))) with
  | none => s
  | some (r, c) =>
    let b := c.block
    if r.loaded ∨ c.phase ≠ .running ∨ s.time < r.fetchDue b then s
    else
      let s := (s.noteAreas c (svFetched b)).arrived c.id
      match s.svFetch c r with
      | none => s.svOperand c (svFetched b)
      | some r =>
        if r.badValue b then s.svRefuse c St.SOLVE_INVALID 0x0A 0
        else
          let r := { r with loaded := true, from_ := s.gov.ccycles, mark := s.armedBits pgSolver, g := if r.op = 3 then [] else r.g }
          { s.disarm pgSolver with solver := some r }

/-- LINSOLVE (R305). A block whose OP is reserved is refused here (R328). -/
def execLinsolve (cmd : Nat) (s : State) : Host.Outcome State Fault Refusal := .next (s.svTake cmd (fun op => op != 2 && op != 3))

/-- ASSIGN (R312). -/
def execAssign (cmd : Nat) (s : State) : Host.Outcome State Fault Refusal := .next (s.svTake cmd (fun op => op == 2))

/-- BOXQP (R319). -/
def execBoxqp (cmd : Nat) (s : State) : Host.Outcome State Fault Refusal := .next (s.svTake cmd (fun op => op == 3))

/-! Iterates (R296, R305 to R319). -/

/-- An iterate has its residual: it is recorded, and is the best where its residual is the least so far. -/
def SolverRun.record (r : SolverRun) (x g : List Nat) (rho : Nat) : SolverRun :=
  let it : Iterate := { k := r.done, rho := rho, x := x, g := g }
  let better := match r.best with | none => true | some b => f64.ltB rho b.rho
  { r with done := r.done + 1, x := x, g := g, rho0 := if r.done = 0 then rho else r.rho0, rho := rho, best := if better then some it else r.best }

/-- What a step of a command comes to: its run, whether an inner solve broke down, its products with A and residuals, and its
cycles (Table 06-2). -/
structure StepEnd where
  run : SolverRun
  broke : Bool
  reads : Nat
  cycles : Nat

/-- One step of LINSOLVE: the inner solve after iterate k − 1, unless this is iterate 0, and the residual, unless the inner solve
breaks down. -/
def SolverRun.linStep (r : SolverRun) (b : List Byte) (a : List MatRow) : StepEnd :=
  let diag := if svJacobi b then some (matDiag a) else none
  if r.done = 0 then
    let res := residual64 a r.vec r.x
    { run := r.record r.x res (f64.norm res), broke := false, reads := 1, cycles := svResidual b }
  else
    let e := residualExp r.done r.g
    let r32 := scaleDown r.g e
    let d := if svMethod b = 1 then gmres a diag (svInnerMax b) (svRestart b) (svParam b) r32 else cg a diag (svInnerMax b) (svParam b) r32
    let r := { r with inner := (r.inner + d.count) % 0x100000000 }
    if d.broke then { run := r, broke := true, reads := d.prods, cycles := d.prods * svProduct b }
    else
      let x := scaleUpAdd r.x d.d e
      let res := residual64 a r.vec x
      { run := r.record x res (f64.norm res), broke := false, reads := d.prods + 1, cycles := d.prods * svProduct b + svResidual b }

/-- One iterate of ASSIGN (R312, R313). -/
def SolverRun.assignStep (r : SolverRun) (b : List Byte) : SolverRun :=
  let g := if r.done = 0 then r.g else colUpdate r.mat r.x r.vec (svParam b)
  let f := rowUpdate r.mat g (svTopK b) (svParam b)
  r.record f g (assignRho r.mat f g r.vec (svTopK b) (svParam b))

/-- One iterate of BOXQP (R319). -/
def SolverRun.boxStep (r : SolverRun) (b : List Byte) : SolverRun :=
  let alpha := Sys2Proof.Machine.boxStep r.mat (svN b) (svParam b)
  let x := if r.done = 0 then r.x else clampTo f32 r.lo r.up (axpy f32 (f32.negB alpha) r.g r.x)
  let g := boxGrad r.mat r.vec x
  r.record x g (boxRho r.lo r.up x g)

/-- The stop tests after an iterate, with its residual: the cause, 0 for none (R305, R306, R314, R319). -/
def SolverRun.stopCause (r : SolverRun) (b : List Byte) (rho : Nat) : Nat :=
  let bound := if r.op = 1 then f64.mulB (svTol b) (f64.norm r.vec) else svTol b
  if f64.leB rho bound ∨ (r.op = 1 ∧ f64.eqB rho 0) then 1 else if r.done - 1 = svMaxIters b then 2 else 0

/-- An iterate has completed: the page's registers, then the stop tests. -/
def State.svIterated (s : State) (c : Command) (r : SolverRun) : State :=
  let s := { s with solver := some { r with from_ := s.gov.ccycles } }
  let s := (s.wr Reg.SLV_SLV_ITER r.done).wr64 Reg.SLV_BEST_RES_LO ((r.best.map (·.rho)).getD 0)
  let s := s.event 0x0301 pgSolver c.ev
  match r.stopCause c.block r.rho with
  | 0 => s
  | k => s.svStop St.OK k false false true

/-- A step of a command has ended: its reads of a sparse matrix, then its iterate or its breakdown (R311). -/
def State.svStepped (s : State) (c : Command) (e : StepEnd) : State :=
  let s := if svSparse c.block then (List.range e.reads).foldl (fun s _ => s.noteAreas c (svSparseReads c.block)) s else s
  if e.broke then
    ((({ s with solver := some e.run }).bump Reg.SLV_BREAKDOWNS 1).event 0x0302 pgSolver c.ev).svStop St.OK 3 false true true
  else s.svIterated c e.run

/-- The next step of a command, from its matrix as it stands now (R336), or why there is none. -/
def State.svNext (s : State) (c : Command) (r : SolverRun) : Except (Option Bad) StepEnd :=
  let b := c.block
  if r.op = 2 then .ok { run := r.assignStep b, broke := false, reads := 0, cycles := svStep b (r.done == 0) }
  else if r.op = 3 then .ok { run := r.boxStep b, broke := false, reads := 0, cycles := svStep b (r.done == 0) }
  else match if svSparse b then s.sparseRows c else .ok (r.mat.map (fun row => (List.range row.length).zip row)) with
    | .error e => .error e
    | .ok a => .ok (r.linStep b a)

/-- CCLK cycles of a step, with the read time of a sparse matrix at 64 bytes per ns (R321). -/
def State.svCycles (s : State) (b : List Byte) (e : StepEnd) : Nat :=
  e.cycles + (if svSparse b then s.nsCycles (e.reads * ceilDiv (devLen (svSparseReads b)) 64) else 0)

/-- SOLVER_ITERATE (R296, R321): the next iterate of the command that the engine holds, once its operands are in solver SRAM and the
cycles of its step have passed. A word of solver SRAM stored with inverted bits is read with it (Table 06-12). -/
def execSolverIterate (cmd : Nat) (s : State) : Host.Outcome State Fault Refusal :=
  match s.solver, s.cmd cmd with
  | some r, some c =>
    if r.cmd ≠ cmd ∨ c.phase ≠ .running ∨ r.loaded = false then .next s
    else match s.svNext c r with
      | .error none => .next ((s.noteAreas c (svSparseReads c.block)).svOperand c (svSparseReads c.block))
      | .error (some e) => .next ((s.noteAreas c (svSparseReads c.block)).svRefuse c e.status e.reason 0)
      | .ok e =>
        if s.gov.ccycles < r.from_ + s.svCycles c.block e then .next s
        else
          let s := s.wordRead pgSolver r.mark 0x0301 0x0302 allOnes32
          if 2 ≤ r.mark then .next ({ s with fresh := s.fresh + 1 }.svStop St.SOLVER_FAULT 7 true false (Config.bestReads s.fresh))
          else .next (s.svStepped c { e with run := { e.run with mark := 0 } })
  | _, _ => .next s

/-- ASSIGN_STOP (R314, R315): TIME has reached S − T_rep. -/
def execAssignStop (cmd : Nat) (s : State) : Host.Outcome State Fault Refusal :=
  match s.solver, s.cmd cmd with
  | some r, some c =>
    if r.cmd = cmd ∧ r.op = 2 ∧ c.phase = .running ∧ c.stop ≠ allOnes64 ∧ c.stop ≤ s.time + svTRep c.block then
      .next (s.askStop (.command cmd) St.DEADLINE)
    else .next s
  | _, _ => .next s

/-- A stop with a status reaches a solver command (R62, R314, R334, R335). A fault leaves no valid result unless valid says so
(Table 06-12). -/
def State.stopSolver (s : State) (c : Command) (status : Nat) (valid : Bool) : State :=
  if (s.solver.map (·.cmd)) = some c.id then s.svStop status (stopCauseOf status) true false valid else s.svRefuse c status 0 0

end Sys2Proof.Machine
end

