-- ==== Sys2Proof/Machine/Window.lean ====
section
/-! DEFINITION. Window runs: the window list, the arrays in HBM, the switch that builds a visit, and row staging
(spec/02 R102 to R107, R111, R112, spec/05 R228, R234 to R243, R286 to R288). -/

namespace Sys2Proof.Machine

/-! The window list (R287). -/

structure WEntry where
  spinsAddr : Nat
  colourAddr : Nat
  nWin : Nat
  dwell : Nat
  nColours : Nat
  reserved : Bool
deriving DecidableEq, Repr

def parseEntry (t : List Byte) : WEntry :=
  { spinsAddr := leAt t 0 8, colourAddr := leAt t 8 8, nWin := leAt t 0x10 4, dwell := leAt t 0x14 4
    nColours := leAt t 0x18 2, reserved := leAt t 0x1A 6 != 0 }

abbrev badMem : Bad := badSt St.MEMORY_FAULT

/-- The bytes of the window list at AUX_ADDR: the header alone where its shape is wrong; none where unreadable. -/
def State.windowList (s : State) (region : Nat) (b : List Byte) : Option (List Byte) :=
  match s.readSpace region 0 spHbm (rbAux b) 64 with
  | none => none
  | some h =>
    let n := leAt h 6 2
    if n = 0 ∨ 4096 < n ∨ leAt h 8 4 ≠ 64 + 32 * n then some h else s.readSpace region 0 spHbm (rbAux b) (64 + 32 * n)

/-- The checks of a window list's header (R286, Table 05-4), for state vectors of sb bytes. -/
def State.listChecks (s : State) (region : Nat) (b t : List Byte) (sb : Nat) : List (Bool × Bad) :=
  let n := leAt t 6 2
  let w := leAt t 0x10 8
  let wb := leAt t 0x18 8
  [(leAt t 0 4 != 0x54534C57 || leAt t 4 1 != 1, badExt 7), (leAt t 5 1 != 0, badRsvd),
   (n == 0 || decide (4096 < n) || leAt t 8 4 != 64 + 32 * n, badExt 8), (leAt t 0x0C 4 != 0, badRsvd),
   (!s.inHbm region w wb || decide (wb < (rbReplicas b + 1) * sb), badExt 7), (leAt t 0x20 28 != 0, badRsvd),
   (leAt t 0x3C 4 != crc32c (t.take 0x3C ++ t.drop 0x40), badExt 7)]

def State.listDefect (s : State) (region : Nat) (b : List Byte) (sb : Nat) : Option Bad :=
  match s.windowList region b with
  | none => some badMem
  | some t => firstBad (s.listChecks region b t sb)

/-- N_WINDOWS of a run's list, and an entry of it. -/
def State.nWindows (s : State) (r : Run) : Nat := leNat (s.spaceBytes spHbm 0 (rbAux r.block + 6) 2)
def State.windowEntry (s : State) (region : Nat) (r : Run) (e : Nat) : Option WEntry :=
  (s.readSpace region 0 spHbm (rbAux r.block + 64 + 32 * e) 32).map parseEntry

/-! The arrays (R102 to R107). -/

/-- ROWPTR[i] and ROWPTR[i + 1]. -/
def State.rowPtr (s : State) (region : Nat) (g : Grist) (i : Nat) : Option (Nat × Nat) :=
  (s.readSpace region 0 spHbm (g.rowptr + 4 * i) 8).map (fun b => (leAt b 0 4, leAt b 4 4))

/-- The entries p0 to p1 − 1: columns and values. -/
def State.rowEntries (s : State) (region : Nat) (g : Grist) (p0 p1 : Nat) : Option (List (Nat × Int)) :=
  let k := p1 - p0
  let pb := precBytes g.prec
  match s.readSpace region 0 spHbm (g.col + 4 * p0) (4 * k), s.readSpace region 0 spHbm (g.val + pb * p0) (pb * k) with
  | some cs, some vs => some ((List.range k).map (fun i => (leAt cs (4 * i) 4, sInt (precBits g.prec) (leAt vs (pb * i) pb))))
  | _, _ => none

/-- h_i of the arrays. -/
def State.rowH (s : State) (g : Grist) (i : Nat) : Int :=
  sInt (precBits g.prec) (leNat (s.spaceBytes spHbm 0 (g.h + precBytes g.prec * i) (precBytes g.prec)))

/-- Columns strictly ascend. -/
def ascending : List Nat → Bool
  | a :: b :: rest => decide (a < b) && ascending (b :: rest)
  | _ => true

/-- What a window load reads of the arrays for row i lies outside the job's HBM (R102): its row pointers and its bias, and
its entries p0 to p1 − 1. -/
def State.rowOutside (s : State) (region : Nat) (g : Grist) (i : Nat) : Bool :=
  !s.areaIn region spHbm (g.rowptr + 4 * i) 8 || !s.areaIn region spHbm (g.h + precBytes g.prec * i) (precBytes g.prec)
def State.entriesOutside (s : State) (region : Nat) (g : Grist) (p0 p1 : Nat) : Bool :=
  decide (p0 < p1) && (!s.areaIn region spHbm (g.col + 4 * p0) (4 * (p1 - p0)) ||
    !s.areaIn region spHbm (g.val + precBytes g.prec * p0) (precBytes g.prec * (p1 - p0)))

/-- Row i with its entries, or its first defect (R102 to R104, Table 02-9). The spec orders no defects within a row: the model
tests them as they are written here (log 134). -/
def State.winRow (s : State) (region : Nat) (g : Grist) (i : Nat) : Except Bad (List (Nat × Int)) :=
  if s.rowOutside region g i then .error (badGrist 0x10)
  else match s.rowPtr region g i with
  | none => .error badMem
  | some p =>
    if p.2 < p.1 ∨ g.nnz < p.2 ∨ (i = 0 ∧ p.1 ≠ 0) ∨ (i + 1 = g.n ∧ p.2 ≠ g.nnz) then .error (badGrist 0x0B)
    else if s.entriesOutside region g p.1 p.2 then .error (badGrist 0x10)
    else match s.rowEntries region g p.1 p.2 with
      | none => .error badMem
      | some es =>
        let cs := es.map (·.1)
        if cs.any (fun c => decide (g.n ≤ c)) then .error (badGrist 0x0C)
        else if !ascending cs then .error (badGrist 0x0D)
        else if cs.contains i then .error (badGrist 0x0E)
        else .ok es

/-- E(s) of a full state, J_ij of i < j from row i (R106, R240). -/
def State.windowEnergy (s : State) (region : Nat) (g : Grist) (st : Nat) : Int :=
  sumInt (fun i =>
    let es := match s.rowPtr region g i with
      | none => []
      | some p => (s.rowEntries region g p.1 (Nat.min p.2 g.nnz)).getD []
    spinOf (bit st i) * (s.rowH g i +
      sumInt (fun (e : Nat × Int) => if i < e.1 ∧ e.1 < g.n then e.2 * spinOf (bit st e.1) else 0) es)) (List.range g.n)

/-- An array of a window problem has an uncorrectable word. -/
def State.arraysFaulty (s : State) (g : Grist) : Bool :=
  s.areaBad spHbm g.rowptr (4 * (g.n + 1)) || s.areaBad spHbm g.col (4 * g.nnz) ||
  s.areaBad spHbm g.val (precBytes g.prec * g.nnz) || s.areaBad spHbm g.h (precBytes g.prec * g.n)

/-! The switch (R234 to R239, R288). -/

/-- The checks of an entry (R239, R288, Table 05-4): its own fields in offset order, then R239, then the areas of its lists, whose
codes are those of the lists (log 135). -/
def State.entryChecks (s : State) (region : Nat) (g : Grist) (t : Nat) (e : WEntry) : List (Bool × Bad) :=
  [(e.nWin == 0 || decide (denseLimit g.prec < e.nWin), badExt 9), (e.dwell == 0, badExt 9),
   (decide (256 < e.nColours), badExt 0x0B), (e.reserved, badRsvd), (decide (2359296 < bZero e.nWin g.prec t), badExt 9),
   (!s.inHbm region e.spinsAddr (4 * e.nWin), badExt 0x0A), (e.nColours != 0 && !s.inHbm region e.colourAddr e.nWin, badExt 0x0B)]

/-- Every row of a list of spins, in order, or the first defect: the rows of a load are all tested before its pairs are
compared (log 134). -/
def State.winRows (s : State) (region : Nat) (g : Grist) : List Nat → Except Bad (List (Nat × List (Nat × Int)))
  | [] => .ok []
  | i :: is =>
    match s.winRow region g i with
    | .error e => .error e
    | .ok es => match s.winRows region g is with
      | .error e => .error e
      | .ok rs => .ok ((i, es) :: rs)

/-- The window's couplings: position pairs l < l′ with the value in each row; a mirror missing or unequal is
ASYMMETRIC (R107). -/
def windowPairs (spins : List Nat) (rows : List (Nat × List (Nat × Int))) : Except Bad (Tab Int) :=
  let val := fun (a b : Nat) => ((rows.getD a (0, [])).2.find? (fun e => e.1 == spins.getD b 0)).map (·.2)
  let n := spins.length
  let ps := (List.range n).flatMap (fun a => (List.range n).filterMap (fun b =>
    if a < b then some (a, b, val a b, val b a) else none))
  if ps.any (fun p => p.2.2.1 != p.2.2.2) then .error (badGrist 0x0F)
  else .ok (ps.foldl (fun t p => Tab.put (fun _ => 0) (p.1 * 1048576 + p.2.1) (p.2.2.1.getD 0) t) [])

/-- The rung map of the visit that a switch loads: of a leased visit the map that its lease carries (R266). -/
def Run.visitRungs (r : Run) : List Nat :=
  match r.span with
  | some sp => sp.granted
  | none => r.rungs

/-- A visit of an entry over states bits: the window's dense grist and its full fields (R236 to R239). -/
def State.buildVisit (s : State) (region : Nat) (g : Grist) (r : Run) (number entry : Nat) (bits : List Nat) : Except Bad Visit :=
  match s.windowEntry region r entry with
  | none => .error badMem
  | some e =>
    match firstBad (s.entryChecks region g r.count e) with
    | some b => .error b
    | none =>
      match s.readSpace region 0 spHbm e.spinsAddr (4 * e.nWin), (if e.nColours = 0 then some [] else s.readSpace region 0 spHbm e.colourAddr e.nWin) with
      | some sp, some cl =>
        let spins := (List.range e.nWin).map (fun l => leAt sp (4 * l) 4)
        let colours := cl.map BitVec.toNat
        if !ascending spins || spins.any (fun i => decide (g.n ≤ i)) then .error (badExt 0x0A)
        else if colours.any (fun c => decide (e.nColours ≤ c)) then .error (badExt 0x0B)
        else if arraysUnaligned g then .error (badGrist 0x10)
        else match s.winRows region g spins with
          | .error b => .error b
          | .ok rows =>
            match windowPairs spins rows with
            | .error b => .error b
            | .ok j =>
              let clashes := colours != [] && j.any (fun p => colours.getD (p.1 / 1048576) 0 == colours.getD (p.1 % 1048576) 0)
              if clashes then .error (badExt 0x0B)
              else
                let fields := (List.range e.nWin).foldl (fun t l =>
                  let row := (rows.getD l (0, [])).2
                  (List.range r.nr).foldl (fun t rep =>
                    let st := bits.getD rep 0
                    Tab.put (fun _ => 0) (64 * l + rep)
                      (s.rowH g (spins.getD l 0) + sumInt (fun (x : Nat × Int) => x.2 * spinOf (bit st x.1)) row) t) t) []
                .ok { number := number, entry := entry, dwell := e.dwell, swept := 0, spins := spins, colours := colours
                      j := j, fields := fields, start := bits, rungs := r.visitRungs, staged := false }
      | _, _ => .error badMem

/-! Staging (R242, R243). -/

/-- Staged bytes of an entry in tun number m of t. -/
def State.stagedBytes (s : State) (region : Nat) (g : Grist) (t m : Nat) (spins : List Nat) : Nat :=
  sumOf (fun l =>
    if l % t = m then
      match s.rowPtr region g (spins.getD l 0) with
      | none => 0
      | some p => 64 * ceilDiv ((p.2 - p.1) * (4 + precBytes g.prec) + precBytes g.prec) 64
    else 0) (List.range spins.length)

/-- Dense grist bytes of a window of n spins in tun number m of t (R93, R99). -/
def windowGristBytes (n p t m : Nat) : Nat := sumOf (fun l => if l % t = m then rowBytes n p l else 0) (List.range n)

/-- The spins of an entry. -/
def State.entrySpins (s : State) (region : Nat) (r : Run) (e : Nat) : List Nat :=
  match s.windowEntry region r e with
  | none => []
  | some w =>
    match s.readSpace region 0 spHbm w.spinsAddr (4 * w.nWin) with
    | none => []
    | some b => (List.range w.nWin).map (fun l => leAt b (4 * l) 4)

/-- The rows of an entry may be staged beside the visit in progress (R242). -/
def State.stagingFits (s : State) (region : Nat) (g : Grist) (r : Run) (v : Visit) (next : Nat) : Bool :=
  let spins := s.entrySpins region r next
  (List.range r.count).all (fun m =>
    decide (windowGristBytes v.spins.length g.prec r.count m + s.stagedBytes region g r.count m spins ≤ 3145728))

/-- What reading the rows of some spins counts and charges (R1157). -/
def State.noteRows (s : State) (c : Command) (g : Grist) (spins : List Nat) : State :=
  spins.foldl (fun s i =>
    let s := s.noteRead (some c.job) spHbm (g.rowptr + 4 * i) 8
    match s.rowPtr c.region g i with
    | none => s
    | some p =>
      let s := s.noteRead (some c.job) spHbm (g.col + 4 * p.1) (4 * (p.2 - p.1))
      s.noteRead (some c.job) spHbm (g.val + precBytes g.prec * p.1) (precBytes g.prec * (p.2 - p.1))) s

/-- The states in the state store (R236). -/
def State.storedStates (s : State) (r : Run) (n : Nat) : List Nat :=
  (List.range r.nr).map (fun i => lowBits (leNat (s.spaceBytes spHbm 0 (s.workAddr r + i * stateBytes n) (stateBytes n))) n)

/-- A run ends on a defect that a window load found (R112, R288). Its result has no valid part, and the model gives it
STOP_CAUSE 0, as Table 04-10 gives a cause to valid results and faults only (log 136). -/
def State.windowDefect (s : State) (r : Run) (c : Command) (g : Grist) (b : Bad) : State :=
  let fault := decide (b.status = St.MEMORY_FAULT)
  if fault then s.finishRun r St.MEMORY_FAULT 7 r.best.isSome false
  else
    let h : RunHead := { headOf r.block (some g) r.nRungs with seed := r.seed, drawn := r.seedDrawn, start := r.startTime, fin := s.time }
    let s := if b.ext ≠ 0 then s.wr (tunReg r.lead Reg.TUN_SPAN_ERR) b.ext else s
    let s := s.updRun r.cmd (fun r => { r with phase := .stopped })
    let s := r.tuns.foldl (fun s t => s.updTun t (fun x => { x with idleSince := s.time })) s
    let e := s.annealRefusal c h b.status b.reason 0
    (s.noteCause r e).endCmd r.cmd e

/-- WIN_SERIAL counts a visit whose rows could not be staged (R242). -/
def State.countSerial (s : State) (r : Run) (c : Command) (g : Grist) (entry : Nat) : State :=
  match r.visit with
  | none => s
  | some v =>
    if s.stagingFits c.region g r v entry then s
    else (s.bump (tunReg r.lead Reg.TUN_WIN_SERIAL) 1).tunEvent r r.lead 0x0108 1

/-- The visit and entry that a switch loads: the next of the list's order, or the granted lease. -/
def State.nextVisit (s : State) (r : Run) : Nat × Nat :=
  match r.span.bind (fun sp => sp.leases.find? (fun l => l.2.2.1 == sp.chip)) with
  | some l => (l.1, l.2.1)
  | none =>
    let v := match r.visit with | some v => v.number + 1 | none => 0
    (v, v % Nat.max (s.nWindows r) 1)

/-- WINDOW_SWITCH (R235, R236): the next visit's dense grist and fields are built from the state store. -/
def execWindowSwitch (run : Nat) (s : State) : Host.Outcome State Fault Refusal :=
  match s.run run with
  | none => .next s
  | some r =>
    match s.runCmd r, s.grist r.load with
    | some c, some g =>
      if r.phase ≠ .switching then .next s
      else
        let nv := s.nextVisit r
        let bits := s.storedStates r g.n
        match s.buildVisit c.region g r nv.1 nv.2 bits with
        | .error b => .next (s.windowDefect r c g b)
        | .ok v =>
          let staged := match r.visit with | some w => w.staged | none => false
          let s := s.countSerial r c g nv.2
          let s := if staged then s else s.noteRows c g v.spins
          let r := { r with bits := bits, visit := some v, phase := .sweeping }
          let k := if r.span.isSome then 0 else r.sweep
          .next (s.updRun run (fun _ => r.startSweep k s.gov.ccycles r.span.isNone))
    | _, _ => .next s

/-- ROW_STAGING (R242): while a visit runs, the rows of the next visit are read where every tun has room. -/
def execRowStaging (run : Nat) (s : State) : Host.Outcome State Fault Refusal :=
  match s.run run with
  | none => .next s
  | some r =>
    match s.runCmd r, s.grist r.load, r.visit with
    | some c, some g, some v =>
      if r.phase ≠ .sweeping ∨ r.span.isSome ∨ v.staged then .next s
      else
        let next := (v.number + 1) % Nat.max (s.nWindows r) 1
        if s.stagingFits c.region g r v next then
          let s := s.noteRows c g (s.entrySpins c.region r next)
          .next (s.updRun run (fun r => { r with visit := some { v with staged := true } }))
        else .next s
    | _, _, _ => .next s

end Sys2Proof.Machine
end

