-- ==== Sys2Proof/Machine/Span.lean ====
section
/-! DEFINITION. Runs across chips: the chip tree, run messages, joining, halos, rendezvous, the gather of the best
state, window leases, and the loss of partners (spec/05 R229 to R233, R244 to R282, R289 to R295). -/

namespace Sys2Proof.Machine

/-! The chip tree (R229, R244, R245). -/

/-- The direction of a chip's parent: SW 5, W 1 or S 3; none for the coordinator. -/
def parentDir (cx c : Nat) : Option Nat :=
  let x := c % Nat.max cx 1
  let y := c / Nat.max cx 1
  if 0 < x ∧ 0 < y then some 5 else if 0 < x then some 1 else if 0 < y then some 3 else none

/-- A chip's parent. -/
def parentOf (cx c : Nat) : Option Nat :=
  match parentDir cx c with
  | some 5 => some (c - cx - 1) | some 1 => some (c - 1) | some 3 => some (c - cx) | _ => none

/-- A chip and its ancestors. -/
def treePath (cx : Nat) : Nat → Nat → List Nat
  | 0, c => [c]
  | n + 1, c => match parentOf cx c with
    | none => [c]
    | some p => c :: treePath cx n p

/-- The child of `me` on the way to chip c, where c lies below it. -/
def childToward (cx me c : Nat) : Option Nat :=
  let up := (treePath cx 16 c).takeWhile (fun x => x != me)
  if (treePath cx 16 c).contains me then up.getLast? else none

/-- The span part of a new run, where its KIND is 2 or 3. -/
def newSpan (b : List Byte) : Option Span :=
  if rbKind b = 2 ∨ rbKind b = 3 then
    let dirs := (List.range 6).filterMap (fun d => (partnerChip (rbChipsX b) (rbChipsY b) (rbChip b) d).map (fun c => (d, c)))
    some { kind := rbKind b, chip := rbChip b, cx := rbChipsX b, cy := rbChipsY b, maxLag := rbMaxLag b
           spanId := rbSpanId b, aux := rbAux b, joinUs := rbJoinUs b, rdvUs := rbRdvUs b
           partners := dirs.map (fun p => { dir := p.1, chip := p.2, link := linkOf (rbLinkMap b) p.1, frozen := false
                                            haloA := none, haloB := none, nextA := none, nextB := none, coef := none, waitSince := none })
           joined := [0], lost := [], found := [], reports := [], reportTime := allOnes64, gather := none, parts := [], pending := none
           pendingCap := none, sending := none, gathers := 0, complete := none, leases := [], granted := [], nextVisit := 0
           requeue := [], idle := [], applied := 0, staleSum := 0 }
  else none

def Span.chips (sp : Span) : List Nat := List.range (sp.cx * sp.cy)
def Span.children (sp : Span) : List Nat := sp.chips.filter (fun c => parentOf sp.cx c == some sp.chip)
/-- The link to an adjacent chip. -/
def Span.linkTo (sp : Span) (c : Nat) : Option Nat := (sp.partners.find? (fun p => p.chip == c)).map (·.link)

/-- The links on which a message to dst leaves this chip: to the parent, towards a child, to every child for a
broadcast. Halos and coefficients go to the partner itself. -/
def Span.route (sp : Span) (dst : Nat) : List Nat :=
  if dst = 0xFF then sp.children.filterMap sp.linkTo
  else match sp.linkTo dst, childToward sp.cx sp.chip dst, parentOf sp.cx sp.chip with
    | _, some ch, _ => ([ch].filterMap sp.linkTo)
    | some l, none, _ => [l]
    | none, none, some p => [p].filterMap sp.linkTo
    | none, none, none => []

/-! Messages (R246, R289, Table 05-5). -/

/-- Hand a run message to its link; one whose link is not ACTIVE is discarded (R954, R972). -/
def State.postMsg (s : State) (m : RunMsg) : State :=
  if s.rf (linkReg m.link Reg.LINK_LINK_STATE) 2 0 = 5 then { s with tun := { s.tun with outbox := s.tun.outbox ++ [m] } }
  else s.bumpSat (linkReg m.link Reg.LINK_TX_DISCARD) 1

/-- Send a run message of a span to dst. -/
def State.sendMsg (s : State) (sp : Span) (links : List Nat) (kind dst flags tag : Nat) (payload : List Byte) : State :=
  links.foldl (fun s l => s.postMsg
    { link := l, span := sp.spanId, kind := kind, src := sp.chip, dst := dst, flags := flags, tag := tag, offset := 0
      payload := payload, units := 0, arrival := 0 }) s

def State.sendRun (s : State) (sp : Span) (kind dst tag : Nat) (payload : List Byte) : State :=
  s.sendMsg sp (sp.route dst) kind dst 0 tag payload

/-- The running split run whose LINK_MAP names a link. -/
def State.linkRun (s : State) (link : Nat) : Option (Run × Span) :=
  s.tun.runs.findSome? (fun r =>
    if r.phase = .stopped then none
    else r.span.bind (fun sp => if sp.partners.any (fun p => p.link == link) then some (r, sp) else none))

/-- Padded to a multiple of 8 bytes. -/
def pad8 (bs : List Byte) : List Byte := bs ++ List.replicate ((8 - bs.length % 8) % 8) 0

/-- Bytes of a bit field, padded to 8 bytes (R289). -/
def bitsBytes (n : Nat) : Nat := ceilDiv n 64 * 8

/-- Number of edge bits in a direction (R252). -/
def edgeCount (g : Grist) (d : Nat) : Nat :=
  if d = 0 ∨ d = 1 then g.vMax * g.wl else if d = 2 ∨ d = 3 then g.uMax * g.wl else g.wl

/-- The VC of a run message (Table 18-1). -/
def msgVc (kind : Nat) : Nat := if [4, 5, 9, 0x0B, 0x0C].contains kind then 2 else 1

/-- A window entry's size in a message of every replica's window bits. -/
def State.returnBytes (s : State) (region : Nat) (r : Run) (entry : Nat) : Nat :=
  r.nr * bitsBytes (s.entrySpins region r entry).length

/-- The length that a message of a kind has at a chip of a run. -/
def State.msgBytes (s : State) (region : Nat) (r : Run) (sp : Span) (g : Grist) (m : RunMsg) : Nat :=
  let rungs := bitsBytes (8 * r.nr)
  let dir := ((sp.partners.find? (fun p => p.link == m.link)).map (·.dir)).getD 0
  match m.kind with
  | 1 => 50 | 2 => 16 | 3 => 8
  | 4 => bitsBytes ((g.crossing (oppDir dir)).length * precBits g.prec)
  | 5 => r.nr * bitsBytes (edgeCount g dir)
  | 6 => 16 * r.nr + 16
  | 7 => 8 + rungs
  | 9 => g.n / 8
  | 0x0A => 16 + rungs
  | 0x0B => 8 + s.returnBytes region r (leAt m.payload 0 2)
  | 0x0C => 8 + s.returnBytes region r (leAt m.payload 0 2) + rungs
  | _ => 0

/-- A message that has wholly arrived. -/
def State.msgWhole (s : State) (m : RunMsg) : Bool :=
  match s.linkRun m.link with
  | none => true
  | some (r, sp) =>
    match s.runCmd r, s.grist r.load with
    | some c, some g => m.span != sp.spanId || decide (s.msgBytes c.region r sp g m ≤ m.payload.length)
    | _, _ => true

/-- Count a dropped message at the run that its link serves (R246). -/
def State.dropMsg (s : State) (link : Nat) : State :=
  match s.linkRun link with
  | none => s
  | some (r, _) => s.bump (tunReg r.lead Reg.TUN_DROPPED_MSG) 1

/-- A message that may be taken now: it has wholly arrived, a JOIN has the chip's own run to go to, and a RETURN waits for the end
of the MCLK cycle of its arrival, so that those of one cycle can be ordered (R293). -/
def State.msgReady (s : State) (m : RunMsg) : Bool :=
  s.msgWhole m && (m.kind != 1 || (s.linkRun m.link).isSome) && (m.kind != 0x0B || decide (m.arrival ≠ s.time))

/-- The place in the inbox of the next message of a kind: the oldest, and of the RETURNs of one MCLK cycle that of the
lowest chip (R293). -/
def State.nextMsg (s : State) (kind : Nat) : Option Nat :=
  let fits := fun (m : RunMsg) => m.kind == kind && s.msgReady m
  match s.tun.inbox.find? fits with
  | none => none
  | some m =>
    if kind ≠ 0x0B then findIdx fits s.tun.inbox
    else
      let same := s.tun.inbox.filter (fun x => fits x && x.arrival == m.arrival)
      let low := ((leastBy (fun (a b : RunMsg) => decide (a.src < b.src)) same).map (·.src)).getD m.src
      findIdx (fun x => fits x && x.arrival == m.arrival && x.src == low) s.tun.inbox

/-- Take the next whole message of a kind from the receive buffers (R923). -/
def State.takeMsg (s : State) (kind : Nat) : Option (RunMsg × State) :=
  match s.nextMsg kind with
  | none => none
  | some i => (s.tun.inbox[i]?).map (fun m => (m, { s with tun := { s.tun with
      inbox := s.tun.inbox.eraseIdx i
      taken := Tab.upd (fun _ => 0) (4 * m.link + msgVc kind) (fun n => (n + m.units) % 65536) s.tun.taken } }))

/-- Pass a message on along the tree (R245). -/
def State.relayMsg (s : State) (sp : Span) (m : RunMsg) : State :=
  (sp.route m.dst).foldl (fun s l => s.postMsg { m with link := l, offset := 0, units := 0 }) s

/-- Serve the next message of a kind: dropped where it does not fit (R246) or comes from a lost chip (R274), passed on
where it is for another chip, else handled by f, which says whether its tag fits. -/
def State.serveMsg (s : State) (kind : Nat) (f : State → RunMsg → Run → Span → Command → Grist → Option State) : State :=
  match s.takeMsg kind with
  | none => s
  | some (m, s) =>
    match s.linkRun m.link with
    | none => s
    | some (r, sp) =>
      match s.runCmd r, s.grist r.load with
      | some c, some g =>
        if m.span ≠ sp.spanId ∨ sp.lost.contains m.src then s.dropMsg m.link
        else if m.dst ≠ 0xFF ∧ m.dst ≠ sp.chip then s.relayMsg sp m
        else
          let s := if m.dst = 0xFF then s.relayMsg sp m else s
          match f s m r sp c g with
          | none => s.dropMsg m.link
          | some s => s
      | _, _ => s

def State.updSpan (s : State) (run : Nat) (f : Span → Span) : State :=
  s.updRun run (fun r => { r with span := r.span.map f })

/-! Joining (R247 to R251). -/

/-- The JOIN fields of a run (Table 05-5). -/
def joinPayload (r : Run) (g : Grist) : List Byte :=
  let b := r.block
  natLE 1 g.prec ++ natLE 1 g.wl ++ natLE 1 g.tx ++ natLE 1 g.ty ++ natLE 1 r.nr ++ natLE 1 r.nRungs ++
  natLE 1 (rbChipsX b) ++ natLE 1 (rbChipsY b) ++ natLE 1 (rbMaxLag b) ++ natLE 1 (b2n (rbTargetEn b)) ++
  natLE 2 (rbRdv b) ++ natLE 2 (rbExch b) ++ natLE 4 (rbSweeps b) ++ natLE 4 (rbStall b) ++ natLE 4 r.kilnCrc ++
  natLE 8 (rbDeadline b) ++ natLE 16 (leAt b 0x40 16)

/-- The points of a chip edge in a direction, with the rank of each (R252). -/
def edgePoints (g : Grist) (d : Nat) : List (Nat × Nat × Nat) :=
  let us := if d = 2 ∨ d = 3 then List.range g.uMax else if d = 0 ∨ d = 4 then [g.uMax - 1] else [0]
  let vs := if d = 0 ∨ d = 1 then List.range g.vMax else if d = 2 ∨ d = 4 then [g.vMax - 1] else [0]
  us.flatMap (fun u => vs.flatMap (fun v => (List.range g.wl).map (fun w => (u, v, w))))

/-- The edge bits of a replica that go to the partner in direction d: B spins eastward and northward, A spins westward
and southward (R252). -/
def Run.edgeBits (r : Run) (g : Grist) (d rep : Nat) : Nat :=
  let sub := if d % 2 = 0 then 1 else 0
  (edgePoints g d).foldl (fun a p =>
    a ||| (b2n (r.bitOf rep (g.latIndex sub p.1 p.2.1 p.2.2)) <<< edgeRank g.wl d p.1 p.2.1 p.2.2)) 0

/-- Send the halos of a phase, 0 for A data and 1 for B data, of a sweep counted from 1; 0 is the initial state, whose
message carries sweep 2^32 − 1. -/
def State.sendHalos (s : State) (r : Run) (sp : Span) (g : Grist) (phase sweep1 : Nat) : State :=
  (sp.partners.filter (fun p => p.dir % 2 == 1 - phase && !sp.lost.contains p.chip)).foldl (fun s p =>
    let sz := bitsBytes (edgeCount g p.dir)
    let pay := (List.range r.nr).flatMap (fun i => natLE sz (r.edgeBits g p.dir i))
    s.sendMsg sp [p.link] 5 p.chip phase (lowBits (sweep1 + 0xFFFFFFFF) 32) pay) s

/-- Every coefficient message has come, so boundary 0 may start (R251). -/
def Run.coefsIn (sp : Span) : Bool := sp.partners.all (fun p => p.dir % 2 == 0 || p.coef.isSome || p.frozen)

/-- A chip begins its run after START (R249, R251): its seed, its initial state, its COEF messages, and the halos of
the initial state. -/
def State.startSpan (s : State) (r : Run) (sp : Span) (c : Command) (g : Grist) (seed start : Nat) : State :=
  let bits := if rbInit r.block = 0 then (List.range r.nr).map (randomState seed (indexBase r.block g) g.n) else r.bits
  let sp := { sp with reportTime := allOnes64 }
  let r := { r with seed := seed, startTime := start, bits := bits, span := some sp }
  if sp.kind = 2 then
    let r := { r with phase := if Run.coefsIn sp then .sweeping else .coefs }
    let s := s.updRun r.cmd (fun _ => r)
    let s := (sp.partners.filter (fun p => p.dir % 2 == 0)).foldl (fun s p =>
      let vals := (g.crossing p.dir).map (·.2)
      s.sendMsg sp [p.link] 4 p.chip 0 0 (pad8 (vals.flatMap (fun v => natLE (precBytes g.prec) (toTwos (precBits g.prec) v))))) s
    (s.sendHalos r sp g 0 0).sendHalos r sp g 1 0
  else
    let r := { r with phase := if sp.chip = 0 then .sweeping else .waitGrant }
    (s.updRun r.cmd (fun _ => r)).storeStates r (some c.job) g.n

/-- A split run ends for a partner's loss or a failed join, with no valid result (R248, R250, R277). -/
def State.endSpan (s : State) (r : Run) (c : Command) (g : Grist) (status ext : Nat) : State :=
  let h : RunHead := { headOf r.block (some g) r.nRungs with seed := r.seed, drawn := r.seedDrawn, start := r.startTime, fin := s.time }
  let s := if ext ≠ 0 then s.wr (tunReg r.lead Reg.TUN_SPAN_ERR) ext else s
  let s := s.updRun r.cmd (fun r => { r with phase := .stopped })
  let s := r.tuns.foldl (fun s t => s.updTun t (fun x => { x with idleSince := s.time })) s
  let e := s.annealRefusal c h status 0 0
  (s.noteCause r e).endCmd r.cmd e

/-- JOIN (R247, R248): the coordinator takes a chip's JOIN; unequal fields abort the run, and the last JOIN starts
it. -/
def execJoinMsg (s : State) : Host.Outcome State Fault Refusal :=
  .next (s.serveMsg 1 (fun s m r sp c g =>
    if r.phase ≠ .joining ∨ sp.chip ≠ 0 ∨ m.tag ≠ 0 ∨ m.src = 0 ∨ sp.cx * sp.cy ≤ m.src then none
    else if m.payload.take 50 ≠ joinPayload r g then
      let s := s.sendRun sp 3 0xFF 0 (natLE 2 St.EXT_INVALID ++ natLE 1 0x0D ++ natLE 5 0)
      some (s.endSpan r c g St.EXT_INVALID 0x0D)
    else
      let joined := if sp.joined.contains m.src then sp.joined else sp.joined ++ [m.src]
      let sp := { sp with joined := joined }
      let r := { r with span := some sp }
      let s := s.updRun r.cmd (fun _ => r)
      if sp.chips.all (fun x => joined.contains x) then
        let s := s.sendRun sp 2 0xFF 0 (natLE 8 r.seed ++ natLE 8 s.time)
        some (s.startSpan r sp c g r.seed s.time)
      else some s))

/-- START (R249): a chip takes the seed and the coordinator's START_TIME. -/
def execStartMsg (s : State) : Host.Outcome State Fault Refusal :=
  .next (s.serveMsg 2 (fun s m r sp c g =>
    if r.phase ≠ .joining ∨ sp.chip = 0 ∨ m.src ≠ 0 ∨ m.tag ≠ 0 then none
    else some (s.startSpan r sp c g (leAt m.payload 0 8) (leAt m.payload 8 8))))

/-- ABORT (R246, R248, R250): the run ends with the message's status, and SPAN_ERR takes its reason. It fits a run that has not
received START. -/
def execAbortMsg (s : State) : Host.Outcome State Fault Refusal :=
  .next (s.serveMsg 3 (fun s m r sp c g =>
    if r.phase ≠ .joining ∨ sp.chip = 0 ∨ m.src ≠ 0 ∨ m.tag ≠ 0 then none
    else some (s.endSpan r c g (leAt m.payload 0 2) (leAt m.payload 2 1))))

/-- JOIN_TIMEOUT (R250): 1,000 · JOIN_US ns after the command's start, its load included, with no START. -/
def execJoinTimeout (run : Nat) (s : State) : Host.Outcome State Fault Refusal :=
  match s.cmd run with
  | none => .next s
  | some c =>
    match newSpan c.block with
    | none => .next s
    | some sp =>
      if c.phase ≠ .running ∨ s.time < c.began + 1000 * sp.joinUs then .next s
      else
        let told := if sp.chip = 0 then s.sendRun sp 3 0xFF 0 (natLE 2 St.PARTNER_LOST ++ natLE 6 0) else s
        match s.run run with
        | none => .next ((told.dropLoad c.block).endCmd run (s.annealRefusal c (s.headKnown c) St.PARTNER_LOST 0 0))
        | some r =>
          match s.grist r.load with
          | some g => if r.phase = .joining then .next (told.endSpan r c g St.PARTNER_LOST 0) else .next s
          | none => .next s

/-- COEF (R251): the coefficients of a partner's couplings onto this chip; with the last of them boundary 0 may
start. -/
def execCoefMsg (s : State) : Host.Outcome State Fault Refusal :=
  .next (s.serveMsg 4 (fun s m r sp _ g =>
    match sp.partners.find? (fun p => p.link == m.link) with
    | none => none
    | some p =>
      if sp.kind ≠ 2 ∨ p.dir % 2 = 0 ∨ m.src ≠ p.chip ∨ m.tag ≠ 0 ∨ p.coef.isSome then none
      else
        let pb := precBytes g.prec
        let keys := (g.crossing (oppDir p.dir)).map (·.1)
        let t := (keys.zip (List.range keys.length)).foldl (fun t e =>
          Tab.put (fun _ => 0) e.1 (sInt (precBits g.prec) (leAt m.payload (pb * e.2) pb)) t) []
        let sp := { sp with partners := sp.partners.map (fun q => if q.link == m.link then { q with coef := some t } else q) }
        some (s.updRun r.cmd (fun r => { r with
          span := some sp, phase := if r.phase = .coefs ∧ Run.coefsIn sp then .sweeping else r.phase }))))

/-! Lost partners (R271 to R276). -/

/-- A list with an element that it may hold already. -/
def addOnce (l : List Nat) (c : Nat) : List Nat := if l.contains c then l else l ++ [c]

/-- LOST_MASK shows a chip (Table 05-6). -/
def State.maskLost (s : State) (r : Run) (c : Nat) : State :=
  let a := tunReg r.lead Reg.TUN_LOST_MASK
  s.wr a (s.rg a ||| (1 <<< c))

/-- The last halo of a partner freezes: one that has fully arrived still takes effect (R254, R272). -/
def Span.freeze (sp : Span) (c : Nat) : Span :=
  { sp with partners := sp.partners.map (fun p => if p.chip == c then { p with frozen := true, waitSince := none } else p) }

/-- This chip finds a partner lost (R272, R273): it names it in every later REPORT. -/
def State.foundLost (s : State) (run c : Nat) : State :=
  match s.run run with
  | none => s
  | some r => (s.maskLost r c).updSpan run (fun sp => { sp.freeze c with found := addOnce sp.found c })

/-- A chip is declared lost: by the coordinator itself, or by its DECIDE, of which another chip shows its own partners
(R271, R274). -/
def State.namedLost (s : State) (run c : Nat) : State :=
  match s.run run with
  | none => s
  | some r =>
    let shown := match r.span with
      | some sp => sp.chip == 0 || sp.partners.any (fun p => p.chip == c)
      | none => false
    (if shown then s.maskLost r c else s).updSpan run (fun sp => { sp.freeze c with
      lost := addOnce sp.lost c, idle := sp.idle.filter (fun x => x != c) })

/-- The coordinator declares a chip lost, and with it every chip whose tree path runs through it (R271). Leases that it
holds stay until their end. -/
def State.declareLost (s : State) (run c : Nat) : State :=
  match (s.run run).bind (·.span) with
  | none => s
  | some sp => (sp.chips.filter (fun x => x != 0 && (treePath sp.cx 16 x).contains c)).foldl (fun s x => s.namedLost run x) s

/-! The gather of the best state (R262 to R264, R275, R291). -/

/-- The address of chip c's part of a work-area slot. -/
def partAddr (sp : Span) (g : Grist) (slot c : Nat) : Nat :=
  sp.aux + slot * stateBytes (sp.cx * sp.cy * g.n) + c * (g.n / 8)

/-- The gather in flight is complete when every part has come; a lost chip's part comes from the complete slot. -/
def State.gatherStep (s : State) (run : Nat) : State :=
  match s.run run with
  | none => s
  | some r =>
    match r.span, s.runCmd r, s.grist r.load with
    | some sp, some c, some g =>
      match sp.gather with
      | none => s
      | some q =>
        let missing := sp.chips.filter (fun x => !sp.parts.contains x)
        if missing.all (fun x => sp.lost.contains x) then
          let s := missing.foldl (fun s x =>
            let old := s.spaceBytes spHbm 0 (partAddr sp g ((sp.gathers + 1) % 2) x) (g.n / 8)
            s.writeSpace (some c.job) spHbm 0 (partAddr sp g (sp.gathers % 2) x) old) s
          let s := s.wr (tunReg r.lead Reg.TUN_COMPLETE_BND) q.1
          s.updSpan run (fun sp => { sp with
            gather := none, parts := [], gathers := sp.gathers + 1, complete := some (q.1, q.2.1, q.2.2.1, q.2.2.2) })
        else s
    | _, _, _ => s

/-- Begin a gather where none is in flight and a capture is pending (R262). -/
def State.gatherStart (s : State) (run : Nat) : State :=
  match s.run run with
  | none => s
  | some r =>
    match r.span, s.runCmd r, s.grist r.load with
    | some sp, some c, some g =>
      match sp.gather, sp.pendingCap, sp.pending with
      | none, some q, some own =>
        if r.phase = .stopped then s
        else
          let s := s.sendRun sp 8 0xFF 0 []
          let s := s.writeSpace (some c.job) spHbm 0 (partAddr sp g (sp.gathers % 2) 0) (natLE (g.n / 8) own.2)
          (s.updSpan run (fun sp => { sp with gather := some q, parts := [0], pendingCap := none, pending := none })).gatherStep run
      | _, _, _ => s
    | _, _, _ => s

/-- A loss may complete the gather in flight, and the next then begins (R262, R275). -/
def State.gatherGo (s : State) (run : Nat) : State := (s.gatherStep run).gatherStart run

/-- PART_REQ (R262): a chip moves its pending buffer to its sending buffer and sends its part. -/
def execPartReqMsg (s : State) : Host.Outcome State Fault Refusal :=
  .next (s.serveMsg 8 (fun s m r sp _ g =>
    if sp.kind ≠ 2 ∨ sp.chip = 0 ∨ m.src ≠ 0 ∨ m.tag ≠ 0 then none
    else match sp.pending with
      | none => some s
      | some p =>
        let s := s.sendRun sp 9 0 p.1 (natLE (g.n / 8) p.2)
        some (s.updSpan r.cmd (fun sp => { sp with sending := some p, pending := none }))))

/-- PART (R262, R263): a chip's part goes into the in-flight slot; the last part completes the gather. -/
def execPartMsg (s : State) : Host.Outcome State Fault Refusal :=
  .next (s.serveMsg 9 (fun s m r sp c g =>
    match sp.gather with
    | none => none
    | some q =>
      if sp.chip ≠ 0 ∨ m.tag ≠ q.1 ∨ m.src = 0 ∨ sp.cx * sp.cy ≤ m.src then none
      else
        let s := s.writeSpace (some c.job) spHbm 0 (partAddr sp g (sp.gathers % 2) m.src) (m.payload.take (g.n / 8))
        let s := s.updSpan r.cmd (fun sp => { sp with parts := if sp.parts.contains m.src then sp.parts else sp.parts ++ [m.src] })
        some (s.gatherGo r.cmd)))

/-! Rendezvous (R257 to R261, R295). -/

/-- Boundary k of a split lattice run is a rendezvous (R257). -/
def isRdv (b : List Byte) (k : Nat) : Bool := k == 0 || k % Nat.max (rbRdv b) 1 == 0 || k == rbSweeps b

/-- The rendezvous that is due on this chip: it has ended its sweep, and may be waiting in step 2 of R258. -/
def Run.rdvDue (r : Run) (g : Grist) : Option Nat :=
  match r.span with
  | none => none
  | some sp =>
    if sp.kind ≠ 2 ∨ (r.phase ≠ .sweeping ∧ r.phase ≠ .rendezvous) then none
    else if r.lastEnergies = [] ∧ r.sweep = 0 ∧ sp.reports.all (fun p => p.1 != sp.chip) then some 0
    else if r.sweepDone g ∧ isRdv r.block (r.sweep + 1) then some (r.sweep + 1)
    else none

/-- The rendezvous that the coordinator decides next: the only boundary whose REPORT fits (R246). -/
def Run.nextRdv (r : Run) : Nat :=
  let d := Nat.max (rbRdv r.block) 1
  if r.lastEnergies = [] then 0 else Nat.min (rbSweeps r.block) ((r.lastBoundary / d + 1) * d)

/-- A newer halo of a pair. -/
def newer (a b : Option (Nat × List Nat)) : Option (Nat × List Nat) :=
  match a, b with
  | some x, some y => if x.1 ≤ y.1 then b else a
  | none, y => y
  | x, none => x

/-- A partner with the halos that have arrived taken up. -/
def Partner.take (p : Partner) (a b : Bool) : Partner :=
  let p := if a then { p with haloA := newer p.haloA p.nextA, nextA := none } else p
  if b then { p with haloB := newer p.haloB p.nextB, nextB := none } else p

/-- The sweep count of the halo that a partner supplies. -/
def Partner.haloTag (p : Partner) : Option Nat := (if p.dir % 2 = 0 then p.haloA else p.haloB).map (·.1)

/-- The LOST bits of a list of chips. -/
def lostBits (l : List Nat) : Nat := l.foldl (fun a c => a ||| (1 <<< c)) 0

/-- The fields of a DECIDE before its rungs (Table 05-5): capture, stop with its cause, r*, and every chip declared lost. -/
def decideHead (sp : Span) (capture cause rStar : Nat) : List Byte :=
  natLE 1 capture ++ natLE 1 (b2n (cause != 0)) ++ natLE 1 rStar ++ natLE 1 cause ++ natLE 2 (lostBits sp.lost) ++ natLE 2 0

/-- Count what a boundary does: captures at every tun, and exchange tests and accepts at the lead. -/
def State.countBoundary (s : State) (r0 r1 : Run) (captured : Bool) : State :=
  let s := if captured then r0.tuns.foldl (fun s t => (s.bump (tunReg t Reg.TUN_CAPTURES) 1).tunEvent r0 t 0x0103 1) s else s
  (s.tunEvent r0 r0.lead 0x0104 (r1.exchAtt - r0.exchAtt)).tunEvent r0 r0.lead 0x0105 (r1.exchAcc - r0.exchAcc)

/-- The rung map of a run, padded. -/
def Run.rungBytes (r : Run) : List Byte := pad8 (r.rungs.flatMap (natLE 1))

/-- The coordinator decides once every live chip has reported its boundary (R259, R260, R275). -/
def State.tryDecide (s : State) (run : Nat) : State :=
  match s.run run with
  | none => s
  | some r =>
    match r.span, s.runCmd r, s.grist r.load with
    | some sp, some _, some g =>
      match sp.reports.find? (fun p => p.1 == 0) with
      | none => s
      | some own =>
        let k := own.2.1
        let ready := sp.chips.all (fun x => sp.lost.contains x || sp.reports.any (fun p => p.1 == x && p.2.1 == k))
        if r.phase ≠ .waitDecide ∨ sp.chip ≠ 0 ∨ !ready then s
        else
          let es := (List.range r.nr).map (fun i => sumInt (fun (p : Nat × Nat × List Int × Nat) => p.2.2.1.getD i 0) sp.reports)
          let cap := r.capture es k (fun i => r.bits.getD i 0)
          let r1 := cap.1
          let best := match r1.best with | some b => (b.1, b.2.2.2.1) | none => (0, 0)
          let cause := stopTest r.block g.offset k best.1 best.2
          let r2 := if cause = 0 then r1.exchange es k 0 else r1
          let sp := { sp with
            staleSum := sumOf (fun (p : Nat × Nat × List Int × Nat) => p.2.2.2) sp.reports
            reportTime := allOnes64
            pendingCap := if cap.2 then r1.best.map (fun b => (k, b.2.1, b.1, b.2.2.1)) else sp.pendingCap
            pending := if cap.2 then r1.best.map (fun b => (k, b.2.2.2.2)) else sp.pending }
          let rs := match r1.best with | some b => b.2.1 | none => 0
          let r2 := { r2 with span := some sp }
          let s := (s.updRun run (fun _ => r2)).countBoundary r r2 cap.2
          let s := if cap.2 then s.copyBest r else s
          let s := s.sendRun sp 7 0xFF k (decideHead sp (b2n cap.2) cause rs ++ r2.rungBytes)
          if cause ≠ 0 then s.finishRun r2 St.OK cause true false
          else (s.updRun run (fun r => { r with phase := .sweeping }.startSweep k s.gov.ccycles true)).gatherStart run
    | _, _, _ => s

/-- SWEEP_LAST_CYC and the lead tun's sweep count, at the end of a sweep. -/
def State.noteSweep (s : State) (r : Run) : State :=
  let n := Nat.min (s.gov.ccycles - r.sweepFrom) allOnes32
  (r.tuns.foldl (fun s t => s.wr (tunReg t Reg.TUN_SWEEP_LAST_CYC) n) s).tunEvent r r.lead 0x0102 1

/-- RENDEZVOUS (R258): with a fresh halo from every live partner, the chip evaluates its owned energies, sends REPORT
and waits for DECIDE; without one it waits in phase RENDEZVOUS. -/
def execRendezvous (run : Nat) (s : State) : Host.Outcome State Fault Refusal :=
  match s.run run with
  | none => .next s
  | some r =>
    match r.span, s.grist r.load with
    | some sp, some g =>
      match r.rdvDue g with
      | none => .next s
      | some k =>
        let ps := sp.partners.map (fun p => p.take true true)
        let late := fun (p : Partner) => !p.frozen && (match p.haloTag with | some t => decide (t < k) | none => true)
        if ps.any late then
          let ps := ps.map (fun p => { p with waitSince := if late p then p.waitSince.orElse (fun _ => some s.time) else none })
          .next (s.updRun run (fun r => { r with phase := .rendezvous, span := some { sp with partners := ps } }))
        else match s.markedTun r with
        | some t => .next (s.tunReads t)
        | none =>
          let s := r.tuns.foldl State.tunReads s
          let ps := ps.map (fun p => { p with waitSince := none })
          let sp := { sp with partners := ps }
          let r := { r with span := some sp }
          let es := (List.range r.nr).map (fun i => r.latEnergy g i)
          let stale := r.haloStale
          let sp := { sp with reports := (sp.reports.filter (fun p => p.1 != sp.chip)) ++ [(sp.chip, k, es, stale)], reportTime := s.time }
          let s := if k = 0 then s else s.noteSweep r
          let s := s.updRun run (fun _ => { r with span := some sp, phase := .waitDecide, energies := es, sweep := k })
          if sp.chip = 0 then .next (s.tryDecide run)
          else
            let pay := es.flatMap (fun e => natLE 16 (toTwos 128 e)) ++ natLE 8 stale ++ natLE 2 (lostBits sp.found) ++ natLE 6 0
            .next (s.sendRun sp 6 0 k pay)
    | _, _ => .next s

/-- A chip's REPORT of a boundary, or of a later one, is already in. -/
def Span.reportSeen (sp : Span) (src tag : Nat) : Bool := sp.reports.any (fun p => p.1 == src && decide (tag ≤ p.2.1))

/-- REPORT (R246, R259, R271): the coordinator takes a chip's partials of the rendezvous it decides next, declares the chips
it names lost, and decides when all are in. -/
def execReportMsg (s : State) : Host.Outcome State Fault Refusal :=
  .next (s.serveMsg 6 (fun s m r sp _ _ =>
    if sp.chip ≠ 0 ∨ sp.kind ≠ 2 ∨ m.src = 0 ∨ sp.cx * sp.cy ≤ m.src ∨ m.tag ≠ r.nextRdv ∨ sp.reportSeen m.src m.tag then none
    else
      let es := (List.range r.nr).map (fun i => sInt 128 (leAt m.payload (16 * i) 16))
      let stale := leAt m.payload (16 * r.nr) 8
      let lost := leAt m.payload (16 * r.nr + 8) 2
      let s := s.updSpan r.cmd (fun sp => { sp with reports := (sp.reports.filter (fun p => p.1 != m.src)) ++ [(m.src, m.tag, es, stale)] })
      let s := (sp.chips.filter (fun x => bit lost x && x != 0)).foldl (fun s x => s.declareLost r.cmd x) s
      some ((s.tryDecide r.cmd).gatherGo r.cmd)))

/-- REPORT_TIMEOUT (R271, R295): a chip whose REPORT has not come in time is declared lost. -/
def execReportTimeout (run chip : Nat) (s : State) : Host.Outcome State Fault Refusal :=
  match s.run run with
  | none => .next s
  | some r =>
    match r.span with
    | none => .next s
    | some sp =>
      let missing := sp.reports.all (fun p => p.1 != chip || decide (p.2.1 < r.sweep))
      if sp.chip ≠ 0 ∨ r.phase ≠ .waitDecide ∨ chip = 0 ∨ sp.cx * sp.cy ≤ chip ∨ sp.lost.contains chip ∨ !missing ∨
        sp.reportTime = allOnes64 ∨ s.time < sp.reportTime + 1000 * sp.rdvUs then .next s
      else .next (((s.declareLost run chip).tryDecide run).gatherGo run)

/-- DECIDE (R260, R274): the chips it names are lost; then capture, then stop, else the rung map and the next sweep. A split
window run has a DECIDE at its stop alone. -/
def execDecideMsg (s : State) : Host.Outcome State Fault Refusal :=
  .next (s.serveMsg 7 (fun s m r sp _ _ =>
    let p := m.payload
    let fits := if sp.kind = 3 then decide (leAt p 1 1 ≠ 0) else decide (r.phase = .waitDecide) && m.tag == r.sweep
    if sp.chip = 0 ∨ m.src ≠ 0 ∨ fits = false then none
    else
      let lost := leAt p 4 2
      let s := (sp.chips.filter (fun x => bit lost x && x != sp.chip)).foldl (fun s x => s.namedLost r.cmd x) s
      match s.run r.cmd with
      | none => some s
      | some r =>
        if sp.kind = 3 then some (s.finishRun r St.OK (leAt p 3 1) true false)
        else
        let s := if leAt p 0 1 = 1 then
            (r.tuns.foldl (fun s t => (s.bump (tunReg t Reg.TUN_CAPTURES) 1).tunEvent r t 0x0103 1) s).copyBest r else s
        let r := { r with
          rungs := (List.range r.nr).map (fun i => leAt p (8 + i) 1), lastBoundary := m.tag, lastEnergies := r.energies
          span := r.span.map (fun sp => { sp with
            reportTime := allOnes64
            pending := if leAt p 0 1 = 1 then some (m.tag, r.bits.getD (leAt p 2 1) 0) else sp.pending }) }
        let s := s.updRun r.cmd (fun _ => r)
        if leAt p 1 1 ≠ 0 then some (s.finishRun r St.OK (leAt p 3 1) true false)
        else some (s.updRun r.cmd (fun r => { r with phase := .sweeping }.startSweep m.tag s.gov.ccycles true))))

/-- DECIDE_TIMEOUT (R277): no DECIDE, GRANT or UPDATE in time after the last REPORT or RETURN. -/
def execDecideTimeout (run : Nat) (s : State) : Host.Outcome State Fault Refusal :=
  match s.run run with
  | none => .next s
  | some r =>
    match r.span, s.runCmd r, s.grist r.load with
    | some sp, some c, some g =>
      if sp.chip = 0 ∨ r.phase = .stopped ∨ r.phase = .joining ∨ sp.reportTime = allOnes64 ∨
        s.time < sp.reportTime + 1000 * sp.rdvUs then .next s
      else .next ((s.maskLost r 0).endSpan r c g St.PARTNER_LOST 0)
    | _, _, _ => .next s

/-! Halos (R252 to R256, R272, R273). -/

/-- A halo that ends the wait for a partner: under R255 any newer one, in step 2 of R258 a fresh one. -/
def Run.endsWait (r : Run) (p : Partner) (tag1 : Nat) : Bool :=
  if r.phase = .rendezvous then decide ((if r.lastEnergies = [] then 0 else r.sweep + 1) ≤ tag1)
  else match p.haloTag with
    | some t => decide (t < tag1)
    | none => true

/-- HALO (R254): a partner's halo arrives; it takes effect at the next phase, and may end a wait (R255, R258). -/
def execHaloMsg (s : State) : Host.Outcome State Fault Refusal :=
  .next (s.serveMsg 5 (fun s m r sp _ g =>
    match sp.partners.find? (fun p => p.link == m.link) with
    | none => none
    | some p =>
      let phase := m.flags % 2
      if sp.kind ≠ 2 ∨ m.src ≠ p.chip ∨ phase ≠ p.dir % 2 then none
      else
        let sz := bitsBytes (edgeCount g p.dir)
        let tag1 := lowBits (m.tag + 1) 32
        let h := some (tag1, (List.range r.nr).map (fun i => leAt m.payload (i * sz) sz))
        some (s.updSpan r.cmd (fun sp => { sp with partners := sp.partners.map (fun q =>
          if q.link == m.link ∧ q.frozen = false then
            let q := if r.endsWait q tag1 then { q with waitSince := none } else q
            if phase = 0 then { q with nextA := newer q.nextA h } else { q with nextB := newer q.nextB h }
          else q) }))))

/-- A phase of a sweep starts on a chip of a split lattice run (R253 to R256): arrived halos take effect; the chip waits
where a live partner's is too old, else a stale one is counted. The flag says that the phase may start. -/
def State.haloStart (s : State) (r : Run) (sp : Span) (ph : Nat) : State × Bool :=
  let ps := sp.partners.map (fun p => p.take (ph == 1) (ph == 0))
  let fresh := if ph = 0 then r.sweep else r.sweep + 1
  let used := fun (p : Partner) => p.dir % 2 == 1 - ph
  let tooOld := fun (p : Partner) => match p.haloTag with | some t => decide (t + sp.maxLag < fresh) | none => true
  let waits := fun (p : Partner) => used p && !p.frozen && tooOld p
  if ps.any waits then
    let ps := ps.map (fun p => if waits p then { p with waitSince := p.waitSince.orElse (fun _ => some s.time) } else p)
    (s.updSpan r.cmd (fun sp => { sp with partners := ps }), false)
  else
    let ps := ps.map (fun p => if used p then { p with waitSince := none } else p)
    let stale := ps.any (fun p => used p && (p.frozen || p.haloTag != some fresh))
    let s := s.updRun r.cmd (fun r => { r with
      span := some { sp with partners := ps }, haloStale := r.haloStale + b2n stale })
    (if stale then (s.bump64 (tunReg r.lead Reg.TUN_HALO_STALE_LO) 1).tunEvent r r.lead 0x0107 1 else s, true)

/-- This chip finds a partner lost; the coordinator declares it lost at once, and goes on without it (R271 to R275). -/
def State.partnerLost (s : State) (run chip : Nat) : State :=
  let s := s.foundLost run chip
  match (s.run run).bind (·.span) with
  | some sp => if sp.chip = 0 then ((s.declareLost run chip).tryDecide run).gatherGo run else s
  | none => s

/-- HALO_WAIT_TIMEOUT (R273): the chip stops waiting for a partner, freezes its halo and names it in later reports. -/
def execHaloWaitTimeout (run dir : Nat) (s : State) : Host.Outcome State Fault Refusal :=
  match s.run run with
  | none => .next s
  | some r =>
    match (r.span.map (fun sp => (sp, sp.partners.find? (fun p => p.dir == dir)))) with
    | some (sp, some p) =>
      match p.waitSince with
      | none => .next s
      | some t =>
        if r.phase = .stopped ∨ s.time < t + 1000 * sp.rdvUs then .next s
        else .next (s.partnerLost run p.chip)
    | _ => .next s

/-- A link stops carrying the messages of the runs that name it (R271, R272, R955). -/
def State.linkLost (s : State) (link : Nat) : State :=
  s.tun.runs.foldl (fun s r =>
    match r.span with
    | none => s
    | some sp =>
      match sp.partners.find? (fun p => p.link == link) with
      | none => s
      | some p =>
        if r.phase = .stopped then s else s.partnerLost r.cmd p.chip) s

/-! Window leases (R265 to R270, R293, R294). -/

/-- The spins of an entry meet those of a held lease. -/
def State.leaseClash (s : State) (region : Nat) (r : Run) (sp : Span) (entry : Nat) : Bool :=
  let mine := s.entrySpins region r entry
  sp.leases.any (fun l => (s.entrySpins region r l.2.1).any (fun i => mine.contains i))

/-- Grant visits while a chip is idle and an entry is free (R265, R266). -/
def State.grantAll (region run : Nat) : Nat → State → State
  | 0, s => s
  | n + 1, s =>
    match s.run run with
    | none => s
    | some r =>
      match r.span with
      | none => s
      | some sp =>
        match sp.chips.find? (fun c => sp.idle.contains c) with
        | none => s
        | some chip =>
          let nw := Nat.max (s.nWindows r) 1
          let cands := sp.requeue ++ (List.range nw).map (fun i => sp.nextVisit + i)
          match cands.find? (fun v => decide (v < 0xFFFFFFFF) && !s.leaseClash region r sp (v % nw)) with
          | none => s
          | some v =>
            let leaseEnd := s.time + 1000 * sp.rdvUs
            let skipped := (List.range (v - sp.nextVisit)).map (fun i => sp.nextVisit + i)
            let sp := { sp with
              requeue := (if sp.requeue.contains v then sp.requeue.filter (fun x => x != v) else sp.requeue ++ skipped)
              nextVisit := if sp.requeue.contains v then sp.nextVisit else v + 1
              idle := sp.idle.filter (fun x => x != chip), leases := sp.leases ++ [(v, v % nw, chip, leaseEnd)]
              granted := if chip = 0 then r.rungs else sp.granted }
            let r := { r with span := some sp, phase := if chip = 0 then .switching else r.phase }
            let s := s.updRun run (fun _ => r)
            let s := if chip = 0 then s
              else s.sendRun sp 0x0A chip v (natLE 2 (v % nw) ++ natLE 6 0 ++ natLE 8 leaseEnd ++ r.rungBytes)
            State.grantAll region run n s

/-- GRANT (R266): a chip takes a lease and the rung map, and begins the switch. -/
def execGrantMsg (s : State) : Host.Outcome State Fault Refusal :=
  .next (s.serveMsg 0x0A (fun s m r sp _ _ =>
    if sp.kind ≠ 3 ∨ sp.chip = 0 ∨ m.src ≠ 0 ∨ r.phase ≠ .waitGrant then none
    else
      let p := m.payload
      let rungs := (List.range r.nr).map (fun i => leAt p (16 + i) 1)
      let sp := { sp with leases := [(m.tag, leAt p 0 2, sp.chip, leAt p 8 8)], granted := rungs, reportTime := allOnes64 }
      some (s.updRun r.cmd (fun r => { r with span := some sp, phase := .switching, rungs := rungs }))))

/-- Set a window's bits of one state. -/
def setWindow (spins : List Nat) (vals st : Nat) : Nat :=
  (spins.zip (List.range spins.length)).foldl (fun st e =>
    if bit st e.1 = bit vals e.2 then st else Nat.xor st (1 <<< e.1)) st

/-- Window bits of a state, packed in window order. -/
def packWindow (spins : List Nat) (st : Nat) : Nat :=
  (spins.zip (List.range spins.length)).foldl (fun a e => a + (b2n (bit st e.1) <<< e.2)) 0

/-- The exact change of energy from one state to another over the rows of the changed spins (R267). -/
def State.rowsDelta (s : State) (region : Nat) (g : Grist) (spins : List Nat) (old new : Nat) : Int :=
  ((spins.filter (fun i => bit old i != bit new i)).foldl (fun (a : Int × Nat) i =>
    let row := match s.rowPtr region g i with
      | none => []
      | some p => (s.rowEntries region g p.1 p.2).getD []
    let f := s.rowH g i + sumInt (fun (e : Nat × Int) => e.2 * spinOf (bit a.2 e.1)) row
    (a.1 - 2 * spinOf (bit a.2 i) * f, Nat.xor a.2 (1 <<< i))) (0, old)).1

/-- Write a capture's state into the best slot of the work area (R241). -/
def State.storeBest (s : State) (r : Run) (c : Command) (n : Nat) : State :=
  match r.best with
  | none => s
  | some b => s.writeSpace (some c.job) spHbm 0 (s.workAddr r + r.nr * stateBytes n) (natLE (stateBytes n) b.2.2.2.2)

/-- The coordinator applies a returned window: a boundary of the run (R267, R268), whose exchange takes the visit's number as
counter word x3 (Table 03-6). A visit that the coordinator itself sweeps goes on with its own states. -/
def State.applyReturn (s : State) (r : Run) (sp : Span) (c : Command) (g : Grist) (visit entry chip : Nat) (vals : List Nat) : State :=
  let spins := s.entrySpins c.region r entry
  let olds := s.storedStates r g.n
  let news := (List.range r.nr).map (fun i => setWindow spins (vals.getD i 0) (olds.getD i 0))
  let es := (List.range r.nr).map (fun i => r.energies.getD i 0 + s.rowsDelta c.region g spins (olds.getD i 0) (news.getD i 0))
  let k := sp.applied + 1
  let cap := { r with energies := es }.capture es k (fun i => news.getD i 0)
  let best := match cap.1.best with | some b => (b.1, b.2.2.2.1) | none => (0, 0)
  let none_left := decide (0xFFFFFFFF ≤ sp.nextVisit) && sp.requeue == []
  let test := stopTest r.block g.offset k best.1 best.2
  let cause := if test = 0 && none_left then 1 else test
  let r2 := if cause = 0 then cap.1.exchange es k visit else cap.1
  let sp := { sp with applied := k, leases := sp.leases.filter (fun l => l.1 != visit), idle := sp.idle ++ [chip] }
  let r2 := { r2 with span := some sp }
  let s := ((s.updRun r.cmd (fun _ => r2)).countBoundary r r2 cap.2).storeStates { r2 with bits := news } (some c.job) g.n
  let s := if cap.2 then s.storeBest r2 c g.n else s
  let sz := bitsBytes spins.length
  let s := s.sendRun sp 0x0C 0xFF visit (natLE 2 entry ++ natLE 6 0 ++ vals.flatMap (natLE sz) ++ r2.rungBytes)
  if cause ≠ 0 then (s.sendRun sp 7 0xFF k (decideHead sp 0 cause 0 ++ r2.rungBytes)).finishRun r2 St.OK cause true false
  else State.grantAll c.region r.cmd 16 s

/-- RETURN (R267, R269, R293, R294): the coordinator applies a window that reached it before its lease end; a later one is
discarded and its entry goes back to the order. -/
def execReturnMsg (s : State) : Host.Outcome State Fault Refusal :=
  .next (s.serveMsg 0x0B (fun s m r sp c g =>
    if sp.kind ≠ 3 ∨ sp.chip ≠ 0 then none
    else match sp.leases.find? (fun l => l.1 == m.tag && l.2.2.1 == m.src) with
      | none => some (State.grantAll c.region r.cmd 16 (s.updSpan r.cmd (fun sp => { sp with
          idle := if sp.idle.contains m.src then sp.idle else sp.idle ++ [m.src] })))
      | some l =>
        let entry := leAt m.payload 0 2
        if entry ≠ l.2.1 then none
        else if l.2.2.2 ≤ m.arrival then
          some (State.grantAll c.region r.cmd 16 (s.updSpan r.cmd (fun sp => { sp with
            leases := sp.leases.filter (fun x => x.1 != m.tag), requeue := sp.requeue ++ [m.tag], idle := sp.idle ++ [m.src] })))
        else
          let sz := bitsBytes (s.entrySpins c.region r entry).length
          some (s.applyReturn r sp c g m.tag entry m.src ((List.range r.nr).map (fun i => leAt m.payload (8 + i * sz) sz)))))

/-- LEASE_END (R266, R269): a lease that has ended with no RETURN received in time; the entry goes back to the order. -/
def execLeaseEnd (run visit : Nat) (s : State) : Host.Outcome State Fault Refusal :=
  match s.run run with
  | none => .next s
  | some r =>
    match r.span, s.runCmd r with
    | some sp, some c =>
      match sp.leases.find? (fun l => l.1 == visit) with
      | none => .next s
      | some l =>
        let inTime := s.tun.inbox.any (fun (m : RunMsg) =>
          m.kind == 0x0B && m.span == sp.spanId && m.tag == visit && m.src == l.2.2.1 && s.msgWhole m && decide (m.arrival < l.2.2.2))
        if sp.chip ≠ 0 ∨ r.phase = .stopped ∨ s.time < l.2.2.2 ∨ inTime then .next s
        else .next (State.grantAll c.region run 16 (s.updSpan run (fun sp => { sp with
          leases := sp.leases.filter (fun x => x.1 != visit), requeue := sp.requeue ++ [visit] })))
    | _, _ => .next s

/-- UPDATE (R267, R270): a chip applies returned window bits to its state store copy and takes the rung map. -/
def execUpdateMsg (s : State) : Host.Outcome State Fault Refusal :=
  .next (s.serveMsg 0x0C (fun s m r sp c g =>
    if sp.kind ≠ 3 ∨ sp.chip = 0 ∨ m.src ≠ 0 then none
    else
      let entry := leAt m.payload 0 2
      let spins := s.entrySpins c.region r entry
      let sz := bitsBytes spins.length
      let olds := s.storedStates r g.n
      let news := (List.range r.nr).map (fun i => setWindow spins (leAt m.payload (8 + i * sz) sz) (olds.getD i 0))
      let s := s.storeStates { r with bits := news } (some c.job) g.n
      let rungs := (List.range r.nr).map (fun i => leAt m.payload (8 + r.nr * sz + i) 1)
      some (s.updRun r.cmd (fun r => { r with rungs := rungs, span := some { sp with reportTime := allOnes64 } }))))

/-- A chip has swept a leased visit (R266): it returns the window bits; the coordinator applies its own. -/
def State.visitDone (s : State) (r : Run) (sp : Span) (c : Command) (g : Grist) (v : Visit) : State :=
  let vals := (List.range r.nr).map (fun i => packWindow v.spins (r.bits.getD i 0))
  if sp.chip = 0 then
    let r := { r with phase := .waitGrant }
    let s := s.updRun r.cmd (fun _ => r)
    if sp.leases.any (fun l => l.1 == v.number && l.2.2.1 == 0 && decide (s.time < l.2.2.2)) then
      s.applyReturn r sp c g v.number v.entry 0 vals
    else
      let held := sp.leases.any (fun l => l.1 == v.number && l.2.2.1 == 0)
      State.grantAll c.region r.cmd 16 (s.updSpan r.cmd (fun sp => { sp with
        leases := sp.leases.filter (fun x => x.1 != v.number), idle := sp.idle ++ [0]
        requeue := if held then sp.requeue ++ [v.number] else sp.requeue }))
  else
    let sz := bitsBytes v.spins.length
    let sp := { sp with leases := [], reportTime := s.time }
    let s := s.updRun r.cmd (fun r => { r with phase := .waitGrant, span := some sp })
    s.sendRun sp 0x0B 0 v.number (natLE 2 v.entry ++ natLE 6 0 ++ vals.flatMap (natLE sz))

end Sys2Proof.Machine
end

