-- ==== Sys2Proof/Machine/Sweep.lean ====
section
/-! DEFINITION. The anneal commands LOAD, RUN and LOAD_RUN, and the sweeps: lattice phases, dense class steps, end
markers, the flip queues and the boundaries (spec/03 R126 to R164, spec/04 R173 to R196). -/

namespace Sys2Proof.Machine

/-! Waking (R708). -/

/-- A tun that a start claims in the MCLK cycle in which it would enter lull does not enter it (R719). -/
def State.unlull (s : State) (t : Nat) : State :=
  if s.gov.lullNow.contains t then s.updTun t (fun x => if x.lull = .lull then { x with lull := .awake } else x) else s

/-- Begin to wake a tun: 256 CCLK cycles from lull, and 2,000 ns and a sparge of 4,096 cycles from lull-off. Cycles count
at the ratio in force: 0.625 ns each at code 0 times the divider over 4. -/
def State.wakeTun (s : State) (t : Nat) : State :=
  let s := s.unlull t
  let cyc := fun (n : Nat) => ceilDiv (n * 625 * cclkDiv s.ratio) 20000 * 5
  s.updTun t (fun x => match x.lull with
    | .lull => { x with lull := .waking false (s.time + cyc 256) }
    | .off => { x with lull := .waking true (s.time + 2000 + cyc 4096) }
    | _ => x)

/-- Some tun of a list is not awake; the sleeping ones begin to wake. -/
def State.anyAsleep (s : State) (ts : List Nat) : Bool := ts.any (fun t => decide ((s.tunSt t).lull ≠ .awake))

/-! LOAD and LOAD_RUN (R108 to R110, R173, R176). -/

/-- What reading a kiln counts. -/
def State.noteKiln (s : State) (c : Command) (kiln : List Byte) : State :=
  if c.armed || rbDefaultKiln c.block then s
  else s.noteRead (some c.job) (rbKilnSpace c.block) (rbKiln c.block) kiln.length

/-- The load of a LOAD or LOAD_RUN begins: steps 1 to 5 of R108 and R1152, then the body streams. The command keeps the kiln that
step 2 has validated. A window image's header is read in whatever space the block names (log 137). -/
def State.beginLoad (s : State) (c : Command) (kiln : List Byte) : State :=
  let b := c.block
  let rungs := leAt kiln 5 1
  match s.readSpace c.region c.func (rbGristSpace b) (rbGrist b) 128 with
  | none => s.annealBad c (headOf b none rungs) badMem
  | some h =>
    match firstBad (s.headerChecks c.region b h) with
    | some e => s.annealBad c (headOf b none rungs) e
    | none =>
      let g := parseGrist c.id b h
      match firstBad (s.gristDependent c.region b g) with
      | some e => s.annealBad c (headOf b (some g) rungs) e
      | none =>
        match if rbKind b = 1 ∨ rbKind b = 3 then s.listDefect c.region b (stateBytes g.n) else none with
        | some e => s.annealBad c (headOf b (some g) rungs) e
        | none =>
          if s.anyAsleep (rbTuns b) then (rbTuns b).foldl State.wakeTun s
          else
            let s := s.noteRead (some c.job) (rbGristSpace b) (rbGrist b) 128
            let s := { s with tun := { s.tun with grists := s.tun.grists ++ [g] } }
            let s := (rbTuns b).foldl (fun s t => s.updTun t (fun x => { x with loading := true })) s
            (s.updCmd c.id (fun c => { c with phase := .running, began := s.time, kiln := kiln })).await c.id
              (if rbGristSpace b = spHost then g.bodyBytes else 0)

/-- The defects of a dense body in stream order (step 6 of R108): the H padding, the colours and their padding, then each
row's values and its padding. -/
def denseBodyChecks (g : Grist) : List (Bool × Bad) :=
  let pb := precBytes g.prec
  let nz := fun (off n : Nat) => !allZero (bodyAt g.body off n)
  let hEnd := denseH g.n g.prec
  let hPad := [(nz (g.n * pb) (hEnd - g.n * pb), badRsvd)]
  let col := if g.coloured then
      ((List.range g.n).map (fun i => (decide (g.ncol ≤ g.colour i), badGrist 0x0A))) ++
      [(nz (hEnd + g.n) (pad64 g.n - g.n), badRsvd)]
    else []
  let rows := (List.range g.n).flatMap (fun i =>
    let conflicts := if g.coloured then
        [((List.range g.n).any (fun j => decide (i < j) && g.colour i == g.colour j && g.denseJ i j != 0), badGrist 9)]
      else []
    let len := (g.n - 1 - i) * pb
    conflicts ++ [(nz (rowOff g.n g.prec g.coloured i + len) (rowBytes g.n g.prec i - len), badRsvd)])
  hPad ++ col ++ rows

/-- Steps 6 and 7 of R108 over a streamed body. -/
def bodyDefect (g : Grist) (body : List Byte) : Option Bad :=
  firstBad ((if g.mode = 2 then denseBodyChecks g else []) ++ [(g.mode != 3 && g.bodyCrc != crc32c body, badGrist 6)])

/-- Grist that no tun and no run names is forgotten. -/
def State.sweepGrists (s : State) : State :=
  { s with tun := { s.tun with grists := s.tun.grists.filter (fun g =>
      s.tun.tuns.any (fun t => t.2.load == some g.id) || s.tun.runs.any (fun r => r.load == g.id) ||
      s.cmds.any (fun c => c.id == g.id && decide (c.phase = .running))) } }

/-- Every arm slot whose rectangle equals a completed load's recomputes its T_first (R594). -/
def State.recomputeArms (s : State) (b : List Byte) (g : Grist) : State :=
  { s with queues := s.queues.map (fun q => (q.1, { q.2 with arms := q.2.arms.map (fun a => (a.1, a.2.map (fun x =>
      if (x.block.drop 8).take 4 = (b.drop 8).take 4 then { x with tFirst := runTFirst x.block g } else x))) })) }

/-! Runs begin (R174 to R181, R226, R229). -/


/-- A new run of a command over grist g, its kiln's bytes, its replicas' bits and its seed. -/
def State.newRun (s : State) (c : Command) (g : Grist) (kiln : List Byte) (bits : List Nat) (seed : Nat) (drawn : Bool) : Run :=
  let b := c.block
  let rungs := leAt kiln 5 1
  let sp := newSpan b
  { cmd := c.id, phase := if sp.isSome then .joining else .sweeping, x0 := rbX0 b, y0 := rbY0 b, x1 := rbX1 b, y1 := rbY1 b
    load := g.id, block := b, stages := (List.range (leAt kiln 6 1)).map (kilnStage kiln rungs), kilnCrc := leAt kiln 0x1C 4
    nr := rbReplicas b, nRungs := rungs, seed := seed, seedDrawn := drawn, stop := c.stop
    startTime := if sp.isSome then 0 else s.time, sweep := 0
    bits := bits, energies := [], rungs := (List.range (rbReplicas b)).map (fun r => r % Nat.max rungs 1), best := none
    lastMin := 0, lastBoundary := 0, lastEnergies := [], exchAtt := 0, exchAcc := 0, rungAtt := [], rungAcc := [], flips := 0
    phases := [], steps := [], pendFlips := [], pendMarks := [], seen := [], applying := [], sweepFrom := s.gov.ccycles
    runFrom := s.gov.ccycles, stopAsked := none, atGap := false, visit := none, span := sp, haloStale := 0 }

/-- No status: the command waits for its draw, which the end of the cycle serves (R852). -/
abbrev drawWait : Nat := 0x10000

/-- Steps 4 and 5 of R176: the replicas' bits and the seed, or the status that ends the command. -/
def State.statesAndSeed (s : State) (c : Command) (g : Grist) : State × Except Nat (List Nat × Nat × Bool) :=
  let b := c.block
  let split := rbKind b == 2 || rbKind b == 3
  match if rbInit b = 0 then .ok [] else s.readStates c g with
  | .error st => (s, .error st)
  | .ok vs =>
    let n := (if rbInit b = 1 then 1 else rbReplicas b) * stateBytes (problemSpins b g)
    let s := if rbInit b = 0 then s else s.noteRead (some c.job) (rbInitSpace b) (rbInitAddr b) n
    let fin := fun (s : State) (seed : Nat) (drawn : Bool) =>
      let bits := if rbInit b = 0 && !split then (List.range (rbReplicas b)).map (randomState seed (indexBase b g) g.n) else vs
      (s, Except.ok (bits, seed, drawn))
    if split && rbChip b != 0 then fin s 0 false
    else if rbSeedGiven b then fin s (rbSeed b) false
    else match s.tun.drawn with
      | some (id, r) => if id ≠ c.id then (s, .error drawWait) else match r with
        | none => (s, .error St.NOT_READY)
        | some seed => fin s seed true
      | none => (s, .error drawWait)

/-- A command asks for its seed (R852). -/
def State.askDraw (s : State) (cmd : Nat) : State :=
  if s.tun.draws.contains cmd then s else { s with tun := { s.tun with draws := s.tun.draws ++ [cmd] } }

/-- Clear a lead tun's span registers for a new run. -/
def State.clearSpanRegs (s : State) (t : Nat) : State :=
  [Reg.TUN_SPAN_ERR, Reg.TUN_LOST_MASK, Reg.TUN_COMPLETE_BND, Reg.TUN_HALO_STALE_LO, Reg.TUN_HALO_STALE_LO + 4,
    Reg.TUN_HALO_WAIT_LO, Reg.TUN_HALO_WAIT_LO + 4, Reg.TUN_WIN_SERIAL, Reg.TUN_DROPPED_MSG].foldl (fun s a => s.wr (tunReg t a) 0) s

/-- A run starts on its tuns: it replaces the last run of its lead tun, and its tuns write its first states. A split run sends its
JOIN (R247); a window run puts its states into the state store. -/
def State.beginRun (s : State) (c : Command) (g : Grist) (kiln : List Byte) (bits : List Nat) (seed : Nat) (drawn : Bool) : State :=
  let r := s.newRun c g kiln bits seed drawn
  let s := { s with tun := { s.tun with runs := (s.tun.runs.filter (fun (x : Run) => x.lead != r.lead || x.phase != RunPhase.stopped)) ++ [r] } }
  let s := r.tuns.foldl (fun s t =>
    ((s.updTun t (fun x => { x with lead := some r.lead, ssMark := 0, bestMark := 0 })).tunStores t (fun x n => { x with ssMark := n })).wr
      (tunReg t Reg.TUN_SPAN_ERR) 0) s
  let s := (s.clearSpanRegs r.lead).updCmd c.id (fun c => { c with
    phase := .running, began := if c.began = allOnes64 then s.time else c.began, kiln := kiln })
  let s := s.tunEvent r r.lead 0x0106 1
  match r.span with
  | none => if rbKind c.block = 1 then s.storeStates r (some c.job) g.n else s
  | some sp => if sp.chip = 0 then s else s.sendRun sp 1 0 0 (joinPayload r g)

/-- RUN's own part: the held grist, the initial states, the seed, and the start (R174, R391). -/
def State.startHeld (s : State) (c : Command) (kiln : List Byte) : State :=
  let b := c.block
  if s.anyAsleep (rbTuns b) then (rbTuns b).foldl State.wakeTun s
  else match s.rectGrist b with
    | none => s.annealBad c (headOf b none (leAt kiln 5 1)) (badRun 6)
    | some g =>
      let u := s
      let s := s.noteKiln c kiln
      match s.statesAndSeed c g with
      | (s, .error st) => if st = drawWait then u.askDraw c.id else s.annealBad c (headOf b (some g) (leAt kiln 5 1)) (badSt st)
      | (s, .ok x) => s.beginRun c g kiln x.1 x.2.1 x.2.2

/-- A command of an earlier issue still stands before c: one of the same core that has not reached the tun array (R482), or one of
the same job whose tuns overlap (R116). The list of commands is in issue order. -/
def State.tunBehind (s : State) (c : Command) : Bool :=
  (s.cmds.takeWhile (fun (x : Command) => x.id != c.id)).any (fun x =>
    x.engine == .tun && decide (x.phase = .issued) &&
    ((x.core.isSome && x.core.map (·.1) == c.core.map (·.1) && x.block == []) ||
      (x.job == c.job && (rbTuns x.block).any (fun t => (rbTuns c.block).contains t))))

/-- An anneal command is validated and begins (R173, R176). One whose tuns a load streams into waits for that load (R116). -/
def State.annealIssue (s : State) (c : Command) : State :=
  if (firstBad (s.blockChecks c.region c.block)).isNone && (rbTuns c.block).any (fun t => (s.tunSt t).loading) then s
  else match s.annealSteps c with
  | .error e => s.annealBad c e.2 e.1
  | .ok kiln =>
    if (rbTuns c.block).any (fun t => (s.tunSt t).gw.isSome) then s
    else if rbOp c.block = 2 then s.startHeld c kiln else (s.noteKiln c kiln).beginLoad c kiln

/-- The anneal command of a number, issued and not begun, with none before it that it must follow. -/
def State.issuedTun (s : State) (cmd : Nat) : Option Command :=
  match s.cmd cmd with
  | some c => if c.engine = .tun ∧ c.phase = .issued ∧ c.block ≠ [] ∧ s.tunBehind c = false then some c else none
  | none => none

/-- LOAD (R173): grist is loaded and no run starts. -/
def execLoadCmd (cmd : Nat) (s : State) : Host.Outcome State Fault Refusal :=
  match s.issuedTun cmd with
  | none => .next s
  | some c => if rbOp c.block = 1 then .next (s.annealIssue c) else .next s

/-- RUN (R174): an anneal of the grist that the rectangle holds. A block with a reserved OP is refused here. -/
def execRunCmd (cmd : Nat) (s : State) : Host.Outcome State Fault Refusal :=
  match s.issuedTun cmd with
  | none => .next s
  | some c => if rbOp c.block = 1 ∨ rbOp c.block = 3 then .next s else .next (s.annealIssue c)

/-- LOAD_RUN (R173): a load, then a run over it. -/
def execLoadRun (cmd : Nat) (s : State) : Host.Outcome State Fault Refusal :=
  match s.issuedTun cmd with
  | none => .next s
  | some c => if rbOp c.block = 3 then .next (s.annealIssue c) else .next s

/-- The tuns of a rectangle hold load id whole, or keep what they held. -/
def State.commitLoad (s : State) (b : List Byte) (id : Nat) : State :=
  (rbTuns b).foldl (fun s t => (s.updTun t (fun x => { x with
    load := some id, loading := false, idleSince := s.time, csMark := 0 })).tunStores t (fun x n => { x with csMark := n })) s

/-- LOAD_COMPLETE (R108, R110, R177, R213, R594): the body has streamed in. A defect of steps 6 and 7 leaves every target
tun without grist; a failure of steps 4 and 5 leaves the tuns as they were. -/
def execLoadComplete (cmd : Nat) (s : State) : Host.Outcome State Fault Refusal :=
  match s.cmd cmd, s.grist cmd with
  | some c, some g =>
    let b := c.block
    if c.engine ≠ .tun ∨ c.phase ≠ .running ∨ (s.run cmd).isSome ∨ rbOp b = 2 then .next s
    else
      let kiln := c.kiln
      let u := s
      let h := headOf b (some g) (leAt kiln 5 1)
      let s := (s.noteRead (some c.job) (rbGristSpace b) (rbGrist b + 128) g.bodyBytes).arrived cmd
      match s.readSpace c.region c.func (rbGristSpace b) (rbGrist b + 128) g.bodyBytes with
      | none => .next ((s.dropLoad b).annealBad c h badMem).sweepGrists
      | some body =>
        let g := { g with body := body.toArray }
        match bodyDefect g body with
        | some e => .next ((s.dropLoad b).annealBad c h e).sweepGrists
        | none =>
          let s := s.updGrist cmd (fun _ => g)
          if rbOp b = 1 then
            let s := ((s.commitLoad b cmd).recomputeArms b g).sweepGrists
            .next (s.endCmd cmd (s.annealRefusal c h St.OK 0 0))
          else match s.statesAndSeed c g with
            | (s, .error st) => if st = drawWait then .next (u.askDraw cmd) else
              let s := (rbTuns b).foldl (fun s t => s.updTun t (fun x => { x with loading := false, idleSince := s.time })) s
              .next (s.annealBad c h (badSt st)).sweepGrists
            | (s, .ok x) => .next ((((s.commitLoad b cmd).recomputeArms b g).beginRun c g kiln x.1 x.2.1 x.2.2).sweepGrists)
  | _, _ => .next s

/-- The place of a command's draw in its cycle: the gust lane's, then by 16 · y + x of the lead tun (R852). -/
def State.drawPlace (s : State) (cmd : Nat) : Nat :=
  match s.cmd cmd with
  | none => 0
  | some c => (if ((s.job c.job).map (·.gust)).getD false then 0 else 128) + 16 * rbY0 c.block + rbX0 c.block

/-- One draw of 8 bytes is served, and its command goes on. -/
def State.serveDraw (s : State) (cmd : Nat) : State :=
  match s.cmd cmd with
  | none => s
  | some c =>
    if c.engine ≠ .tun ∨ (s.run cmd).isSome ∨ (c.phase ≠ .issued ∧ c.phase ≠ .running) then s
    else
      let d := s.drawSeed
      let s := { d.1 with tun := { d.1.tun with drawn := some (cmd, d.2) } }
      let s := if c.phase = .issued then s.annealIssue c else match execLoadComplete cmd s with | .next t => t | _ => s
      { s with tun := { s.tun with drawn := none } }

/-- The draws of an MCLK cycle (R852). -/
def State.drawStep (s : State) : State :=
  (sortBy (fun a b => decide (s.drawPlace a < s.drawPlace b)) s.tun.draws).foldl State.serveDraw { s with tun := { s.tun with draws := [] } }

/-! Decisions (R126 to R139, R182, R183). -/

/-- β of a replica in the sweep in progress: in a leased visit by the granted rung map (R266). -/
def Run.beta (r : Run) (rep : Nat) : Nat :=
  let rungs := if r.leased then (match r.visit with | some v => v.rungs | none => r.rungs) else r.rungs
  (ladderFor r.stages r.sweep).getD (rungs.getD rep 0) 0

/-- The visit number that counter word x3 takes. -/
def Run.x3 (r : Run) : Nat := match r.visit with | some v => v.number | none => 0

/-- A decision of a spin whose problem index is i: its energy difference, where it flips. -/
def Run.verdict (r : Run) (rep i : Nat) (up : Bool) (field : Int) : Option Int :=
  let dE := -2 * spinOf up * field
  if metropolis (r.beta rep) dE (noiseWord r.seed i (lowBits r.sweep 32) 0 rep r.x3) then some dE else none

/-- Apply accepted flips, by replica, spin and energy difference (R139). The energies of a split window run change when a
visit is applied (R267). -/
def Run.applyFlips (r : Run) (fs : List (Nat × Nat × Int)) : Run :=
  fs.foldl (fun r f => { r with
    bits := r.bits.set f.1 (Nat.xor (r.bits.getD f.1 0) (1 <<< f.2.1))
    energies := if r.leased then r.energies else r.energies.set f.1 (r.energies.getD f.1 0 + f.2.2), flips := r.flips + 1 }) r

/-- Count a tun's decisions and flips (Table 03-9, Table 19-6). -/
def State.countDecisions (s : State) (r : Run) (t decisions flips : Nat) : State :=
  let s := (s.bump64 (tunReg t Reg.TUN_DECISIONS_LO) decisions).bump64 (tunReg t Reg.TUN_FLIPS_LO) flips
  (s.tunEvent r t 0x0100 decisions).tunEvent r t 0x0101 flips

/-- The tiles whose phase 0 must have ended before tile m's phase 1, and for its phase 0 nothing: its own, and those to
the east, north and north-east, which hold the A spins its B spins couple to. -/
def phaseNeeds (g : Grist) (m : Nat) : List Nat :=
  let x := m % g.tx
  let y := m / g.tx
  [m] ++ (if x + 1 < g.tx then [m + 1] else []) ++ (if y + 1 < g.ty then [m + g.tx] else []) ++
    (if x + 1 < g.tx ∧ y + 1 < g.ty then [m + g.tx + 1] else [])

/-- Phases of the sweep that tun number m has ended. -/
def Run.phaseOf (r : Run) (m : Nat) : Nat := Tab.get (fun _ => 0) r.phases m

/-- One phase of one tun (R128, R129): every spin of a sublattice of its tile, for every replica. -/
def Run.latticeDecisions (r : Run) (g : Grist) (m sub : Nat) : List (Nat × Nat × Int) :=
  (List.range r.nr).flatMap (fun rep => (tilePoints g (m % g.tx) (m / g.tx)).filterMap (fun p =>
    let i := g.latIndex sub p.1 p.2.1 p.2.2
    (r.verdict rep (indexBase r.block g + i) (r.bitOf rep i) (r.latField g rep sub p.1 p.2.1 p.2.2)).map (fun dE => (rep, i, dE))))

/-- The tun number of a tun of the run (R92). -/
def Run.numberOf (r : Run) (tun : Nat) : Nat := (r.tuns.takeWhile (fun t => t != tun)).length

/-- LATTICE_PHASE (R128, R129, R252 to R256): a tun of a lattice run decides its next phase, once the tiles it couples to
have decided theirs and, on a split run, the chip's halos allow the phase to start. Between rendezvous a split run goes
from sweep to sweep. -/
def execLatticePhase (run tun : Nat) (s : State) : Host.Outcome State Fault Refusal :=
  match s.run run with
  | none => .next s
  | some r =>
    match s.grist r.load with
    | none => .next s
    | some g =>
      let m := r.numberOf tun
      let ph := r.phaseOf m
      let ready := ph = 0 || (phaseNeeds g m).all (fun x => decide (1 ≤ r.phaseOf x))
      if r.phase ≠ .sweeping ∨ g.mode ≠ 1 ∨ !r.tuns.contains tun ∨ 2 ≤ ph ∨ !ready ∨ (r.boundaryDue g).isSome && r.span.isNone ∨
        (r.rdvDue g).isSome then .next s
      else
        let first := (List.range r.count).all (fun x => decide (r.phaseOf x ≤ ph))
        let h := match r.span with
          | some sp => if first then s.haloStart r sp ph else (s, true)
          | none => (s, true)
        if h.2 = false then .next h.1
        else
          let s := h.1.tunReads tun
          match s.run run with
          | none => .next s
          | some r =>
            if r.phase = .stopped then .next s
            else
              let fs := r.latticeDecisions g m ph
              let r := { r.applyFlips fs with phases := Tab.put (fun _ => 0) m (ph + 1) r.phases, atGap := false }
              let s := (s.updRun run (fun _ => r)).countDecisions r tun (r.nr * g.wl * 16384) fs.length
              let s := if fs = [] then s else s.tunStores tun (fun x n => { x with ssMark := n })
              let ended := (List.range r.count).all (fun x => decide (ph + 1 ≤ r.phaseOf x))
              match r.span with
              | none => .next s
              | some sp =>
                let s := if ended then s.sendHalos r sp g ph (r.sweep + 1) else s
                if ended && ph == 1 && !isRdv r.block (r.sweep + 1) then
                  .next ((s.noteSweep r).updRun run (fun r => r.startSweep (r.sweep + 1) s.gov.ccycles false))
                else .next s

/-! Dense sweeps (R130 to R132, R152 to R155, R1154, R1155). -/

/-- Class steps that tun number m has decided for a replica. -/
def Run.stepsOf (r : Run) (m rep : Nat) : Nat := Tab.get (fun _ => 0) r.steps (64 * m + rep)

/-- Tun number m may decide class c for a replica (R1154): it has every end marker of the earlier classes, and has applied
every flip before them. -/
def Run.classReady (r : Run) (g : Grist) (m rep c : Nat) : Bool :=
  (List.range r.count).all (fun src =>
    decide (((r.tunClasses g src).filter (fun x => decide (x < c))).length ≤ Tab.get (fun _ => 0) r.seen (64 * (128 * m + src) + rep))) &&
  r.pendFlips.all (fun f => !(f.dst == m && f.replica == rep && decide (f.cls < c)))

/-- Home spins of tun number m: V_t. -/
def Run.homes (r : Run) (g : Grist) (m : Nat) : Nat := countWhere (fun i => i % r.count == m) (List.range (r.dn g))

/-- One multicast packet from a tun to the other tuns of a run (R1154, R733). -/
def State.multicast (s : State) (r : Run) (region : Nat) (job src : Nat) (item : McItem) : State :=
  let mask := (r.tuns.filter (fun t => t != src)).foldl (fun a t => a ||| (1 <<< t)) 0
  if mask = 0 then s
  else { s with mem := { s.mem with
    packets := s.mem.packets ++ [{ id := s.mem.nextPacket, cls := .mc, region := some region, src := src, dst := 0, mask := mask
                                   flits := 1, job := some job, item := some item, loc := 256 + src, escape := false, port := 4
                                   since := s.gov.ccycles }]
    nextPacket := s.mem.nextPacket + 1 } }

/-- DENSE_CLASS_STEP (R1154): a tun makes its decisions of its next class for a replica, and multicasts the accepted flips
and one end marker. -/
def execDenseClassStep (run tun replica : Nat) (s : State) : Host.Outcome State Fault Refusal :=
  match s.run run with
  | none => .next s
  | some r =>
    match s.grist r.load, s.runCmd r with
    | some g, some c =>
      if r.phase ≠ .sweeping ∨ g.mode = 1 ∨ !r.tuns.contains tun ∨ r.nr ≤ replica then .next s
      else
      let m := r.numberOf tun
      let done := r.stepsOf m replica
      match (r.tunClasses g m)[done]? with
      | none => .next s
      | some cl =>
        if (r.boundaryDue g).isSome ∨ !r.classReady g m replica cl then .next s
        else if 2 ≤ (s.tunSt tun).csMark ∨ 2 ≤ (s.tunSt tun).ssMark then .next (s.tunReads tun)
        else
          let s := s.tunReads tun
          let mem := r.members g m cl
          let fs := mem.filterMap (fun l =>
            let i := r.spinIdx l
            (r.verdict replica i (r.bitOf replica i) (r.denseField g m replica l)).map (fun dE => (l, i, dE)))
          let r1 := r.applyFlips (fs.map (fun f => (replica, f.2.1, f.2.2)))
          let dsts := List.range r.count
          let pf := fs.flatMap (fun f => (dsts.filter (fun d => decide (r.homes g d ≠ 0))).map (fun d =>
            { dst := d, src := m, cls := cl, replica := replica, spin := f.1, arrived := d == m : PendFlip }))
          let pm := (dsts.filter (fun d => d != m)).map (fun d =>
            { dst := d, src := m, cls := cl, replica := replica, arrived := false : PendMark })
          let r1 := { r1 with
            steps := Tab.put (fun _ => 0) (64 * m + replica) (done + 1) r1.steps
            seen := Tab.upd (fun _ => 0) (64 * (128 * m + m) + replica) (· + 1) r1.seen
            pendFlips := r1.pendFlips ++ pf, pendMarks := r1.pendMarks ++ pm, atGap := false }
          let s := (s.updRun run (fun _ => r1)).countDecisions r tun mem.length fs.length
          let s := if fs = [] then s else s.tunStores tun (fun x n => { x with ssMark := n })
          let s := fs.foldl (fun s f => s.multicast r c.region c.job tun (.flip run replica cl f.1 tun)) s
          .next (s.multicast r c.region c.job tun (.marker run replica cl tun))
    | _, _ => .next s

/-- END_MARKER (R1154, R1155): a tun counts the oldest end marker that has arrived from a home tun, both by tun
number. -/
def execEndMarker (run dst src : Nat) (s : State) : Host.Outcome State Fault Refusal :=
  match s.run run with
  | none => .next s
  | some r =>
    let d := r.numberOf dst
    let m := r.numberOf src
    match findIdx (fun (p : PendMark) => p.dst == d && p.src == m && p.arrived) r.pendMarks with
    | none => .next s
    | some i =>
      let rep := match r.pendMarks[i]? with | some p => p.replica | none => 0
      .next (s.updRun run (fun r => { r with
        pendMarks := r.pendMarks.eraseIdx i
        seen := Tab.upd (fun _ => 0) (64 * (128 * d + m) + rep) (· + 1) r.seen }))

/-- The order of a flip queue (R154): oldest class step first, then the lowest replica. Class steps of different replicas compare by
their class, of which the lower comes first in a sweep (log 138). -/
def flipBefore (a b : PendFlip) : Bool := decide (a.cls < b.cls) || (a.cls == b.cls && decide (a.replica < b.replica))

/-- Flips that tun number m applies in this cycle, and the flip under way after it with its cycles left (R152, R153): one that
has begun runs to its end. -/
def Run.flipCycle (r : Run) (g : Grist) (m : Nat) : List PendFlip × Option (PendFlip × Nat) :=
  let q := sortBy flipBefore (r.pendFlips.filter (fun f => f.dst == m && f.arrived))
  let v := r.homes g m
  let up := 8192 / precBits g.prec
  let cyc := ceilDiv v up
  match Tab.get (fun _ => none) r.applying m with
  | some (f, left) => if left ≤ 1 then ([f], none) else ([], some (f, left - 1))
  | none => match q with
    | [] => ([], none)
    | f :: _ => if cyc ≤ 1 then (q.take (Nat.min 8 (up / Nat.max v 1)), none) else ([], some (f, cyc - 1))

/-- FLIP_APPLY (R152 to R155): one CCLK cycle of a tun's flip queue. A flip under way waits in the queue until its last cycle
(log 139). -/
def execFlipApply (run tun : Nat) (s : State) : Host.Outcome State Fault Refusal :=
  match s.run run with
  | none => .next s
  | some r =>
    match s.grist r.load with
    | none => .next s
    | some g =>
      if r.phase ≠ .sweeping ∨ !r.tuns.contains tun then .next s
      else
        let m := r.numberOf tun
        let x := r.flipCycle g m
        let rest := r.pendFlips.filter (fun f => !x.1.contains f)
        let r1 := { r with pendFlips := rest, applying := Tab.put (fun _ => none) m x.2 r.applying }
        let s := s.updRun run (fun _ => r1)
        if rest.any (fun f => f.dst == m && f.arrived) then
          .next ((s.bump64 (tunReg tun Reg.TUN_CSRAM_RD_SAT_LO) 1).tunEvent r tun 0x0141 1)
        else .next s

/-! Boundaries (R140 to R145, R193 to R195, R240, R241, R266). -/

/-- E(s) of every replica at boundary 0 (R140, R240). -/
def State.initialEnergies (s : State) (r : Run) (c : Command) (g : Grist) : List Int :=
  (List.range r.nr).map (fun i =>
    if g.mode = 1 then r.latEnergy g i else if g.mode = 2 then g.denseEnergy (r.bits.getD i 0)
    else s.windowEnergy c.region g (r.bits.getD i 0))


/-- The boundary work of a run on one chip, or of the coordinator's boundary 0 of a split window run (R193). A stop that was
asked for once the sweep had ended in every tun lets the boundary finish with its exchange (R162, R219; log 140). -/
def State.boundaryWork (s : State) (r : Run) (c : Command) (g : Grist) (k : Nat) (es : List Int) : State :=
  let visit := r.x3
  let cap := { r with energies := es }.capture es k (fun i => r.bits.getD i 0)
  let best := match cap.1.best with | some b => (b.1, b.2.2.2.1) | none => (0, 0)
  let cause := stopTest r.block g.offset k best.1 best.2
  let r2 := if cause = 0 then cap.1.exchange es k visit else cap.1
  let s := (s.updRun r.cmd (fun _ => r2)).countBoundary r r2 cap.2
  let s := if cap.2 then (if g.mode = 3 then s.storeBest r2 c g.n else s.copyBest r) else s
  let s := if k = 0 then s else s.noteSweep r
  if cause ≠ 0 then
    let s := match r.span with
      | some sp => s.sendRun sp 7 0xFF k (decideHead sp 0 cause 0 ++ r2.rungBytes)
      | none => s
    s.finishRun r2 St.OK cause true false
  else match r2.stopAsked with
    | some st => s.finishRun r2 st (stopCauseOf st) true false
    | none =>
      match r.span with
      | some sp =>
        let sp := { sp with idle := sp.chips.filter (fun x => !sp.lost.contains x) }
        State.grantAll c.region r.cmd 16 (s.updRun r.cmd (fun r => { r with phase := .waitGrant, span := some sp }))
      | none =>
        if g.mode ≠ 3 then s.updRun r.cmd (fun r => r.startSweep k s.gov.ccycles true)
        else match r2.visit with
          | none => s.updRun r.cmd (fun r => { r with phase := .switching, sweep := k, atGap := true })
          | some v =>
            if v.dwell ≤ v.swept + 1 then
              (s.storeStates r2 (some c.job) g.n).updRun r.cmd (fun r => { r with phase := .switching, sweep := k, atGap := true })
            else s.updRun r.cmd (fun r => { r with visit := some { v with swept := v.swept + 1 } }.startSweep k s.gov.ccycles true)

/-- SWEEP_BOUNDARY (R193): boundary 0, or the boundary at the end of a sweep. A leased visit has no boundary of its own:
its sweeps follow one another, and its end returns the window (R266). The boundaries of a split lattice run are its
rendezvous (R257). -/
def execSweepBoundary (run : Nat) (s : State) : Host.Outcome State Fault Refusal :=
  match s.run run with
  | none => .next s
  | some r =>
    match s.runCmd r, s.grist r.load with
    | some c, some g =>
      match r.boundaryDue g with
      | none => .next s
      | some k =>
        match s.markedTun r, r.span with
        | some t, _ => .next (s.tunReads t)
        | none, none =>
          let s := r.tuns.foldl State.tunReads s
          if k = 0 then
            if g.mode = 3 ∧ (s.arraysFaulty g ∨ s.arraysOutside c.region g) then .next (s.windowDefect r c g badMem)
            else .next (s.boundaryWork r c g 0 (s.initialEnergies r c g))
          else .next (s.boundaryWork r c g k r.energies)
        | none, some sp =>
          if sp.kind = 2 then .next s
          else match r.visit with
            | none =>
              if k ≠ 0 then .next s
              else if s.arraysFaulty g ∨ s.arraysOutside c.region g then .next (s.windowDefect r c g badMem)
              else .next (s.boundaryWork r c g 0 (s.initialEnergies r c g))
            | some v =>
              let s := s.noteSweep r
              if v.dwell ≤ v.swept + 1 then .next (s.visitDone r sp c g v)
              else .next (s.updRun run (fun r => { r with visit := some { v with swept := v.swept + 1 } }.startSweep (r.sweep + 1) s.gov.ccycles false))
    | _, _ => .next s

/-- PHX_GO (R160): the tun page's own generator computes R158 into PHX_OUT; a write of 0 does nothing. -/
def effectPhxGo (_p : Path) (tun : Nat) (v : Word) (s : State) : Host.Outcome State Fault Refusal :=
  if 128 ≤ tun ∨ bit v.toNat 0 = false then .next s
  else
    let a := fun (o : Nat) => s.rg (tunReg tun o)
    let key := s.rg64 (tunReg tun Reg.TUN_PHX_KEY_LO)
    let out := philox key (a Reg.TUN_PHX_CTR_0) (a (Reg.TUN_PHX_CTR_0 + 4)) (a (Reg.TUN_PHX_CTR_0 + 8)) (a (Reg.TUN_PHX_CTR_0 + 12))
    .next ((List.range 4).foldl (fun s i => s.wr (tunReg tun (Reg.TUN_PHX_OUT_0 + 4 * i)) (out.getD i 0)) s)

end Sys2Proof.Machine
end

