-- ==== Sys2Proof/Machine/EngineApi.lean ====
section
/-! DEFINITION. What the host interface, the dispatcher and the cores ask of the engines: the checks and the first-result
times of their blocks at take-up, refusals, and the deadlines of commands (R47, R48, R55, R587 to R592, R1156). -/

namespace Sys2Proof.Machine

/-- The argument of a program job fits local memory by itself (R468). -/
def argFits (n : Nat) : Bool := decide (n ≤ 524288)

/-- Kiln bytes of a run block for an ARM's T_first: the header and the stages that the block cannot tell are read later, so
0 with DEFAULT_KILN (Table 11-2). -/
def State.runKilnBytes (s : State) (region func : Nat) (b : List Byte) : Nat :=
  if rbDefaultKiln b then 0 else match s.kilnRead region func b with
    | .ok t => t.length
    | .error _ => 0

/-- The space and size of a block's result area. -/
def blockResult (e : Engine) (b : List Byte) : Nat × Nat :=
  match e with
  | .tun => (rbResSpace b, rbResultBytes b)
  | .solver => (svResSpace b, svResultBytes b)
  | .predictor => (pbResSpace b, pbResultBytes b)
  | .planner => (plSpace b 4, plResultBytes b)

def runBlockResult (b : List Byte) : Nat × Nat := blockResult .tun b

/-- DEADLINE of an engine block. -/
def blockDeadline (e : Engine) (b : List Byte) : Nat :=
  match e with
  | .tun => leAt b 0x58 8
  | .solver => leAt b 0x70 8
  | .predictor => leAt b 0x48 8
  | .planner => leAt b 0x70 8

/-- The invalid status of an engine, with its reason ADDR (R556). -/
def engineAddrBad (e : Engine) : Nat × Nat :=
  match e with
  | .tun => (St.RUN_INVALID, 8)
  | .solver => (St.SOLVE_INVALID, 7)
  | .predictor => (St.PRED_INVALID, 8)
  | .planner => (St.PLAN_INVALID, 6)

/-- A command's defect at take-up (R588, R1156): the block's fields, and for LOAD and LOAD_RUN the grist header by steps 1
to 5 of R108. -/
def State.takeUpDefect (s : State) (c : Command) : Option Bad :=
  let b := c.block
  match c.engine with
  | .tun =>
    match firstBad (s.blockChecks c.region b) with
    | some e => some e
    | none =>
      if rbOp b = 2 then none
      else match s.readSpace c.region c.func (rbGristSpace b) (rbGrist b) 128 with
        | none => some badMem
        | some h => firstBad (s.headerChecks c.region b h)
  | .solver => firstBad (s.svBlockChecks c.region b)
  | .predictor => (let sh := s.pbShape c; firstBad (s.pbChecks c.region b sh.1 sh.2))
  | .planner => firstBad (s.plChecks c)

/-- A command refused for a defect, with the header-only result that R212 allows. -/
def State.refuseCmd (s : State) (c : Command) (e : Bad) : State :=
  match c.engine with
  | .tun => s.annealBad c (s.headKnown c) e
  | .solver => s.svRefuse c e.status e.reason 0
  | .predictor => s.prRefuse c e.status e.reason 0
  | .planner => s.plRefuse c e.status e.reason 0

/-- T_first of a command now (R55, R587, R1156). -/
def State.cmdTFirst (s : State) (c : Command) : Nat :=
  let b := c.block
  match c.engine with
  | .tun =>
    if rbOp b = 2 then ((s.rectGrist b).map (runTFirst b)).getD 0
    else match s.readSpace c.region c.func (rbGristSpace b) (rbGrist b) 128 with
      | none => 0
      | some h => runTFirst b (parseGrist c.id b h)
  | .solver => svTFirst b
  | .predictor => s.pbTFirst c
  | .planner => s.plTFirst c

/-- T_first counts bytes read from host memory (R589). -/
def State.cmdHostBytes (s : State) (c : Command) : Bool :=
  let b := c.block
  match c.engine with
  | .tun => rbOp b != 2 && rbGristSpace b == spHost
  | .solver => decide (0 < hostLen (svArrays b))
  | .predictor => pbInSpace b == spHost
  | .planner =>
    (plSpace b 2 == spHost) || (plSpace b 3 == spHost && plNUpd b != 0) || ((s.gridFor c).isNone && plSpace b 0 == spHost) ||
    ((s.tableFor c).isNone && plSpace b 1 == spHost) || (plRepair b && (s.plPrevArea c).space == spHost)

/-- An arm slot's T_first (R594). -/
def State.armTFirst (s : State) (b : List Byte) : Nat := ((s.rectGrist b).map (runTFirst b)).getD 0

/-- The checks of ARM (R591, R592): step 1 of R176 without its tun checks, the kinds of block that arm, and step 2. The
answer is a status and reason, or the kiln's bytes. -/
def State.armCheck (s : State) (region func : Nat) (b : List Byte) : Except (Nat × Nat) (List Byte) :=
  match firstBad (s.blockChecks region b) with
  | some e => .error (e.status, e.reason)
  | none =>
    if rbOp b ≠ 2 ∨ rbInit b ≠ 0 ∨ rbKind b ≠ 0 then .error (St.DESC_INVALID, 9)
    else match s.kilnStep region func b with
      | .error e => .error (e.status, e.reason)
      | .ok t => .ok t

/-- bs with new bytes at an offset. -/
def splice (bs : List Byte) (off : Nat) (new : List Byte) : List Byte := bs.take off ++ new ++ bs.drop (off + new.length)

/-- The armed run block with a FIRE's overrides (R593), and its RUN_CRC formed again. -/
def fireBlock (b d : List Byte) : List Byte :=
  let fl := leAt d 1 1
  let b := splice b 0x58 ((d.drop 0x38).take 8)
  let b := if bit fl 0 then splice (splice b 0x38 ((d.drop 0x48).take 8)) 7 (natLE 1 (leAt b 7 1 ||| 1)) else b
  let b := if bit fl 1 then splice b 0x34 ((d.drop 0x50).take 4) else b
  let b := if bit fl 2 then
      splice (splice (splice b 0x28 ((d.drop 0x28).take 8)) 0x30 ((d.drop 0x30).take 4)) 0x0E
        (natLE 2 (setFld (leAt b 0x0E 2) 7 6 (fld (leAt d 4 2) 5 4)))
    else b
  splice b 0x7C (natLE 4 (crc32c (b.take 0x7C)))

/-- The deadline of a command of a program job (R48): its block's, unless that is later than the job's engine stop time. -/
def cmdDeadline (block jobStop : Nat) : Nat := Nat.min block jobStop

/-- A command's stop time (R51 to R53). -/
def cmdStop (e : Engine) (b : List Byte) (deadline : Nat) : Nat :=
  let r := blockResult e b
  stopTime deadline engineMargin (allowance r.1 r.2)

/-- Commands of an engine that wait to enter its queue or stand in it. -/
def State.engineWaiting (s : State) (e : Engine) : Nat :=
  countWhere (fun (c : Command) => decide (c.engine = e) && (decide (c.phase = .issued) || decide (c.phase = .queued))) s.cmds

/-- A region's commands on an engine, queued and running (R639, R752). -/
def State.engineHeld (s : State) (e : Engine) (region : Nat) : Nat :=
  countWhere (fun (c : Command) => decide (c.engine = e) && c.region == region) s.cmds

/-- An engine's queue has room, and the region its quota (R331, R639, R752). -/
def State.engineRoom (s : State) (e : Engine) (region : Nat) : Bool :=
  decide (s.engineWaiting e < 16) && decide (s.engineHeld e region < s.quota region e)

end Sys2Proof.Machine
end

