-- ==== Sys2Proof/Machine/CoreBase.lean ====
section
/-! DEFINITION. The cores as the rest of the K16 meets them: their registers, tags and stores, the stops that reach a program
job, the end of a job, transfers, and the stops of commands and jobs (spec/09_gnomos_cores.md R456 to R529, spec/01 R49, R62). -/

namespace Sys2Proof.Machine

def State.core (s : State) (k : Nat) : Core := Tab.get (fun _ => Core.reset) s.gnm.cores k
def State.setCore (s : State) (k : Nat) (c : Core) : State :=
  { s with gnm := { s.gnm with cores := Tab.put (fun _ => Core.reset) k c s.gnm.cores } }
def State.updCore (s : State) (k : Nat) (f : Core → Core) : State := s.setCore k (f (s.core k))

/-- The page of a core, and its event source. -/
def pgGnm (k : Nat) : Nat := pageIdx .gnomos k
def coreEv (c : Core) (k : Nat) : EvSource := { inst := some k, region := if c.job.isSome then some c.region else none }

/-- A register by the model's number: s0 reads 0 and p0 reads 1 (R453, R454). -/
def Core.reg (c : Core) (r : Nat) : Nat := if r = 0 then 0 else if r = 96 then 1 else Tab.get (fun _ => 0) c.regs r

/-- Write a register, ready from a CCLK cycle on: writes to s0 and p0 are ignored, and a later bundle's write prevails over
an atomic's pending result (R453, R454, R457). -/
def Core.setReg (c : Core) (r v readyAt : Nat) : Core :=
  if r = 0 ∨ r = 96 then c
  else { c with
    regs := Tab.put (fun _ => 0) r v c.regs, ready := Tab.put (fun _ => 0) r readyAt c.ready
    sb := c.sb.map (fun e => if e.dest = some r then { e with dest := none } else e) }

/-- ip as csr.r reads it: TIMER reads 1 while TIME ≥ timecmp. -/
def Core.ipNow (c : Core) (time : Nat) : Nat := c.ip + (if c.timecmp ≤ time then 4 else 0)
/-- Sources pending for an interrupt or a wait.i: TIMER as last evaluated (R560). -/
def Core.pendingSources (c : Core) : Nat := (c.ip + (if c.timer then 4 else 0)) &&& c.ie

/-- TIMER evaluated against TIME at a CCLK cycle, once a written timecmp counts (R560). -/
def Core.timerAt (c : Core) (time at_ : Nat) : Core := if c.timerFrom ≤ at_ then { c with timer := decide (c.timecmp ≤ time) } else c

/-- CCLK edges in an MCLK cycle of 32 root cycles, and the root cycles left over: none while the PLL is not locked, in
the gap of Table 13-4, and after a thermal shutdown (R1131). -/
def State.cclkEdges (s : State) : Nat × Nat :=
  if s.gov.locked = false ∨ s.gov.gapEnd.isSome ∨ s.boot.shutdown then (0, 0)
  else ((s.gov.rootPhase + 32) / cclkDiv s.ratio, (s.gov.rootPhase + 32) % cclkDiv s.ratio)

/-- The first CCLK cycle of the next MCLK cycle: what happens in the present one happens before it. -/
def State.cycleLimit (s : State) : Nat := s.gov.ccycles + s.cclkEdges.1

/-- The job's halt time H (R50), all-ones where it has no deadline. -/
def haltTimeOf (j : Job) : Nat := if j.deadline = allOnes64 then allOnes64 else j.deadline - j.allowance

/-- A special register as core c reads it in a CCLK cycle (Table 09-5, R557). -/
def State.csr (s : State) (c : Core) (k now n : Nat) : Nat :=
  let j := c.job.bind s.job
  let d := (j.map (·.deadline)).getD allOnes64
  match n with
  | 0x00 => c.status | 0x01 => c.cause | 0x02 => c.tval | 0x03 => c.epc | 0x04 => c.tvec | 0x05 => c.ie
  | 0x06 => c.ipNow s.time
  | 0x07 => b2n c.engOrder + (c.sb.length <<< 8)
  | 0x08 => s.time
  | 0x09 => now - c.cycle0
  | 0x0A => c.timecmp | 0x0B => c.stopcause | 0x0C => k | 0x0D => c.region
  | 0x0E => d
  | 0x0F => (j.map (·.stop)).getD allOnes64
  | 0x10 => (j.map haltTimeOf).getD allOnes64 | 0x11 => c.argAddr | 0x12 => c.argBytes
  | 0x13 => (j.map (fun j => leAt j.desc 0x28 8)).getD 0
  | 0x14 => (j.map (fun j => fld (leAt j.desc 4 2) 5 4 + (leAt j.desc 0x30 4 <<< 32))).getD 0
  | 0x15 => c.jobret
  | 0x16 => sumOf (fun t => match Tab.get (fun _ => none) c.tags t with
      | some (x : CoreTag) => if x.ended.isSome then 1 <<< t else 0
      | none => 0) (List.range 16)
  | _ => 0

/-- A special register written in a CCLK cycle (Table 09-5): reserved bits are ignored. A source of ip that becomes set in the same
cycle stays pending (R558), and a timecmp counts from the following cycle (R560). -/
def Core.csrWrite (c : Core) (now n v : Nat) : Core :=
  match n with
  | 0x00 => { c with status := v &&& 7 }
  | 0x01 => { c with cause := v &&& 0x80000000000000FF }
  | 0x02 => { c with tval := v }
  | 0x03 => { c with epc := v }
  | 0x04 => { c with tvec := v - v % 64 }
  | 0x05 => { c with ie := v &&& 7 }
  | 0x06 =>
    let clears := (if c.engSet < now then 1 else 0) + (if c.stopSet < now then 2 else 0)
    { c with ip := c.ip - (c.ip &&& (v &&& clears)) }
  | 0x07 => { c with engOrder := bit v 0 }
  | 0x0A => { c with timecmp := v, timerFrom := now + 1 }
  | 0x15 => { c with jobret := v &&& 0xFFFF0001 }
  | _ => c

/-- The mark key of a word of a core's local memory. -/
def lmMark (k w : Nat) : Nat := markKey (memKey 1 k) w

/-- A word of local memory with a single-bit error is corrected (GNM_LM_CE, R774). -/
def State.lmCorrect (s : State) (k w : Nat) : State :=
  if s.mark (lmMark k w) = 1 then
    let s := (s.bump (gnmReg k Reg.GNM_LM_CE) 1).raiseErr (pgGnm k) 0x0601 w
    { s with mem := { s.mem with writeBacks := s.mem.writeBacks ++ [lmMark k w] } }
  else s

/-- Words of a core's local memory from w0 on are written whole, with fresh check bits, or the first with the armed injection (R1051). -/
def State.lmFresh (s : State) (k w0 n : Nat) : State :=
  if n = 0 then s
  else
    let inj := Tab.get (fun _ => 0) s.mem.inject (pgGnm k)
    let lo := lmMark k w0
    let marks := Tab.keep (fun key _ => decide (key < lo) || decide (lo + n ≤ key)) s.mem.marks
    { s with mem := { s.mem with
      inject := Tab.put (fun _ => 0) (pgGnm k) 0 s.mem.inject
      marks := if inj = 0 then marks else Tab.put (fun _ => 0) lo inj marks } }

/-- A core's local memory is zero with valid check bits (R787, R788, R528, R529). -/
def State.spargeLm (s : State) (k : Nat) : State :=
  { s with mem := { s.mem with marks := Tab.keep (fun key _ => key >>> 40 != memKey 1 k) s.mem.marks } }.updCore k (fun c => { c with lmem := [] })

/-! Tags (R472, R476, R481). -/

def Core.tag (c : Core) (t : Nat) : Option CoreTag := if 16 ≤ t then none else Tab.get (fun _ => none) c.tags t
def Core.setTag (c : Core) (t : Nat) (x : Option CoreTag) : Core := { c with tags := Tab.put (fun _ => none) t x c.tags }
def Core.freeTag (c : Core) : Option Nat := (List.range 16).find? (fun t => (c.tag t).isNone)
def Core.tagsHeld (c : Core) : Nat := c.tags.length

/-- A held tag's command or transfer has ended with a status: ENG_DONE becomes pending (R481). -/
def State.tagEnd (s : State) (k t status : Nat) : State :=
  s.updCore k (fun c => match c.tag t with
    | some x => { c.setTag t (some { x with ended := some status }) with ip := c.ip ||| 1, engSet := Nat.max s.gov.ccycles c.nextIssue }
    | none => c)

/-! Stops of commands (R62, R65, R479). -/

/-- A command comes to its end with the status of a stop or a fault, as its engine gives it: valid tells whether its best result may
stand, halt that its program is halted and awaits nothing (R491). -/
def State.endCommandAs (s : State) (c : Command) (status : Nat) (valid halt : Bool) : State :=
  match c.engine with
  | .tun => s.stopTun c status halt
  | .solver => s.stopSolver c status valid
  | .predictor => s.stopPred c status valid
  | .planner => s.stopPlan c status valid

/-- A stop with a status reaches a command that has not ended. A command that its engine has not taken yet meets its deadline there,
once its block has been checked (R65, R333). -/
def State.stopCommand (s : State) (id status : Nat) : State :=
  match s.cmd id with
  | none => s
  | some c =>
    if c.phase = .ended ∨ (status = St.DEADLINE ∧ c.phase ≠ .running) then s else s.endCommandAs c status true false

/-- A fault with a status reaches a command, also one that a stop has ended and whose result is not yet visible (R66, R72). -/
def State.faultCommand (s : State) (id status : Nat) : State :=
  match s.cmd id with
  | none => s
  | some c => if s.faultable id then s.endCommandAs c status false false else s

/-- The commands of a job that have not ended. -/
def State.jobCommands (s : State) (e : Nat) : List Nat :=
  (s.cmds.filter (fun (c : Command) => c.job == e && decide (c.phase ≠ .ended))).map (·.id)

/-! The end of a program job (R485 to R491, R495, R517, R526, R529). -/

/-- Bytes that a transfer moves per ns (R475). -/
def Transfer.rate (t : Transfer) : Nat := if t.srcSpace = spHost ∨ t.dstSpace = spHost then 16 else 64


/-- The bytes of a stopped transfer that have reached their destination: what its rate has moved since it began. The rest is no
longer awaited. -/
def State.partTransfer (s : State) (c : Core) (t : Transfer) : State :=
  match t.start with
  | none => s
  | some t0 =>
    let n := Nat.min t.len (t.rate * (s.time - t0))
    let s := if t.srcSpace = spHost then s.backlogLess t.len else s
    let s := s.noteRead c.job t.srcSpace t.src n
    match s.readSpace c.region c.func t.srcSpace t.src n with
    | none => s
    | some bs => s.writeSpace c.job t.dstSpace c.func t.dst bs

/-- No pool entry: the job of a command that its job has discarded. -/
abbrev noJob : Nat := 0x100000000

/-- The core is free of its job: tags, transfers and stores are gone, and local memory is sparged (R529). -/
def State.releaseCore (s : State) (k : Nat) : State :=
  let s := { s with cmds := s.cmds.map (fun (c : Command) => match c.core with | some (j, _) => (if j = k then { c with core := none, job := noJob } else c) | none => c) }
  s.updCore k (fun c => { Core.reset with
    phase := .sparging, failed := c.failed, lull := c.lull, idleSince := s.time, spargeEnd := s.gov.ccycles + 512 })

/-- The job of a halting core ends once its transfers have ended, its held commands have been stopped and have ended, and
its store buffer has drained (R485, R517). -/
def State.haltStep (s : State) (k : Nat) : State :=
  let c := s.core k
  match c.ending, c.job with
  | some e, some j =>
    if c.transfers ≠ [] then s
    else
      let s := (s.jobCommands j).foldl (fun s i => s.askStop (.command i) St.CANCELLED) s
      if c.sb ≠ [] ∨ s.cmds.any (fun (x : Command) => x.job == j) then s
      else (s.finishJob j e.1 (e.2 && bit c.jobret 0) 0 0 (fld c.jobret 31 16)).releaseCore k
  | _, _ => s

/-- The program of core k ends with a status (R485, R495, R526): RESULT_VALID comes from jobret only after a halt. -/
def State.endProgram (s : State) (k status : Nat) (byHalt : Bool) : State :=
  let c := s.core k
  if c.ending.isSome ∨ c.job.isNone then s
  else (s.updCore k (fun c => { c with phase := .halting, ending := some (status, byHalt), stall := none })).haltStep k

/-- The status that stopcause names (R487, R491). -/
def stopStatus (cause : Nat) : Nat :=
  if cause = 2 then St.ENERGY_CEILING else if cause = 3 then St.CANCELLED else St.DEADLINE

/-- The halt time comes with the program still running (R491, R515): the store buffer is discarded, the transfers stop, and so do the
held commands, which write nothing. A command that has ended before writes its result (R68). -/
def State.haltNow (s : State) (k : Nat) : State :=
  let c := s.core k
  match c.job with
  | none => s
  | some j =>
    let s := c.transfers.foldl (fun s t => s.partTransfer c t) s
    let ids := s.jobCommands j
    let s := ids.foldl (fun s i => match s.cmd i with
      | some x => s.endCommandAs x (stopStatus c.stopcause) true true
      | none => s) s
    let s := { s with cmds := s.cmds.map (fun (x : Command) =>
      if ids.contains x.id then { x with ending := x.ending.map (fun (e : CmdEnd) => { e with writes := [] }) } else x) }
    (s.finishJob j (stopStatus c.stopcause) false 0 0 (fld c.jobret 31 16)).releaseCore k

/-- STOP becomes pending with a cause (R488 to R490). A cancel or an energy-ceiling stop lowers the halt time. -/
def State.stopProgram (s : State) (k cause : Nat) : State :=
  let reserve := (((s.core k).job.bind s.job).map (fun j => leAt j.desc 0x40 4)).getD 0
  s.updCore k (fun c =>
    if c.ending.isSome then c
    else
      let c := if c.stopcause = 0 then { c with stopcause := cause, ip := c.ip ||| 2, stopSet := Nat.max s.gov.ccycles c.nextIssue } else c
      if cause = 1 then c else { c with haltTime := Nat.min c.haltTime (s.time + reserve) })

/-! Stops of jobs (R49, R62, R66, R489, R611, R630). -/

/-- The core of a job. -/
def State.jobCore (s : State) (e : Nat) : Option Nat := (List.range 8).find? (fun k => (s.core k).job == some e)

/-- A stop with a status reaches a started job. -/
def State.stopJob (s : State) (e status : Nat) : State :=
  match s.job e with
  | none => s
  | some j =>
    if j.phase ≠ .running then s
    else
      let s := s.updJob e (fun j => j.noteStop status)
      let s := (s.jobCommands e).foldl (fun s i => s.stopCommand i status) s
      match j.kind, s.jobCore e with
      | .program, some k =>
        s.stopProgram k (if status = St.DEADLINE then 1 else if status = St.ENERGY_CEILING then 2 else 3)
      | _, _ => s

/-- A fault ends a job: a waiting one at once, a started one through its commands or its core. A command that a stop has ended and
whose result is not yet visible shows the fault (R72). -/
def State.failJob (s : State) (e status : Nat) : State :=
  match s.job e with
  | none => s
  | some j =>
    if j.phase = .done then s
    else if j.phase ≠ .running ∨ j.kind = .arm then s.refuseJob e status
    else
      let s := s.updJob e (fun j => { j with faulted := j.faulted.orElse (fun _ => some status) })
      let s := (s.cmds.filter (fun (c : Command) => c.job == e)).foldl (fun s c => s.faultCommand c.id status) s
      match j.kind, s.jobCore e with
      | .program, some k => s.endProgram k status false
      | _, _ => s

/-- A cancel reaches a job: a started one stops with the cycle's other stop causes, any other completes at once (R611, R657). -/
def State.cancelJob (s : State) (j : Job) : State :=
  if j.phase = .done then s
  else if j.phase = .running ∧ j.kind ≠ .arm then s.askStop (.job j.entry) St.CANCELLED
  else s.refuseJob j.entry St.CANCELLED

/-- Cancel the jobs that p holds of (R611). -/
def State.cancelJobs (s : State) (p : Job → Bool) : State := (s.jobs.filter p).foldl State.cancelJob s

def State.failJobs (s : State) (p : Job → Bool) (status : Nat) : State :=
  (s.jobs.filter p).foldl (fun s j => s.failJob j.entry status) s

/-- A job's commands have not all ended, or its core still holds it (R517, R609). -/
def State.jobBusy (s : State) (e : Nat) : Bool :=
  (s.jobCore e).isSome || s.cmds.any (fun (c : Command) => c.job == e && c.core.isSome)

end Sys2Proof.Machine
end

