-- ==== Sys2Proof/Machine/Guard.lean ====
section
/-! DEFINITION. The percentile guard: bins, the estimate, pressure, ledgers and urgency
(spec/12_dispatch_percentile_guard.md, R642 to R654). -/

namespace Sys2Proof.Machine

/-- BASE of a class code (Table 12-1). -/
def classBase (cls : Nat) : Nat :=
  match cls with
  | 0 => 768 | 1 => 256 | 2 => 0 | _ => 128

/-- The histogram bin of a latency (R645). -/
def latencyBin (l : Nat) : Nat :=
  if l < 1024 then 0
  else if 1 <<< 25 ≤ l then 31
  else
    let e := Nat.log2 l
    1 + 2 * (e - 10) + fld l (e - 1) (e - 1)

/-- The lower edge L_b and the width W_b of a bin (R646, Table 12-3); bin 31 is unbounded. -/
def binLow (b : Nat) : Nat :=
  if b = 0 then 0 else if b = 31 then 33554432
  else (1 <<< (10 + (b - 1) / 2)) + ((b - 1) % 2) * (1 <<< (9 + (b - 1) / 2))
def binWidth (b : Nat) : Nat := if b = 0 then 1024 else 1 <<< (9 + (b - 1) / 2)

/-- A bin count of a histogram. -/
def histAt (h : Tab Nat) (b : Nat) : Nat := Tab.get (fun _ => 0) h b

/-- The estimate window n_b (R648). -/
def Queue.window (q : Queue) (b : Nat) : Nat := histAt q.histCur b + histAt q.histPrev b

/-- N (R648). -/
def Queue.windowN (q : Queue) : Nat := sumOf q.window (List.range 32)

/-- The walk of R649: the bins from b on, c the count below bin b. -/
def estWalk (n : Nat → Nat) (k : Nat) : List Nat → Nat → Nat
  | [], _ => 33554432
  | b :: bs, c =>
    if c + n b < k then estWalk n k bs (c + n b)
    else if b = 31 then 33554432
    else binLow b + binWidth b * (k - c) / n b

/-- EST of R649 for a percentile in hundredths of a percent. -/
def Queue.estimate (q : Queue) (pct : Nat) : Nat :=
  let n := q.windowN
  if n = 0 then 0 else estWalk q.window (ceilDiv (n * pct) 10000) (List.range 32) 0

/-- PCT as R650 takes it. -/
def pctTaken (pct : Nat) : Nat := if 10000 ≤ pct then 9999 else pct

/-- P_EST of R651. -/
def pressureEst (est target raiseAt : Nat) : Nat :=
  let r := if target = 0 then 1023 else Nat.min 1023 (est * 256 / target)
  if r ≤ raiseAt then 0 else Nat.min 255 ((r - raiseAt) * 255 / (256 - raiseAt))

/-- P_MISS of R651. -/
def pressureMiss (n pct m : Nat) : Nat :=
  let a := n * (10000 - pct) / 10000
  if a = 0 then (if m > 0 then 255 else 0) else Nat.min 255 (255 * m / a)

/-- A queue has an active contract (R634). -/
def State.contracted (s : State) (q : Nat) : Bool :=
  decide (s.qClass q ≤ 1) && decide (s.rf (qReg q Reg.QR_Q_CONTRACT) 13 0 ≠ 0)

/-- Recompute EST, P_EST, P_MISS and P of a queue (R644, R649, R651). With no window, P_EST is 0 (Edges). -/
def State.guardUpdate (s : State) (q : Nat) : State :=
  let k := s.queue q
  let c := s.rg (qReg q Reg.QR_Q_CONTRACT)
  let target := s.rg (qReg q Reg.QR_Q_TARGET)
  if s.contracted q then
    let pct := pctTaken (fld c 13 0)
    let est := k.estimate pct
    let pe := if k.windowN = 0 then 0 else pressureEst est target (fld c 31 24)
    let pm := pressureMiss k.windowN pct
      (k.ledCur.misses + k.ledCur.refused + k.ledLast.misses + k.ledLast.refused)
    let pm := if k.windowN = 0 then 0 else pm
    (s.wr (qReg q Reg.QR_Q_EST) est).wr (qReg q Reg.QR_Q_GUARD) ((Nat.max pe pm) <<< 24 ||| pe <<< 16 ||| pm <<< 8)
  else (s.wr (qReg q Reg.QR_Q_EST) (k.estimate 9900)).wr (qReg q Reg.QR_Q_GUARD) 0

/-- P_q, Q_GUARD.P. -/
def State.pressure (s : State) (q : Nat) : Nat := s.rf (qReg q Reg.QR_Q_GUARD) 31 24

/-- Whether a status enters no histogram and no ledger (R642). -/
def unrecorded (st : Nat) : Bool :=
  [St.RSVD_NONZERO, St.ZERO_LENGTH, St.DRAINING, St.CANCELLED, St.NO_QUOTA].contains st ||
  (decide (0x21 ≤ st) && decide (st ≤ 0x28))

/-- The guard records a job whose completion record is issued with latency l (R642, R643). -/
def State.guardRecord (s : State) (j : Job) (l : Nat) : State :=
  if j.status = St.LATE_ON_ARRIVAL ∨ j.status = St.POOL_FULL then
    s.updQueue j.queue (fun q => { q with ledCur := { q.ledCur with refused := satAdd 32 q.ledCur.refused 1 } })
  else if unrecorded j.status then s
  else
    let miss := decide (s.rg (qReg j.queue Reg.QR_Q_TARGET) < l)
    let s := s.updQueue j.queue (fun q => { q with
      histCur := Tab.put (fun _ => 0) (latencyBin l) (satAdd 32 (histAt q.histCur (latencyBin l)) 1) q.histCur
      ledCur := { q.ledCur with
        recorded := satAdd 32 q.ledCur.recorded 1
        misses := satAdd 32 q.ledCur.misses (b2n miss)
        stopped := satAdd 32 q.ledCur.stopped (b2n (j.status == St.DEADLINE))
        worst := Nat.max q.ledCur.worst l } })
    let s := s.event 0x0705 pgDispatch j.ev
    if miss then s.event 0x0706 pgDispatch j.ev else s

/-- The records of a cycle enter the windows as they stand at its end, in any order (R671, R672). -/
def State.guardRecords (s : State) : State := s.records.foldl (fun s r => s.guardRecord r.1 r.2) { s with records := [] }

/-- The epoch roll of one queue (R652). -/
def Queue.roll (q : Queue) : Queue :=
  { q with histPrev := q.histCur, histCur := [], ledLast := q.ledCur, ledCur := Ledger.zero }

/-- The queues that hold anything: those with an entry, whose estimate may need recomputing. -/
def State.liveQueues (s : State) : List Nat := s.queues.map (·.1)

/-- The guard's roll at an epoch boundary (R652). -/
def State.guardRoll (s : State) : State :=
  s.liveQueues.foldl (fun s q => (s.updQueue q Queue.roll).guardUpdate q) s

/-- Z_j of R653. -/
def slackUrgency (sigma shift : Nat) : Nat := 255 - Nat.min 255 (sigma >>> shift)

/-- U of R653 at the present TIME. -/
def State.urgency (s : State) (j : Job) : Nat :=
  let z := if j.deadline = allOnes64 then 0
    else slackUrgency (j.stop - (s.time + s.jobNeed j)) (s.rf Reg.DSP_DSP_CFG 4 0)
  classBase j.cls + s.pressure j.queue + z + j.boost

/-- The dispatch order of R654: a before b. -/
def State.dispatchBefore (s : State) (a b : Job) : Bool :=
  let ua := s.urgency a
  let ub := s.urgency b
  if ua ≠ ub then decide (ub < ua)
  else if a.arrival ≠ b.arrival then decide (a.arrival < b.arrival)
  else if a.queue ≠ b.queue then decide (a.queue < b.queue)
  else decide (a.order < b.order)

/-- GUARD_DATA as GUARD_SEL selects it (Table 12-7). -/
def State.guardData (s : State) : Nat :=
  let sel := s.rg Reg.DSP_GUARD_SEL
  let q := s.queue (fld sel 25 16)
  let i := fld sel 4 0
  let led := fun (l : Ledger) =>
    match i with
    | 0 => l.recorded | 1 => l.misses | 2 => l.refused | 3 => l.stopped
    | 4 => Nat.min l.worst allOnes32 | _ => 0
  match fld sel 7 6 with
  | 0 => histAt q.histCur i
  | 1 => histAt q.histPrev i
  | 2 => led q.ledCur
  | _ => led q.ledLast

end Sys2Proof.Machine
end

