-- ==== Sys2Proof/Machine/Start.lean ====
section
/-! DEFINITION. The resources that a job needs, its start, and the end of its engine commands (spec/11, spec/12 R639, R640,
spec/13 R705 to R709, spec/09 R466 to R469). -/

namespace Sys2Proof.Machine

/-! Lull of the shared engines (R707, R708). -/

/-- Whole ns, in MCLK cycles, that n CCLK cycles take at the ratio in force. -/
def State.cycleNs (s : State) (n : Nat) : Nat := ceilDiv (n * 625 * cclkDiv s.ratio) 20000 * 5

/-- Begin to wake a shared engine: 256 CCLK cycles. -/
def State.wakeEngine (s : State) (e : Engine) : State :=
  match (s.engLull e).lull with
  | .lull => s.setEngLull e { lull := .waking false (s.time + s.cycleNs 256), idleSince := s.time }
  | _ => s

/-- Begin to wake a core: 256 cycles from lull, 2,000 ns and a sparge of 512 cycles from lull-off. -/
def State.wakeCore (s : State) (k : Nat) : State :=
  match (s.core k).lull with
  | .lull => s.updCore k (fun c => { c with lull := .waking false (s.time + s.cycleNs 256) })
  | .off => (s.spargeLm k).updCore k (fun c => { c with lull := .waking true (s.time + 2000 + s.cycleNs 512) })
  | _ => s

/-- The wake time of a resource (R709). -/
def wakeNs (l : Lull) (off : Nat) : Nat :=
  match l with
  | .lull => 320
  | .off => off
  | _ => 0

/-! Resources (R37, R527, R639, R640). -/

/-- The lowest-numbered idle core within a region's quota. -/
def State.idleCore (s : State) (region : Nat) : Option Nat :=
  (List.range 8).find? (fun k =>
    let c := s.core k
    bit (s.coreMask region) k && decide (c.phase = .idle) && !c.failed && s.pageReady (pgGnm k))

/-- The engine of a job's command. -/
def JobKind.engineOf : JobKind → Option Engine
  | .engine e => some e
  | .fire => some .tun
  | _ => none

/-- The region-resource test (R639). -/
def State.resourceTest (s : State) (j : Job) : Bool :=
  match j.kind with
  | .arm => true
  | .program => (s.idleCore j.region).isSome
  | .engine .tun => (rbTuns j.payload).all (fun t => s.inRegion j.region t && !s.tunClaimed t)
  | .fire => (rbTuns j.payload).all (fun t => s.inRegion j.region t && !s.tunClaimed t)
  | .engine e => s.engineRoom e j.region

/-- The region's quota for the engine or cores that a job needs is zero (R640). -/
def State.quotaZero (s : State) (j : Job) : Bool :=
  match j.kind with
  | .program => s.coreMask j.region == 0
  | .engine .tun => false
  | .engine e => s.quota j.region e == 0
  | _ => false

/-- The longest wake time of the resources that a job needs (R709). -/
def State.wakeTime (s : State) (j : Job) : Nat :=
  let tuns := fun (b : List Byte) => (rbTuns b).foldl (fun m t => Nat.max m (wakeNs ((s.unlull t).tunSt t).lull 7120)) 0
  match j.kind with
  | .arm => 0
  | .program => ((s.idleCore j.region).map (fun k => wakeNs (s.core k).lull 2640)).getD 0
  | .engine .tun => tuns j.payload
  | .fire => tuns j.payload
  | .engine e => wakeNs (s.engLull e).lull 0

/-- A job's command before it exists, for the engines' own tests of its block. -/
def Job.asCommand (j : Job) (e : Engine) (block kiln : List Byte) (armed : Bool) : Command :=
  { id := 0, engine := e, job := j.entry, region := j.region, func := j.func, phase := .issued, issued := 0, began := allOnes64
    block := block, kiln := kiln
    armed := armed, core := none, deadline := j.deadline, stop := j.stop, awaits := 0, ending := none }

/-- A job's T_first now (R594, R1156). -/
def State.jobTFirst (s : State) (j : Job) : Nat :=
  match j.kind with
  | .engine .tun => s.cmdTFirst (j.asCommand .tun j.payload [] false)
  | .fire => (((Tab.get (fun _ => none) (s.queue j.queue).arms (leAt j.desc 3 1)).map (fun (a : ArmSlot) => a.tFirst))).getD j.tFirst
  | _ => j.tFirst

/-- Host memory that a job needs (R630): its payload, argument or result, or its block's arrays. -/
def Job.needsHost (j : Job) : Bool :=
  match j.kind with
  | .program => true
  | .arm => fld (leAt j.desc 4 2) 1 0 == 0
  | .fire => (runBlockResult j.payload).1 == 0
  | .engine e => (decide (j.phase = .payload) && fld (leAt j.desc 4 2) 1 0 == 0) || j.hostBytes || (blockResult e j.payload).1 == 0

/-! Commands of jobs. -/

/-- Issue a command. -/
def State.addCommand (s : State) (c : Command) : State :=
  let s := { s with cmds := s.cmds ++ [{ c with id := s.nextId, issued := s.time }], nextId := s.nextId + 1 }
  match c.engine with
  | .tun => s
  | e => s.wakeEngine e

/-- The counters and the release of a shared engine when a command of it ends. -/
def State.releaseEngine (s : State) (c : Command) : State :=
  let idle := fun (s : State) => match c.engine with
    | .tun => s
    | e => s.setEngLull e { (s.engLull e) with idleSince := s.time }
  match c.engine with
  | .tun => s
  | .solver =>
    let s := if (s.solver.map (·.cmd)) = some c.id then { s with solver := none } else s
    idle ((s.bump Reg.SLV_COMMANDS 1).event 0x0300 pgSolver c.ev)
  | .predictor =>
    let s := if (s.pred.run.map (·.cmd)) = some c.id then s.releasePred else s
    idle ((s.bump Reg.PRD_COMMANDS 1).event 0x0400 pgPred c.ev)
  | .planner =>
    let s := if (s.plan.run.map (·.cmd)) = some c.id then s.releasePlan else s
    idle ((s.bump Reg.PLN_COMMANDS 1).event 0x0500 pgPlan c.ev)

/-- A function is in FLR: nothing is asked of its memory (R611). -/
def State.funcInFlr (s : State) (f : Nat) : Bool := (Tab.get (fun _ => none) s.hif.flr f).isSome

/-- A write of a result into host memory that fails leaves the section unspecified (R224). -/
def State.failedWrite (s : State) (w : SpaceWrite) : State :=
  { s with fresh := s.fresh + 1 }.putBytes w.space w.func w.addr
    ((List.range w.bytes.length).map (Config.faultByte s.fresh))

/-- The result of a command becomes visible, its header last (R214), and what then ends it. A result for a function in FLR is not
written to host memory (R611). Without the host's stream a write into host memory fails (Table 11-12): the command ends with the memory
fault status, the section's bytes are unspecified, and the header is not written (R224). -/
def State.showResult (s : State) (c : Command) (e : CmdEnd) : State × CmdEnd :=
  let host := e.writes.filter (fun (w : SpaceWrite) => w.space == spHost)
  let rest := e.writes.filter (fun (w : SpaceWrite) => w.space != spHost)
  if host = [] then (s.writeAll (some c.job) e.writes, e)
  else if s.funcInFlr c.func then (s.writeAll (some c.job) rest, e)
  else if s.hif.ideBroken then
    (host.dropLast.foldl State.failedWrite s, if St.isFault e.status then e else { e with status := St.MEMORY_FAULT, valid := false, reason := 0 })
  else (s.writeAll (some c.job) e.writes, e)

/-- The repair of an ASSIGN that has stopped iterating is under way (R315 to R317, Table 06-2). -/
def State.repairing (s : State) (c : Command) : Bool :=
  match c.ending with
  | some e => decide (c.engine = .solver) && svOp c.block == 2 && e.valid && decide (s.time < e.at_ + s.cycleNs (svRepair c.block))
  | none => false

/-- A command has ended (R214, R481): its result becomes visible, its engine is free, and its tag or its simple job shows
the status. -/
def State.finishCommand (s : State) (id : Nat) : State :=
  match s.cmd id with
  | none => s
  | some c =>
    match c.phase, c.ending with
    | .ended, some e =>
      let shown := s.showResult c e
      let e := shown.2
      let s := shown.1.releaseEngine c
      let s := { s with cmds := s.cmds.filter (fun (x : Command) => x.id != id) }
      match c.core with
      | some (k, t) => ((s.updCore k (fun c => { c with gates := c.gates.filter (fun g => g.cmd != id) })).tagEnd k t e.status).haltStep k
      | none => match s.job c.job with
        | none => s
        | some j => match j.kind with
          | .program => s
          | _ => s.finishJob c.job e.status e.valid e.reason e.stopCause 0
    | _, _ => s

/-- Bytes of a program job's image and argument that lie in host memory (R590). -/
def Job.hostImage (j : Job) : Nat :=
  (if fld (leAt j.desc 4 2) 1 0 = spHost then leAt j.desc 0x18 4 else 0) +
  sumOf (fun d => if fld (leAt d 4 2) 3 2 = spHost then leAt d 0x1C 4 else 0) (j.desc :: j.chain)

/-- Start a job (R46, R48, R467): its command is issued, or its core begins to load its image. -/
def State.startJob (s : State) (e : Nat) : State :=
  match s.job e with
  | none => s
  | some j =>
    let s := s.updJob e (fun j => { j with phase := .running, start := s.time })
    match j.kind with
    | .arm => s
    | .engine g => ((if g = .tun then rbTuns j.payload else []).foldl State.unlull s).addCommand (j.asCommand g j.payload [] false)
    | .fire =>
      let b := fireBlock j.payload j.desc
      ((rbTuns b).foldl State.unlull s).addCommand { (j.asCommand .tun b j.kiln true) with stop := cmdStop .tun b j.deadline }
    | .program =>
      match s.idleCore j.region with
      | none => s
      | some k =>
        let s := (s.addBacklog j.hostImage).wakeCore k
        let s := s.updJob e (fun j => { j with core := some k })
        s.updCore k (fun c => { Core.reset with
          phase := .loading, lull := c.lull, idleSince := c.idleSince, job := some e, region := j.region, queue := j.queue
          func := j.func, haltTime := haltTimeOf j })

end Sys2Proof.Machine
end

