-- ==== Sys2Proof/Machine/Host.lean ====
section
/-! DEFINITION. The host interface: doorbells, the staging buffer, descriptor checks and take-up, arming,
completion records and Function Level Reset (spec/11_host_queues_gust_lane.md). -/

namespace Sys2Proof.Machine

/-! Doorbell pages (R576 to R580, R617 to R620, R632). -/

/-- A BAR2 access of function func reaches queue q's doorbell page (R565, R580). -/
def State.dbReaches (s : State) (func q : Nat) : Bool :=
  decide (q < 1024) && s.qAssigned q && s.qFunc q == func

/-- A doorbell or staging write that reaches no queue, or comes before ready or after a fatal error (R580, R632,
R1046). -/
def State.dbStray (s : State) : State := s.bump Reg.HOST_DB_STRAY 1

/-- A dropped doorbell write (R578). -/
def State.dbDrop (s : State) (q reason : Nat) : State :=
  (s.updQueue q (fun k => { k with dbErr := reason, dbErrCount := (k.dbErrCount + 1) % 0x100000000 })).event
    0x0901 pgHost { queue := some q }

/-- Doorbell and staging writes are taken at all: after ready, with no fatal error. -/
def State.dbOpen (s : State) (func q : Nat) : Bool := s.dbReaches func q && s.ready && !s.fatal

/-- The distance from b to a, modulo n. -/
def modDist (a b n : Nat) : Nat := (a + n - b % n) % n

/-- SQ_TAIL_DB (R576, R578, R579). -/
def execSqTailDb (func q len : Nat) (v : Word) (s : State) : Host.Outcome State Fault Refusal :=
  if s.dbOpen func q = false then .next s.dbStray
  else
    let k := s.queue q
    let n := 1 <<< k.sqLog
    let t := fld v.toNat 15 0
    if len ≠ 4 then .next (s.dbDrop q 3)
    else if k.state ≠ .enabled ∧ k.state ≠ .draining then .next (s.dbDrop q 4)
    else if n ≤ t then .next (s.dbDrop q 1)
    else if modDist (k.hS + n - 1) k.tS n < modDist t k.tS n then .next (s.dbDrop q 2)
    else
      let new := List.replicate (modDist t k.tS n) { arrival := s.time, inline := false }
      .next ((s.setQueue q { k with tS := t, visible := k.visible ++ new }).event 0x0900 pgHost { queue := some q })

/-- CQ_HEAD_DB (R577 to R579). -/
def execCqHeadDb (func q len : Nat) (v : Word) (s : State) : Host.Outcome State Fault Refusal :=
  if s.dbOpen func q = false then .next s.dbStray
  else
    let k := s.queue q
    let n := 1 <<< k.cqLog
    let h := fld v.toNat 15 0
    if len ≠ 4 then .next (s.dbDrop q 3)
    else if k.state ≠ .enabled ∧ k.state ≠ .draining ∧ k.state ≠ .quiescing ∧ k.state ≠ .error then .next (s.dbDrop q 4)
    else if n ≤ h then .next (s.dbDrop q 1)
    else if modDist k.tC k.hC n < modDist h k.hC n then .next (s.dbDrop q 2)
    else .next ((s.setQueue q { k with hC := h }).event 0x0900 pgHost { queue := some q })

/-! Descriptor checks (R585, R586, R600, Tables 11-4 to 11-6). -/

/-- Descriptor fields. -/
abbrev dOpcode (d : List Byte) : Nat := leAt d 0x00 1
abbrev dFlags (d : List Byte) : Nat := leAt d 0x01 1
abbrev dChain (d : List Byte) : Nat := leAt d 0x02 1
abbrev dTarget (d : List Byte) : Nat := leAt d 0x03 1
abbrev dSpaces (d : List Byte) : Nat := leAt d 0x04 2
abbrev dTag (d : List Byte) : Nat := leAt d 0x08 8
abbrev dPayAddr (d : List Byte) : Nat := leAt d 0x10 8
abbrev dPayLen (d : List Byte) : Nat := leAt d 0x18 4
abbrev dArgLen (d : List Byte) : Nat := leAt d 0x1C 4
abbrev dArgAddr (d : List Byte) : Nat := leAt d 0x20 8
abbrev dResAddr (d : List Byte) : Nat := leAt d 0x28 8
abbrev dResBytes (d : List Byte) : Nat := leAt d 0x30 4
abbrev dEnergy (d : List Byte) : Nat := leAt d 0x34 4
abbrev dDeadline (d : List Byte) : Nat := leAt d 0x38 8
abbrev dSeed (d : List Byte) : Nat := leAt d 0x48 8
abbrev dSweeps (d : List Byte) : Nat := leAt d 0x50 4
abbrev dPaySpace (d : List Byte) : Nat := fld (dSpaces d) 1 0
abbrev dArgSpace (d : List Byte) : Nat := fld (dSpaces d) 3 2
abbrev dResSpace (d : List Byte) : Nat := fld (dSpaces d) 5 4

/-- Check 1 of R585: a field that Table 11-4 does not mark as used by the descriptor's opcode is nonzero. Of a
reserved opcode only the fields that no opcode uses count. -/
def descReserved (d : List Byte) : Bool :=
  let op := dOpcode d
  let fire := op == 5
  let prog := op == 2
  let chain := op == 3
  let pay := op == 1 || op == 2 || op == 4
  let known := decide (1 ≤ op) && decide (op ≤ 5)
  let fl := dFlags d
  let nz := fun (used : Bool) (v : Nat) => known && !used && decide (v ≠ 0)
  decide (fld fl 7 3 ≠ 0) || nz fire (fld fl 2 0) || nz prog (dChain d) ||
  nz (op == 1 || op == 4 || fire) (dTarget d) ||
  decide (fld (dSpaces d) 15 6 ≠ 0) || nz pay (dPaySpace d) || nz (prog || chain) (dArgSpace d) ||
  nz (prog || (fire && bit fl 2)) (dResSpace d) || decide (leAt d 0x06 2 ≠ 0) || nz (!chain) (dTag d) ||
  nz pay (dPayAddr d) || nz pay (dPayLen d) || nz (prog || chain) (dArgLen d) || nz (prog || chain) (dArgAddr d) ||
  nz (prog || (fire && bit fl 2)) (dResAddr d) || nz (prog || (fire && bit fl 2)) (dResBytes d) ||
  nz (!chain) (dEnergy d) || nz (!chain) (dDeadline d) || nz prog (leAt d 0x40 4) || nz prog (leAt d 0x44 4) ||
  nz (fire && bit fl 0) (dSeed d) || nz (fire && bit fl 1) (dSweeps d) || decide (leAt d 0x54 44 ≠ 0)

/-- The argument's total length (R584). -/
def argTotal (head : List Byte) (chain : List (List Byte)) : Nat := dArgLen head + sumOf dArgLen chain

/-- Check 2 of R585: the first defect of Table 11-6, 0 for none. The outcomes that R583 and R600 give to a whole job come before the
defects of its fields, which stand in the order of their codes. -/
def descDefect (cls : Nat) (armed : Nat → Bool) (argLimit : Nat → Bool) (f : Fetched) : Nat :=
  let d := f.head
  let op := dOpcode d
  let fire := op == 5
  let res := op == 2 || (fire && bit (dFlags d) 2)
  let pay := op == 1 || op == 2 || op == 4
  if f.badChain then 0x06
  else if f.inline ∧ (op = 3 ∨ (op = 2 ∧ dChain d ≠ 0)) then 0x07
  else if op = 0 ∨ 5 < op then 0x01
  else if op = 1 ∧ (dTarget d = 0 ∨ 4 < dTarget d) then 0x02
  else if (op = 1 ∨ op = 4) ∧ dPayLen d ≠ 0 ∧ dPayLen d ≠ 128 then 0x03
  else if op = 2 ∧ !argLimit (argTotal d f.joined) then 0x03
  else if (pay && dPaySpace d == 3) || (op == 2 && dArgSpace d == 3) || (res && dResSpace d == 3)
    || f.joined.any (fun c => dArgSpace c == 3) then 0x04
  else if (pay && dPayAddr d % 64 != 0) || (res && dResAddr d % 64 != 0) then 0x05
  else if op = 3 then 0x06
  else if (op = 4 ∨ op = 5) ∧ (3 < dTarget d ∨ cls ≠ 0) then 0x08
  else if op = 5 ∧ !armed (dTarget d) then 0x08
  else if op ≠ 3 ∧ dEnergy d = 0 then 0x0A
  else 0

/-- The kind of job a head descriptor makes. -/
def descKind (d : List Byte) : JobKind :=
  match dOpcode d with
  | 1 => match dTarget d with
    | 1 => .engine .tun | 2 => .engine .solver | 3 => .engine .predictor | _ => .engine .planner
  | 2 => .program
  | 4 => .arm
  | _ => .fire

/-- The arm slot of a queue. -/
def Queue.arm (q : Queue) (k : Nat) : Option ArmSlot := Tab.get (fun _ => none) q.arms k

/-- The result area's space and size that a FIRE's delivery allowance counts (R593). -/
def fireResult (d : List Byte) (a : ArmSlot) : Nat × Nat :=
  if bit (dFlags d) 2 then (dResSpace d, dResBytes d) else runBlockResult a.block

/-- Kiln bytes of a run block for an ARM's T_first: 0 with DEFAULT_KILN (Table 11-2). -/
def armJobTFirst (kilnBytes : Nat) : Nat := ceilDiv (2000 + ceilDiv (128 + kilnBytes) 16) 5 * 5

/-- The job that a fetched descriptor makes, before any check. An ARM job and a FIRE of an empty slot name no result area: Table 01-4
gives them none, and the model takes the allowance of 0 bytes in host memory, 1,000 ns (DESIGN CHOICE, log 132). -/
def State.newJob (s : State) (entry : Nat) (f : Fetched) : Job :=
  let d := f.head
  let kind := descKind d
  let region := s.qRegion f.queue
  let ceil := if dEnergy d = allOnes32 then none else some (dEnergy d)
  let arm := (s.queue f.queue).arm (dTarget d)
  let a := match kind with
    | .program => allowance (dResSpace d) (dResBytes d)
    | .fire => match arm with
      | some a => allowance (fireResult d a).1 (fireResult d a).2
      | none => allowance 0 0
    | _ => allowance 0 0
  let m := match kind with | .program => leAt d 0x40 4 | _ => engineMargin
  { entry := entry, order := s.nextId, queue := f.queue, func := s.qFunc f.queue, region := region, cls := s.qClass f.queue
    kind := kind, phase := .waiting, inline := f.inline, gust := false, slot := f.slot, tag := dTag d, arrival := f.arrival
    start := 0, deadline := dDeadline d, stop := stopTime (dDeadline d) m a, allowance := a
    tFirst := match kind with
      | .program => leAt d 0x44 4
      | .fire => (arm.map (·.tFirst)).getD 0
      | _ => 0
    hostBytes := false, desc := d, chain := f.joined
    payload := match kind with | .fire => (arm.map (·.block)).getD [] | _ => []
    kiln := match kind with | .fire => (arm.map (·.kiln)).getD [] | _ => []
    ceiling := ceil, fit := s.fitDemand kind ceil region, res := 0, energy := 0, boost := 0, core := none
    stopping := none, faulted := none, status := 0, resultValid := false, reason := 0, stopCause := 0, appCode := 0 }

/-- Take a job up (R585): it enters the pool, its completion slot is reserved, and the checks are made in order.
A FIRE submitted inline goes to the gust lane; an ENGINE or ARM job waits for its payload (R588). -/
def State.takeUp (s : State) (f : Fetched) (entry : Nat) : State :=
  let d := f.head
  let j := s.newJob entry f
  let s := { s with jobs := s.jobs ++ [j], nextId := s.nextId + 1 }
  let s := (s.bump (qReg f.queue Reg.QR_Q_ARRIVED) 1).event 0x0700 pgDispatch j.ev
  let q := s.queue f.queue
  let defect := descDefect (s.qClass f.queue) (fun k => (q.arm k).isSome) argFits f
  let late := !feasibleAt s.time j.deadline j.margin j.allowance j.tFirst (s.ingress j.hostBytes + s.wakeTime j)
  if 4096 ≤ entry then s.refuseJob entry St.POOL_FULL
  else if descReserved d || f.joined.any descReserved then
    (s.updJob entry (fun j => { j with tag := 0 })).refuseJob entry St.RSVD_NONZERO
  else if defect ≠ 0 then
    (s.updJob entry (fun j => { j with tag := 0 })).finishJob entry St.DESC_INVALID false defect 0 0
  else if (dOpcode d = 1 ∨ dOpcode d = 2 ∨ dOpcode d = 4) ∧ dPayLen d = 0 then s.refuseJob entry St.ZERO_LENGTH
  else if q.state = .draining then s.refuseJob entry St.DRAINING
  else match j.kind with
    | .engine _ =>
      let s := s.updJob entry (fun j => { j with phase := .payload })
      if dPaySpace d = 0 then s.addBacklog 128 else s
    | .arm =>
      let s := s.updJob entry (fun j => { j with phase := .payload })
      if dPaySpace d = 0 then s.addBacklog 128 else s
    | .fire =>
      if f.inline then s.updJob entry (fun j => { j with phase := .lane })
      else if late then (s.event 0x0702 pgDispatch j.ev).refuseJob entry St.LATE_ON_ARRIVAL
      else s
    | .program =>
      if late then (s.event 0x0702 pgDispatch j.ev).refuseJob entry St.LATE_ON_ARRIVAL
      else s

/-- INLINE_WRITE (R596 to R602): bytes at an offset of the staging buffer. -/
def execInlineWrite (func q off : Nat) (bytes : List Byte) (s : State) : Host.Outcome State Fault Refusal :=
  if s.dbOpen func q = false then .next s.dbStray
  else
    let k := s.queue q
    if k.state ≠ .enabled ∧ k.state ≠ .draining then .next (s.dbDrop q 4)
    else if s.qClass q ≠ 0 then .next (s.dbDrop q 6)
    else
      let put := fun (st : Tab (Option Byte)) (e : Nat × Byte) =>
        if 0x100 ≤ e.1 ∧ e.1 < 0x180 then Tab.put (fun _ => none) (e.1 - 0x100) (some e.2) st else st
      let st := ((List.range bytes.length).map (fun i => off + i)).zip bytes |>.foldl put k.staging
      if st.length < 128 then .next (s.setQueue q { k with staging := st })
      else
        let n := 1 <<< k.sqLog
        let d := st.map (fun e => e.2.getD 0)
        let s := s.setQueue q { k with staging := [] }
        if (k.tS + 1) % n = k.hS then .next (s.dbDrop q 5)
        else if k.freeSlots = 0 then .next (s.dbDrop q 9)
        else
          let s := s.updQueue q (fun k => { k with
            tS := (k.tS + 1) % n, visible := k.visible ++ [{ arrival := s.time, inline := true }], reserved := k.reserved + 1 })
          let f : Fetched := { queue := q, slot := k.tS, arrival := s.time, inline := true, head := d, chain := [], joined := [], badChain := false }
          .next (s.takeUp f ((s.freeEntry true).getD (4096 + s.nextId)))

/-! Fetch (R581 to R584, R598, R636, R637). -/

/-- The slots that a fetch of n descriptors consumes from a ring position on: each with its distance from it. Slots of inline
submissions are passed without reading, those behind the last descriptor too (R598). None where fewer descriptors are visible. -/
def takeSlots : Nat → Nat → List VisSlot → Option (List (Nat × VisSlot))
  | 0, _, _ => some []
  | _ + 1, _, [] => none
  | n + 1, i, v :: vs => if v.inline then takeSlots (n + 1) (i + 1) vs else (takeSlots n (i + 1) vs).map (fun l => (i, v) :: l)

/-- Inline slots at the head of the ring are passed without reading (R598). -/
def Queue.passInline (q : Queue) : Queue :=
  let n := (q.visible.takeWhile (·.inline)).length
  { q with visible := q.visible.drop n, hS := (q.hS + n) % (1 <<< q.sqLog) }

/-- Read one descriptor of a ring from host memory. -/
def State.readDesc (s : State) (q slot : Nat) : List Byte :=
  s.hostRead (s.qFunc q) ((s.queue q).sqBase + 128 * slot) 128

/-- A free pool entry that no inline submission keeps, beside those of the descriptors fetched and not yet taken up (R636). -/
def State.poolOpen (s : State) : Bool := decide (countWhere (fun j => decide (j.entry < 4032)) s.jobs + s.fetched.length < 4032)

/-- Fetch at most one job of a queue (R636): a descriptor, or a PROGRAM descriptor with its whole chain, once it is visible (R582). -/
def State.fetchQueue (s : State) (q : Nat) : State :=
  let s := s.updQueue q Queue.passInline
  let k := s.queue q
  if k.visible = [] ∨ k.freeSlots = 0 ∨ s.poolOpen = false then s
  else
    let n := 1 <<< k.sqLog
    let d := s.readDesc q k.hS
    let c := if dOpcode d = 2 then Nat.min (dChain d) 15 else 0
    match takeSlots (c + 1) 0 k.visible with
    | none => s
    | some l =>
      let last := (l.getLast?.getD (0, { arrival := s.time, inline := false }))
      let chain := (l.drop 1).map (fun e => s.readDesc q ((k.hS + e.1) % n))
      let f : Fetched := { queue := q, slot := k.hS, arrival := last.2.arrival, inline := false, head := d, chain := chain, joined := [], badChain := false }
      let s := s.setQueue q { k with hS := (k.hS + last.1 + 1) % n, visible := k.visible.drop (last.1 + 1), reserved := k.reserved + 1 }
      let s := (s.bump64 Reg.HOST_INGRESS_BYTES_LO (128 * (c + 1))).chargeDev (512 * 2 * (c + 1))
      { s with fetched := s.fetched ++ [f] }

/-- Queues in the order of R637. -/
def State.fetchOrder (s : State) : List Nat :=
  sortBy (fun a b =>
    let ka := classBase (s.qClass a) + s.pressure a
    let kb := classBase (s.qClass b) + s.pressure b
    if ka ≠ kb then decide (kb < ka) else decide (a < b)) s.liveQueues

/-- A descriptor whose opcode no step names is taken up as it is fetched. -/
def State.takeUpReserved (s : State) : State :=
  match s.fetched.filter (fun f => decide (dOpcode f.head = 0) || decide (5 < dOpcode f.head)) with
  | [] => s
  | fs => fs.foldl (fun s f => s.takeUp f ((s.freeEntry false).getD (4096 + s.nextId)))
      { s with fetched := s.fetched.filter (fun f => decide (1 ≤ dOpcode f.head) && decide (dOpcode f.head ≤ 5)) }

/-- FETCH (R637): one round. The dispatcher fetches nothing before ready, after a fatal error, while a reset is pending, or without the
host's stream (R1046, R871, Table 11-12). -/
def execFetch (s : State) : Host.Outcome State Fault Refusal :=
  if s.ready = false ∨ s.fatal ∨ s.pendingReset ∨ s.hif.ideBroken then .next s
  else
    let qs := s.fetchOrder.filter (fun q =>
      let st := (s.queue q).state
      decide (st = .enabled) || decide (st = .draining))
    .next (qs.foldl State.fetchQueue s).takeUpReserved

/-- The first fetched descriptor whose opcode is op, and the list without it. -/
def popFetched (op : Nat) : List Fetched → Option (Fetched × List Fetched)
  | [] => none
  | f :: fs => if dOpcode f.head = op then some (f, fs) else (popFetched op fs).map (fun r => (r.1, f :: r.2))

/-- Take up the first fetched descriptor with an opcode. -/
def State.takeUpOp (s : State) (op : Nat) : State :=
  if s.fatal ∨ s.pendingReset then s
  else match popFetched op s.fetched with
  | none => s
  | some (f, fs) =>
    if f.chain ≠ [] then s
    else match s.freeEntry false with
      | none => s
      | some e => { s with fetched := fs }.takeUp f e

/-- ENGINE (R588): the next fetched ENGINE descriptor is taken up and its payload asked for. -/
def execEngineCmd (s : State) : Host.Outcome State Fault Refusal := .next (s.takeUpOp 1)

/-- PROGRAM (R582): the next fetched PROGRAM descriptor is taken up, once its chain has joined it. -/
def execProgramCmd (s : State) : Host.Outcome State Fault Refusal := .next (s.takeUpOp 2)

/-- CHAIN (R583): the next descriptor of the first fetched chain joins its head, or spoils it when it is no CHAIN
descriptor; a CHAIN descriptor fetched as a head is taken up and refused. -/
def execChainCmd (s : State) : Host.Outcome State Fault Refusal :=
  match findIdx (fun (f : Fetched) => decide (f.chain ≠ [])) s.fetched with
  | some i =>
    .next { s with fetched := updAt i (fun f =>
      match f.chain with
      | [] => f
      | c :: cs => { f with chain := cs, joined := f.joined ++ [c], badChain := f.badChain || decide (dOpcode c ≠ 3) }) s.fetched }
  | none => .next (s.takeUpOp 3)

/-- FIRE (R593): the next fetched FIRE descriptor is taken up. -/
def execFireCmd (s : State) : Host.Outcome State Fault Refusal := .next (s.takeUpOp 5)

/-- Arm a slot (R591, R592, R594): the run block is validated by steps 1 and 2 of R176 and stored with its kiln. The job completes with
OK, and so with RESULT_VALID set (Table 01-6). -/
def State.armSlot (s : State) (j : Job) : State :=
  let slot := dTarget j.desc
  match s.armCheck j.region j.func j.payload with
  | .error e => s.finishJob j.entry e.1 false e.2 0 0
  | .ok kiln =>
    let s := if rbDefaultKiln j.payload then s else s.noteRead (some j.entry) (rbKilnSpace j.payload) (rbKiln j.payload) kiln.length
    let a : ArmSlot := { block := j.payload, kiln := kiln, tFirst := s.armTFirst j.payload }
    let s := s.updQueue j.queue (fun q => { q with arms := Tab.put (fun _ => none) slot (some a) q.arms })
    s.finishJob j.entry St.OK true 0 0 0

/-- ARM (R591): with no job named, the next fetched ARM descriptor is taken up; with a job named, that ARM job, once
started, validates and stores its run block. -/
def execArmCmd (job : Option Nat) (s : State) : Host.Outcome State Fault Refusal :=
  match job with
  | none => .next (s.takeUpOp 4)
  | some e => match s.job e with
    | none => .next s
    | some j => if j.kind = .arm ∧ j.phase = .running then .next (s.armSlot j) else .next s

/-- The newest command is refused for a defect and ends at once, with the header-only result that R212 allows. -/
def State.refuseLast (s : State) (e : Bad) : State :=
  match s.cmds.getLast? with
  | none => s
  | some c => (s.refuseCmd c e).finishCommand c.id

/-- ENGINE_PAYLOAD_READ (R1156, R588): the payload of an ENGINE or ARM job arrives; an engine block is checked, its
T_first and S are formed, and the first feasibility test is made (R44). -/
def execEnginePayloadRead (job : Nat) (s : State) : Host.Outcome State Fault Refusal :=
  match s.job job with
  | none => .next s
  | some j =>
    if j.phase ≠ .payload then .next s
    else
      let sp := dPaySpace j.desc
      let s := (if sp = spHost then s.backlogLess 128 else s).noteRead (some job) sp (dPayAddr j.desc) 128
      match s.readSpace j.region j.func sp (dPayAddr j.desc) 128 with
      | none => .next (s.refuseJob job St.MEMORY_FAULT)
      | some b =>
        match j.kind with
        | .engine e =>
          let c := j.asCommand e b [] false
          match s.takeUpDefect c with
          | some x =>
            let s := s.updJob job (fun j => { j with payload := b })
            .next ((s.addCommand c).refuseLast x)
          | none =>
            let r := blockResult e b
            let al := allowance r.1 r.2
            let t := s.cmdTFirst c
            let hb := s.cmdHostBytes c
            let s := s.updJob job (fun j => { j with
              payload := b, tFirst := t, hostBytes := hb, allowance := al
              stop := stopTime j.deadline engineMargin al, phase := .waiting })
            match s.job job with
            | none => .next s
            | some j =>
              if feasibleAt s.time j.deadline engineMargin al t (s.ingress hb + s.wakeTime j) then .next s
              else .next ((s.event 0x0702 pgDispatch j.ev).refuseJob job St.LATE_ON_ARRIVAL)
        | _ =>
          let t := armJobTFirst (s.runKilnBytes j.region j.func b)
          let s := s.updJob job (fun j => { j with payload := b, tFirst := t, phase := .waiting })
          if feasibleAt s.time j.deadline engineMargin j.allowance t 0 then .next s
          else .next ((s.event 0x0702 pgDispatch j.ev).refuseJob job St.LATE_ON_ARRIVAL)

/-! Ring configuration and ownership (R618 to R620, R622). -/

/-- RING_ENABLE (R618, R620, R757): RING_CFG written with EN = 1. -/
def execRingEnable (func q : Nat) (v : Word) (s : State) : Host.Outcome State Fault Refusal :=
  if s.dbReaches func q = false then .next s.dbStray
  else
    let k := s.queue q
    let sq := fld v.toNat 7 4
    let cq := fld v.toNat 3 0
    if k.state ≠ .disabled then
      (if sq = k.sqLog ∧ cq = k.cqLog then .next s else .next (s.dbDrop q 7))
    else if sq < 4 ∨ cq < 4 ∨ s.ready = false ∨ s.rgnEnabled (s.qRegion q) = false then .next (s.dbDrop q 7)
    else .next (s.setQueue q { k with
      state := .enabled, sqLog := sq, cqLog := cq, tS := 0, hS := 0, tC := 0, hC := 0, phase := true, visible := [] })

/-- The queue moves to DISABLED after the last record (R619); its arm slots are emptied (R595). -/
def State.quiesced (s : State) (q : Nat) : State :=
  let k := s.queue q
  if k.state = .quiescing ∧ s.inflight q = 0 ∧ s.fetched.all (fun f => f.queue != q) then
    s.setQueue q { k with state := .disabled, arms := [] }
  else s

/-- RING_DISABLE (R619, R620): RING_CFG written with EN = 0. Its SQ_LOG and CQ_LOG are taken only while the queue is DISABLED. Fetched
descriptors not yet taken up count as taken up. -/
def execRingDisable (func q : Nat) (v : Word) (s : State) : Host.Outcome State Fault Refusal :=
  if s.dbReaches func q = false then .next s.dbStray
  else
    let k := s.queue q
    let sq := fld v.toNat 7 4
    let cq := fld v.toNat 3 0
    if k.state = .disabled then .next (s.setQueue q { k with sqLog := sq, cqLog := cq })
    else
      let s := if sq = k.sqLog ∧ cq = k.cqLog then s else s.dbDrop q 7
      if k.state = .enabled ∨ k.state = .draining ∨ k.state = .error then
        .next ((s.updQueue q (fun k => { k with state := .quiescing, staging := [] })).quiesced q)
      else .next s

/-- FAST queues assigned. -/
def State.fastCount (s : State) : Nat :=
  countWhere (fun q => s.qAssigned q && s.qClass q == 0) s.liveQueues

/-- Q_OWNER_WRITE (R622). -/
def effectQOwnerWrite (_p : Path) (q : Nat) (v : Word) (s : State) : Host.Outcome State Fault Refusal :=
  let k := s.queue q
  let w := v.toNat &&& 0x833F0F00
  let was := s.qAssigned q && s.qClass q == 0
  let fast := bit w 31 && fld w 25 24 == 0
  let err := fun (r : Nat) => s.wr Reg.HOST_QCFG_ERR ((q <<< 16) ||| r)
  if 1024 ≤ q then .next s
  else if k.state ≠ .unassigned ∧ k.state ≠ .disabled then .next (err 2)
  else if fast && !was && decide (64 ≤ s.fastCount) then .next (err 1)
  else
    let s := s.wr (qReg q Reg.QR_Q_OWNER) w
    .next (s.setQueue q { k with state := if bit w 31 then .disabled else .unassigned })

/-! Completion (R57, R70, R573 to R575, R609, R610, R642). -/

/-- Issue the record of a job whose outcome stands (R609, R610): the 64-byte write, LATE_DLV when the deadline
has passed (R70), the release of the slot, the pool entry and the reservation, the counters and the guard's record
(R642). -/
def State.issueRecord (s : State) (j : Job) : State :=
  let late := decide (j.deadline ≤ s.time) && decide (j.deadline ≠ allOnes64)
  let k := s.queue j.queue
  let n := 1 <<< k.cqLog
  let at64 := k.cqBase + 64 * k.tC
  let s := s.chargeJob j.entry (512 * lines64 at64 64)
  let j := (s.job j.entry).getD j
  let s := (s.hostWrite j.func at64 (completionBytes j k.phase late k.hS s.time)).bump64 Reg.HOST_EGRESS_BYTES_LO 64
  let s := s.release j.entry
  let s := { s with jobs := s.jobs.filter (fun x => x.entry != j.entry) }
  let s := s.updQueue j.queue (fun k => { k with
    reserved := k.reserved - 1, tC := (k.tC + 1) % n, phase := if k.tC + 1 = n then !k.phase else k.phase })
  let s := s.bump (qReg j.queue Reg.QR_Q_COMPLETED) 1
  let s := if j.status = St.LATE_ON_ARRIVAL then s.bump (qReg j.queue Reg.QR_Q_LATE_ARRIVAL) 1 else s
  let s := if late then (s.bump (qReg j.queue Reg.QR_Q_LATE_DLV) 1).event 0x0905 pgHost j.ev else s
  let s := if j.gust then s.bump (qReg j.queue Reg.QR_Q_GUST) 1 else s
  let s := s.event 0x0904 pgHost j.ev
  let s := if j.status = St.CANCELLED then s.event 0x0704 pgDispatch j.ev else s
  { s with records := s.records ++ [(j, s.time - j.arrival)] }.quiesced j.queue

/-- A job leaves the pool with no record: in an FLR (R611), or after the fatal errors of R1046. -/
def State.dropJob (s : State) (e : Nat) : State :=
  let s := s.release e
  { s with jobs := s.jobs.filter (fun j => j.entry != e) }

/-- COMPLETION_RECORD (R609): the record of a job whose outcome stands, once its commands, transfers and drain
are visible. Where the host withholds posted credits, or its stream is not secure (Table 11-12), the record waits for
them (R70). A job of a function in FLR leaves the pool with no record (R611). -/
def execCompletionRecord (job : Nat) (credits : Bool) (s : State) : Host.Outcome State Fault Refusal :=
  match s.job job with
  | none => .next s
  | some j =>
    if j.phase ≠ .done ∨ s.jobBusy job ∨ s.hif.held.contains job then .next s
    else if (s.queue j.queue).state = .flr ∨ s.hif.noRecords then .next (s.dropJob job)
    else if credits = false ∨ s.hif.ideBroken ∨ s.hif.held ≠ [] then .next { s with hif := { s.hif with held := s.hif.held ++ [job] } }
    else .next (s.issueRecord j)

/-- GUARD_UPDATE (R644). -/
def execGuardUpdate (q : Nat) (s : State) : Host.Outcome State Fault Refusal :=
  .next ((s.guardUpdate q).bump Reg.DSP_GUARD_UPDATES 1)

/-- POSTED_CREDIT_RETURN (R70): the host returns posted credits, and the records held back are issued, unless the host's stream is not
secure (Table 11-12). -/
def execPostedCreditReturn (s : State) : Host.Outcome State Fault Refusal :=
  if s.hif.ideBroken then .next s
  else .next (s.hif.held.foldl (fun s e => match s.job e with | some j => s.issueRecord j | none => s)
    { s with hif := { s.hif with held := [] } })

/-! Function Level Reset (R611 to R613, R627). -/

/-- The queues a function owns. -/
def State.funcQueues (s : State) (f : Nat) : List Nat := s.liveQueues.filter (fun q => s.qAssigned q && s.qFunc q == f)

/-- One function's FLR begins (R611): its queues stop, its jobs end as cancels, its arm slots, staging buffers and
ring registers clear, and STATE reads FLR until the FLR completes (R612). -/
def State.flrFunc (s : State) (f : Nat) : State :=
  let qs := s.funcQueues f
  let s := qs.foldl (fun s q =>
    let k := s.queue q
    let s := s.setQueue q { Queue.reset with
      state := .flr, dbErr := k.dbErr, dbErrCount := k.dbErrCount, histCur := k.histCur, histPrev := k.histPrev
      ledCur := k.ledCur, ledLast := k.ledLast, reserved := k.reserved }
    let s := { s with fetched := s.fetched.filter (fun x => x.queue != q) }
    s.cancelJobs (fun j => j.queue == q)) s
  let held := s.hif.held.filter (fun e => match s.job e with | some j => !qs.contains j.queue | none => false)
  { s with hif := { s.hif with held := held, flr := Tab.put (fun _ => none) f (some s.time) s.hif.flr } }

/-- FLR of a VF (R611). -/
def execFlr (vf : Nat) (s : State) : Host.Outcome State Fault Refusal :=
  if vf = 0 ∨ 63 < vf then .next s
  else .next (((s.bump Reg.HOST_FLR_COUNT 1).event 0x0906 pgHost).flrFunc vf)

/-- FLR_PF (R613): an FLR of every VF and of every queue the PF owns; VF Enable clears. -/
def execFlrPf (s : State) : Host.Outcome State Fault Refusal :=
  let s := (s.bump Reg.HOST_FLR_COUNT 1).event 0x0906 pgHost
  let s := (List.range 64).foldl (fun s f => s.flrFunc f) s
  .next { s with hif := { s.hif with vfEnable := false } }

/-- FLR_COMPLETE (R611, R612): once every job of the function has ended, its queues become DISABLED and its jobs leave the pool without
a record. -/
def execFlrComplete (func : Nat) (s : State) : Host.Outcome State Fault Refusal :=
  match Tab.get (fun _ => none) s.hif.flr func with
  | none => .next s
  | some _ =>
    let qs := s.funcQueues func
    let mine := s.jobs.filter (fun j => qs.contains j.queue)
    if mine.any (fun j => decide (j.phase ≠ .done) || s.jobBusy j.entry) then .next s
    else
      let s := mine.foldl (fun s j => s.dropJob j.entry) s
      let s := qs.foldl (fun s q => s.updQueue q (fun k => { k with state := .disabled, reserved := 0 })) s
      .next { s with hif := { s.hif with flr := Tab.put (fun _ => none) func none s.hif.flr } }

/-! The PCIe link (R568, R630). -/

/-- PCIE_LINK_TRAINING (R568): LINK_STATE takes the trained rate and width. -/
def execPcieLinkTraining (rate width : Nat) (flit : Bool) (s : State) : Host.Outcome State Fault Refusal :=
  if 6 < rate ∨ 16 < width then .next s
  else .next (((s.wf Reg.HOST_LINK_STATE 3 0 rate).wf Reg.HOST_LINK_STATE 12 8 (if rate = 0 then 0 else width)).wf
    Reg.HOST_LINK_STATE 16 16 (b2n (flit && rate != 0)))

/-- HOST_IDE_FAIL (R630): the stream becomes insecure and the K16 issues no request until it is keyed again; jobs
that need host memory end with the memory fault status. -/
def execHostIdeFail (s : State) : Host.Outcome State Fault Refusal :=
  let s := { s with hif := { s.hif with ideBroken := true, ideSecure := false } }
  let s := (s.wf Reg.HOST_LINK_STATE 17 17 0).raiseErr pgHost 0x0903 0
  .next (s.failJobs (fun j => j.needsHost) St.MEMORY_FAULT)

/-- HOST_READ_FAILURE (R630): a descriptor fetch of queue n fails, or an operand read of job n. -/
def execHostReadFailure (fetch : Bool) (n : Nat) (s : State) : Host.Outcome State Fault Refusal :=
  if fetch then
    let k := s.queue n
    if k.state = .enabled ∨ k.state = .draining then
      .next ((s.setQueue n { k with state := .error, dbErr := 8 }).raiseErr pgHost 0x0901 n)
    else .next s
  else match s.job n with
    | none => .next s
    | some j =>
      if j.phase = .done then .next s
      else .next ((s.raiseErr pgHost 0x0902 j.queue).failJobs (fun x => x.entry == n) St.MEMORY_FAULT)

end Sys2Proof.Machine
end

