-- ==== Sys2Proof/Machine/Keys.lean ====
section
/-! DEFINITION. The key block: the life-cycle and its record in OTP, the identity, the tenant key store and the debug
lock (spec/17 R861 to R874, R881 to R888, R896 to R909). -/

namespace Sys2Proof.Machine

abbrev pgKey : Nat := 0x00B
abbrev pgCipher : Nat := 0x00C

/-! OTP and the life-cycle (R861 to R866, R870). -/

/-- From and To of each record of Table 17-2. -/
def lcRecords : List (Nat × Nat × Nat) := [(0, 0, 1), (1, 1, 2), (2, 2, 3), (3, 3, 4), (4, 4, 5), (5, 1, 5)]
def lcFrom (n : Nat) : Nat := (lcRecords.getD n (0, 0, 0)).2.1
def lcTo (n : Nat) : Nat := (lcRecords.getD n (0, 0, 0)).2.2

def State.otp (s : State) (off n : Nat) : List Byte := Tab.getList (fun _ => 0) s.key.otp off n
/-- Program a word: bits go from 0 to 1 only (R864). -/
def State.program (s : State) (off n v : Nat) : State :=
  { s with key := { s.key with otp := Tab.putList (fun _ => 0) off (natLE n (leNat (s.otp off n) ||| v)) s.key.otp } }

/-- Expected intent and commit words (R864). -/
def lcIntent (n : Nat) : Nat :=
  let w := 0x4C430000 + 256 * lcFrom n + lcTo n
  w + (crc32c (natLE 4 w) <<< 32)
abbrev lcCommit : Nat := 0xA55AC33C

/-- The classes of R865. -/
inductive OtpClass where
  | absent | valid | torn | fault
deriving DecidableEq, Repr

def otpClass (stored expected : Nat) : OtpClass :=
  if stored = 0 then .absent else if stored = expected then .valid
  else if stored &&& expected = stored then .torn else .fault

def State.intentOf (s : State) (n : Nat) : OtpClass := otpClass (leNat (s.otp (16 * n) 8)) (lcIntent n)
def State.commitOf (s : State) (n : Nat) : OtpClass := otpClass (leNat (s.otp (16 * n + 8) 4)) lcCommit

/-- LC_OTP_FAULT at an OTP offset (R866). -/
def State.otpFault (s : State) (off : Nat) : State :=
  (s.wf Reg.KEY_LC_STATE 9 9 1).raiseErr pgKey 0x0D02 off

/-- The derivation of R866 from a state on, over at most n transitions. -/
def State.deriveFrom : Nat → Nat → State → State
  | 0, st, s => s.wf Reg.KEY_LC_STATE 2 0 st
  | n + 1, st, s =>
    let recs := (List.range 6).filter (fun r => lcFrom r == st)
    let c := recs.filter (fun r => s.intentOf r != .absent)
    let stray := recs.find? (fun r => s.intentOf r == .absent && s.commitOf r != .absent)
    let s0 := s.wf Reg.KEY_LC_STATE 2 0 st
    match c with
    | [] => s0
    | r :: more =>
      if more ≠ [] ∨ s.intentOf r = .fault then s0.otpFault (16 * r)
      else if s.commitOf r = .fault then s0.otpFault (16 * r + 8)
      else match stray with
        | some q => s0.otpFault (16 * q + 8)
        | none =>
          if s.intentOf r = .torn then ((s0.wf Reg.KEY_LC_STATE 8 8 1).wf Reg.KEY_LC_STATE 19 16 r).raiseErr pgKey 0x0D01 r
          else
            let s := if s.commitOf r = .valid then s else s.program (16 * r + 8) 4 lcCommit
            State.deriveFrom n (lcTo r) s

/-- Steps 1 and 2 of R909: the life-cycle state and the JTAG lock (R896). -/
def State.keyStart (s : State) : State :=
  let s := State.deriveFrom 6 0 (s.wr Reg.KEY_LC_STATE 0xF0000)
  s.wf Reg.KEY_LC_STATE 4 4 (b2n (s.lcState == 1))

/-! Identity (R870, R873, R874). -/

/-- The seed of a slot whose CRC is valid. -/
def State.seedOf (s : State) (k : Nat) : Option (List Byte) :=
  let b := s.otp (0x100 + 80 * k) 64
  if leNat (s.otp (0x140 + 80 * k) 4) = crc32c b then some b else none

/-- The lowest seed slot with a valid CRC. A slot that is wholly zero holds no seed. -/
def State.seed (s : State) : Option (List Byte) :=
  (List.range 4).findSome? (fun k => if allZero (s.otp (0x100 + 80 * k) 68) then none else s.seedOf k)

/-- The lowest slot that is wholly zero. -/
def State.emptySeedSlot (s : State) : Option Nat :=
  (List.range 4).find? (fun k => allZero (s.otp (0x100 + 80 * k) 80))

/-- K_store (R882), where there is a seed. -/
def State.kStore (s : State) : Option (List Nat) :=
  s.seed.map (fun b => ((sha384 (ascii "K16-STORE" ++ b)).take 32).map BitVec.toNat)

/-- A page's FAILED bit stands for KEY_KAT (Table 17-13). -/
def State.keyFailed (s : State) : Bool := s.pageFailed pgKey

/-- Step 4 of R909: the identity and DEVICE_ID (R873). -/
def State.deriveIdentity (s : State) : State :=
  if s.lcState < 2 ∨ 4 < s.lcState then { s with key := { s.key with ident := none } }
  else match s.seed with
    | none => { s with key := { s.key with ident := none } }.raiseErr pgKey 0x0D03 0
    | some b =>
      let d := scalarOf b
      let q := pubKey d
      { s with key := { s.key with ident := some (d, q) } }.wr64 Reg.KEY_DEVICE_ID_LO (deviceId q)

/-- The identity public key, where the key block signs (R873, KEY_KAT). -/
def State.signer (s : State) : Option (Nat × Nat × Nat) := if s.keyFailed then none else s.key.ident

/-- SPDM_STATE.CERT_OK. -/
def State.certOk (s : State) : Bool := s.rf Reg.KEY_SPDM_STATE 8 8 == 1

/-- R874: the chain that the boot flow supplies; an absent one is the empty list. -/
def State.takeChain (s : State) (chain : List Byte) : State :=
  let leaf := ((chainCerts chain).bind (·.getLast?)).map (·.key)
  if leaf.isSome ∧ leaf = s.key.ident.map (·.2) then
    { s with key := { s.key with chain := chain } }.wf Reg.KEY_SPDM_STATE 8 8 1
  else ({ s with key := { s.key with chain := [] } }.wf Reg.KEY_SPDM_STATE 8 8 0).raiseErr pgKey 0x0D04 0

/-! The tenant key store (R881 to R887). -/

/-- An erased bank. -/
def erasedBank : List Byte := List.replicate 64 0xFF
def State.bank (s : State) (slot b : Nat) : List Byte := Tab.get (fun _ => erasedBank) s.key.store (2 * slot + b)
def State.setBank (s : State) (slot b : Nat) (r : List Byte) : State :=
  { s with key := { s.key with store := Tab.put (fun _ => erasedBank) (2 * slot + b) r s.key.store } }

def bankGen (r : List Byte) : Nat := leAt r 0x3C 4
def bankRegion (r : List Byte) : Nat := leAt r 0x20 1
def bankKey (r : List Byte) : List Nat := (r.take 32).map BitVec.toNat

/-- The MAC of a bank record (R882). -/
def bankMac (k : List Nat) (slot b : Nat) (r : List Byte) : List Byte :=
  (gcmTag (aesKeys k) (((r.drop 0x24).take 8).map BitVec.toNat ++ [slot, b, 0, 0])
    ((r.take 0x2C ++ r.drop 0x3C).map BitVec.toNat) []).map (BitVec.ofNat 8)

/-- A bank is valid (R881). -/
def State.bankValid (s : State) (slot b : Nat) : Bool :=
  let r := s.bank slot b
  decide (1 ≤ bankGen r) && decide (bankGen r ≤ 0xFFFFFFFE) &&
  (match s.kStore with
   | none => false
   | some k => decide (bankMac k slot b r = (r.drop 0x2C).take 16))

/-- The active bank of a slot (R883). -/
def State.activeBank (s : State) (slot : Nat) : Option Nat :=
  match s.bankValid slot 0, s.bankValid slot 1 with
  | false, false => none
  | true, false => some 0
  | false, true => some 1
  | true, true => if bankGen (s.bank slot 0) < bankGen (s.bank slot 1) then some 1 else some 0

/-- The other valid bank. -/
def State.otherBank (s : State) (slot : Nat) : Option Nat :=
  (s.activeBank slot).bind (fun a => if s.bankValid slot (1 - a) then some (1 - a) else none)

/-- Erase every bank (R862, R872). -/
def State.eraseStore (s : State) : State := { s with key := { s.key with store := [], seals := [] } }

/-- Seals counted against a bank (R891). -/
def State.sealCount (s : State) (slot b : Nat) : Nat := Tab.get (fun _ => 0) s.key.seals (2 * slot + b)
def State.setSeals (s : State) (slot b n : Nat) : State :=
  { s with key := { s.key with seals := Tab.put (fun _ => 0) (2 * slot + b) n s.key.seals } }
/-- Each reset continues the counts from the next step of 65,536 (R891). -/
def State.sealSteps (s : State) : State :=
  { s with key := { s.key with seals := s.key.seals.map (fun (e : Nat × Nat) => (e.1, (e.2 / 65536 + 1) * 65536)) } }

/-- Step 5 of R909: banks found not valid with a GEN other than the erased value. -/
def State.countTorn (s : State) : State :=
  s.wr Reg.KEY_TORN_BANKS (((List.range 128).filter (fun i =>
    bankGen (s.bank (i / 2) (i % 2)) != allOnes32 && !s.bankValid (i / 2) (i % 2))).length)

/-! Answers, sessions and bytes of the KEY channel. -/

/-- Send an answer. -/
def State.reply (s : State) (e : Endpoint) (session : Option Nat) (a : Answer) : State :=
  { s with key := { s.key with sent := { e := e, session := session, ans := a } :: s.key.sent } }

/-- SPDM_STATE.SESSIONS follows the open sessions. -/
def State.setSessions (s : State) (l : List Session) : State :=
  { s with key := { s.key with sessions := l } }.wf Reg.KEY_SPDM_STATE 2 0 l.length

/-- The session a message arrived in, once FINISH has been answered. -/
def State.secure (s : State) (session : Option Nat) : Option Session :=
  session.bind (fun i => s.key.sessions.find? (fun x => x.id == i && x.done))

/-- Take bytes of KEY, behind the work that waits for them (R837). -/
def State.drawKey (s : State) (n : Nat) : State × Option (List Byte) :=
  if s.key.tasks ≠ [] then (s, none) else s.draw 0 n

/-- Add work that waits for bytes of KEY (R837). -/
def State.addTask (s : State) (e : Endpoint) (session : Option Nat) (w : KeyWork) : State :=
  { s with nextId := s.nextId + 1, key := { s.key with
      tasks := s.key.tasks ++ [{ id := s.nextId, since := s.time, e := e, session := session, work := w }] } }

/-- An ECDSA signature with a nonce from 64 bytes of KEY (R875). -/
def State.sign (s : State) (d : Nat) (fresh msg : List Byte) : State × List Byte :=
  ((s.bumpSat Reg.KEY_SIGNATURES 1).event 0x0D00 pgKey, sigBytes (ecSign d (scalarOf fresh) msg))

/-- LC_NONCE takes 32 fresh bytes (R868). -/
def State.setNonce (s : State) (b : List Byte) : State :=
  (List.range 8).foldl (fun s j => s.wr (Reg.KEY_LC_NONCE_0 + 4 * j) (leAt b (4 * j) 4)) s

/-! Tenant key commands (R880, R884 to R888, Table 17-8). -/

/-- A response of 16 bytes. -/
def State.tenantAnswer (s : State) (t : TenantCmd) (result : Nat) : State :=
  let slot := leAt t.payload 1 1
  let body : List Byte :=
    if result ≠ 0 then List.replicate 14 0
    else
      let gen := fun (b : Option Nat) => (b.map (fun b => bankGen (s.bank slot b))).getD 0
      let a := s.activeBank slot
      natLE 2 0 ++ natLE 4 (gen a) ++ natLE 4 (gen (s.otherBank slot)) ++
      natLE 1 ((a.map (fun b => bankRegion (s.bank slot b))).getD 0) ++
      natLE 1 (b2n (s.bankValid slot 0) + 2 * b2n (s.bankValid slot 1)) ++ natLE 2 0
  s.reply t.e t.session (.tenant (t.payload.take 1 ++ natLE 1 result ++ body))

/-- The first check that a tenant payload fails. -/
def State.tenantCheck (s : State) (p : List Byte) : Nat :=
  let code := leAt p 0 1
  let slot := leAt p 1 1
  let set := decide (code = 1)
  if code = 0 ∨ 3 < code ∨ p.length ≠ (if set then 36 else 4) then 1
  else if leAt p 3 1 ≠ 0 ∨ (code ≠ 1 ∧ leAt p 2 1 ≠ 0) then 8
  else if 63 < slot then 2
  else if code ≠ 3 ∧ s.lcState ≠ 3 then 3
  else if s.keyFailed then 7
  else if set = false then 0
  else if 15 < leAt p 2 1 ∨ (List.range 2).any (fun b => s.bankValid slot b && bankRegion (s.bank slot b) != leAt p 2 1) then 5
  else match s.activeBank slot with
    | some b => if bankGen (s.bank slot b) = 0xFFFFFFFE then 6 else 0
    | none => 0

/-- The first tenant command leaves. -/
def State.tenantPop (s : State) : State := { s with key := { s.key with tenants := s.key.tenants.drop 1, write := none } }

/-- SET's steps 1 to 3 (R884), with the nonce drawn. -/
def State.bankBegin (s : State) (t : TenantCmd) (nonce : List Byte) : State :=
  let slot := leAt t.payload 1 1
  let a := s.activeBank slot
  let b := match a with
    | none => 0
    | some a => 1 - a
  let gen := match a with
    | none => 1
    | some a => bankGen (s.bank slot a) + 1
  let body := (t.payload.drop 4).take 32 ++ natLE 1 (leAt t.payload 2 1) ++ natLE 3 0 ++ nonce
  let r := body ++ List.replicate 16 0 ++ natLE 4 gen
  let mac := bankMac ((s.kStore).getD []) slot b r
  let s := s.setBank slot b (body ++ mac ++ natLE 4 allOnes32)
  { s with key := { s.key with write := some (b, gen) } }

/-- ERASE (R886). -/
def State.bankErase (s : State) (t : TenantCmd) : State :=
  let slot := leAt t.payload 1 1
  let b := (s.activeBank slot).getD 0
  let s := s.setBank slot (1 - b) erasedBank
  if t.fail then (s.raiseErr pgKey 0x0D05 (2 * slot + b)).tenantAnswer t 7
  else ((s.setBank slot b erasedBank).setSeals slot 0 0 |>.setSeals slot 1 0).tenantAnswer t 0

/-- A tenant command that changes a slot waits for a cipher command of that slot (R903). -/
def State.slotBusy (s : State) (p : List Byte) : Bool :=
  leAt p 0 1 != 3 && ((s.cipher.map (fun c => c.slot == leAt p 1 1)).getD false)

/-- Execute waiting tenant commands in order (R888): each is checked, then answered or begun. -/
def State.tenantServe : Nat → State → State
  | 0, s => s
  | n + 1, s =>
    match s.key.tenants with
    | [] => s
    | t :: _ =>
      if s.key.write.isSome ∨ s.key.tasks.any (fun k => k.work == .bank) ∨ s.slotBusy t.payload then s
      else if s.pendingReset ∨ s.key.lc.isSome then State.tenantServe n ((s.tenantAnswer t 4).tenantPop)
      else
        let r := s.tenantCheck t.payload
        if r ≠ 0 then State.tenantServe n ((s.tenantAnswer t r).tenantPop)
        else if leAt t.payload 0 1 = 1 then
          match s.drawKey 8 with
          | (s, some nonce) => s.bankBegin t nonce
          | (s, none) => s.addTask t.e t.session .bank
        else if leAt t.payload 0 1 = 2 then State.tenantServe n ((s.bankErase t).tenantPop)
        else State.tenantServe n ((s.tenantAnswer t 0).tenantPop)

/-- A tenant payload arrives: outside a session it is an unexpected request (R880). -/
def State.tenantArrive (s : State) (t : TenantCmd) : State :=
  if (s.secure t.session).isNone then s.reply t.e t.session (.error 4)
  else State.tenantServe (s.key.tenants.length + 1) { s with key := { s.key with tenants := s.key.tenants ++ [t] } }

/-- SET_TENANT_KEY (R884, R885). -/
def execSetTenantKey (e : Endpoint) (session : Option Nat) (payload : List Byte) (s : State) : Host.Outcome State Fault Refusal :=
  if leAt payload 0 1 = 1 then .next (s.tenantArrive { e := e, session := session, payload := payload, fail := false }) else .next s

/-- ERASE_TENANT_KEY (R886); whether its bank write fails the read-back is the operand. -/
def execEraseTenantKey (e : Endpoint) (session : Option Nat) (payload : List Byte) (fail : Bool) (s : State) :
    Host.Outcome State Fault Refusal :=
  if leAt payload 0 1 = 2 then .next (s.tenantArrive { e := e, session := session, payload := payload, fail := fail }) else .next s

/-- QUERY_SLOT (R880). -/
def execQuerySlot (e : Endpoint) (session : Option Nat) (payload : List Byte) (s : State) : Host.Outcome State Fault Refusal :=
  if leAt payload 0 1 = 3 then .next (s.tenantArrive { e := e, session := session, payload := payload, fail := false }) else .next s

/-- KEY_BANK_WRITE_DONE (R884, KEY_STORE_FAIL): step 4 writes GEN, and the response is sent; the operand tells whether the read-back
fails. -/
def execKeyBankWriteDone (fail : Bool) (s : State) : Host.Outcome State Fault Refusal :=
  match s.key.write, s.key.tenants with
  | some (b, gen), t :: _ =>
    let slot := leAt t.payload 1 1
    let s := (s.bumpSat Reg.KEY_STORE_WRITES 1).event 0x0D01 pgKey
    let s := if fail then ((s.raiseErr pgKey 0x0D05 (2 * slot + b)).tenantAnswer t 7)
      else (((s.setBank slot b ((s.bank slot b).take 0x3C ++ natLE 4 gen)).setSeals slot b 0).tenantAnswer t 0)
    .next (State.tenantServe s.key.tenants.length s.tenantPop)
  | _, _ => .next s

/-! Life-cycle transitions (R867 to R871). -/

/-- LC_RESULT. -/
def State.lcResult (s : State) (st code : Nat) : State := s.wr Reg.KEY_LC_RESULT ((st <<< 28) ||| code)

/-- LC_NONCE is drawn anew, or its draw waits (R868). -/
def State.renewNonce (s : State) : State :=
  match s.drawKey 32 with
  | (s, some b) => s.setNonce b
  | (s, none) => s.addTask .i3c none .lcNonce

/-- The return token verifies (R867). -/
def State.tokenGood (s : State) : Bool :=
  let token := (List.range 24).flatMap (fun j => natLE 4 (s.rg (Reg.KEY_LC_TOKEN_0 + 4 * j)))
  let nonce := (List.range 8).flatMap (fun j => natLE 4 (s.rg (Reg.KEY_LC_NONCE_0 + 4 * j)))
  let g := pairBE token
  match s.key.ident with
  | none => false
  | some (_, q) => ecVerify Config.returnKey (ascii "K16-RETURN" ++ keyBytes q ++ nonce) g.1 g.2

/-- The record of Table 17-2 from the current state to another. -/
def State.lcRecord (s : State) (dst : Nat) : Option Nat :=
  (List.range 6).find? (fun n => lcFrom n == s.lcState && lcTo n == dst)

/-- The checks of Table 17-3 after the first two; 0 where all pass. -/
def State.lcCheck (s : State) (dst : Nat) : Nat :=
  if s.rf Reg.KEY_LC_STATE 9 9 = 1 then 7
  else if s.pendingReset then 9
  else match s.lcRecord dst with
    | none => 2
    | some n =>
      if (List.range 6).any (fun m => m != n && lcFrom m == s.lcState && s.intentOf m != .absent) then 2
      else if s.key.lc.isSome ∨ s.key.sessions ≠ [] ∨ ((s.cipher.map (fun c => c.asked != s.time)).getD false) ∨
          s.queues.any (fun (e : Nat × Queue) => e.2.state != .unassigned && e.2.state != .disabled) then 3
      else if n = 2 ∧ s.certOk = false then 4
      else if n = 3 ∧ s.tokenGood = false then 5
      else if n = 1 ∧ s.seed.isNone ∧ s.emptySeedSlot.isNone then 6
      else 0

/-- Program a drawn seed with its CRC into the lowest empty slot (R870). -/
def State.programSeed (s : State) (b : List Byte) : State :=
  match s.emptySeedSlot with
  | none => s
  | some k => (s.program (0x100 + 80 * k) 64 (leNat b)).program (0x140 + 80 * k) 4 (crc32c b)

/-- A cipher command of the same MCLK cycle is refused BUSY, as if this had been evaluated first (R905, R902). -/
def State.ciphRefuse (s : State) : State :=
  match s.key.goAt with
  | some (t, gen) =>
    if t ≠ s.time ∨ s.lcState ≠ 3 then s
    else
      let s := match s.cipher with
        | some c => if c.iv = [] then s else s.setSeals c.slot c.bank (s.sealCount c.slot c.bank - 1)
        | none => s
      ({ s with cipher := none }.wr Reg.CIPH_CIPH_GEN_USED gen).wr Reg.CIPH_CIPH_STATUS 0x3000000A
  | none => s

/-- Steps 1 and 2 of R869: the lock and the actions of Table 17-2. -/
def State.lcBegin (s : State) (n : Nat) : State :=
  let s := s.ciphRefuse.wf Reg.KEY_LC_STATE 4 4 0
  let s := if n = 3 ∨ n = 4 ∨ n = 5 then s.eraseStore else s
  let run := fun (s : State) (due : Bool) =>
    { s with key := { s.key with lc := some { record := n, seedDue := due, start := s.time } } }.lcResult 1 0
  if n = 1 ∧ s.seed.isNone then
    match s.drawKey 64 with
    | (s, some b) => run (s.programSeed b) false
    | (s, none) => run s true
  else run s false

/-- LC_TRANSITION (R867 to R870): a write of LC_CMD with OP TRANSITION. -/
def effectLcTransition (p : Path) (v : Word) (s : State) : Host.Outcome State Fault Refusal :=
  if fld v.toNat 31 28 ≠ 1 then .next s
  else if p = .host then .next (if s.key.lc.isSome then s.wf Reg.KEY_LC_RESULT 7 0 8 else s.lcResult 2 8)
  else
    let dst := fld v.toNat 2 0
    let code := s.lcCheck dst
    let back := decide (s.lcState = 3 ∧ dst = 4)
    let s := match s.lcRecord dst with
      | some n => if code = 0 then s.lcBegin n else if s.key.lc.isSome then s.wf Reg.KEY_LC_RESULT 7 0 code else s.lcResult 2 code
      | none => if s.key.lc.isSome then s.wf Reg.KEY_LC_RESULT 7 0 code else s.lcResult 2 code
    .next (if back then s.renewNonce else s)

/-- LC_BAD_OP (R869): a write of LC_CMD with a reserved OP; the path is checked first. -/
def effectLcBadOp (p : Path) (v : Word) (s : State) : Host.Outcome State Fault Refusal :=
  if fld v.toNat 31 28 = 1 then .next s
  else
    let code := if p = .host then 8 else 1
    .next (if s.key.lc.isSome then s.wf Reg.KEY_LC_RESULT 7 0 code else s.lcResult 2 code)

/-- LC_TRANSITION_DONE (R864, R869): 50 µs for each of the two words. -/
def execLcTransitionDone (s : State) : Host.Outcome State Fault Refusal :=
  match s.key.lc with
  | none => .next s
  | some r =>
    if r.seedDue ∨ s.time < r.start + 100000 then .next s
    else
      let s := (s.program (16 * r.record) 8 (lcIntent r.record)).program (16 * r.record + 8) 4 lcCommit
      .next (({ s with key := { s.key with lc := none } }.wf Reg.KEY_LC_STATE 5 5 1).lcResult 2 0)

/-- A power loss while words are being programmed: words done stay, the word in progress may be torn (R865, R866). -/
def State.lcCut (s : State) : State :=
  match s.key.lc with
  | none => s
  | some r =>
    let s := { s with key := { s.key with lc := none }, fresh := s.fresh + 1 }
    let torn := Config.tornBits (s.fresh - 1)
    if r.seedDue then s
    else if s.time < r.start + 50000 then s.program (16 * r.record) 8 (lcIntent r.record &&& torn)
    else
      let s := s.program (16 * r.record) 8 (lcIntent r.record)
      if s.time < r.start + 100000 then s.program (16 * r.record + 8) 4 (lcCommit &&& torn)
      else s.program (16 * r.record + 8) 4 lcCommit

/-- Steps 4 to 7 of R909, at the end of the first BLOCKS after a cold reset (Table 21-3). -/
def State.keyIdentity (s : State) : State :=
  if s.key.settled then s
  else
    let s := { s with key := { s.key with settled := true } }.deriveIdentity.countTorn
    let s := if 4 ≤ s.lcState ∧ s.lcState ≤ 5 then s.eraseStore else s
    s.renewNonce

/-! The debug port (R896, R897, spec/22). -/

/-- The TAP executes an instruction: EXTEST alone drives the pads. -/
def State.jtagRun (s : State) (i : JtagInstr) : State := { s with jtag := { s.jtag with instr := i, drive := none } }

/-- BYPASS (R896). -/
def execBypass (s : State) : Host.Outcome State Fault Refusal := .next (s.jtagRun .bypass)

/-- The value of IDCODE (spec/22): version 0x1, part 0x4B16, the manufacturer and 1. -/
def idcode : Nat := (1 <<< 28) ||| (0x4B16 <<< 12) ||| ((Config.jedecId % 2048) <<< 1) ||| 1

/-- IDCODE (R896): the value is what the TAP then shifts out. -/
def execIdcode (s : State) : Host.Outcome State Fault Refusal :=
  .next { s.jtagRun .idcode with jtag := { (s.jtagRun .idcode).jtag with captured := idcode } }

/-- SAMPLE/PRELOAD (R896): the boundary register captures the pads and takes what is shifted in. -/
def execSamplePreload (pads shift : Nat) (s : State) : Host.Outcome State Fault Refusal :=
  .next { s with jtag := { instr := .sample, preload := shift, captured := pads, drive := none } }

/-- EXTEST (R896): the pads take the preloaded values, and the boundary register captures them. -/
def execExtest (pads : Nat) (s : State) : Host.Outcome State Fault Refusal :=
  .next { s with jtag := { s.jtag with instr := .extest, captured := pads, drive := some s.jtag.preload } }

/-- JTAG_PRIVATE (R896): executed only while LC_STATE.JTAG_OPEN is set; locked, it acts as BYPASS. -/
def execJtagPrivate (code : Nat) (s : State) : Host.Outcome State Fault Refusal :=
  if s.lcState = 1 ∧ s.rf Reg.KEY_LC_STATE 4 4 = 1 ∧ s.pendingReset = false then .next (s.jtagRun (.privateCode code))
  else .next (s.jtagRun .bypass)

end Sys2Proof.Machine
end

