-- ==== Sys2Proof/Machine/Cipher.lean ====
section
/-! DEFINITION. The cipher block: sealing and unsealing under tenant keys (spec/17 R889 to R895, R898 to R905). -/

namespace Sys2Proof.Machine

/-- CIPH_STATUS. -/
def State.ciphStatus (s : State) (st code : Nat) : State := s.wr Reg.CIPH_CIPH_STATUS ((st <<< 28) ||| code)

/-- A command ends with a code, and tenant commands that waited for it go on (R903). -/
def State.ciphEnd (s : State) (code : Nat) : State :=
  let s := { s with cipher := none }.ciphStatus 3 code
  State.tenantServe s.key.tenants.length (if code = 0 then s.bump Reg.CIPH_CIPH_OPS 1 else s)

/-- The command as CIPH_GO finds it in the registers: slot, spaces, offsets and bytes. -/
structure CipherCmd where
  slot : Nat
  srcSpace : Nat
  dstSpace : Nat
  src : Nat
  dst : Nat
  bytes : Nat
deriving DecidableEq, Repr

def State.cipherCmd (s : State) : CipherCmd :=
  let c := s.rg Reg.CIPH_CIPH_CTRL
  { slot := fld c 21 16, srcSpace := fld c 13 12, dstSpace := fld c 9 8, src := s.rg64 Reg.CIPH_CIPH_SRC_LO
    dst := s.rg64 Reg.CIPH_CIPH_DST_LO, bytes := s.rg64 Reg.CIPH_CIPH_BYTES_LO }

/-- The size of a space. -/
def spaceSize (space : Nat) : Nat := if space = spHost then 1 <<< 64 else if space = spHbm then hbmSize else comSize

/-- The limit of PLAIN_BYTES (Table 17-10). -/
abbrev plainMax : Nat := 4294967296

/-- PLAIN_BYTES of the envelope that UNSEAL finds at its source, where it fits the command. -/
def State.peekPlain (s : State) (c : CipherCmd) : Nat :=
  let n := leNat (s.spaceBytes c.srcSpace 0 (c.src + 0x10) 8)
  if n ≤ c.bytes ∧ n ≤ plainMax then n else 0

/-- The checks of R902 after BAD_OP, in order; 0 where all pass. -/
def State.cipherCheck (s : State) (unsealing : Bool) (c : CipherCmd) : Nat :=
  let dev := if unsealing then c.dstSpace else c.srcSpace
  let srcLen := if unsealing then 64 + s.peekPlain c else c.bytes
  let dstLen := if unsealing then c.bytes else 64 + c.bytes
  let region := match s.activeBank c.slot with
    | some b => bankRegion (s.bank c.slot b)
    | none => 16
  if s.lcState ≠ 3 then 11
  else if s.cipher.isSome ∨ s.pendingReset ∨ s.key.lc.isSome then 10
  else if s.keyFailed ∨ s.pageFailed pgCipher then 12
  else if region = 16 then 2
  else if c.srcSpace = 3 ∨ c.dstSpace = 3 ∨ dev = spHost ∨ c.src % 64 ≠ 0 ∨ c.dst % 64 ≠ 0 ∨ (unsealing = false ∧ plainMax < c.bytes) ∨
      spaceSize c.srcSpace < c.src + srcLen ∨ spaceSize c.dstSpace < c.dst + dstLen then 4
  else if (c.srcSpace ≠ spHost ∧ s.areaIn region c.srcSpace c.src srcLen = false) ∨
      (c.dstSpace ≠ spHost ∧ s.areaIn region c.dstSpace c.dst dstLen = false) then 3
  else if c.srcSpace = c.dstSpace ∧ c.src < c.dst + dstLen ∧ c.dst < c.src + srcLen ∧ srcLen ≠ 0 ∧ dstLen ≠ 0 then 5
  else 0

/-- The time a command takes (R894). -/
def cipherNs (c : CipherRun) : Nat :=
  1000 + ceilDiv c.bytes (if c.srcSpace = spHost ∨ c.dstSpace = spHost then 16 else 64)

/-- A SEAL goes on once it has its IV (R890): it counts against the bank and runs. -/
def State.sealStart (s : State) (c : CipherRun) (iv : List Byte) : State :=
  let s := s.setSeals c.slot c.bank (s.sealCount c.slot c.bank + 1)
  { s with cipher := some { c with iv := iv, ends := some (s.time + cipherNs c) } }.ciphStatus 2 0

/-- A SEAL that waits for bytes of CIPHER tries again (R837). -/
def State.cipherServe (s : State) : State :=
  match s.cipher with
  | some c =>
    if c.ends.isSome then s
    else match s.draw 1 12 with
      | (s, some iv) => s.sealStart c iv
      | (s, none) => s
  | none => s

/-- A SEAL or UNSEAL is evaluated now (R905). -/
def State.ciphGo (s : State) : State := { s with key := { s.key with goAt := some (s.time, s.rg Reg.CIPH_CIPH_GEN_USED) } }

/-- SEAL (R889 to R891): a write of CIPH_GO with OP 1. -/
def effectSeal (_p : Path) (v : Word) (s : State) : Host.Outcome State Fault Refusal :=
  if bit v.toNat 0 = false ∨ s.rf Reg.CIPH_CIPH_CTRL 31 28 ≠ 1 then .next s
  else
    let s := s.ciphGo
    let c := s.cipherCmd
    let code := s.cipherCheck false c
    if s.cipher.isSome ∧ code ≠ 0 then .next (s.wf Reg.CIPH_CIPH_STATUS 7 0 code)
    else if code ≠ 0 then .next (s.ciphStatus 3 code)
    else
      let b := (s.activeBank c.slot).getD 0
      let r := s.bank c.slot b
      let s := s.wr Reg.CIPH_CIPH_GEN_USED (bankGen r)
      if 0x100000000 - 65536 ≤ s.sealCount c.slot b then .next (s.ciphStatus 3 9)
      else
        let run : CipherRun := { openIt := false, slot := c.slot, bank := b, gen := bankGen r, region := bankRegion r, srcSpace := c.srcSpace,
                                 src := c.src, dstSpace := c.dstSpace, dst := c.dst, bytes := c.bytes, asked := s.time, iv := [], ends := none }
        .next ({ s with cipher := some run }.ciphStatus 1 0).cipherServe

/-- The bank that an envelope's GEN selects (R892). -/
def State.unsealBank (s : State) (slot gen : Nat) : Option Nat :=
  match s.activeBank slot with
  | none => none
  | some a =>
    if bankGen (s.bank slot a) = gen then some a
    else (s.otherBank slot).bind (fun b => if bankGen (s.bank slot b) = gen then some b else none)

/-- An envelope that UNSEAL refuses (R899), the match of GEN apart. -/
def envelopeBad (e : List Byte) (slot region bytes : Nat) : Bool :=
  leAt e 0 4 != 0x4C414553 || leAt e 4 1 != 1 || leAt e 5 1 != slot || leAt e 6 1 != region || leAt e 7 1 != 0 || leAt e 0x0C 4 != 0 ||
  leAt e 0x24 12 != 0 || decide (bytes < leAt e 0x10 8) || decide (plainMax < leAt e 0x10 8)

/-- UNSEAL (R889, R892, R899): a write of CIPH_GO with OP 2. -/
def effectUnseal (_p : Path) (v : Word) (s : State) : Host.Outcome State Fault Refusal :=
  if bit v.toNat 0 = false ∨ s.rf Reg.CIPH_CIPH_CTRL 31 28 ≠ 2 then .next s
  else
    let s := s.ciphGo
    let c := s.cipherCmd
    let code := s.cipherCheck true c
    if s.cipher.isSome ∧ code ≠ 0 then .next (s.wf Reg.CIPH_CIPH_STATUS 7 0 code)
    else if code ≠ 0 then .next (s.ciphStatus 3 code)
    else
      let region := bankRegion (s.bank c.slot ((s.activeBank c.slot).getD 0))
      if s.areaBad c.srcSpace c.src 64 ∨ (c.srcSpace = spHost ∧ s.hif.ideBroken) then
        .next ((s.noteRead none c.srcSpace c.src 64).raiseErr pgCipher 0x1401 2 |>.ciphStatus 3 12)
      else
        let e := s.spaceBytes c.srcSpace 0 c.src 64
        match s.unsealBank c.slot (leAt e 8 4) with
        | none => .next (s.ciphStatus 3 6)
        | some b =>
          if envelopeBad e c.slot region c.bytes then .next (s.ciphStatus 3 6)
          else
            let run : CipherRun := { openIt := true, slot := c.slot, bank := b, gen := leAt e 8 4, region := region, srcSpace := c.srcSpace,
                                     src := c.src, dstSpace := c.dstSpace, dst := c.dst, bytes := leAt e 0x10 8, asked := s.time, iv := [],
                                     ends := none }
            let s := s.wr Reg.CIPH_CIPH_GEN_USED run.gen
            .next ({ s with cipher := some { run with ends := some (s.time + cipherNs run) } }.ciphStatus 2 0)

/-- CIPHER_BAD_OP (R902): a write of CIPH_GO with a reserved OP. -/
def effectCipherBadOp (_p : Path) (v : Word) (s : State) : Host.Outcome State Fault Refusal :=
  let op := s.rf Reg.CIPH_CIPH_CTRL 31 28
  if bit v.toNat 0 = false ∨ op = 1 ∨ op = 2 then .next s
  else if s.cipher.isSome then .next (s.wf Reg.CIPH_CIPH_STATUS 7 0 1)
  else .next (s.ciphStatus 3 1)

/-- The bytes a command writes where all goes well: none where a tag does not verify (R890, R892). -/
def State.cipherOut (s : State) (c : CipherRun) : Option (List Byte) :=
  let key := bankKey (s.bank c.slot c.bank)
  if c.openIt then
    let e := s.spaceBytes c.srcSpace 0 c.src (64 + c.bytes)
    let n := e.map BitVec.toNat
    (gcmDecrypt key ((n.drop 0x18).take 12) (n.take 0x30) (n.drop 64) ((n.drop 0x30).take 16)).map (fun l => l.map (BitVec.ofNat 8))
  else
    let h := natLE 4 0x4C414553 ++ natLE 1 1 ++ natLE 1 c.slot ++ natLE 1 c.region ++ natLE 1 0 ++ natLE 4 c.gen ++ natLE 4 0 ++
      natLE 8 c.bytes ++ c.iv ++ natLE 12 0
    let g := gcmEncrypt key (c.iv.map BitVec.toNat) (h.map BitVec.toNat) ((s.spaceBytes c.srcSpace 0 c.src c.bytes).map BitVec.toNat)
    some (h ++ g.2.map (BitVec.ofNat 8) ++ g.1.map (BitVec.ofNat 8))

/-- CIPHER_DONE (R890 to R894): the command ends at its time, and its bytes are written. A tag that fails leaves zeros (R893), and so does a
fault, which the operand reports or an uncorrectable source word makes (CIPH_FAULT). -/
def execCipherDone (fault : Bool) (s : State) : Host.Outcome State Fault Refusal :=
  match s.cipher with
  | none => .next s
  | some c =>
    match c.ends with
    | none => .next s
    | some t =>
      if s.time < t then .next s
      else
        let srcLen := if c.openIt then 64 + c.bytes else c.bytes
        let dstLen := if c.openIt then c.bytes else 64 + c.bytes
        let down := (decide (c.srcSpace = spHost) || decide (c.dstSpace = spHost)) && s.hif.ideBroken
        let bad := fault || down || s.areaBad c.srcSpace c.src srcLen
        let s := if c.srcSpace = spHost ∧ down then s else s.noteRead none c.srcSpace c.src srcLen
        let wr := fun (s : State) (bs : List Byte) => if c.dstSpace = spHost ∧ down then s else s.writeSpace none c.dstSpace 0 c.dst bs
        let ev : EvSource := { region := some c.region }
        if bad then
          .next (((wr s (List.replicate dstLen 0)).raiseErr pgCipher 0x1401 (if c.openIt then 2 else 1)).ciphEnd 12)
        else match s.cipherOut c with
          | none =>
            let s := (wr s (List.replicate dstLen 0)).bump Reg.CIPH_CIPH_AUTH_FAILS 1
            .next ((s.event 0x1402 pgCipher ev).ciphEnd 7)
          | some bs => .next (((wr s bs).event (if c.openIt then 0x1401 else 0x1400) pgCipher ev).ciphEnd 0)

/-- CIPHER_ENTROPY_TIMEOUT (R895): a command has waited more than 10 ms for CIPHER. -/
def execCipherEntropyTimeout (s : State) : Host.Outcome State Fault Refusal :=
  match s.cipher with
  | none => .next s
  | some c => if c.ends.isSome ∨ s.time ≤ c.asked + 10000000 then .next s else .next (s.ciphEnd 8)

end Sys2Proof.Machine
end

