-- ==== Sys2Proof/Machine/Dispatcher.lean ====
section
/-! DEFINITION. The dispatcher (spec/12_dispatch_percentile_guard.md): the selection that starts jobs, the
commands of its two windows, contract writes, and the stops of jobs (R37 to R69, R693). -/

namespace Sys2Proof.Machine

/-- A waiting job passes the feasibility test now (R45, R56, R589, R709). -/
def State.jobFeasible (s : State) (j : Job) : Bool :=
  feasibleAt s.time j.deadline j.margin j.allowance (s.jobTFirst j) (s.ingress j.hostBytes + s.wakeTime j)

/-- A job that no longer passes its test completes with DEADLINE and no result (R45, R46). -/
def State.lateBeforeStart (s : State) (j : Job) : State :=
  ((s.bump Reg.DSP_LATE_BEFORE_START 1).event 0x0703 pgDispatch j.ev).refuseJob j.entry St.DEADLINE

/-- LATE_BEFORE_START (R45): the deadline-feasibility test of a waiting job. -/
def execLateBeforeStart (job : Nat) (s : State) : Host.Outcome State Fault Refusal :=
  match s.job job with
  | none => .next s
  | some j => if j.phase = .waiting ∧ s.jobFeasible j = false then .next (s.lateBeforeStart j) else .next s

/-- The admission tests that complete a waiting job (R640, R690): NO_QUOTA, then ENERGY_UNFIT. -/
def State.admitJob (s : State) (j : Job) : State :=
  if s.quotaZero j then (s.bump Reg.DSP_NO_QUOTA_COUNT 1).refuseJob j.entry St.NO_QUOTA
  else if s.unfitEver j then
    ((s.bump (govRg j.region Reg.GRG_RG_UNFIT) 1).event 0x0806 pgGovernor j.ev).refuseJob j.entry St.ENERGY_UNFIT
  else s

/-- Waiting jobs in dispatch order (R654). -/
def State.waitingJobs (s : State) : List Job :=
  sortBy s.dispatchBefore (s.jobs.filter (fun j => decide (j.phase = .waiting)))

/-- A region is fenced (R1038). -/
def State.fenced (s : State) (r : Nat) : Bool := bit (s.rg Reg.ERRP_RG_FENCE) r

/-! Jobs on the gust lane (R603 to R605, R624, R625). -/

/-- CCLK cycles of Table 11-3 from the last beat to the claim, in whole steps of TIME. -/
def State.laneNs (s : State) : Nat := 13 * 625 * cclkDiv s.ratio / 20000 * 5

/-- Stage 3 takes submissions in the order of their last beats, those of one cycle in ascending queue number (R605, R624). -/
def laneBefore (a b : Job) : Bool :=
  if a.arrival ≠ b.arrival then decide (a.arrival < b.arrival)
  else if a.queue ≠ b.queue then decide (a.queue < b.queue) else decide (a.order < b.order)

/-- A job on the lane has come to its claim: no earlier submission is still on the lane, and the cycles before stage 13 have passed. -/
def State.laneDue (s : State) (j : Job) : Bool :=
  decide (j.arrival + s.laneNs ≤ s.time) && s.jobs.all (fun i => !(decide (i.phase = .lane) && laneBefore i j))

/-- The rectangle check of R603. -/
def State.laneReady (s : State) (j : Job) : Bool :=
  (rbTuns j.payload).all (fun t => s.inRegion j.region t && !s.tunClaimed t) && (s.rectGrist j.payload).isSome

/-- Stages 8 and 9: R56 with R589. -/
def State.laneFeasible (s : State) (j : Job) : Bool :=
  feasibleAt s.time j.deadline j.margin j.allowance (s.jobTFirst j) (s.ingress j.hostBytes)

/-- Nothing keeps the lane from starting a job of the region (R1038, R1046, R1089). -/
def State.laneOpen (s : State) (j : Job) : Bool := !s.fatal && !s.fenced j.region && s.boot.commit.isNone

/-- What one walk of R693 has come to. -/
structure Walk where
  s : State
  first : Bool
  stopped : Bool
deriving DecidableEq, Repr

/-- The walk of R693 over one candidate. -/
def Walk.visit (w : Walk) (j : Job) : Walk :=
  if w.stopped then w
  else if w.s.gov.therm = .alert ∧ 2 ≤ j.cls then w
  else if w.s.fits j then
    if w.s.jobFeasible j then
      let s := (w.s.reserve j.entry).startJob j.entry
      let s := (s.bump Reg.DSP_DSP_STARTS 1).event 0x0701 pgDispatch j.ev
      { w with s := s, stopped := true }
    else { w with s := w.s.lateBeforeStart j }
  else if w.first then
    let s := if w.s.unfitDev j then
        let s := (w.s.bump64 Reg.GOV_BUDGET_SHORT_LO 1).event 0x0840 pgGovernor
        { s with gov := { s.gov with tickShort := true } }
      else (w.s.bump (govRg j.region Reg.GRG_RG_SHORT) 1).event 0x0841 pgGovernor { region := some j.region }
    let since := match s.gov.holdJob with
      | some (e, t) => if e = j.entry then t else s.time
      | none => s.time
    let s := { s with gov := { s.gov with holdJob := some (j.entry, since) } }
    let hold := s.rf Reg.GOV_HOLD 15 0
    { s := s, first := false, stopped := decide (0 < hold) && decide (since + 1000 * hold ≤ s.time) }
  else w

/-- The selection of an MCLK cycle (R641, R693): admission tests of every waiting job, the candidate list, and the walk that
starts at most one job. RES_BLOCKED counts when the first job in dispatch order fails the region-resource test. -/
def State.selectJob (s : State) : State :=
  let s := s.waitingJobs.foldl State.admitJob s
  let ws := s.waitingJobs
  let s := match ws with
    | [] => s
    | j :: _ => if s.resourceTest j then s else (s.bump Reg.DSP_RES_BLOCKED 1).event 0x0741 pgDispatch
  let cand := ws.filter (fun j => s.resourceTest j && !s.fenced j.region)
  let w := cand.foldl Walk.visit { s := s, first := true, stopped := false }
  if w.first then { w.s with gov := { w.s.gov with holdJob := none } } else w.s

/-- Nothing starts before ready, after a fatal error (R1046), during a commit of a calibration record (R1089), or in a cycle
whose check of the dispatch order has failed (DSP_ORDER). -/
def State.mayStart (s : State) : Bool := s.ready && !s.fatal && s.boot.commit.isNone && !s.gov.startBarred

/-- The selection at the end of a cycle in which it is asked for: a cancel, a drain or a fence of the cycle has taken effect, and so
has a claim of the gust lane (R625, R667, R1062). -/
def State.startStep (s : State) : State :=
  let s := s.commitStep
  let go := s.gov.startAsked && s.mayStart
  let s := { s with gov := { s.gov with startAsked := false, startBarred := false } }
  if go then s.selectJob else s

/-- JOB_START (R641): the selection of this MCLK cycle, which runs once in it. -/
def execJobStart (s : State) : Host.Outcome State Fault Refusal := .next { s with gov := { s.gov with startAsked := true } }

/-! Commands (R655 to R658, R664 to R669). -/

/-- A window's register: HCMD at its own offset, MCMD 0x20 above (Table 12-7). -/
def winReg (p : Path) (a : Nat) : Nat := match p with | .host => a | .manager => a + 0x20

/-- CMD_RESULT of a window (Table 12-7). -/
def State.cmdResult (s : State) (p : Path) (matched code : Nat) : State :=
  s.wr (winReg p Reg.DSP_HCMD_RESULT) ((Nat.min matched 0xFFFF <<< 8) ||| code)

/-- A CMD_GO write has arrived (R656): the command takes effect in the MCLK cycle that follows, with its window's tag and argument. -/
def State.winArrive (s : State) (p : Path) (op q : Nat) : State :=
  let c : WinCmd := { manager := decide (p = .manager), op := op, queue := q % 1024, tag := s.rg64 (winReg p Reg.DSP_HCMD_TAG_LO)
                      boost := s.rf (winReg p Reg.DSP_HCMD_ARG) 7 0 }
  { s with hif := { s.hif with winNext := s.hif.winNext ++ [c] } }

/-- The path of a command's window. -/
def WinCmd.path (c : WinCmd) : Path := if c.manager then .manager else .host

/-- A job of the command's queue that a cancel matches (R657, R666): it waits or has started, and its completion record has not been
issued. -/
def WinCmd.cancels (c : WinCmd) (j : Job) : Bool :=
  j.queue == c.queue && (c.op == 2 || j.tag == c.tag) && (decide (j.phase ≠ .done) || decide (j.start ≠ 0))

/-- A waiting job that a REPRIO matches (R657, R668, R669). -/
def WinCmd.boosts (c : WinCmd) (j : Job) : Bool :=
  j.queue == c.queue && j.tag == c.tag && (decide (j.phase = .waiting) || decide (j.phase = .payload))

/-- A job of the queue that waits: it has not started, and no outcome of it stands (R657, R669). -/
def WinCmd.drains (c : WinCmd) (j : Job) : Bool :=
  j.queue == c.queue && (decide (j.phase = .waiting) || decide (j.phase = .payload) || decide (j.phase = .lane))

/-- A cancel reaches one job. A waiting job that no longer passes its feasibility test completes with DEADLINE, which comes before
CANCELLED in one cycle (R66). -/
def State.winCancel (s : State) (j : Job) : State :=
  if j.phase = .waiting ∧ s.jobFeasible j = false then s.lateBeforeStart j else s.cancelJob j

/-- A command takes effect (Table 12-4, R657, R658). -/
def State.winApply (s : State) (c : WinCmd) : State :=
  let q := c.queue
  let st := (s.queue q).state
  let res := fun (s : State) (n code : Nat) => s.cmdResult c.path n code
  match c.op with
  | 1 | 2 =>
    let hits := s.jobs.filter c.cancels
    if st = .unassigned then res s 0 3
    else if hits = [] then res s 0 1
    else res (hits.foldl State.winCancel s) hits.length 0
  | 3 =>
    let n := countWhere c.boosts s.jobs
    if st = .unassigned then res s 0 3
    else if n = 0 then res s 0 1
    else res { s with jobs := s.jobs.map (fun j => if c.boosts j then { j with boost := c.boost } else j) } n 0
  | 4 =>
    let hits := s.jobs.filter c.drains
    if st ≠ .enabled then res s 0 3
    else res (hits.foldl (fun s j => s.refuseJob j.entry St.DRAINING) (s.updQueue q (fun k => { k with state := .draining }))) hits.length 0
  | 5 => if st ≠ .draining then res s 0 3 else res (s.updQueue q (fun k => { k with state := .enabled })) 0 0
  | _ => res s 0 2

/-- A DRAIN or UNDRAIN of the host window meets the other command of the manager's for the same queue (R665). -/
def WinCmd.overridden (c : WinCmd) (cs : List WinCmd) : Bool :=
  !c.manager && (c.op == 4 || c.op == 5) && cs.any (fun m => m.manager && m.queue == c.queue && (m.op == 4 || m.op == 5) && m.op != c.op)

/-- The commands of one MCLK cycle, in the order of R664. A REPRIO waits for the cycle's job start (R668). -/
def State.winCycle (s : State) : State :=
  let cs := s.hif.winNext
  let one := fun (s : State) (c : WinCmd) => if c.overridden cs then s.cmdResult c.path 0 4 else s.winApply c
  let s := { s with hif := { s.hif with winNext := [], winNow := cs.filter (fun c => c.op == 3) } }
  let s := (cs.filter (fun c => c.op == 4 || c.op == 5)).foldl one s
  (cs.filter (fun c => c.op != 3 && c.op != 4 && c.op != 5)).foldl one s

/-- The REPRIOs of the cycle take effect on the jobs that it has not started. -/
def State.winReprio (s : State) : State := s.hif.winNow.foldl State.winApply { s with hif := { s.hif with winNow := [] } }

/-- CANCEL (R656, R657). -/
def effectCancel (p : Path) (q : Nat) (s : State) : Host.Outcome State Fault Refusal := .next (s.winArrive p 1 q)

/-- CANCEL_QUEUE (R656, R657). -/
def effectCancelQueue (p : Path) (q : Nat) (s : State) : Host.Outcome State Fault Refusal := .next (s.winArrive p 2 q)

/-- REPRIO (R656, R657). -/
def effectReprio (p : Path) (q : Nat) (s : State) : Host.Outcome State Fault Refusal := .next (s.winArrive p 3 q)

/-- DRAIN (R656, R657). -/
def effectDrain (p : Path) (q : Nat) (s : State) : Host.Outcome State Fault Refusal := .next (s.winArrive p 4 q)

/-- UNDRAIN (R656, R657). -/
def effectUndrain (p : Path) (q : Nat) (s : State) : Host.Outcome State Fault Refusal := .next (s.winArrive p 5 q)

/-- DISPATCH_CMD_BAD_OP (R657): a CMD_GO whose OP is reserved. -/
def effectDispatchCmdBadOp (p : Path) (v : Word) (s : State) : Host.Outcome State Fault Refusal :=
  let op := fld v.toNat 31 28
  if 1 ≤ op ∧ op ≤ 5 then .next s else .next (s.winArrive p op (fld v.toNat 25 16))

/-- CONTRACT_WRITE (R661): Q_TARGET or Q_CONTRACT of queue q. -/
def effectContractWrite (_p : Path) (q : Nat) (target : Bool) (v : Word) (s : State) : Host.Outcome State Fault Refusal :=
  if 1024 ≤ q then .next s
  else if target then .next ((s.wr (qReg q Reg.QR_Q_TARGET) v.toNat).guardUpdate q)
  else .next ((s.wr (qReg q Reg.QR_Q_CONTRACT) (v.toNat &&& 0xFF003FFF)).guardUpdate q)

/-! Stops (R49, R50, R54, R62, R66 to R69, R691). -/

/-- One stop cause of the cycle takes its effect. -/
def State.settleStop (s : State) (a : StopAsk) : State :=
  match a.target with
  | .job e => s.stopJob e a.status
  | .command i => s.stopCommand i a.status
  | .halt k => if (s.core k).ending.isSome then s else s.haltNow k

/-- The place of a stop cause in its cycle: the order of R66, and halts, which end what the others have stopped, last. -/
def StopAsk.place (a : StopAsk) : Nat := match a.target with | .halt _ => 5 | _ => St.rank a.status

/-- The stop causes of an MCLK cycle, at its end: whatever has come to its own end in the cycle, or has met a fault, has done so
(R66, R522, R523, R670). -/
def State.settleStops (s : State) : State :=
  (sortBy (fun a b => decide (a.place < b.place)) s.stops).foldl State.settleStop { s with stops := [] }

/-- STOP_TIME_REACHED (R54, R49): a running command's own stop time, or a job's engine stop time. -/
def execStopTimeReached (w : StopOf) (s : State) : Host.Outcome State Fault Refusal :=
  match w with
  | .command i => match s.cmd i with
    | none => .next s
    | some c =>
      if c.stop = allOnes64 ∨ s.time < c.stop ∨ c.phase ≠ .running then .next s
      else .next (s.askStop (.command i) St.DEADLINE)
  | .job e => match s.job e with
    | none => .next s
    | some j =>
      if j.stop = allOnes64 ∨ s.time < j.stop ∨ j.phase ≠ .running then .next s
      else .next (s.askStop (.job e) St.DEADLINE)

/-- HALT_TIME_REACHED (R491, R522): the halt time of the program on core k has come; it ends at the cycle's end unless it halts in
the cycle. -/
def execHaltTimeReached (k : Nat) (s : State) : Host.Outcome State Fault Refusal :=
  let c := s.core k
  if 8 ≤ k ∨ c.job.isNone ∨ c.ending.isSome ∨ c.haltTime = allOnes64 ∨ s.time < c.haltTime then .next s
  else .next (s.askStop (.halt k) (stopStatus c.stopcause))

/-- ENERGY_CEILING_STOP (R691): a running job whose metered energy has reached its ceiling. -/
def execEnergyCeilingStop (job : Nat) (s : State) : Host.Outcome State Fault Refusal :=
  match s.job job with
  | none => .next s
  | some j =>
    match j.ceiling with
    | none => .next s
    | some c =>
      if j.phase ≠ .running ∨ j.energy < c * 1000000 ∨ j.stopping.isSome ∨
          s.stops.contains { target := .job job, status := St.ENERGY_CEILING } then .next s
      else .next ((s.event 0x0805 pgGovernor j.ev).askStop (.job job) St.ENERGY_CEILING)

/-! The gust lane (R603 to R608, R669). -/

/-- A job leaves the lane for admission (R606, R607). -/
def State.gustFallback (s : State) (j : Job) : State :=
  ((s.bump Reg.HOST_GUST_FALLBACKS 1).event 0x0903 pgHost j.ev).updJob j.entry (fun j => { j with phase := .waiting })

/-- GUST_LANE_ENTRY (R603 to R608, R624, Table 11-3): the first inline FIRE on the lane passes its stages once the cycles before its
claim have passed. Its tuns are claimed and its run begins, or it leaves the lane, or it ends. One that leaves the lane at stage 5
meets its first feasibility test in admission. -/
def execGustLaneEntry (job : Nat) (s : State) : Host.Outcome State Fault Refusal :=
  match s.job job with
  | none => .next s
  | some j =>
    if j.phase ≠ .lane ∨ j.kind ≠ .fire ∨ s.laneDue j = false then .next s
    else
      let late := !s.laneFeasible j
      if s.laneReady j = false then
        .next (if late then ((s.gustFallback j).event 0x0702 pgDispatch j.ev).refuseJob job St.LATE_ON_ARRIVAL else s.gustFallback j)
      else if late then .next ((s.event 0x0702 pgDispatch j.ev).refuseJob job St.LATE_ON_ARRIVAL)
      else if s.fits j = false ∨ s.laneOpen j = false then .next (s.gustFallback j)
      else
        let s := s.updJob job (fun j => { j with gust := true })
        let s := ((s.bump Reg.HOST_GUST_STARTS 1).event 0x0902 pgHost j.ev).event 0x0701 pgDispatch j.ev
        let s := (s.reserve job).startJob job
        match s.cmds.getLast? with
        | none => .next s
        | some c => .next (s.annealIssue c)

/-! Engine commands (R331, R481). -/

/-- The place of a command among those issued in one MCLK cycle (R331): the dispatcher first, then the cores. -/
def Command.issueRank (c : Command) : Nat := match c.core with | some (k, _) => k + 1 | none => 0

/-- ENGINE_QUEUE_ENTRY (R331, R332): an issued command enters the queue of its engine, in issue order, where an entry is free. -/
def execEngineQueueEntry (cmd : Nat) (s : State) : Host.Outcome State Fault Refusal :=
  match s.cmd cmd with
  | none => .next s
  | some c =>
    let issued := s.cmds.filter (fun (x : Command) => decide (x.engine = c.engine) && decide (x.phase = .issued) && decide (x.block ≠ []))
    let queued := countWhere (fun (x : Command) => decide (x.engine = c.engine) && decide (x.phase = .queued)) s.cmds
    let first := leastBy (fun (a b : Command) => decide (a.issued < b.issued) || (decide (a.issued = b.issued) && decide (a.issueRank < b.issueRank))) issued
    if c.engine = .tun ∨ (first.map (·.id)) ≠ some cmd ∨ 16 ≤ queued then .next s
    else .next ({ s with cmds := s.cmds.filter (fun (x : Command) => x.id != cmd) ++ [{ c with phase := .queued }] }.wakeEngine c.engine)

/-- ENGINE_COMMAND_END (R214, R481): a command that has come to its end shows its result and its status. The repair of an ASSIGN comes
before (R316). -/
def execEngineCommandEnd (cmd : Nat) (s : State) : Host.Outcome State Fault Refusal :=
  if ((s.cmd cmd).map s.repairing).getD false then .next s else .next (s.finishCommand cmd)

end Sys2Proof.Machine
end

