-- ==== Sys2Proof/Machine/Gnomos.lean ====
section
/-! DEFINITION. What a Gnomos core executes: bundles with their checks, stalls and traps, interrupts, the store buffer, the
engine slot and transfers, and the load of a program image (spec/09_gnomos_cores.md, spec/10_gnomos_encoding.md). -/

namespace Sys2Proof.Machine

/-! The address map (R461 to R464, R551). -/

/-- The memory that a core address names: local memory, the commons by alias (0 normal, 1 bit-set, 2 bit-clear), or HBM. -/
inductive CoreSpace where
  | local_
  | com (alias_ : Nat)
  | hbm
deriving DecidableEq, Repr

/-- Table 09-3: the memory and the offset of a naturally aligned access of n bytes at a. -/
def coreMap (a n : Nat) : Option (CoreSpace × Nat) :=
  if a + n ≤ 0x80000 then some (.local_, a)
  else if 0x10000000 ≤ a ∧ a + n ≤ 0x16000000 then some (.com ((a - 0x10000000) / comSize), (a - 0x10000000) % comSize)
  else if 0x1000000000 ≤ a ∧ a + n ≤ 0x2800000000 then some (.hbm, a - 0x1000000000)
  else none

/-- The space code of a shared memory. -/
def CoreSpace.code : CoreSpace → Nat
  | .hbm => spHbm
  | _ => spCom

/-- An access that a slot may make: none for ACCESS (R461, R462, R464, R551, R552). -/
def State.mapAccess (s : State) (region : Nat) (kind : MKind) (a n : Nat) : Option (CoreSpace × Nat) :=
  match coreMap a n with
  | none => none
  | some (.local_, o) => if kind = .alias_ then none else some (.local_, o)
  | some (.hbm, o) => if kind = .alias_ ∨ s.areaIn region spHbm o n = false then none else some (.hbm, o)
  | some (.com w, o) =>
    let ok := match kind with
      | .load => true
      | .store => w == 0 || n == 4 || n == 8
      | _ => w == 0
    if ok && s.areaIn region spCom o n then some (.com w, o) else none

/-- The effective address of a memory slot. -/
def Core.slotAddr (c : Core) (x : Slot) : Nat :=
  if mKind x.op = .amo then c.reg x.a else (c.reg x.a + to64 x.imm) % two64

/-- A slot that accesses memory. -/
def Slot.isMem (x : Slot) : Bool :=
  (x.k == 4 && mKind x.op != .fence && mKind x.op != .other) || (x.k == 5 && mKind x.op == .load)

/-- The memory and offset of a slot's access. -/
def State.slotMap (s : State) (c : Core) (x : Slot) : Option (CoreSpace × Nat) :=
  s.mapAccess c.region (mKind x.op) (c.slotAddr x) (accessBytes x.op)

/-! Hop counts (R739). -/

/-- The portal stop of a core (Table 14-1). -/
def coreStop (k : Nat) : Nat := 4 * (k / 2) + 1 + k % 2

/-- The ring distance between two stops. -/
def ringHops (a b : Nat) : Nat := let d := if a ≤ b then b - a else a - b; Nat.min d (48 - d)

/-- The latency of a load of n bytes (Table 10-5). -/
def loadLatency (k : Nat) (m : CoreSpace × Nat) (n : Nat) : Nat :=
  match m.1 with
  | .local_ => if n = 128 then 4 else 3
  | .com _ => (if n = 128 then 17 else 16) + ringHops (coreStop k) (comStop (comBank m.2))
  | .hbm => (if n = 128 then 122 else 120) + ringHops (coreStop k) (hbmStop (hbmStack m.2) (hbmPort m.2))

/-! Local memory (R774, Table 09-11). -/

/-- Read local memory: none where a word is uncorrectable. -/
def State.lmRead (s : State) (k off n : Nat) : State × Option (List Byte) :=
  let ws := (areaWords off n).map (· / 8)
  let s := ws.foldl (fun s w => s.lmCorrect k w) s
  match ws.find? (fun w => decide (2 ≤ s.mark (lmMark k w))) with
  | some w => (s.raiseErr (pgGnm k) 0x0602 w, none)
  | none => (s, some (Tab.getList (fun _ => 0) (s.core k).lmem off n))

/-- Write local memory. A partial write reads its word: a single-bit error there is corrected, an uncorrectable word fails the write
and is left as it was. Any other write gives fresh check bits, or the armed injection (R1051). -/
def State.lmWrite (s : State) (k off : Nat) (bs : List Byte) : State × Bool :=
  let n := bs.length
  let part := (areaWords off n).filter (fun w => decide (w < off) || decide (off + n < w + 8))
  match part.find? (fun w => decide (2 ≤ s.mark (lmMark k (w / 8)))) with
  | some w => (s.raiseErr (pgGnm k) 0x0602 (w / 8), false)
  | none =>
    let s := (part.foldl (fun s w => s.lmCorrect k (w / 8)) s).lmFresh k (off / 8) (areaWords off n).length
    (s.updCore k (fun c => { c with lmem := Tab.putList (fun _ => 0) off bs c.lmem }), true)

/-- The program of a core ends with a fault, whatever end it was already at. -/
def State.faultProgram (s : State) (k status : Nat) : State :=
  let s := s.updCore k (fun c => { c with ending := c.ending.map (fun _ => (status, false)) })
  (s.endProgram k status false).haltStep k

/-! Traps and interrupts (R492 to R500, R520, R521, R543). -/

/-- The registers that keep the last trap or fault (Table 09-10). -/
def State.noteTrap (s : State) (k cause tval epc : Nat) : State :=
  ((s.wr (gnmReg k Reg.GNM_LAST_CAUSE) ((if two64 / 2 ≤ cause then 0x80000000 else 0) + cause % 256)).wr64
    (gnmReg k Reg.GNM_LAST_EPC_LO) epc).wr64 (gnmReg k Reg.GNM_LAST_TVAL_LO) tval

/-- An exception of the bundle at pc, which would have issued in a CCLK cycle (R494, R495, R543). -/
def State.trap (s : State) (k cause tval at_ : Nat) : State :=
  let c := s.core k
  let s := (s.noteTrap k cause tval c.pc).event 0x0602 (pgGnm k) (coreEv c k)
  if c.tvec = 0 ∨ bit c.status 2 then s.endProgram k St.PROGRAM_FAULT false
  else s.updCore k (fun c => { c with
    epc := c.pc, cause := cause, tval := tval, status := 4 + 2 * b2n (bit c.status 0), pc := c.tvec, stall := none
    nextIssue := at_ + 4 })

/-- An interrupt may be taken at this boundary (R497 to R500). A stalled wait.i completes first (R499). -/
def Core.irq (c : Core) : Bool :=
  decide (c.phase = .running) && bit c.status 0 && decide (c.pendingSources ≠ 0) && decide (c.tvec ≠ 0) && decide (c.stall ≠ some .waitI)

/-- The code of the interrupt taken: STOP, then ENG_DONE, then TIMER (R521). -/
def irqCode (p : Nat) : Nat := if bit p 1 then 1 else if bit p 0 then 0 else 2

/-- The core takes its interrupt between two bundles (R497, R543). -/
def State.takeIrq (s : State) (k : Nat) : State :=
  let c := s.core k
  let cause := two64 / 2 + irqCode c.pendingSources
  let s := (s.noteTrap k cause 0 c.pc).event 0x0603 (pgGnm k) (coreEv c k)
  s.updCore k (fun c => { c with
    epc := c.pc, cause := cause, tval := 0, status := 4 * b2n (bit c.status 2) + 2, pc := c.tvec, stall := none
    nextIssue := Nat.max c.nextIssue ((c.lastIssue.map (· + 4)).getD 0) })

/-- TIMER_EXPIRY (R560): TIMER is evaluated against TIME. -/
def execTimerExpiry (k : Nat) (s : State) : Host.Outcome State Fault Refusal :=
  if 8 ≤ k then .next s else .next (s.updCore k (fun c => if c.timecmp ≤ s.time then { c with timer := true } else c))

/-! The engine slot (R472 to R483, R508, R510, R556, R752, R753). -/

/-- Stores numbered below a bound are not all visible. -/
def Core.storesBelow (c : Core) (bound : Nat) : Bool := c.sb.any (fun e => decide (e.n < bound))

/-- The engine of slot-6 opcodes 1 to 4. -/
def startEngine (op : Nat) : Engine :=
  match op with
  | 1 => .tun | 2 => .solver | 3 => .predictor | _ => .planner

/-- The LAST register of a shared engine's page takes the REASON of a command that never came to its engine (Tables 06-11, 07-11,
08-11). -/
def State.noteLast (s : State) (c : Command) (reason : Nat) : State :=
  match c.engine with
  | .tun => s
  | .solver => s.wr Reg.SLV_SLV_LAST reason
  | .predictor => s.wr Reg.PRD_PRD_LAST reason
  | .planner => s.wr Reg.PLN_PLN_LAST reason

/-- A command issued by a core reaches its engine: its block is read (R556), and its deadline formed (R48). -/
def State.openGate (s : State) (g : Gate) : State :=
  match s.cmd g.cmd with
  | none => s
  | some c =>
    if c.phase = .ended then s
    else if g.addr % 64 ≠ 0 ∨ s.areaIn c.region g.space g.addr 128 = false then
      let e := engineAddrBad c.engine
      s.noteLast c e.2 |>.endCmd c.id { status := e.1, valid := false, reason := e.2, stopCause := 0, writes := [] }
    else
      let s := s.noteRead (some c.job) g.space g.addr 128
      match s.readSpace c.region c.func g.space g.addr 128 with
      | none => s.noteLast c 0 |>.endCmd c.id { status := St.MEMORY_FAULT, valid := false, reason := 0, stopCause := 0, writes := [] }
      | some b =>
        let d := cmdDeadline (blockDeadline c.engine b) (((s.job c.job).map (·.stop)).getD allOnes64)
        s.updCmd c.id (fun c => { c with block := b, issued := s.time, deadline := d, stop := cmdStop c.engine b d })

/-- Every gate of a core that no store holds any more opens. -/
def State.openGates (s : State) (k : Nat) : State :=
  let c := s.core k
  let (now, later) := c.gates.partition (fun g => !c.storesBelow g.bound)
  now.foldl State.openGate (s.updCore k (fun c => { c with gates := later }))

/-- The engine command or transfer of slot 6 is issued on tag t, after the stores below a bound. -/
def State.coreIssue (s : State) (k : Nat) (x : Slot) (c : Core) (t bound : Nat) : State :=
  let s := (s.bump (gnmReg k Reg.GNM_ENG_ISSUES) 1).event 0x0601 (pgGnm k) (coreEv c k)
  if x.op = 8 then
    s.updCore k (fun c' => { (c'.setTag t (some { cmd := none, ended := none })) with
      transfers := c'.transfers ++ [{ tag := t, srcSpace := x.sp1, src := c.reg x.a, dstSpace := x.sp2, dst := c.reg x.b
                                      len := c.reg x.c, after := bound, start := none }] })
  else
    let e := startEngine x.op
    if e ≠ .tun ∧ s.quota c.region e = 0 then
      (s.updCore k (fun c' => c'.setTag t (some { cmd := none, ended := none }))).tagEnd k t St.NO_QUOTA
    else
      let id := s.nextId
      let s := s.addCommand { id := 0, engine := e, job := c.job.getD noJob, region := c.region, func := c.func, phase := .issued, issued := 0
                              began := allOnes64, block := [], kiln := [], armed := false, core := some (k, t), deadline := allOnes64, stop := allOnes64
                              awaits := 0, ending := none }
      let s := s.updCore k (fun c' => { (c'.setTag t (some { cmd := some id, ended := none })) with
        gates := c'.gates ++ [{ cmd := id, bound := bound, space := x.sp1, addr := c.reg x.a }] })
      s.openGates k

/-! Loads and stores (R501 to R512, R532, R552). -/

/-- The youngest buffered store that overlaps a load. -/
def Core.overlap (c : Core) (space a n : Nat) : Option StoreEntry :=
  (c.sb.filter (fun e => e.space == space && decide (e.addr < a + n) && decide (a < e.addr + opSize e.op))).getLast?

/-- The bytes that a buffered store forwards to a load that it covers (R504). -/
def StoreEntry.forward (e : StoreEntry) (a n : Nat) : Option (List Byte) :=
  match e.op with
  | .write bs => if e.addr ≤ a ∧ a + n ≤ e.addr + bs.length then some ((bs.drop (a - e.addr)).take n) else none
  | _ => none

/-- A load must wait (R504, R507, R511, R792); bound is the stores that a fence of its own bundle adds. -/
def State.loadHeld (s : State) (c : Core) (m : CoreSpace × Nat) (n bound : Nat) : Bool :=
  c.storesBelow (Nat.max c.slBound bound) ||
  match m.1 with
  | .local_ => false
  | sp =>
    s.sparging sp.code m.2 n ||
    match c.overlap sp.code m.2 n with
    | some e => (e.forward m.2 n).isNone
    | none => false

/-- Perform a load: its bytes, or the status that ends the job. -/
def State.doLoad (s : State) (k : Nat) (c : Core) (m : CoreSpace × Nat) (n : Nat) : State × Except Nat (List Byte) :=
  match m.1 with
  | .local_ => match s.lmRead k m.2 n with
    | (s, some bs) => (s, .ok bs)
    | (s, none) => (s, .error St.CORE_FAULT)
  | sp =>
    match (c.overlap sp.code m.2 n).bind (fun e => e.forward m.2 n) with
    | some bs => (s, .ok bs)
    | none =>
      let s := s.noteRead c.job sp.code m.2 n
      match s.readSpace c.region c.func sp.code m.2 n with
      | some bs => (s, .ok bs)
      | none => (s, .error St.MEMORY_FAULT)

/-- What a slot-4 store, alias store or atomic does at its memory. -/
def Core.storeOp (c : Core) (x : Slot) (m : CoreSpace × Nat) : MemOp :=
  let n := accessBytes x.op
  let d := if x.op = 0x14 then c.reg (64 + x.d) else c.reg x.d
  match mKind x.op with
  | .amo => .amo (amoFn x.op) n (c.reg x.b) (c.reg x.c)
  | .alias_ => if x.op < 0x1A then .bitSet n d else .bitClear n d
  | _ => match m.1 with
    | .com 1 => .bitSet n d
    | .com 2 => .bitClear n d
    | _ => .write (natLE n d)

/-- Perform slot 4's store, alias store or atomic: at once in local memory, through the store buffer elsewhere. -/
def State.doStore (s : State) (k : Nat) (c : Core) (x : Slot) (m : CoreSpace × Nat) (now : Nat) : State × Except Nat Unit :=
  let op := c.storeOp x m
  let n := accessBytes x.op
  match m.1, op with
  | .local_, .amo fn _ v cmp =>
    match s.lmRead k m.2 n with
    | (s, none) => (s, .error St.CORE_FAULT)
    | (s, some bs) =>
      let old := leNat bs
      let p := s.lmWrite k m.2 (natLE n (amoNew fn n old v cmp))
      (p.1.updCore k (fun c' => c'.setReg x.d (to64 (sInt (8 * n) old)) (now + 7)), .ok ())
  | .local_, .write bs =>
    match s.lmWrite k m.2 bs with
    | (s, true) => (s, .ok ())
    | (s, false) => (s, .error St.CORE_FAULT)
  | sp, op =>
    let dest := match op with | .amo _ _ _ _ => if x.d = 0 then none else some x.d | _ => none
    let plain := match op with | .write _ => true | _ => false
    (s.updCore k (fun c' => { c' with
      sb := c'.sb.map (fun e => if e.dest.isSome && e.dest == dest then { e with dest := none } else e) ++
        [{ n := c'.nextStore, space := sp.code, addr := m.2, op := op, dest := dest }]
      nextStore := c'.nextStore + 1
      slBound := if plain then c'.slBound else c'.nextStore + 1
      ready := match dest with
        | some r => Tab.put (fun _ => 0) r (now + loadLatency k m n + 4) c'.ready
        | none => c'.ready }), .ok ())

/-! Issue (R457 to R460, R538). -/

/-- The active slots of a bundle (R531). -/
def Core.active (c : Core) (xs : List Slot) : List Slot := xs.filter (fun x => (c.reg (96 + x.pr) != 0) != x.pn)

/-- The first CCLK cycle from a given one on in which every register of a list is ready (R458); none while an atomic's result is
still to come. -/
def Core.readyAt (c : Core) (now : Nat) (rs : List Nat) : Option Nat :=
  if rs.any (fun r => c.sb.any (fun e => e.dest == some r)) then none
  else some (rs.foldl (fun t r => Nat.max t (Tab.get (fun _ => 0) c.ready r)) now)

/-- Step 4 of R538 for one active slot: an exception's cause and tval. -/
def State.slotFault (s : State) (c : Core) (x : Slot) : Option (Nat × Nat) :=
  if x.illegal || (x.k == 6 && x.op == 8 && decide (0xFFFFFFFF < c.reg x.c)) then some (2, x.k)
  else if x.isMem then
    let a := c.slotAddr x
    if a % accessBytes x.op ≠ 0 then some (3, a)
    else if (s.slotMap c x).isNone then some (4, a)
    else none
  else if x.k = 6 ∧ x.op ≠ 0 then
    if x.op ≤ 8 then (if c.freeTag.isNone then some (5, 16) else none)
    else if (c.tag (c.reg x.a)).isNone then some (6, c.reg x.a)
    else none
  else if x.k = 7 ∧ x.op = 0x12 then some (7, fld x.low 15 0)
  else none

/-- Step 5 of R538: what stalls the active slots. -/
def State.bundleStall (s : State) (c : Core) (act : List Slot) : Option Stall :=
  let shared := fun (x : Slot) => match s.slotMap c x with
    | some (.local_, _) => false
    | some _ => true
    | none => false
  let fence := act.any (fun x => x.k == 4 && (x.op == 0x30 || x.op == 0x32))
  let bound := if fence then c.nextStore else 0
  if act.any (fun x => x.k == 4 && x.isMem && mKind x.op != .load && shared x) && decide (32 ≤ c.sb.length) then some .storeBuffer
  else if act.any (fun x => x.isMem && mKind x.op == .load && match s.slotMap c x with
      | some m => s.loadHeld c m (accessBytes x.op) bound
      | none => false) then some .load
  else if act.any (fun x => x.k == 6 && decide (2 ≤ x.op) && decide (x.op ≤ 4) && decide (s.quota c.region (startEngine x.op) ≠ 0) &&
      !s.engineRoom (startEngine x.op) c.region) then some .queue
  else if act.any (fun x => x.k == 6 && x.op == 0x10 && match c.tag (c.reg x.a) with
      | some t => t.ended.isNone
      | none => false) then some .wait
  else if act.any (fun x => x.k == 7 && x.op == 0x11) && decide (c.pendingSources = 0) then some .waitI
  else none

/-- The register results of an active slot that the other parts do not give, for core c as the bundle finds it and the CCLK cycle of
its issue: number, value and latency. -/
def State.slotWrite (s : State) (k : Nat) (c : Core) (now : Nat) (x : Slot) : List (Nat × Nat × Nat) :=
  match x.info with
  | none => []
  | some o =>
    let rd := fun (f : Option RegFile) (n : Nat) => match f with | some f => c.reg (f.base + n) | none => 0
    let a := rd o.a x.a
    let b := rd o.b x.b
    let cc := rd o.c x.c
    let d := rd o.d x.d
    let dst := match o.d with | some f => f.base + x.d | none => 0
    if x.op = 0 then []
    else if x.k < 2 then [(dst, sEval x a b cc d, o.lat)]
    else if x.k < 4 then [(dst, vEval x a b cc d, o.lat)]
    else if x.k = 6 then
      match x.op with
      | 0x10 => [(x.d, ((c.tag a).bind (·.ended)).getD 0, 2)]
      | 0x11 => match (c.tag a).bind (·.ended) with
        | some st => [(x.d, st, 2), (96 + x.pd, 1, 2)]
        | none => [(96 + x.pd, 0, 2)]
      | 0x12 => []
      | _ => [(x.d, c.freeTag.getD 0, 2)]
    else if x.k = 7 then
      match x.op with
      | 0x02 => [(x.d, (c.pc + 64) % two64, 3)]
      | 0x04 => [(x.d, (c.pc + 64) % two64, 3)]
      | 0x08 => [(x.d, s.csr c k now (fld x.low 7 0), 1)]
      | _ => []
    else []

/-- The pc that follows, where slot 7 takes a branch (R460, R496, R544). -/
def Core.branch (c : Core) (x : Slot) : Option Nat :=
  match x.op with
  | 0x01 => some ((c.pc + to64 (64 * x.imm)) % two64)
  | 0x02 => some ((c.pc + to64 (64 * x.imm)) % two64)
  | 0x03 => some (c.reg x.a)
  | 0x04 => some (c.reg x.a)
  | 0x10 => some c.epc
  | _ => none

/-- Perform the loads of slots 4 and 5, in order: the register results. -/
def State.doLoads (s : State) (k : Nat) (c : Core) : List Slot → State × Except Nat (List (Nat × Nat × Nat))
  | [] => (s, .ok [])
  | x :: xs =>
    match s.slotMap c x with
    | none => (s, .ok [])
    | some m =>
      match s.doLoad k c m (accessBytes x.op) with
      | (s, .error e) => (s, .error e)
      | (s, .ok bs) => match State.doLoads s k c xs with
        | (s, .error e) => (s, .error e)
        | (s, .ok l) => (s, .ok ((if x.op = 8 then 64 + x.d else x.d, loadValue x.op bs, loadLatency k m (accessBytes x.op)) :: l))

/-- Step 6 of R538 in the CCLK cycle of issue: every active slot takes effect together, in the memory order of R532. A load or store
that meets an uncorrectable word ends the job and leaves the bundle without effect (R526, R775, R796). -/
def State.runBundle (s : State) (k now : Nat) (act : List Slot) : State :=
  let c := s.core k
  let slot := fun (i : Nat) => act.find? (fun x => x.k == i && x.op != 0)
  let loads := act.filter (fun x => x.isMem && mKind x.op == .load)
  let ws := act.flatMap (s.slotWrite k c now)
  match s.doLoads k c loads with
  | (s, .error e) => s.faultProgram k e
  | (s, .ok lw) =>
    let st := act.find? (fun x => x.k == 4 && x.isMem && mKind x.op != .load)
    let p := match st with
      | some x => match s.slotMap c x with
        | some m => s.doStore k c x m now
        | none => (s, .ok ())
      | none => (s, .ok ())
    match p with
    | (s, .error e) => s.faultProgram k e
    | (s, .ok ()) =>
      let ws := ws ++ lw
      let s := (s.bump64 (gnmReg k Reg.GNM_BUNDLES_LO) 1).event 0x0600 (pgGnm k) (coreEv c k)
      let br := (slot 7).bind c.branch
      let s := s.updCore k (fun c' =>
        let c' := ws.foldl (fun c' w => c'.setReg w.1 w.2.1 (now + w.2.2)) c'
        let c' := match slot 4 with
          | some x => if x.op = 0x30 then { c' with slBound := c.nextStore }
              else if x.op = 0x31 then { c' with seBound := c.nextStore }
              else if x.op = 0x32 then { c' with slBound := c.nextStore, seBound := c.nextStore } else c'
          | none => c'
        let c' := match slot 7 with
          | some x => if x.op = 9 then c'.csrWrite now (fld x.low 7 0) (c.reg x.a)
              else if x.op = 0x10 then { c' with status := (c.status &&& 2) + b2n (bit c.status 1) } else c'
          | none => c'
        let c' := match slot 6 with
          | some x => if x.op = 0x10 ∨ (x.op = 0x11 ∧ ((c.tag (c.reg x.a)).bind (·.ended)).isSome) then c'.setTag (c.reg x.a) none else c'
          | none => c'
        { c' with pc := br.getD ((c.pc + 64) % two64), lastIssue := some now, issues := c'.issues + 1, stall := none
                  nextIssue := if br.isSome then now + 3 else now + 1 })
      let s := match slot 6 with
        | some x =>
          if x.op ≤ 8 then
            let c2 := s.core k
            let bound := Nat.max c2.seBound (if c.engOrder then c2.nextStore else 0)
            (s.updCore k (fun c' => { c' with seBound := bound })).coreIssue k x c (c.freeTag.getD 0) bound
          else if x.op = 0x12 then
            match (c.tag (c.reg x.a)).bind (·.cmd) with
            | some id => s.askStop (.command id) St.CANCELLED
            | none => s
          else s
        | none => s
      match slot 7 with
      | some x => if x.op = 0x13 then s.endProgram k (if c.stopcause = 0 then St.OK else stopStatus c.stopcause) true else s
      | none => s

/-- What steps 1 to 4 of R538 come to: no bundle can issue in this MCLK cycle, its operands are not ready, it cannot be read, it
raises an exception in a CCLK cycle, or its active slots may issue in one. -/
inductive Checked where
  | early
  | operand
  | unreadable
  | raises (cause tval at_ : Nat)
  | clear (act : List Slot) (at_ : Nat)
deriving DecidableEq, Repr

/-- Steps 2 to 4 of R538 for the slots of a bundle, from a CCLK cycle on and before the cycle in which the next MCLK cycle begins. -/
def State.checkSlots (s : State) (c : Core) (xs : List Slot) (from_ : Nat) : Checked :=
  match c.readyAt from_ (xs.map (fun x => 96 + x.pr)) with
  | none => .operand
  | some t =>
    let act := c.active xs
    match c.readyAt t (act.flatMap Slot.reads) with
    | none => .operand
    | some t =>
      if s.cycleLimit ≤ t then .operand
      else match conflict act with
        | some x => .raises 1 x t
        | none => match (act.filterMap (s.slotFault c)).head? with
          | some e => .raises e.1 e.2 t
          | none => .clear act t

/-- Steps 1 to 4 of R538 for the bundle at pc. It issues in the first CCLK cycle that its predecessor and its operands allow (R533,
R542, R543). -/
def State.checkBundle (s : State) (k : Nat) : State × Checked :=
  let c := s.core k
  let from_ := Nat.max c.nextIssue s.gov.ccycles
  if s.cycleLimit ≤ from_ then (s, .early)
  else if c.pc % 64 ≠ 0 ∨ c.text < c.pc + 64 then (s, .raises 8 c.pc from_)
  else match s.lmRead k c.pc 64 with
    | (s, none) => (s, .unreadable)
    | (s, some bs) => (s, s.checkSlots c (bundleSlots bs) from_)

/-- TIMER of a core as it stands when its next bundle may issue (R560). -/
def State.coreTimer (s : State) (k : Nat) : State := s.updCore k (fun c => c.timerAt s.time (Nat.max c.nextIssue s.gov.ccycles))

/-- The bundle at pc is taken through the steps of R538. An interrupt that may be taken at this boundary comes before it, unless it
raises an exception (R520). -/
def State.issue (s : State) (k : Nat) : State :=
  if (s.core k).phase ≠ .running then s
  else
    let r := (s.coreTimer k).checkBundle k
    let s := r.1
    let stallAs := fun (w : Stall) => s.updCore k (fun c => { c with stall := some w })
    match r.2 with
    | .early => s
    | .operand => stallAs .operand
    | .unreadable => s.faultProgram k St.CORE_FAULT
    | .raises e v t => s.trap k e v t
    | .clear act t =>
      let c := s.core k
      if c.irq then s
      else match s.bundleStall c act with
        | some w => stallAs w
        | none => s.runBundle k t act

/-- INTERRUPT_TAKE (R497, R520): an interrupt is taken between two bundles, unless the next bundle raises an exception, which is
taken in its place. -/
def execInterruptTake (k : Nat) (s : State) : Host.Outcome State Fault Refusal :=
  let u := s.coreTimer k
  if 8 ≤ k ∨ (u.core k).irq = false then .next s
  else match u.checkBundle k with
    | (u, .raises e v t) => .next (u.trap k e v t)
    | _ => .next (u.takeIrq k)

/-- BUNDLE_ISSUE (R538): a core takes the bundle at its pc through the steps of R538. -/
def execBundleIssue (k : Nat) (s : State) : Host.Outcome State Fault Refusal :=
  if 8 ≤ k then .next s else .next (s.issue k)

/-- ENG_WAIT_RETURN (R477): the bundle of a stalled eng.wait executes once its command has ended. -/
def execEngWaitReturn (k : Nat) (s : State) : Host.Outcome State Fault Refusal :=
  if (s.core k).stall = some .wait ∧ k < 8 then .next (s.issue k) else .next s

/-- WAIT_I_WAKE (R499): the bundle of a stalled wait.i executes once a source is set in both ie and ip. -/
def execWaitIWake (k : Nat) (s : State) : Host.Outcome State Fault Refusal :=
  if (s.core k).stall = some .waitI ∧ k < 8 then .next (s.issue k) else .next s

/-! The store buffer and transfers (R473 to R475, R503, R506, R555). -/

/-- The memory request of a buffered store. -/
def Core.storeReq (c : Core) (k : Nat) (e : StoreEntry) : MemReq :=
  { rank := coreStop k, region := some c.region, job := c.job, addr := e.addr, op := e.op, upset := 0 }

/-- The oldest entry of a core's store buffer performs at its memory, and what waits for it goes on (R503, R506, R511). -/
def State.performStore (s : State) (k : Nat) : State :=
  let c := s.core k
  match c.sb with
  | [] => s
  | e :: es =>
    if s.sparging e.space e.addr (opSize e.op) then s
    else
      let s := s.updCore k (fun c => { c with sb := es })
      match s.access e.space (c.storeReq k e) with
      | (s, none) => ((s.faultProgram k St.MEMORY_FAULT).openGates k).haltStep k
      | (s, some old) =>
        let s := match e.dest with
          | some d => s.updCore k (fun c => { c with regs := Tab.put (fun _ => 0) d (to64 (sInt (8 * old.length) (leNat old))) c.regs })
          | none => s
        (s.openGates k).haltStep k

/-- Two plain stores of one cycle to one commons word, on the two ports of its bank, count as a clash (R803). -/
def State.storeClash (s : State) (rs : List MemReq) : State :=
  (List.range 32).foldl (fun s b =>
    match rs.filter (fun r => comBank r.addr == b) with
    | x :: y :: _ => if clash x y then (s.bump Reg.MEM_WRITE_CLASH 1).event 0x0A00 pgMemory { inst := some b } else s
    | _ => s) s

/-- The stores that become visible in one MCLK cycle perform in rounds, one of each core, in the port order of their banks: the
order of the cores' stops (R524, R769, R770, R803). -/
def State.performStores : Nat → State → State
  | 0, s => { s with gnm := { s.gnm with visible := [] } }
  | n + 1, s =>
    if s.gnm.visible = [] then s
    else
      let ks := sortBy (fun a b => decide (coreStop a < coreStop b)) s.gnm.visible.eraseDups
      let rs := ks.filterMap (fun k => ((s.core k).sb.find? (fun _ => true)).bind (fun e =>
        if e.space = spCom then some ((s.core k).storeReq k e) else none))
      let s := { s with gnm := { s.gnm with visible := ks.foldl List.erase s.gnm.visible } }
      State.performStores n (ks.foldl State.performStore (s.storeClash rs))

/-- STORE_VISIBLE (R503, R524): the oldest entry of a core's store buffer that is still to do so becomes visible in this MCLK cycle,
at whose end the stores of the cycle perform. -/
def execStoreVisible (k : Nat) (s : State) : Host.Outcome State Fault Refusal :=
  if 8 ≤ k ∨ (s.core k).sb.length ≤ s.gnm.visible.count k then .next s
  else .next { s with gnm := { s.gnm with visible := s.gnm.visible ++ [k] } }

/-- The transfer at the head of a core's list ends with a status. -/
def State.transferEnd (s : State) (k status : Nat) : State :=
  match (s.core k).transfers with
  | [] => s
  | t :: ts =>
    let s := if t.srcSpace = spHost ∧ t.start.isSome then s.backlogLess t.len else s
    ((s.updCore k (fun c => { c with transfers := ts })).tagEnd k t.tag status).haltStep k

/-- A transfer's host memory cannot be asked for anything: its function is in FLR (R611), or the stream is insecure (Table 11-12). -/
def State.hostShut (s : State) (c : Core) (t : Transfer) : Bool :=
  (t.srcSpace == spHost || t.dstSpace == spHost) && (s.funcInFlr c.func || s.hif.ideBroken)

/-- TRANSFER_START (R475, R508, R510, R555): a core's next transfer starts, or ends at once where an area leaves its space or
window. -/
def execTransferStart (k : Nat) (s : State) : Host.Outcome State Fault Refusal :=
  let c := s.core k
  match c.transfers with
  | [] => .next s
  | t :: ts =>
    if 8 ≤ k ∨ t.start.isSome ∨ c.storesBelow t.after ∨ s.hostShut c t then .next s
    else if s.areaIn c.region t.srcSpace t.src t.len = false ∨ s.areaIn c.region t.dstSpace t.dst t.len = false then
      .next (s.transferEnd k St.MEMORY_FAULT)
    else
      let s := if t.srcSpace = spHost then s.addBacklog t.len else s
      .next (s.updCore k (fun c => { c with transfers := { t with start := some s.time } :: ts }))

/-- TRANSFER_END (R475): the last byte of a transfer is visible, and its tag shows it ended. -/
def execTransferEnd (k : Nat) (s : State) : Host.Outcome State Fault Refusal :=
  let c := s.core k
  match c.transfers with
  | [] => .next s
  | t :: _ => match t.start with
    | none => .next s
    | some t0 =>
      if 8 ≤ k ∨ s.time < t0 + ceilDiv t.len t.rate ∨ s.hostShut c t ∨ s.sparging t.srcSpace t.src t.len ∨ s.sparging t.dstSpace t.dst t.len then .next s
      else
        let s := s.noteRead c.job t.srcSpace t.src t.len
        match s.readSpace c.region c.func t.srcSpace t.src t.len with
        | none => .next (s.transferEnd k St.MEMORY_FAULT)
        | some bs => .next ((s.writeSpace c.job t.dstSpace c.func t.dst bs).transferEnd k St.OK)

/-! The program image (R466 to R470) and the sparge after a job (R529). -/

/-- The argument's segments: space, address and length (R584). -/
def argSegments (j : Job) : List Area :=
  (j.desc :: j.chain).map (fun d => { space := fld (leAt d 4 2) 3 2, addr := leAt d 0x20 8, len := leAt d 0x1C 4 })

/-- The first defect of an image with an argument of n bytes: PROGRAM_INVALID with its reason, or RSVD_NONZERO (R469). -/
def imageDefectOf (img : List Byte) (n : Nat) : Option (Nat × Nat) :=
  let t := leAt img 0x0C 4
  let d := leAt img 0x10 4
  let z := leAt img 0x14 4
  let bad := fun (r : Nat) => some (St.PROGRAM_INVALID, r)
  if leAt img 0 4 ≠ 0x4D4F4E47 then bad 1
  else if leAt img 4 1 ≠ 1 then bad 2
  else if img.length < 64 + t + d then bad 4
  else if leAt img 0x3C 4 ≠ crc32c (img.take 0x3C ++ (img.drop 64).take (t + d)) then bad 3
  else if leAt img 5 3 ≠ 0 ∨ leAt img 0x18 36 ≠ 0 then some (St.RSVD_NONZERO, 0)
  else if t % 64 ≠ 0 ∨ d % 64 ≠ 0 ∨ z % 64 ≠ 0 ∨ t = 0 ∨ 524288 < t + d + z + pad64 n then bad 4
  else if leAt img 8 4 % 64 ≠ 0 ∨ t ≤ leAt img 8 4 then bad 5
  else none

/-- Read the argument: none where a segment cannot be read. A segment of no bytes adds nothing (Edges). -/
def State.readArgs (s : State) (j : Job) : List Area → Option (List Byte)
  | [] => some []
  | a :: as => if a.len = 0 then State.readArgs s j as else match s.readSpace j.region j.func a.space a.addr a.len, State.readArgs s j as with
    | some x, some y => some (x ++ y)
    | _, _ => none

/-- PROGRAM_LOAD_DONE (R467 to R470): the image and the argument have arrived, and the program begins. -/
def execProgramLoadDone (k : Nat) (s : State) : Host.Outcome State Fault Refusal :=
  let c := s.core k
  match c.job.bind s.job with
  | none => .next s
  | some j =>
    if 8 ≤ k ∨ c.phase ≠ .loading ∨ c.lull ≠ .awake then .next s
    else
      let sp := fld (leAt j.desc 4 2) 1 0
      let a := leAt j.desc 0x10 8
      let n := leAt j.desc 0x18 4
      let s := (s.backlogLess j.hostImage).noteRead (some j.entry) sp a n
      let segs := argSegments j
      let s := segs.foldl (fun s a => s.noteRead (some j.entry) a.space a.addr a.len) s
      match s.readSpace j.region j.func sp a n, s.readArgs j segs with
      | some img, some arg =>
        match imageDefectOf img arg.length with
        | some e => .next ((s.finishJob j.entry e.1 false e.2 0 0).releaseCore k)
        | none =>
          let t := leAt img 0x0C 4
          let d := leAt img 0x10 4
          let at_ := pad64 (t + d + leAt img 0x14 4)
          .next ((s.lmFresh k 0 (ceilDiv (at_ + arg.length) 8)).updCore k (fun c => { c with
            phase := .running, pc := leAt img 8 4, text := t, argAddr := at_, argBytes := arg.length
            lmem := Tab.putList (fun _ => 0) at_ arg (Tab.putList (fun _ => 0) 0 ((img.drop 64).take (t + d)) [])
            cycle0 := s.gov.ccycles, nextIssue := s.gov.ccycles }))
      | _, _ => .next ((s.finishJob j.entry St.MEMORY_FAULT false 0 0 0).releaseCore k)

/-- CORE_SPARGE_DONE (R529): local memory is zero with valid check bits, and the core reports IDLE. -/
def execCoreSpargeDone (k : Nat) (s : State) : Host.Outcome State Fault Refusal :=
  let c := s.core k
  if 8 ≤ k ∨ c.phase ≠ .sparging ∨ s.gov.ccycles < c.spargeEnd then .next s
  else
    .next (((s.spargeLm k).updCore k (fun c => { c with phase := .idle, idleSince := s.time })).event 0x0A04 pgMemory)

end Sys2Proof.Machine
end

