-- ==== Sys2Proof/Machine/Governor.lean ====
section
/-! DEFINITION. Clocks, epochs and the energy governor (spec/13_clocks_epochs_governor.md): the tick,
ratio changes and their AVS requests, thermal states, epoch boundaries and SYNC, and the governor page's
own writes. -/

namespace Sys2Proof.Machine

abbrev pgDevice : Nat := 0x000
abbrev pgErrors : Nat := 0x002
abbrev pgPins : Nat := 0x004

/-! Ratio changes (R695 to R698, R1115 to R1119, R1158). -/

/-- An AVS request of Table 13-4 (R1115): raise for step 2, lowering for step 4. -/
def State.avsRequest (s : State) (raise : Bool) (code : Nat) : State :=
  (s.wr Reg.PINS_AVS_TARGET (s.avsSetpoint code ||| (1 <<< 16) ||| (b2n raise <<< 17))).askIbi 2

/-- Step 3 begins: CCLK has no edges for 8 MCLK cycles. -/
def State.startGap (s : State) (code : Nat) : State :=
  let s := (s.wf Reg.GOV_CLK_STATE 5 4 code).wf Reg.GOV_CLK_STATE 8 8 1
  { s with gov := { s.gov with gapEnd := some (s.time + 40) } }

/-- A change towards a slower code (R696): step 3 at once. -/
def State.slowTo (s : State) (code : Nat) : State := s.startGap code

/-- A change towards a faster code (R696): step 2, the raise request and its wait. -/
def State.fastTo (s : State) (code : Nat) : State :=
  let s := (s.wf Reg.GOV_CLK_STATE 5 4 code).wf Reg.GOV_CLK_STATE 9 9 1
  { (s.avsRequest true code) with gov := { (s.avsRequest true code).gov with avsSince := some s.time } }

/-- Withdraw a pending raise: a lowering request for the code in force replaces it (R697, R1119). -/
def State.withdrawRaise (s : State) : State :=
  match s.gov.avsSince with
  | none => s
  | some _ =>
    let s := { s with gov := { s.gov with avsSince := none } }
    let s := (s.wf Reg.GOV_CLK_STATE 9 9 0).wf Reg.GOV_CLK_STATE 5 4 s.ratio
    s.avsRequest false s.ratio

/-- The slowest-necessary code of the thermal state (Table 13-5): the fastest code it allows. -/
def Therm.cap : Therm → Nat
  | .normal => 0
  | .throttle => 2
  | .alert => 3
  | .shutdown => 3

/-- The limits of R695: FAST_LIMIT, SLOW_LIMIT and the thermal cap. -/
def State.limitCode (s : State) (code : Nat) : Nat :=
  Nat.max (Nat.max (s.rf Reg.GOV_CLK_CTRL 1 0) s.gov.therm.cap) (Nat.min code (s.rf Reg.GOV_CLK_CTRL 3 2))

/-- Act on a target code (R695, R696). -/
def State.setTarget (s : State) (target : Nat) : State :=
  let cur := s.ratio
  let waiting := s.gov.avsSince.isSome
  if waiting && target == s.rf Reg.GOV_CLK_STATE 5 4 then s
  else
    let s := s.withdrawRaise
    if target = cur then s
    else if s.gov.gapEnd.isSome then { s with gov := { s.gov with slowAfter := some target } }
    else if cur < target then s.slowTo target
    else s.fastTo target

/-- GOVERNOR_TICK (R695): the end of a tick; where none has ended nothing happens. The code changes from the first tick that begins at or
after ready (R721). -/
def execGovernorTick (s : State) : Host.Outcome State Fault Refusal :=
  match s.gov.tickDue with
  | none => .next s
  | some (t, e, short) =>
    let watts := s.rf Reg.GOV_BUDGET 9 0
    let pace := s.rf Reg.GOV_BUDGET 31 24
    let limit := watts * 20000000
    let cur := s.ratio
    let want := if limit < e ∨ short then Nat.min 3 (cur + 1)
      else if e * 256 < limit * pace then cur - 1 else cur
    let s := s.wr Reg.GOV_TICK_ENERGY (Nat.min (e / 1000) allOnes32)
    let s := if s.gov.therm = .normal then s else s.bump Reg.GOV_THERM_TICKS 1
    let s := { s with gov := { s.gov with tickDue := none } }
    .next (if s.ready && decide (s.rg64 Reg.BOOT_READY_TIME_LO + 20000 ≤ t) then s.setTarget (s.limitCode want) else s)

/-- CCLK_GAP_END (R1158, Table 13-4): at the end of the 40 ns gap, where its first edge falls, CCLK restarts at the new code, a change that
RATIO_CHANGES counts but for that of a warm reset (R721); a slower code then asks for a lower setpoint (step 4), and a change that R717
holds back follows. -/
def execCclkGapEnd (s : State) : Host.Outcome State Fault Refusal :=
  match s.gov.gapEnd with
  | none => .next s
  | some t =>
    if s.time < t then .next s
    else
      let old := s.ratio
      let new := s.rf Reg.GOV_CLK_STATE 5 4
      let s := (s.wf Reg.GOV_CLK_STATE 1 0 new).wf Reg.GOV_CLK_STATE 8 8 0
      let quiet := s.gov.gapQuiet
      let s := { s with gov := { s.gov with gapEnd := none, gapQuiet := false, rootPhase := cclkDiv new } }
      let s := if quiet then s else (s.bump Reg.GOV_RATIO_CHANGES 1).event 0x0800 pgGovernor
      let s := if old < new then s.avsRequest false new else s
      match s.gov.slowAfter with
      | none => .next s
      | some c => .next ({ s with gov := { s.gov with slowAfter := none } }.setTarget c)

/-- An acknowledgement is tested against the request that a withdrawal of its cycle has left (R1117, R1118, R1147). -/
def State.ackStep (s : State) : State :=
  match s.gov.ackAsked with
  | none => s
  | some mv =>
    let s := { s with gov := { s.gov with ackAsked := none } }
    let tgt := s.rg Reg.PINS_AVS_TARGET
    let pendingRaise := bit tgt 16 && bit tgt 17
    if pendingRaise && decide (fld tgt 15 0 ≤ mv) then
      let s := s.wf Reg.PINS_AVS_TARGET 16 16 0
      match s.gov.avsSince with
      | none => s
      | some _ =>
        let s := s.wf Reg.GOV_CLK_STATE 9 9 0
        let s := { s with gov := { s.gov with avsSince := none } }
        s.startGap (s.rf Reg.GOV_CLK_STATE 5 4)
    else if !pendingRaise && mv == fld tgt 15 0 then s.wf Reg.PINS_AVS_TARGET 16 16 0
    else s

/-- AVS_ACK (R1116 to R1118, R1146, R1147): a manager write; the other path's write is ignored (R979). -/
def effectAvsAck (p : Path) (v : Word) (s : State) : Host.Outcome State Fault Refusal :=
  match p with
  | .host => .next s
  | .manager =>
    let mv := fld v.toNat 15 0
    let s := s.wr Reg.PINS_AVS_ACKED mv
    .next { s with gov := { s.gov with ackAsked := some mv } }

/-- AVS_TIMEOUT (R697): a raise unacknowledged within 200 µs is withdrawn. -/
def execAvsTimeout (s : State) : Host.Outcome State Fault Refusal :=
  match s.gov.avsSince with
  | none => .next s
  | some t =>
    if s.time < t + 200000 then .next s
    else
      let target := s.rf Reg.GOV_CLK_STATE 5 4
      let s := s.withdrawRaise
      .next ((s.bump Reg.GOV_AVS_TIMEOUTS 1).raiseErr pgGovernor 0x0804 target)

/-! Thermal states (R699, R1128, R1130, Table 13-9). -/

/-- The trimmed readings of the valid sensors, and the substitute of a sensor in an invalid episode: 100 °C. -/
def thermReading (bad : Bool) (trim : Int) (r : Option Int) : Int :=
  match r with
  | none => 1600
  | some v => if bad then 1600 else v + trim

/-- One sensor's episode of invalid readings: the count of consecutive valid readings in it, and whether the
error is raised (Table 13-9). -/
def thermEpisode (inEpisode : Option Nat) (valid : Bool) : Option Nat × Bool :=
  match inEpisode, valid with
  | none, true => (none, false)
  | none, false => (some 0, true)
  | some _, false => (some 0, false)
  | some n, true => if 1 ≤ n then (none, false) else (some (n + 1), false)

/-- The thermal state after a sample of TJ_MAX in 1/16 °C (Table 13-5). -/
def Therm.next (t : Therm) (tj : Int) : Therm :=
  match t with
  | .shutdown => .shutdown
  | _ =>
    if 1840 ≤ tj then .shutdown
    else if 1600 ≤ tj then .alert
    else match t with
      | .alert => if tj < 1472 then .normal else if tj < 1552 then .throttle else .alert
      | .throttle => if tj < 1472 then .normal else .throttle
      | _ => if 1520 ≤ tj then .throttle else .normal

/-- How hot a thermal state is. -/
def Therm.rank : Therm → Nat
  | .normal => 0 | .throttle => 1 | .alert => 2 | .shutdown => 3

/-- Act on a thermal state: CLK_STATE.THERM, THERM_ALERT_N, and its cap on the code (Table 13-5, R717). An entry withdraws a raise that
waits (R697). -/
def State.enterTherm (s : State) (t : Therm) : State :=
  let enters := decide (s.gov.therm.rank < t.rank)
  let code := match t with | .normal => 0 | .throttle => 1 | .alert => 2 | .shutdown => 2
  let s := { s with gov := { s.gov with therm := t } }
  let s := s.wf Reg.GOV_CLK_STATE 11 10 code
  let s := s.wf Reg.PINS_PIN_STATE 0 0 (match t with | .alert => 1 | .shutdown => 1 | _ => 0)
  if s.gov.gapEnd.isSome then
    (if s.rf Reg.GOV_CLK_STATE 5 4 < t.cap then { s with gov := { s.gov with slowAfter := some t.cap } } else s)
  else
    let s := if enters then s.withdrawRaise else s
    if s.ratio < t.cap then s.withdrawRaise.slowTo t.cap else s

/-- One sensor's reading joins a sample: its episode, its error, and its trimmed value after those before it. -/
def State.thermOne (readings : List (Option Int)) (a : State × List Int) (i : Nat) : State × List Int :=
  let r := readings.getD i none
  let ep := (a.1.gov.badSensors.find? (fun e => e.1 == i)).map (·.2)
  let e := thermEpisode ep r.isSome
  let rest := a.1.gov.badSensors.filter (fun x => x.1 != i)
  let bad := match e.1 with
    | none => rest
    | some n => insertBy (fun x y => decide (x.1 < y.1)) (i, n) rest
  let s := { a.1 with gov := { a.1.gov with badSensors := bad } }
  let s := if e.2 then s.raiseErr pgGovernor 0x0803 i else s
  (s, a.2 ++ [thermReading e.1.isSome (s.thermTrim i) r])

/-- The highest of a list of readings. -/
def hottest (ts : List Int) : Int := ts.foldl (fun m x => if m < x then x else m) (-65536)

/-- What a hardware thermal shutdown does beside its error (R1131). -/
def State.thermShutdown (s : State) (sensor : Nat) : State :=
  let s := s.raiseErr pgPins 0x1201 sensor
  let s := { s with boot := { s.boot with shutdown := true } }
  s.avsRequest false 3

/-- The threshold state of a sensor with thresholds 95, 100 and 115 °C in 1/16 °C (Table 21-5). -/
def tjThreshold (tj : Int) : Nat := if 1840 ≤ tj then 3 else if 1600 ≤ tj then 2 else if 1520 ≤ tj then 1 else 0

/-- PlatformEventMessage of a sensor whose threshold state has changed, where a receiver is set (R1092). -/
def State.platformEvent (s : State) (sensor st : Nat) (v : Int) : State :=
  let old := Tab.get (fun _ => 0) s.boot.sensorState sensor
  if st = old then s
  else
    let s := { s with boot := { s.boot with sensorState := Tab.put (fun _ => 0) sensor st s.boot.sensorState } }
    match s.boot.receiver with
    | none => s
    | some a =>
      if Tab.get (fun _ => false) s.boot.sensorOff sensor then s
      else { s with boot := { s.boot with pldmOut := { cmd := 0x20A, code := 0, vals := [a, sensor, st, v] } :: s.boot.pldmOut } }

/-- THERMAL_SAMPLE (R699, R1130, R1131, R1148): the junction sensors' readings in 1/16 °C, none for an invalid one. A
list shorter than 16 leaves the sensors past its end invalid. Due 10 µs after the last sample. -/
def execThermalSample (readings : List (Option Int)) (s : State) : Host.Outcome State Fault Refusal :=
  if s.time < s.gov.lastSample + 10000 then .next s
  else
    let res := (List.range 16).foldl (State.thermOne readings) ({ s with gov := { s.gov with lastSample := s.time } }, [])
    let ts := res.2
    let tj := hottest ts
    let hot := (findIdx (fun x => x == tj) ts).getD 0
    let s := { res.1 with boot := { res.1.boot with therm := ts } }
    let s := s.wr Reg.GOV_TJ_MAX (toTwos 16 tj)
    let was := s.gov.therm
    let s := (s.enterTherm (was.next tj)).platformEvent 1 (tjThreshold tj) tj
    .next (if decide (1840 ≤ tj) && was != .shutdown then s.thermShutdown hot else s)

/-! Epochs and SYNC (R700 to R704, R714, R715). -/

/-- N, EPOCH_NEXT. -/
def State.epochNext (s : State) : Nat := s.rg64 Reg.GOV_EPOCH_NEXT_LO

/-- GBANK_SNAP's copy (R1004, R1005). -/
def State.snapCounters (s : State) : State :=
  let s := (List.range 16).foldl (fun s k => s.wr64 (Reg.CNT_SNAP_n_LO + 8 * k) (s.rg64 (Reg.CNT_GCTR_0_LO + 8 * k))) s
  s.wr Reg.CNT_SNAP_EPOCH (s.rg Reg.GOV_EPOCH_NUM_LO)

/-- SYNC_OUT rises at the first SCLK edge at or after its boundary, for 4 SCLK cycles (R704). -/
def State.syncOutStep (s : State) : State :=
  if s.gov.syncOutDue ∧ s.time % 40 = 0 then
    { s with gov := { s.gov with syncOutDue := false, syncOut := true, syncOutEnd := some (s.time + 160) } }
  else s

/-- The boundary cycle of a boundary at TIME b (R703, R1005, R704): what the cycle itself has charged belongs to the new epoch. -/
def State.boundary (s : State) (b : Nat) : State :=
  let s := s.wr64 Reg.GOV_EPOCH_NUM_LO (s.rg64 Reg.GOV_EPOCH_NUM_LO + 1)
  let s := s.wr64 Reg.GOV_EPOCH_START_LO b
  let s := s.wr64 Reg.GOV_DEV_LAST_LO s.gov.cDev0
  let s := (List.range 16).foldl (fun s r =>
    s.wr (govRg r Reg.GRG_RG_LAST) (Nat.min (ceilDiv (Tab.get (fun _ => 0) s.gov.cReg0 r) 1000000) allOnes32)) s
  let l := s.rg Reg.GOV_EPOCH_LEN
  let regs := (List.range 16).foldl (fun t r => Tab.put (fun _ => 0) r (s.gov.reg r - Tab.get (fun _ => 0) s.gov.cReg0 r) t) []
  let s := { s with gov := { s.gov with
    cDev := s.gov.cDev - s.gov.cDev0, cReg := regs, cDev0 := 0, cReg0 := [], epochLen := l, bound := some b
    syncOutDue := s.rf Reg.GOV_SYNC_CTRL 2 2 == 1 } }.syncOutStep
  let s := s.wr64 Reg.GOV_EPOCH_NEXT_LO (b + l)
  let s := s.guardRoll
  let s := if (s.rf Reg.CNT_GBANK_CTRL 2 2 == 1) then State.snapCounters s else s
  s.event 0x0801 pgGovernor

/-- EPOCH_BOUNDARY (R700, R702, R703): with FOLLOW clear, due when TIME reaches N; with FOLLOW set due at N + ⌊L / 8⌋, where a pulse
recognised in that same cycle still sets the boundary (State.missStep). -/
def execEpochBoundary (s : State) : Host.Outcome State Fault Refusal :=
  let n := s.epochNext
  if s.rf Reg.GOV_SYNC_CTRL 0 0 = 0 then
    if s.time < n then .next s else .next (s.boundary n)
  else
    let w := s.gov.epochLen / 8
    if s.time < n + w then .next s else .next { s with gov := { s.gov with missAsked := true } }

/-- No pulse has been recognised by N + ⌊L / 8⌋: the boundary falls there, and counts in MISSED (R702). -/
def State.missStep (s : State) : State :=
  if s.gov.missAsked = false then s
  else
    let s := { s with gov := { s.gov with missAsked := false } }
    if s.gov.bound.isSome then s
    else
      let b := s.epochNext + s.gov.epochLen / 8
      let s := s.wf Reg.GOV_SYNC_COUNTS 7 0 (satAdd 8 (s.rf Reg.GOV_SYNC_COUNTS 7 0) 1)
      (s.event 0x0804 pgGovernor).boundary b

/-- A pulse or level counted in IGNORED (R701, R702). -/
def State.syncIgnored (s : State) : State :=
  (s.wf Reg.GOV_SYNC_COUNTS 15 8 (satAdd 8 (s.rf Reg.GOV_SYNC_COUNTS 15 8) 1)).event 0x0803 pgGovernor

/-- A source is the one SYNC_CTRL.SRC selects, and reaches the detector (R701, Table 22-6). -/
def State.syncSelected (s : State) (src : Nat) : Bool :=
  s.rf Reg.GOV_SYNC_CTRL 1 1 == src && s.syncSourceReady src

/-- SYNC_PULSE (R701, R702, R714): a pulse recognised now on a source, so p is 40 ns ago. With FOLLOW clear
SYNC_IN is ignored (R700). -/
def execSyncPulse (src : Nat) (s : State) : Host.Outcome State Fault Refusal :=
  if s.rf Reg.GOV_SYNC_CTRL 0 0 = 0 ∨ s.syncSelected src = false then .next s
  else
    let p := s.time - 40
    let n := s.epochNext
    let w := s.gov.epochLen / 8
    if n ≤ p + w ∧ p + 40 ≤ n + w then
      let s := s.wf Reg.GOV_SYNC_COUNTS 31 16 (satAdd 16 (s.rf Reg.GOV_SYNC_COUNTS 31 16) 1)
      let s := s.wr Reg.GOV_SYNC_LAST (toTwos 32 ((p : Int) - (n : Int)))
      .next ((s.event 0x0802 pgGovernor).boundary p)
    else .next s.syncIgnored

/-- SHORT_SYNC_PULSE (R701): a high sampled on fewer than two consecutive SCLK edges. -/
def execShortSyncPulse (src : Nat) (s : State) : Host.Outcome State Fault Refusal :=
  if s.rf Reg.GOV_SYNC_CTRL 0 0 = 0 ∨ s.syncSelected src = false then .next s else .next s.syncIgnored

/-- SYNC_OUT_PULSE_END (R704): after 4 SCLK cycles SYNC_OUT returns low. -/
def execSyncOutPulseEnd (s : State) : Host.Outcome State Fault Refusal :=
  match s.gov.syncOutEnd with
  | none => .next s
  | some t =>
    if s.time < t then .next s
    else .next { s with gov := { s.gov with syncOut := false, syncOutEnd := none } }

/-! The governor page's own writes (R680, R711 to R713). -/

/-- A dropped write's reason in GOV_CFG_ERR (Table 13-7). -/
def State.govReason (s : State) (r : Nat) : State := s.wr Reg.GOV_GOV_CFG_ERR r

/-- TIME_LOAD (R712): a write of TIME_CTRL; busy is whether any run, command or transfer is in progress. -/
def State.timeLoad (s : State) (v : Nat) (busy : Bool) : State :=
  if bit v 0 = false then s
  else if busy || decide (0 < s.poolUsed) then s.govReason 3
  else
    let t := s.rg64 Reg.GOV_TIME_LOAD_LO / 5 * 5
    let l := s.rg Reg.GOV_EPOCH_LEN
    let s := { s with time := t, gov := { s.gov with epochLen := l } }
    (s.wr64 Reg.GOV_EPOCH_START_LO t).wr64 Reg.GOV_EPOCH_NEXT_LO (t + l)

/-- A write of BUDGET: WATTS is limited to 150 to 700 (Table 13-7). -/
def State.budgetWrite (s : State) (v : Nat) : State :=
  let w := fld v 9 0
  let w := if w < 150 then 150 else if 700 < w then 700 else w
  s.wr Reg.GOV_BUDGET ((fld v 31 24 <<< 24) ||| w)

/-- A write of EPOCH_LEN (R680): out of range or no multiple of 5 is dropped. In a boundary cycle it counts as made before the boundary
(R715). -/
def State.epochLenWrite (s : State) (v : Nat) : State :=
  if v < 100000 ∨ 100000000 < v ∨ v % 5 ≠ 0 then s.govReason 1
  else
    let s := s.wr Reg.GOV_EPOCH_LEN v
    match s.gov.bound with
    | none => s
    | some b => { s with gov := { s.gov with epochLen := v } }.wr64 Reg.GOV_EPOCH_NEXT_LO (b + v)

/-- A write of CLK_CTRL (Table 13-7): FAST_LIMIT above SLOW_LIMIT is dropped. -/
def State.clkCtrlWrite (s : State) (v : Nat) : State :=
  if fld v 3 2 < fld v 1 0 then s.govReason 2 else s.wr Reg.GOV_CLK_CTRL (fld v 3 0)

end Sys2Proof.Machine
end

