-- ==== Sys2Proof/Machine/Spdm.lean ====
section
/-! DEFINITION. What the MCTP endpoints and the SPDM responder answer (spec/17 R875 to R880). Requests and answers
stand decoded: their byte encodings, their transcripts and the secured-message records are the published standards'. -/

namespace Sys2Proof.Machine

/-- The endpoints answer from the end of phase LIFECYCLE (R1076). -/
def State.mctpUp (s : State) : Bool := decide (3 ≤ s.rf Reg.BOOT_BOOT_STATE 31 28)

/-- MCTP_CONTROL (R876): Set and Get Endpoint ID, Get Version Support and Get Message Type Support, with the types of
Table 17-4; other commands are unsupported (completion code 5). -/
def execMctpControl (e : Endpoint) (cmd : Nat) (data : List Byte) (s : State) : Host.Outcome State Fault Refusal :=
  if s.mctpUp = false then .next s
  else
    let eid := match e with
      | .i3c => s.key.eidI3c
      | .pcie => s.key.eidPcie
    match cmd with
    | 1 =>
      let n := leAt data 1 1
      let k := match e with
        | .i3c => { s.key with eidI3c := n }
        | .pcie => { s.key with eidPcie := n }
      .next ({ s with key := k }.reply e none (.mctp 1 0 (natLE 1 0 ++ natLE 1 n ++ natLE 1 0)))
    | 2 => .next (s.reply e none (.mctp 2 0 (natLE 1 eid ++ natLE 2 0)))
    | 4 => .next (s.reply e none (.mctp 4 0 [0x01, 0xF1, 0xF3, 0xF1, 0x00]))
    | 5 => .next (s.reply e none (.mctp 5 0 [0x05, 0x00, 0x01, 0x05, 0x06, 0x7E]))
    | _ => .next (s.reply e none (.mctp cmd 5 []))

/-- A measurement block (Table 17-6). -/
def State.measurement (s : State) (i : Nat) : List Byte :=
  match i with
  | 1 => sha384 Config.bootRom
  | 2 => sha384 s.boot.image
  | 3 => sha384 (calBytes s.boot.calBoot 0 4096)
  | _ =>
    let st := s.rg Reg.KEY_LC_STATE
    natLE 1 (fld st 2 0) ++ natLE 1 (fld st 4 4 + 2 * fld st 8 8 + 4 * b2n s.calInvalid + 8 * b2n s.certOk) ++ natLE 2 0

/-- The blocks that a request to an index reports (R878). -/
def State.measurements (s : State) (index : Nat) : List (Nat × List Byte) :=
  let l := if index = 0xFF then [1, 2, 3, 4] else [index]
  l.map (fun i => (i, s.measurement i))

/-- Answer a CHALLENGE with 96 fresh bytes: the nonce and the signature's (R875). -/
def State.answerChallenge (s : State) (t : KeyTask) (toSign fresh : List Byte) : State :=
  match s.signer with
  | none => s.reply t.e t.session (.error 5)
  | some (d, _) =>
    let digest := sha384 s.key.chain
    let nonce := fresh.take 32
    let g := s.sign d (fresh.drop 32) (toSign ++ digest ++ nonce)
    g.1.reply t.e t.session (.challengeAuth digest nonce g.2)

/-- Answer GET_MEASUREMENTS with the nonce's 32 fresh bytes and, signed, 64 more (R875, R878). -/
def State.answerMeasure (s : State) (t : KeyTask) (index : Nat) (sign : Bool) (toSign fresh : List Byte) : State :=
  let blocks := s.measurements index
  let nonce := fresh.take 32
  if sign = false then s.reply t.e t.session (.measurements blocks nonce [])
  else match s.signer with
    | none => s.reply t.e t.session (.error 5)
    | some (d, _) =>
      let g := s.sign d (fresh.drop 32) (toSign ++ (blocks.flatMap (·.2)) ++ nonce)
      g.1.reply t.e t.session (.measurements blocks nonce g.2)

/-- Answer KEY_EXCHANGE with 160 fresh bytes: the ECDHE scalar's, the nonce and the signature's (R875). The session is open. -/
def State.answerExchange (s : State) (t : KeyTask) (x y : Nat) (toSign fresh : List Byte) : State :=
  match s.signer with
  | none => s.reply t.e t.session (.error 5)
  | some (d, _) =>
    if s.key.lc.isSome ∨ s.pendingReset then s.reply t.e t.session (.error 3)
    else if 4 ≤ s.key.sessions.length then s.reply t.e t.session (.error 0x0A)
    else
      let k := scalarOf (fresh.take 64)
      let pub := keyBytes (pubKey k)
      let nonce := (fresh.drop 64).take 32
      let g := s.sign d (fresh.drop 96) (toSign ++ pub ++ nonce)
      let s := g.1
      let id := s.nextId
      let x : Session := { id := id, e := t.e, done := false, secret := (sharedX k (x, y)).getD Config.noPoint }
      ({ s with nextId := id + 1 }.setSessions (s.key.sessions ++ [x])).reply t.e t.session (.keyExchange id pub nonce g.2)

/-- A session ends. -/
def State.endSession (s : State) (id : Nat) : State := s.setSessions (s.key.sessions.filter (fun x => x.id != id))

/-! IDE key management (R879). -/

/-- A session over PCIe in which IDE_KM is accepted. -/
def State.ideSession (s : State) (session : Option Nat) : Bool :=
  ((s.secure session).map (fun x => x.e == .pcie)).getD false

/-- The stream is active when every sub-stream of both directions has an active key set. -/
def State.ideUpdate (s : State) : State :=
  let on := (List.range 6).all (fun i => Tab.get (fun _ => 0) s.key.ideActive i != 0)
  { s with hif := { s.hif with ideSecure := on, ideBroken := s.hif.ideBroken && !on } }.wf Reg.HOST_LINK_STATE 17 17 (b2n on)

/-- An IDE_KM message outside such a session is an unexpected request. -/
def State.ideGate (s : State) (session : Option Nat) (f : State) : State :=
  if s.ideSession session then f else s.reply .pcie session (.error 4)

/-- IDE_KM_QUERY (R879): one stream and key sets 0 and 1. -/
def execIdeKmQuery (session : Option Nat) (stream : Nat) (s : State) : Host.Outcome State Fault Refusal :=
  if s.mctpUp = false then .next s
  else .next (s.ideGate session (s.reply .pcie session (.ideInfo stream 2 (b2n s.hif.ideSecure))))

/-- A key set, direction and sub-stream that the stream has. -/
def ideFits (stream set dir sub : Nat) : Bool := stream == 0 && decide (set < 2) && decide (dir < 2) && decide (sub < 3)

/-- IDE_KM_KEY_PROG (R879): the status is 0, 1 for a key of the wrong length and 3 for an unsupported value. -/
def execIdeKmKeyProg (session : Option Nat) (stream set dir sub : Nat) (key : List Byte) (s : State) :
    Host.Outcome State Fault Refusal :=
  if s.mctpUp = false then .next s
  else
    let st := if key.length ≠ 40 then 1 else if ideFits stream set dir sub then 0 else 3
    let s' := if st = 0 then
        { s with key := { s.key with ideKeys := Tab.put (fun _ => []) (6 * set + 3 * dir + sub) key s.key.ideKeys } }
      else s
    .next (s.ideGate session (s'.reply .pcie session (.ideAck 2 set dir sub st)))

/-- IDE_KM_K_SET_GO (R879): a programmed key set becomes active. -/
def execIdeKmKSetGo (session : Option Nat) (stream set dir sub : Nat) (s : State) : Host.Outcome State Fault Refusal :=
  if s.mctpUp = false then .next s
  else
    let ok := ideFits stream set dir sub && Tab.get (fun _ => []) s.key.ideKeys (6 * set + 3 * dir + sub) != []
    let s' := if ok then
        { s with key := { s.key with ideActive := Tab.put (fun _ => 0) (3 * dir + sub) (set + 1) s.key.ideActive } }.ideUpdate
      else s
    .next (s.ideGate session (s'.reply .pcie session (.ideAck 4 set dir sub (if ok then 0 else 3))))

/-- IDE_KM_K_SET_STOP (R879): an active key set stops, and its key goes. -/
def execIdeKmKSetStop (session : Option Nat) (stream set dir sub : Nat) (s : State) : Host.Outcome State Fault Refusal :=
  if s.mctpUp = false then .next s
  else
    let ok := ideFits stream set dir sub
    let act := Tab.get (fun _ => 0) s.key.ideActive (3 * dir + sub)
    let s' := if ok then
        { s with key := { s.key with
            ideKeys := Tab.put (fun _ => []) (6 * set + 3 * dir + sub) [] s.key.ideKeys
            ideActive := if act = set + 1 then Tab.put (fun _ => 0) (3 * dir + sub) 0 s.key.ideActive else s.key.ideActive } }.ideUpdate
      else s
    .next (s.ideGate session (s'.reply .pcie session (.ideAck 5 set dir sub (if ok then 0 else 3))))

/-- CT_EXPIRY (R877, R907): an SPDM response that has waited 2^14 µs for bytes of KEY becomes ERROR Busy. -/
def execCtExpiry (task : Nat) (s : State) : Host.Outcome State Fault Refusal :=
  match s.key.tasks.find? (fun t => t.id == task) with
  | none => .next s
  | some t =>
    let spdm := match t.work with
      | .challenge _ | .measure _ _ _ | .exchange _ _ _ => true
      | _ => false
    if spdm = false ∨ s.time < t.since + 16384000 then .next s
    else .next ({ s with key := { s.key with tasks := s.key.tasks.filter (fun x => x.id != task) } }.reply t.e t.session (.error 3))

end Sys2Proof.Machine
end

