-- ==== Sys2Proof/Machine/LinkBase.lean ====
section
/-! DEFINITION. The Olzen links: state, packets, credits, acknowledgement, replay and transmission (spec/18 R910 to R939,
R950, R952 to R962). -/

namespace Sys2Proof.Machine

def pgLink (l : Nat) : Nat := pageIdx .link l

def State.link (s : State) (l : Nat) : Link := Tab.get (fun _ => Link.reset) s.links l
def State.setLink (s : State) (l : Nat) (x : Link) : State := { s with links := Tab.put (fun _ => Link.reset) l x s.links }
def State.updLink (s : State) (l : Nat) (f : Link → Link) : State := s.setLink l (f (s.link l))

/-! Link states and reasons (Table 18-7). -/
abbrev lsDisabled : Nat := 0
abbrev lsDown : Nat := 1
abbrev lsTraining : Nat := 2
abbrev lsDiscover : Nat := 3
abbrev lsBackoff : Nat := 4
abbrev lsActive : Nat := 5
abbrev lsLeaving : Nat := 6

def State.linkSt (s : State) (l : Nat) : Nat := s.rf (linkReg l Reg.LINK_LINK_STATE) 2 0
def State.setLinkSt (s : State) (l st : Nat) : State := s.wf (linkReg l Reg.LINK_LINK_STATE) 2 0 st
def State.linkReason (s : State) (l r : Nat) : State := s.wf (linkReg l Reg.LINK_LINK_STATE) 11 8 r
def State.linkOutcome (s : State) (l o : Nat) : State := s.wf (linkReg l Reg.LINK_LINK_STATE) 15 12 o
def State.contRun (s : State) (l : Nat) : Nat := s.rf (linkReg l Reg.LINK_LINK_STATE) 17 16
def State.linkEn (s : State) (l : Nat) : Bool := s.rf (linkReg l Reg.LINK_LINK_CTRL) 0 0 == 1

/-- ACTIVE, or LEAVING, which still carries its packets (R957). -/
def State.linkUp (s : State) (l : Nat) : Bool := s.linkSt l == lsActive || s.linkSt l == lsLeaving

/-- Set LINK_EVENT bits, and the page's EVENT source (R965). -/
def State.linkEvent (s : State) (l mask : Nat) : State :=
  let a := linkReg l Reg.LINK_LINK_EVENT
  (s.wr a (s.rg a ||| mask)).setInt (pgLink l) 8

/-- Count in a saturating counter of the page, with its event. -/
def State.linkCount (s : State) (l reg code n : Nat) : State :=
  (s.bumpSat (linkReg l reg) n).event code (pgLink l) { inst := some l } n

/-- Count units in a saturating 64-bit counter of the page (R964). -/
def State.linkUnits (s : State) (l reg code n : Nat) : State :=
  (s.wr64 (linkReg l reg) (satAdd 64 (s.rg64 (linkReg l reg)) n)).event code (pgLink l) { inst := some l } n

/-- Sequence numbers and the replay buffer's count (SEQ_STATE, UNACKED). -/
def State.nextTx (s : State) (l : Nat) : Nat := s.rf (linkReg l Reg.LINK_SEQ_STATE) 27 16
def State.expected (s : State) (l : Nat) : Nat := s.rf (linkReg l Reg.LINK_SEQ_STATE) 11 0
def State.noteBuf (s : State) (l : Nat) : State := s.wr (linkReg l Reg.LINK_UNACKED) (s.link l).buf.length

/-- Forget sequence, credit and key state and every queued packet, keeping the packets sent. -/
def State.linkClear (s : State) (l : Nat) : State :=
  let s := s.updLink l (fun x => { Link.reset with line := x.line, lineOpen := x.lineOpen })
  let s := { s with tun := { s.tun with
      outbox := s.tun.outbox.filter (fun m => m.link != l)
      inbox := s.tun.inbox.filter (fun m => m.link != l || s.msgWhole m)
      taken := s.tun.taken.filter (fun (e : Nat × Nat) => e.1 / 4 != l) } }
  (((s.wr (linkReg l Reg.LINK_SEQ_STATE) 0).wr (linkReg l Reg.LINK_KEY_GEN_TX) 0).wr (linkReg l Reg.LINK_KEY_GEN_RX) 0).noteBuf l

/-- The link goes to DOWN or DISABLED with a reason; where it was ACTIVE, its runs learn of the loss (R955, R956). -/
def State.linkDown (s : State) (l st reason : Nat) : State :=
  let was := s.linkUp l
  let s := (((s.linkClear l).setLinkSt l st).linkReason l reason).updLink l (fun x => { x with since := s.time })
  let s := { s with key := { s.key with tasks := s.key.tasks.filter (fun (t : KeyTask) =>
    t.work != .hello l && t.work != .response l && t.work != .backoff l) } }
  if was then (s.linkEvent l 2).linkLost l else s

/-- A protocol error (Table 18-9): an ACTIVE link leaves that state. -/
def State.linkProtocol (s : State) (l rule : Nat) : State :=
  let s := s.raiseErr (pgLink l) 0x0E04 rule
  if s.linkUp l then s.linkDown l lsDown 7 else s

/-! Packets (R916 to R921, Table 18-3). -/

/-- UNITS of a DATA packet (R919). -/
def pktUnits (payLen : Nat) : Nat := Nat.max 1 (ceilDiv (16 + payLen) 64)

/-- A packet with its CRC. -/
def mkPacket (kind flags seq ack : Nat) (cred : Option (Nat × Nat)) (pay : List Byte) : List Byte :=
  let units := if kind = 1 then pktUnits pay.length else 1
  let head := natLE 1 kind ++ natLE 1 flags ++ natLE 2 seq ++ natLE 2 ack ++ natLE 1 units ++
    (match cred with
     | some (vc, n) => natLE 1 (0x80 ||| vc) ++ natLE 2 n
     | none => natLE 3 0) ++ natLE 2 pay.length
  let body := pay ++ List.replicate (64 * units - 16 - pay.length) 0
  head ++ natLE 4 (crc32c (head ++ natLE 4 0 ++ body)) ++ body

/-! Codewords (R916, R917). -/

def slotStart (c : Codeword) (j : Nat) : Bool := c.header.getLsbD j
def slotValid (c : Codeword) (j : Nat) : Bool := c.header.getLsbD (10 + j)

/-- The units of a packet, the first marked. -/
def packetUnits (p : List Byte) : List (Bool × List Byte) :=
  (List.range (p.length / 64)).map (fun i => (i == 0, (p.drop (64 * i)).take 64))

/-- A unit in the next slot of a codeword. -/
def putSlot (c : Codeword) (u : Bool × List Byte) : Codeword :=
  let j := c.slots.length
  { header := c.header ||| BitVec.ofNat 20 ((1 <<< (10 + j)) + if u.1 then 1 <<< j else 0), slots := c.slots ++ [u.2] }

/-- A unit takes the next slot of the newest codeword while that is open and has one, else slot 0 of a new one: no idle slot falls between
two units of one packet. -/
def putUnit (x : Bool × List Codeword) (u : Bool × List Byte) : Bool × List Codeword :=
  match x.1, x.2 with
  | true, c :: r => if c.slots.length < 10 then (true, putSlot c u :: r) else (true, putSlot { header := 0, slots := [] } u :: c :: r)
  | _, r => (true, putSlot { header := 0, slots := [] } u :: r)

/-- The slots of codewords in order: the START bit and the bytes of a valid one, none for an idle one. -/
def linkSlots (cs : List Codeword) : List (Option (Bool × List Byte)) :=
  cs.flatMap (fun c => (List.range 10).map (fun j => if slotValid c j then some (slotStart c j, c.slots.getD j []) else none))

/-- The units that continue a packet: those of the next valid slots, up to an idle slot or the first unit of another packet. -/
def moreUnits : List (Option (Bool × List Byte)) → List (List Byte)
  | some (false, u) :: r => u :: moreUnits r
  | _ => []

/-- The packet whose first unit a slot holds; nothing where it holds none. -/
def packetOf (a : Arrival) : List Byte :=
  match (linkSlots a.codewords).drop a.slot with
  | some (true, u) :: r => u ++ ((moreUnits r).take (leAt u 6 1 - 1)).flatten
  | _ => []

/-- Units of each VC freed so far (R923): the key block frees VC 0, the run layer VCs 1 and 2. -/
def State.freed (s : State) (l vc : Nat) : Nat :=
  if vc = 0 then (s.link l).freed0 else Tab.get (fun _ => 0) s.tun.taken (4 * l + vc)

/-- The lowest VC whose freed count the partner has not been told (R924). -/
def State.credDue (s : State) (l : Nat) : Option Nat :=
  (List.range 3).find? (fun v => s.freed l v != (s.link l).told.getD v 0)

/-- ACK and CREDITS as every outgoing packet carries them (R924, R932). -/
def State.ackField (s : State) (l : Nat) : Nat := 0x8000 ||| ((s.expected l + 4095) % 4096)

/-- Send a packet: its units take their slots; its acknowledgement and its credits have been sent. -/
def State.linkSend (s : State) (l kind flags seq : Nat) (pay : List Byte) : State :=
  let cred := if kind = 4 then none else (s.credDue l).map (fun v => (v, s.freed l v))
  let pkt := mkPacket kind flags seq (if kind = 4 then 0 else s.ackField l) cred pay
  let s := s.updLink l (fun x => { x with
    line := ((packetUnits pkt).foldl putUnit (x.lineOpen, x.line)).2
    lineOpen := true
    told := match cred with
      | some (v, n) => updAt v (fun _ => n) x.told
      | none => x.told
    ackDue := if kind = 4 then x.ackDue else none
    accepted := if kind = 4 then x.accepted else 0 })
  s.linkUnits l Reg.LINK_TX_UNITS_LO 0x0E00 (pkt.length / 64)

/-- A TRAIN packet (Table 18-6). -/
def State.sendTrain (s : State) (l : Nat) : State :=
  s.linkSend l 4 0 0 (natLE 1 1 ++ natLE 1 l ++ natLE 1 33 ++ natLE 1 (b2n (s.link l).gotTrain) ++ natLE 2 256 ++ natLE 2 768 ++
    natLE 2 3072 ++ natLE 2 0 ++ natLE 36 0)

/-! Keys of a direction (R949, R950). -/

def linkKey (m : List Byte) : List Nat := (m.take 32).map BitVec.toNat
def linkIv (m : List Byte) (count : Nat) : List Nat := ((m.drop 32).take 4).map BitVec.toNat ++ bytesBE 8 count
def nextMaterial (m : List Byte) : List Byte := sha384 (ascii "K16-OLZEN-UPD" ++ m)

/-- The additional data: header bytes 0x00 to 0x03 and 0x0A to 0x0B. -/
def linkAad (flags seq payLen : Nat) : List Nat := (natLE 1 1 ++ natLE 1 flags ++ natLE 2 seq ++ natLE 2 payLen).map BitVec.toNat

/-! Transmission (R922, R928 to R930, R936, R952, R954, R962). -/

/-- Message bytes in one packet (R962). -/
abbrev partMax : Nat := 2064

/-- The next packet's plaintext on a VC, the job it charges, whether it is KEY_UPD, and the state with that part taken from its queue. -/
def State.nextPart (s : State) (l vc : Nat) : Option (List Byte × Option Nat × Bool × State) :=
  if vc = 0 then
    match (s.link l).out with
    | [] => none
    | m :: ms =>
      let part := (m.body.drop m.off).take partMax
      let m' := { m with off := m.off + part.length }
      let s' := s.updLink l (fun x => { x with out := if m'.off < m.len then m' :: ms else ms })
      some (natLE 1 m.code ++ natLE 3 0 ++ natLE 4 m.len ++ natLE 4 m.off ++ natLE 4 0 ++ part, none, m.code == 4, s')
  else
    match findIdx (fun (m : RunMsg) => m.link == l && msgVc m.kind == vc) s.tun.outbox with
    | none => none
    | some i =>
      (s.tun.outbox[i]?).map (fun (m : RunMsg) =>
        let part := (m.payload.drop m.offset).take partMax
        let m' : RunMsg := { m with offset := m.offset + part.length }
        let job := ((s.linkRun l).bind (fun p => s.runCmd p.1)).map (·.job)
        let s' := { s with tun := { s.tun with
          outbox := if m'.offset < m.payload.length then updAt i (fun _ => m') s.tun.outbox else s.tun.outbox.eraseIdx i } }
        (natLE 4 m.span ++ natLE 1 m.kind ++ natLE 1 m.src ++ natLE 1 m.dst ++ natLE 1 m.flags ++ natLE 4 m.tag ++ natLE 4 m.offset ++ part,
          job, false, s'))

/-- Units that the next packet of a VC takes. -/
def State.nextUnits (s : State) (l vc : Nat) : Option Nat :=
  (s.nextPart l vc).map (fun p => pktUnits (p.1.length + if s.linkUp l then 16 else 0))

/-- The partner's buffer has room for U units (R922). -/
def Link.credits (x : Link) (vc u : Nat) : Bool :=
  decide (u + (x.sent.getD vc 0 + 65536 - x.returned.getD vc 0) % 65536 ≤ x.adv.getD vc 0)

/-- A link whose state may carry DATA packets on a VC. -/
def State.carries (s : State) (l vc : Nat) : Bool :=
  s.linkUp l || (vc == 0 && (s.linkSt l == lsDiscover || s.linkSt l == lsBackoff))

/-- The transmitter moves to its next generation after KEY_UPD (R952). -/
def State.rotateTx (s : State) (l : Nat) : State :=
  let s := s.updLink l (fun x => { x with matTx := nextMaterial x.matTx, countTx := 0 })
  let s := (s.bump (linkReg l Reg.LINK_KEY_GEN_TX) 1).event 0x0E08 (pgLink l) { inst := some l }
  s.linkEvent l 16

/-- Charge the units of a packet to its run (R959, Table 13-3). -/
def State.chargeUnits (s : State) (job : Option Nat) (units : Nat) : State :=
  match job with
  | some j => s.chargeJob j (640 * units)
  | none => s

/-- Send the next new DATA packet of a VC, where R922 and R930 allow. -/
def State.sendNew (s : State) (l vc : Nat) : State :=
  let x := s.link l
  match s.nextPart l vc, s.nextUnits l vc with
  | some (plain, job, upd, s'), some u =>
    if x.credits vc u = false ∨ 1024 ≤ x.buf.length then s
    else
      let enc := s.linkUp l
      let seq := s.nextTx l
      let gen := s.rg (linkReg l Reg.LINK_KEY_GEN_TX)
      let flags := vc + (if enc then 4 + 8 * (gen % 2) else 0)
      let pay := if enc then
          let g := gcmEncrypt (linkKey x.matTx) (linkIv x.matTx x.countTx) (linkAad flags seq (plain.length + 16)) (plain.map BitVec.toNat)
          g.1.map (BitVec.ofNat 8) ++ g.2.map (BitVec.ofNat 8)
        else plain
      let s := s'.updLink l (fun x => { x with
        sent := updAt vc (fun n => (n + u) % 65536) x.sent
        countTx := if enc then x.countTx + 1 else x.countTx
        buf := x.buf ++ [{ seq := seq, flags := flags, pay := pay, job := job, upd := upd, time := s.time }]
        leaveSent := if vc = 0 ∧ plain.take 1 = [0x05] ∧ x.leaveSent.isSome then some s.time else x.leaveSent
        opened := if vc = 0 ∧ plain.take 1 = [0x01] then some s.time else x.opened })
      let s := s.wf (linkReg l Reg.LINK_SEQ_STATE) 27 16 ((seq + 1) % 4096)
      let s := ((s.linkSend l 1 flags seq pay).chargeUnits job u).noteBuf l
      if upd then s.rotateTx l else s
  | _, _ => s

/-- Queue a link message on VC 0. -/
def State.queueMsg (s : State) (l code : Nat) (body : List Byte) : State :=
  s.updLink l (fun x => { x with out := x.out ++ [{ code := code, len := body.length, body := body, off := 0 }] })

/-- A leaving link whose queues are empty queues LEAVE. -/
def State.leaveStep (s : State) (l : Nat) : State :=
  if s.linkSt l = lsLeaving ∧ (s.link l).leaveSent.isNone ∧ (s.link l).out = [] ∧
      (s.tun.outbox.any (fun m => m.link == l)) = false then
    (s.updLink l (fun x => { x with leaveSent := some s.time })).queueMsg l 5 (natLE 8 0)
  else s

/-- Resend the next packet of a replay (R936). -/
def State.resendOne (s : State) (l : Nat) : State :=
  let x := s.link l
  match x.resend with
  | [] => s
  | q :: qs =>
    let s := s.updLink l (fun x => { x with
      resend := qs, buf := x.buf.map (fun (p : SentPkt) => if p.seq == q then { p with time := s.time } else p) })
    match x.buf.find? (fun p => p.seq == q) with
    | none => s
    | some p => (s.linkSend l 1 p.flags p.seq p.pay).chargeUnits p.job (pktUnits p.pay.length)

/-- ACK_SEND (R933): an acknowledgement that is due goes out in an ACK packet. -/
def execAckSend (link : Nat) (s : State) : Host.Outcome State Fault Refusal :=
  if 7 < link ∨ (s.link link).ackDue.isNone then .next s else .next (s.linkSend link 2 0 0 [])

/-- CREDIT_RETURN (R924): a changed count goes out in an ACK packet. -/
def execCreditReturn (link : Nat) (s : State) : Host.Outcome State Fault Refusal :=
  if 7 < link ∨ (s.credDue link).isNone then .next s else .next (s.linkSend link 2 0 0 [])

/-! Acknowledgement and replay (R932, R935 to R939, R967, R968). -/

/-- Take an acknowledgement up to and including a sequence number (R935). -/
def State.takeAck (s : State) (l a : Nat) : State :=
  let x := s.link l
  match x.buf with
  | [] => s
  | p :: _ =>
    let d := (a + 4096 - p.seq) % 4096
    if x.buf.length ≤ d then s
    else
      let gone := (x.buf.take (d + 1)).map (·.seq)
      let upd := (x.buf.take (d + 1)).any (·.upd)
      (s.updLink l (fun x => { x with
        buf := x.buf.drop (d + 1), resend := x.resend.filter (fun q => !gone.contains q), replays := 0
        rotating := x.rotating && !upd })).noteBuf l

/-- Take a cumulative credit count (R922, R925). -/
def State.takeCredit (s : State) (l vc n : Nat) : State :=
  let x := s.link l
  if x.adv.getD vc 0 < (x.sent.getD vc 0 + 65536 - n) % 65536 then s.linkProtocol l 0
  else s.updLink l (fun x => { x with returned := updAt vc (fun _ => n) x.returned })

/-- Start a replay (R937 to R939); one in a CCLK cycle (R967). -/
def State.startReplay (s : State) (l : Nat) : State :=
  let x := s.link l
  if x.replayAt = some s.gov.ccycles then s
  else
    let s := s.linkCount l Reg.LINK_REPLAYS 0x0E03 1
    let s := s.updLink l (fun x => { x with
      resend := x.buf.map (·.seq), replays := x.replays + 1, replayAt := some s.gov.ccycles })
    if s.linkUp l ∧ s.rf (linkReg l Reg.LINK_REPLAY_CFG) 19 16 ≤ x.replays + 1 then
      (s.raiseErr (pgLink l) 0x0E03 (s.nextTx l)).linkDown l lsDown 5
    else s

/-- REPLAY_TIMEOUT (R937). -/
def execReplayTimeout (link : Nat) (s : State) : Host.Outcome State Fault Refusal :=
  if 7 < link then .next s
  else match (s.link link).buf with
    | [] => .next s
    | p :: _ =>
      if s.time < p.time + 1000 * s.rf (linkReg link Reg.LINK_REPLAY_CFG) 15 0 then .next s else .next (s.startReplay link)

/-! Key rotation, leaving and commands (R952, R957, R966, R971). -/

/-- Start a rotation: KEY_UPD is queued (R952); one that awaits acceptance has no further effect (R971). -/
def State.rotate (s : State) (l : Nat) : State :=
  if (s.link l).rotating then s
  else (s.updLink l (fun x => { x with rotating := true })).queueMsg l 4
    (natLE 4 (s.rg (linkReg l Reg.LINK_KEY_GEN_TX) + 1) ++ natLE 4 0)

/-- KEY_ROTATE (R952): the count under the transmit generation has reached 2^LOG. -/
def execKeyRotate (link : Nat) (s : State) : Host.Outcome State Fault Refusal :=
  if 7 < link ∨ s.linkUp link = false ∨
      (s.link link).countTx < 1 <<< s.rf (linkReg link Reg.LINK_KEY_CFG) 4 0 then .next s
  else .next (s.rotate link)

def State.linkCode (s : State) (l c : Nat) : State := s.wf (linkReg l Reg.LINK_LINK_STATE) 31 24 c

/-- LINK_CMD LEAVE (R957). -/
def effectLinkCmdLeave (_p : Path) (link : Nat) (v : Word) (s : State) : Host.Outcome State Fault Refusal :=
  if 7 < link ∨ fld v.toNat 31 28 ≠ 1 then .next s
  else if s.linkSt link ≠ lsActive then .next (s.linkCode link 2)
  else
    let s := (s.linkCode link 0).setLinkSt link lsLeaving
    .next ((s.updLink link (fun x => { x with leaveSent := none })).leaveStep link)

/-- LINK_CMD ROTATE (R952, R966, R971). -/
def effectLinkCmdRotate (_p : Path) (link : Nat) (v : Word) (s : State) : Host.Outcome State Fault Refusal :=
  if 7 < link ∨ fld v.toNat 31 28 ≠ 2 then .next s
  else if s.linkSt link ≠ lsActive then .next (s.linkCode link 2)
  else .next ((s.linkCode link 0).rotate link)

/-- LINK_CMD REENABLE (R946, R966): from the manager path, after CONTENDED. -/
def effectLinkCmdReenable (p : Path) (link : Nat) (v : Word) (s : State) : Host.Outcome State Fault Refusal :=
  if 7 < link ∨ fld v.toNat 31 28 ≠ 3 then .next s
  else if p = .host then .next (s.linkCode link 3)
  else if s.linkSt link ≠ lsDisabled ∨ s.rf (linkReg link Reg.LINK_LINK_STATE) 11 8 ≠ 2 then .next (s.linkCode link 2)
  else .next (((s.linkCode link 0).setLinkSt link lsDown).wf (linkReg link Reg.LINK_LINK_STATE) 17 16 0)

/-- LINK_CMD with a reserved OP (R966). -/
def effectLinkCmdBadOp (_p : Path) (link : Nat) (v : Word) (s : State) : Host.Outcome State Fault Refusal :=
  let op := fld v.toNat 31 28
  if 7 < link ∨ (1 ≤ op ∧ op ≤ 3) then .next s else .next (s.linkCode link 1)

/-- LEAVE_TIMEOUT (R957): 1 ms after LEAVE with no LEAVE_ACK. The link goes DOWN and EN clears. -/
def execLeaveTimeout (link : Nat) (s : State) : Host.Outcome State Fault Refusal :=
  if 7 < link ∨ s.linkSt link ≠ lsLeaving then .next s
  else match (s.link link).leaveSent with
    | none => .next s
    | some t =>
      if s.time < t + 1000000 ∨ (s.link link).out ≠ [] then .next s
      else .next ((s.linkDown link lsDown 8).wf (linkReg link Reg.LINK_LINK_CTRL) 0 0 0)

/-! Enabling and training (R913, R915, R964, R975). -/

/-- A link that is enabled leaves DISABLED once boot and entropy are ready (R975), and a link that is DOWN and need not wait trains (R913). -/
def State.linkTry (s : State) (l : Nat) : State :=
  let s := if s.linkSt l = lsDisabled ∧ s.linkEn l ∧ s.rf (linkReg l Reg.LINK_LINK_STATE) 11 8 ≠ 2 ∧ s.ready ∧ s.entReady then
      s.setLinkSt l lsDown else s
  if s.linkSt l = lsDown ∧ s.linkEn l ∧ (s.link l).retryAt.isNone then
    (s.setLinkSt l lsTraining).updLink l (fun x => { x with phase := 1, since := s.time })
  else s

/-- LINK_ENABLE (R913, R975): a write of LINK_CTRL that sets EN. -/
def effectLinkEnable (_p : Path) (link : Nat) (v : Word) (s : State) : Host.Outcome State Fault Refusal :=
  if 7 < link ∨ bit v.toNat 0 = false then .next s
  else .next ((s.wf (linkReg link Reg.LINK_LINK_CTRL) 0 0 1).linkTry link)

/-- LINK_DISABLE (R964): a write of LINK_CTRL that clears EN. -/
def effectLinkDisable (_p : Path) (link : Nat) (v : Word) (s : State) : Host.Outcome State Fault Refusal :=
  if 7 < link ∨ bit v.toNat 0 = true ∨ s.linkEn link = false then .next s
  else
    let s := s.wf (linkReg link Reg.LINK_LINK_CTRL) 0 0 0
    let was := s.linkSt link != lsDisabled
    let s := s.linkDown link lsDisabled 1
    .next (if was then s.linkEvent link 8 else s)

/-- SIGNAL_DETECT (Table 18-2 phase 1). -/
def execSignalDetect (link : Nat) (s : State) : Host.Outcome State Fault Refusal :=
  if 7 < link then .next s
  else
    let s := s.linkTry link
    if s.linkSt link ≠ lsTraining ∨ (s.link link).phase ≠ 1 then .next s
    else .next (s.updLink link (fun x => { x with phase := 2, since := s.time }))

/-- TRAINING_PHASE_DONE (Table 18-2): phase 2 or 3 completes; phase 4 begins with a TRAIN. -/
def execTrainingPhaseDone (link : Nat) (s : State) : Host.Outcome State Fault Refusal :=
  if 7 < link ∨ s.linkSt link ≠ lsTraining then .next s
  else
    let ph := (s.link link).phase
    if ph = 2 then .next (s.updLink link (fun x => { x with phase := 3, since := s.time }))
    else if ph = 3 then
      .next ((s.updLink link (fun x => { x with phase := 4, since := s.time, trains := 0, gotTrain := false, echoed := false })).sendTrain link)
    else .next s

/-- A training attempt fails: DOWN with TRAIN_FAIL, and the next attempt in 100 ms (R913). -/
def State.trainFail (s : State) (l : Nat) : State :=
  (s.linkDown l lsDown 4).updLink l (fun x => { x with retryAt := some (s.time + 100000000) })

/-- The limit of a training phase in ns (Table 18-2). -/
def phaseLimit (ph : Nat) : Option Nat :=
  match ph with
  | 2 => some 50000000 | 3 => some 5000000 | 4 => some 1000000 | _ => none

/-- TRAINING_TIMEOUT (R913). -/
def execTrainingTimeout (link : Nat) (s : State) : Host.Outcome State Fault Refusal :=
  if 7 < link ∨ s.linkSt link ≠ lsTraining then .next s
  else match phaseLimit (s.link link).phase with
    | none => .next s
    | some n => if s.time ≤ (s.link link).since + n then .next s else .next (s.trainFail link)

/-- TRAINING_RETRY (R913). -/
def execTrainingRetry (link : Nat) (s : State) : Host.Outcome State Fault Refusal :=
  if 7 < link then .next s
  else match (s.link link).retryAt with
    | none => .next s
    | some t =>
      if s.time < t then .next s
      else .next ((s.updLink link (fun x => { x with retryAt := none })).linkTry link)

/-- LINK_SIGNAL_LOSS (LINK_PHY, Table 18-9): signal or codeword lock lost on lanes of an ACTIVE link. -/
def execLinkSignalLoss (link lanes : Nat) (s : State) : Host.Outcome State Fault Refusal :=
  if 7 < link ∨ s.linkUp link = false then .next s
  else .next ((s.raiseErr (pgLink link) 0x0E08 lanes).linkDown link lsDown 4)

/-- LINK_REFCLK_LOSS (R974): LINK_PHY on every active link. -/
def execLinkRefclkLoss (lanes : Nat) (s : State) : Host.Outcome State Fault Refusal :=
  .next ((List.range 8).foldl (fun s l =>
    if s.linkUp l then (s.raiseErr (pgLink l) 0x0E08 lanes).linkDown l lsDown 4 else s) s)

/-- UNCORRECTABLE_CODEWORD (R918, LINK_FEC): the codeword is discarded with its units. -/
def execUncorrectableCodeword (link : Nat) (s : State) : Host.Outcome State Fault Refusal :=
  if 7 < link then .next s
  else .next ((s.linkCount link Reg.LINK_FEC_UNCORR 0x0E06 1).raiseErr (pgLink link) 0x0E02 0)

end Sys2Proof.Machine
end

