-- ==== Sys2Proof/Machine/LinkAuth.lean ====
section
/-! DEFINITION. Discovery and mutual authentication of a link, and the bytes of KEY that the key block serves to every
consumer (spec/18 R940 to R949, R963; spec/17 R837, R875, R907). -/

namespace Sys2Proof.Machine

/-- The challenge window (R941). -/
abbrev chalWindow : Nat := 2000000

/-- A handshake may start (R940): an identity, a matching chain and the life-cycle state. -/
def State.linkIdentity (s : State) : Option (Nat × Nat × Nat) :=
  if (s.lcState = 2 ∨ s.lcState = 3) ∧ s.certOk then s.signer else none

/-- This device's DEVICE_ID. -/
def State.myId (s : State) : Nat := s.rg64 Reg.KEY_DEVICE_ID_LO

/-- A link that trained enters DISCOVER, with NO_IDENTITY where no handshake may start (R915, R940). -/
def State.linkDiscover (s : State) (l : Nat) (adv : List Nat) : State :=
  let s := ((s.linkClear l).updLink l (fun x => { x with adv := adv, since := s.time })).setLinkSt l lsDiscover
  if s.linkIdentity.isNone then s.linkReason l 3 else s

/-- A handshake is under way: HELLO waits to be sent, or its challenge window has opened. -/
def Link.inHandshake (x : Link) : Bool := x.opened.isSome || x.out.any (fun m => m.code == 1)

/-- HELLO is made with 96 fresh bytes: the nonce and the ECDHE scalar's. The challenge window opens when it is sent (R941, R948). -/
def State.sendHello (s : State) (l : Nat) (fresh : List Byte) : State :=
  let k := scalarOf (fresh.drop 32)
  let body := natLE 1 1 ++ natLE 1 l ++ natLE 6 0 ++ natLE 8 s.myId ++ fresh.take 32 ++ keyBytes (pubKey k)
  let s := s.updLink l (fun x => { x with
    opened := none, hello := body, scalar := k, responses := [], closed := none, closing := false, confirm := none, backoffEnd := none })
  let s := (s.setLinkSt l lsDiscover).queueMsg l 1 body
  if (s.link l).peer.isSome then s.addTask .i3c none (.response l) else s

/-- Fields of a HELLO body (Table 18-5). -/
def helloId (b : List Byte) : Nat := leAt b 8 8
def helloPub (b : List Byte) : Nat × Nat := pairBE ((b.drop 48).take 96)

/-- This side is LO (R942). -/
def isLo (mine peer : List Byte) : Bool := decide (helloId mine < helloId peer)

/-- The transcript hash T (R942). -/
def transcript (mine peer : List Byte) : List Byte := if isLo mine peer then sha384 (mine ++ peer) else sha384 (peer ++ mine)

/-- What a RESPONSE signs (R944). -/
def responseMsg (t : List Byte) (id : Nat) : List Byte := ascii "K16-OLZEN-AUTH" ++ t ++ natLE 8 id

/-- RESPONSE goes out with a signature from 64 fresh bytes (R941, R944). -/
def State.sendResponse (s : State) (l : Nat) (fresh : List Byte) : State :=
  let x := s.link l
  match s.signer, x.peer with
  | some (d, _), some peer =>
    let g := s.sign d fresh (responseMsg (transcript x.hello peer) s.myId)
    let body := natLE 8 s.myId ++ natLE 4 s.key.chain.length ++ natLE 4 0 ++ g.2 ++ s.key.chain
    if x.inHandshake then g.1.queueMsg l 2 body else s
  | _, _ => s

/-- A backoff after CONTENDED with one fresh byte: 2^(1 + b) ms (R945). -/
def State.contendedWait (s : State) (l : Nat) (fresh : List Byte) : State :=
  s.updLink l (fun x => { x with backoffEnd := some (s.time + 1000000 * (2 <<< (leNat fresh % 8))) })

/-! Serving bytes of KEY. -/

/-- The bytes that a piece of work asks for (R868, R875, R884, R941, R945). -/
def KeyWork.bytes : KeyWork → Nat
  | .lcNonce => 32
  | .bank => 8
  | .challenge _ => 96
  | .measure _ sign _ => if sign then 96 else 32
  | .exchange _ _ _ => 160
  | .hello _ => 96
  | .response _ => 64
  | .backoff _ => 1

/-- Do a piece of work with its fresh bytes. -/
def State.keyWork (s : State) (t : KeyTask) (fresh : List Byte) : State :=
  match t.work with
  | .lcNonce => s.setNonce fresh
  | .bank => match s.key.tenants with
    | c :: _ => s.bankBegin c fresh
    | [] => s
  | .challenge m => s.answerChallenge t m fresh
  | .measure i sign m => s.answerMeasure t i sign m fresh
  | .exchange x y m => s.answerExchange t x y m fresh
  | .hello l => s.sendHello l fresh
  | .response l => s.sendResponse l fresh
  | .backoff l => s.contendedWait l fresh

/-- Serve the work that waits, oldest first, while the reserve holds what it asks for (R837). -/
def State.keyServe : Nat → State → State
  | 0, s => s
  | n + 1, s =>
    match s.key.tasks with
    | [] => match s.key.lc with
      | some r =>
        if r.seedDue then
          match s.draw 0 64 with
          | (s, some b) => { s.programSeed b with key := { (s.programSeed b).key with lc := some { r with seedDue := false, start := s.time } } }
          | (s, none) => s
        else s
      | none => s
    | t :: ts =>
      match s.draw 0 t.work.bytes with
      | (s, some b) => State.keyServe n ({ s with key := { s.key with tasks := ts } }.keyWork t b)
      | (s, none) => s

/-- Ask for bytes of KEY: served at once where nothing waits and the reserve holds them. -/
def State.ask (s : State) (e : Endpoint) (session : Option Nat) (w : KeyWork) : State :=
  let s := s.addTask e session w
  State.keyServe s.key.tasks.length s

/-! SPDM requests (R875 to R878, R906). -/

/-- GET_MEASUREMENTS (R878): a signed one needs the identity; an index that Table 17-6 lacks is invalid. -/
def execGetMeasurements (e : Endpoint) (session : Option Nat) (index : Nat) (sign : Bool) (toSign : List Byte) (s : State) :
    Host.Outcome State Fault Refusal :=
  if s.mctpUp = false then .next s
  else if session.isSome ∧ (session.bind (fun i => s.key.sessions.find? (fun x => x.id == i))).isNone then .next (s.reply e session (.error 2))
  else if index ≠ 0xFF ∧ (index = 0 ∨ 4 < index) then .next (s.reply e session (.error 1))
  else if sign ∧ s.signer.isNone then .next (s.reply e session (.error 5))
  else .next (s.ask e session (.measure index sign toSign))

/-- KEY_EXCHANGE (R871, R877, R906): Busy while a transition runs or a reset is pending; a fifth session is over the limit. -/
def execKeyExchange (e : Endpoint) (x y : Nat) (toSign : List Byte) (s : State) : Host.Outcome State Fault Refusal :=
  if s.mctpUp = false then .next s
  else if s.key.lc.isSome ∨ s.pendingReset then .next (s.reply e none (.error 3))
  else if 4 ≤ s.key.sessions.length then .next (s.reply e none (.error 0x0A))
  else if s.signer.isNone then .next (s.reply e none (.error 5))
  else if onCurve (x, y) = false then .next (s.reply e none (.error 1))
  else .next (s.ask e none (.exchange x y toSign))

/-- SPDM_REQUEST (R877): the requests that the capabilities offer; any other is unsupported. -/
def execSpdmRequest (e : Endpoint) (session : Option Nat) (r : SpdmReq) (s : State) : Host.Outcome State Fault Refusal :=
  if s.mctpUp = false then .next s
  else
    let answer := fun (s : State) (a : Answer) => Host.Outcome.next (σ := State) (φ := Fault) (ρ := Refusal) (s.reply e session a)
    let open_ := session.bind (fun i => s.key.sessions.find? (fun x => x.id == i))
    if session.isSome ∧ open_.isNone then answer s (.error 2)
    else match r with
      | .version => answer s (.version 0x12)
      | .capabilities => answer s (.capabilities 0x62D6 14 4096 4096)
      | .algorithms => answer s (.algorithms 0x80 0x02 0x10 0x02 1)
      | .digests => answer s (.digests (b2n (s.key.chain != [])) (if s.key.chain = [] then [] else sha384 s.key.chain))
      | .certificate slot off len =>
        if slot ≠ 0 ∨ s.key.chain = [] ∨ s.key.chain.length ≤ off then answer s (.error 1)
        else
          let p := (s.key.chain.drop off).take len
          answer s (.certificate p (s.key.chain.length - off - p.length))
      | .challenge slot m =>
        if slot ≠ 0 ∨ s.key.chain = [] then answer s (.error 1)
        else if s.signer.isNone then answer s (.error 5)
        else .next (s.ask e session (.challenge m))
      | .finish good => match open_ with
        | none => answer s (.error 0x0B)
        | some x =>
          if x.done then answer s (.error 4)
          else if good then
            answer (s.setSessions (s.key.sessions.map (fun y => if y.id == x.id then { y with done := true } else y))) .finished
          else answer (s.endSession x.id) (.error 6)
      | .heartbeat => answer s (if (s.secure session).isSome then .heartbeat else .error 0x0B)
      | .keyUpdate => answer s (if (s.secure session).isSome then .keyUpdated else .error 0x0B)
      | .endSession => match s.secure session with
        | none => answer s (.error 0x0B)
        | some x => answer (s.endSession x.id) .ended
      | .vendor p => .next (s.tenantArrive { e := e, session := session, payload := p, fail := false })
      | .other _ => answer s (.error 7)

/-! The handshake. -/

/-- HANDSHAKE_START (R940, R941): in DISCOVER with an identity, HELLO asks for its bytes. -/
def execHandshakeStart (link : Nat) (s : State) : Host.Outcome State Fault Refusal :=
  if 7 < link ∨ s.linkSt link ≠ lsDiscover ∨ (s.link link).inHandshake ∨
      s.key.tasks.any (fun t => t.work == .hello link) then .next s
  else if s.linkIdentity.isNone then .next (s.linkReason link 3)
  else .next (s.ask .i3c none (.hello link))

/-- A RESPONSE verifies (R944). -/
def State.responseGood (s : State) (l : Nat) (x : Link) (b : List Byte) : Bool :=
  let id := leAt b 0 8
  let len := leAt b 8 4
  let sig := pairBE ((b.drop 16).take 96)
  let pin := s.rg64 (linkReg l Reg.LINK_PEER_PIN_LO)
  match chainCerts (b.drop 112), x.peer with
  | some certs, some peer =>
    match certs.head?, certs.getLast? with
    | some root, some leaf =>
      decide (len ≤ 16384) && decide (b.length = 112 + len) && leAt b 12 4 == 0 && chainVerifies certs && root.key == Config.rootKey &&
      ecVerify leaf.key (responseMsg (transcript x.hello peer) id) sig.1 sig.2 && id == deviceId leaf.key && (pin == 0 || pin == id)
    | _, _ => false
  | _, _ => false

/-- The outcome at the close of a window (R943). -/
def State.outcome (s : State) (l : Nat) (x : Link) : Nat :=
  match x.responses with
  | [] => 2
  | [b] => if leAt b 0 8 = s.myId then 6 else if s.responseGood l x b then 1 else 3
  | _ => 4

/-- The handshake fails: BACKOFF of 16 ms, or of 2^k ms after CONTENDED, whose third in a row disables the link (R945 to R947). -/
def State.linkFail (s : State) (l outcome : Nat) : State :=
  let s := (s.linkOutcome l outcome).setLinkSt l lsBackoff
  let s := s.updLink l (fun x => { x with opened := none, peer := none, responses := [], closed := none, closing := false, confirm := none })
  if outcome = 4 then
    let n := Nat.min 3 (s.contRun l + 1)
    let s := (s.linkCount l Reg.LINK_CONTENDED_CNT 0x0E07 1).wf (linkReg l Reg.LINK_LINK_STATE) 17 16 n
    let s := (s.linkEvent l 4).raiseErr (pgLink l) 0x0E06 n
    if n = 3 then (s.linkDown l lsDisabled 2).linkEvent l 8
    else s.ask .i3c none (.backoff l)
  else
    let s := s.wf (linkReg l Reg.LINK_LINK_STATE) 17 16 0
    let s := if outcome = 3 ∨ outcome = 6 then s.bumpSat (linkReg l Reg.LINK_AUTH_FAILS) 1 else s
    s.updLink l (fun x => { x with backoffEnd := some (s.time + 16000000) })

/-- The link becomes ACTIVE (R941, R949, R953). -/
def State.linkActive (s : State) (l : Nat) : State :=
  let x := s.link l
  match x.peer with
  | none => s
  | some peer =>
    let t := transcript x.hello peer
    let sx := natBE 48 ((sharedX x.scalar (helloPub peer)).getD Config.noPoint)
    let lo := sha384 (ascii "K16-OLZEN-LO" ++ sx ++ t)
    let hi := sha384 (ascii "K16-OLZEN-HI" ++ sx ++ t)
    let mine := isLo x.hello peer
    let s := s.updLink l (fun x => { x with
      matTx := if mine then lo else hi, matRx := if mine then hi else lo, countTx := 0, countRx := 0, scalar := 0, opened := none
      peer := none, responses := [], closed := none, confirm := none })
    let s := ((s.linkOutcome l 1).setLinkSt l lsActive).linkReason l 0
    let s := (s.wr64 (linkReg l Reg.LINK_LINK_PEER_LO) (helloId peer)).wr (linkReg l Reg.LINK_PEER_INFO) (leAt peer 1 1)
    let s := s.wf (linkReg l Reg.LINK_LINK_STATE) 17 16 0
    (s.bumpSat (linkReg l Reg.LINK_LINK_UPS) 1).linkEvent l 1

/-- The partner's CONFIRM and this side's ACCEPT together, once this side's CONFIRM has been sent (R941). -/
def State.confirmStep (s : State) (l : Nat) : State :=
  let x := s.link l
  match x.closed, x.confirm with
  | some _, some o =>
    if x.out.any (fun m => m.code == 3) then s else if o = 1 then s.linkActive l else s.linkFail l 5
  | _, _ => s

/-- PACKET_TRANSMIT (R922, R930, R936): the next packet of a replay, else the next new packet of a VC. A CONFIRM that goes out may
complete the handshake. -/
def execPacketTransmit (link vc : Nat) (s : State) : Host.Outcome State Fault Refusal :=
  if 7 < link ∨ 2 < vc then .next s
  else if (s.link link).resend ≠ [] then .next (s.resendOne link)
  else if s.carries link vc then .next (((s.sendNew link vc).leaveStep link).confirmStep link)
  else .next s

/-- The close of a window: the link classifies its outcome and sends CONFIRM (R941, R943). -/
def State.windowClose (s : State) (l : Nat) : State :=
  let x := s.link l
  match x.opened, x.closed with
  | some t, none =>
    if x.closing = false then s
    else
      let o := s.outcome l x
      let s := (s.updLink l (fun x => { x with closing := false })).queueMsg l 3 (natLE 1 o ++ natLE 7 0)
      if o = 1 then
        ((s.linkOutcome l 1).updLink l (fun x => { x with closed := some (t + chalWindow) })).confirmStep l
      else s.linkFail l o
  | _, _ => s

/-- CHALLENGE_WINDOW_CLOSE (R941, R973): 2 ms after HELLO the window closes. The link classifies its outcome once the cycle's RESPONSEs have
counted (State.windowClose). -/
def execChallengeWindowClose (link : Nat) (s : State) : Host.Outcome State Fault Refusal :=
  if 7 < link ∨ s.linkSt link ≠ lsDiscover then .next s
  else match (s.link link).opened, (s.link link).closed with
    | some t, none =>
      .next (if s.time < t + chalWindow then s else s.updLink link (fun x => { x with closing := true }))
    | _, _ => .next s

/-- What a link's end of a cycle settles: its window's close, and the codeword that no unit can join any more. -/
def State.linkCycle (s : State) (l : Nat) : State :=
  (s.windowClose l).updLink l (fun x => { x with lineOpen := false })

/-- CONFIRM_TIMEOUT (R941): no CONFIRM within 2 ms of the window's close. -/
def execConfirmTimeout (link : Nat) (s : State) : Host.Outcome State Fault Refusal :=
  if 7 < link ∨ s.linkSt link ≠ lsDiscover then .next s
  else match (s.link link).closed with
    | none => .next s
    | some t => if s.time ≤ t + chalWindow then .next s else .next (s.linkFail link 5)

/-- BACKOFF_END (R945, R947): the wait ends and a new handshake starts. -/
def execBackoffEnd (link : Nat) (s : State) : Host.Outcome State Fault Refusal :=
  if 7 < link ∨ s.linkSt link ≠ lsBackoff then .next s
  else match (s.link link).backoffEnd with
    | none => .next s
    | some t =>
      if s.time < t then .next s
      else
        let s := (s.setLinkSt link lsDiscover).updLink link (fun x => { x with backoffEnd := none })
        if s.linkIdentity.isNone then .next (s.linkReason link 3) else .next (s.ask .i3c none (.hello link))

end Sys2Proof.Machine
end

