-- ==== Sys2Proof/Machine/LinkRx.lean ====
section
/-! DEFINITION. What a link does with the packets it receives (spec/18 R915, R919 to R927, R931 to R935, R941, R951, R952,
R957 to R963, R969). -/

namespace Sys2Proof.Machine

/-! Packet checks (R919 to R921). -/

def pktKind (p : List Byte) : Nat := leAt p 0 1
def pktFlags (p : List Byte) : Nat := leAt p 1 1
def pktSeq (p : List Byte) : Nat := leAt p 2 2
def pktPayLen (p : List Byte) : Nat := leAt p 0x0A 2
def pktPay (p : List Byte) : List Byte := (p.drop 16).take (pktPayLen p)

/-- The CRC is right (R920). -/
def pktCrc (p : List Byte) : Bool := crc32c (p.take 12 ++ natLE 4 0 ++ p.drop 16) == leAt p 0x0C 4

/-- UNITS agrees with R919. -/
def pktUnitsGood (p : List Byte) : Bool :=
  let u := leAt p 6 1
  p.length == 64 * u && u == (if pktKind p = 1 then pktUnits (pktPayLen p) else 1) && decide (16 + pktPayLen p ≤ 64 * u)

/-- Reserved fields and padding are zero. -/
def pktReserved (p : List Byte) : Bool :=
  let isData := decide (pktKind p = 1)
  fld (pktFlags p) 7 4 == 0 && (isData || pktFlags p == 0) && fld (pktSeq p) 15 12 == 0 && (isData || pktSeq p == 0) &&
  fld (leAt p 4 2) 14 12 == 0 && fld (leAt p 7 1) 6 2 == 0 && allZero (p.drop (16 + pktPayLen p)) &&
  (pktKind p != 4 || allZero (p.drop 0x1C))

/-- A received packet is kept (R921). -/
def pktGood (p : List Byte) : Bool :=
  decide (64 ≤ p.length) && pktCrc p && decide (1 ≤ pktKind p) && decide (pktKind p ≤ 4) && decide (1 ≤ leAt p 6 1) &&
  decide (leAt p 6 1 ≤ 33) && pktUnitsGood p && pktReserved p

/-- A packet arrives: its units and the symbols corrected in its codewords count, and a bad one is discarded (R921, LINK_CRC). A
DATA packet that breaks R919 with a valid CRC is a protocol error too (R960). -/
def State.rxPacket (s : State) (l : Nat) (p : List Byte) (corr : Nat) : State × Bool :=
  let s := (s.linkUnits l Reg.LINK_RX_UNITS_LO 0x0E01 (p.length / 64)).bumpSat (linkReg l Reg.LINK_FEC_CORR) corr
  if pktGood p then (s, true)
  else
    let s := (s.linkCount l Reg.LINK_CRC_ERRS 0x0E02 1).raiseErr (pgLink l) 0x0E01 (pktSeq p % 4096)
    (if pktCrc p ∧ pktKind p = 1 ∧ pktUnitsGood p = false then s.linkProtocol l 1 else s, false)

/-- The acknowledgement and the credits that a packet carries (R922, R932). -/
def State.rxHeader (s : State) (l : Nat) (p : List Byte) : State :=
  let ack := leAt p 4 2
  let s := if bit ack 15 then s.takeAck l (fld ack 11 0) else s
  let c := leAt p 7 1
  if bit c 7 then s.takeCredit l (fld c 1 0) (leAt p 8 2) else s

/-- A link that takes DATA, ACK and NAK packets. -/
def State.linkOpen (s : State) (l : Nat) : Bool := decide (3 ≤ s.linkSt l) && decide (s.linkSt l ≤ 6)

/-! Link messages (R963). -/

/-- HELLO: the first of a window enters the transcript and is answered with RESPONSE (R941, R942). In ACTIVE it means that the
partner has lost the link. -/
def State.onHello (s : State) (l : Nat) (b : List Byte) : State :=
  if s.linkUp l then s.linkDown l lsDown 7
  else if s.linkSt l ≠ lsDiscover ∨ b.length ≠ 144 ∨ leAt b 0 1 ≠ 1 ∨ leAt b 2 6 ≠ 0 then s.linkProtocol l 3
  else if (s.link l).peer.isSome then s
  else
    let s := s.updLink l (fun x => { x with peer := some b })
    if (s.link l).inHandshake ∧ s.linkIdentity.isSome then s.ask .i3c none (.response l) else s

/-- RESPONSE: counts in the window that is open (R943, R973). -/
def State.onResponse (s : State) (l : Nat) (b : List Byte) : State :=
  if s.linkSt l ≠ lsDiscover then s.linkProtocol l 3
  else match (s.link l).opened, (s.link l).closed with
    | some t, none =>
      if s.time ≤ t + chalWindow then s.updLink l (fun x => { x with responses := x.responses ++ [b] }) else s
    | _, _ => s

/-- CONFIRM (R941): valid once this side has sent HELLO. -/
def State.onConfirm (s : State) (l : Nat) (b : List Byte) : State :=
  if (s.link l).hello = [] then s.linkProtocol l 3
  else if s.linkSt l = lsDiscover ∧ (s.link l).opened.isSome then
    let late := match (s.link l).closed with | some t => decide (t + chalWindow < s.time) | none => false
    (s.updLink l (fun x => { x with confirm := some (if late then 0 else leAt b 0 1) })).confirmStep l
  else s

/-- KEY_UPD: the receive generation moves on, and the old material goes (R952, R970). -/
def State.onKeyUpd (s : State) (l : Nat) (b : List Byte) : State :=
  let gen := s.rg (linkReg l Reg.LINK_KEY_GEN_RX)
  if s.linkUp l = false ∨ leAt b 0 4 ≠ (gen + 1) % 0x100000000 then s.linkProtocol l 3
  else (s.wr (linkReg l Reg.LINK_KEY_GEN_RX) (gen + 1)).updLink l (fun x => { x with matRx := nextMaterial x.matRx, countRx := 0 })

/-- The end of a leave that this side began: DOWN with LEAVE, and EN clears (R957). -/
def State.leaveEnd (s : State) (l : Nat) : State := (s.linkDown l lsDown 8).wf (linkReg l Reg.LINK_LINK_CTRL) 0 0 0

/-- LEAVE: answered with LEAVE_ACK (R958); crossing this side's own LEAVE it is taken as LEAVE_ACK (R969). -/
def State.onLeave (s : State) (l : Nat) : State :=
  if s.linkSt l = lsLeaving then s.leaveEnd l
  else if s.linkSt l = lsActive then
    let s := (s.updLink l (fun x => { x with out := [], resend := [] })).queueMsg l 6 (natLE 8 0)
    (s.sendNew l 0).linkDown l lsDown 9
  else s.linkProtocol l 3

/-- LEAVE_ACK completes a leave (R957). -/
def State.onLeaveAck (s : State) (l : Nat) : State :=
  if s.linkSt l = lsLeaving then (if (s.link l).leaveSent.isSome then s.leaveEnd l else s)
  else if s.linkSt l = lsActive then s
  else s.linkProtocol l 3

/-- A complete link message (Table 18-5). -/
def State.onMessage (s : State) (l code : Nat) (b : List Byte) : State :=
  match code with
  | 1 => s.onHello l b
  | 2 => s.onResponse l b
  | 3 => s.onConfirm l b
  | 4 => s.onKeyUpd l b
  | 5 => s.onLeave l
  | 6 => s.onLeaveAck l
  | _ => s.linkProtocol l 3

/-- A part of a link message (R961): the state and the code of a message that it completes. -/
def State.rxPart (s : State) (l units : Nat) (plain : List Byte) : State × Option Nat :=
  let s := s.updLink l (fun x => { x with freed0 := (x.freed0 + units) % 65536 })
  let code := leAt plain 0 1
  let len := leAt plain 4 4
  let off := leAt plain 8 4
  let part := plain.drop 16
  let m := match (s.link l).inMsg with
    | none => if off = 0 then some (([] : List Byte)) else none
    | some m => if m.code = code ∧ m.len = len ∧ m.body.length = off then some m.body else none
  match m with
  | none => (s.linkProtocol l 2, none)
  | some body =>
    let body := body ++ part
    if plain.length < 16 ∨ leAt plain 1 3 ≠ 0 ∨ leAt plain 0x0C 4 ≠ 0 ∨ len < body.length then (s.linkProtocol l 2, none)
    else if code = 0 ∨ 6 < code then (s.linkProtocol l 3, none)
    else if body.length < len then
      (s.updLink l (fun x => { x with inMsg := some { code := code, len := len, body := body, off := 0 } }), none)
    else ((s.updLink l (fun x => { x with inMsg := none })).onMessage l code body, some code)

/-- A part of a run message (R289, R962) joins the message it continues; one that fits none is dropped. -/
def State.rxRun (s : State) (l vc units : Nat) (plain : List Byte) : State :=
  let m : RunMsg := { link := l, span := leAt plain 0 4, kind := leAt plain 4 1, src := leAt plain 5 1, dst := leAt plain 6 1,
                      flags := leAt plain 7 1, tag := leAt plain 8 4, offset := 0, payload := plain.drop 16, units := units, arrival := s.time }
  let off := leAt plain 0x0C 4
  let drop := ({ s with tun := { s.tun with
    taken := Tab.upd (fun _ => 0) (4 * l + vc) (fun n => (n + units) % 65536) s.tun.taken } }).dropMsg l
  if plain.length < 16 ∨ m.kind = 0 ∨ 0x0C < m.kind ∨ msgVc m.kind ≠ vc then drop
  else if off = 0 then { s with tun := { s.tun with inbox := s.tun.inbox ++ [m] } }
  else
    match findIdx (fun (x : RunMsg) => x.link == l && x.span == m.span && x.kind == m.kind && x.src == m.src && x.dst == m.dst &&
        x.flags == m.flags && x.tag == m.tag && x.payload.length == off) s.tun.inbox with
    | none => drop
    | some i => { s with tun := { s.tun with
        inbox := updAt i (fun (x : RunMsg) => { x with payload := x.payload ++ m.payload, units := x.units + units, arrival := s.time }) s.tun.inbox } }

/-! DATA (R931, R933, R934, R951). -/

/-- LINK_AUTH_FAIL (R951). -/
def State.linkAuthFail (s : State) (l : Nat) : State :=
  let s := s.raiseErr (pgLink l) 0x0E05 (s.rg (linkReg l Reg.LINK_KEY_GEN_RX))
  (s.bumpSat (linkReg l Reg.LINK_AUTH_FAILS) 1).linkDown l lsDown 6

/-- An accepted packet goes to its VC. -/
def State.deliver (s : State) (l : Nat) (p : List Byte) : State × Option Nat :=
  let flags := pktFlags p
  let vc := fld flags 1 0
  let units := leAt p 6 1
  let pay := pktPay p
  if s.linkUp l then
    let x := s.link l
    let n := pay.length
    if bit flags 2 = false ∧ vc = 0 ∧ leAt pay 0 1 = 1 then (s.linkDown l lsDown 7, some 1)
    else if bit flags 2 = false ∨ n < 16 ∨ b2n (bit flags 3) ≠ s.rg (linkReg l Reg.LINK_KEY_GEN_RX) % 2 then (s.linkAuthFail l, none)
    else
      let ct := (pay.take (n - 16)).map BitVec.toNat
      let tag := (pay.drop (n - 16)).map BitVec.toNat
      match gcmDecrypt (linkKey x.matRx) (linkIv x.matRx x.countRx) (linkAad flags (pktSeq p) n) ct tag with
      | none => (s.linkAuthFail l, none)
      | some pt =>
        let s := s.updLink l (fun x => { x with countRx := x.countRx + 1 })
        let plain := pt.map (BitVec.ofNat 8)
        if vc = 0 then (if plain = [] then (s.updLink l (fun x => { x with freed0 := (x.freed0 + units) % 65536 }), none) else s.rxPart l units plain)
        else (s.rxRun l vc units plain, none)
  else if bit flags 2 then (s.linkProtocol l 3, none)
  else if vc = 0 ∧ pay ≠ [] then s.rxPart l units pay
  else if vc = 0 then (s.updLink l (fun x => { x with freed0 := (x.freed0 + units) % 65536 }), none)
  else
    ({ s with tun := { s.tun with taken := Tab.upd (fun _ => 0) (4 * l + vc) (fun n => (n + units) % 65536) s.tun.taken } }, none)

/-- Receive a packet as DATA: the state, and the code of a link message that it completes. -/
def State.rxData (s : State) (l : Nat) (p : List Byte) (corr : Nat) : State × Option Nat :=
  let r := s.rxPacket l p corr
  let s := r.1
  if r.2 = false ∨ pktKind p ≠ 1 ∨ s.linkOpen l = false then (s, none)
  else if fld (pktFlags p) 1 0 = 3 then (s.linkProtocol l 1, none)
  else
    let s := s.rxHeader l p
    if s.linkOpen l = false then (s, none)
    else
      let e := s.expected l
      let d := (pktSeq p + 4096 - e) % 4096
      if d = 0 then
        let s := s.wf (linkReg l Reg.LINK_SEQ_STATE) 11 0 ((e + 1) % 4096)
        let s := s.updLink l (fun x => { x with
          nakSent := false, accepted := x.accepted + 1, ackDue := some (x.ackDue.getD s.time) })
        let s := if 64 ≤ (s.link l).accepted then s.linkSend l 2 0 0 [] else s
        s.deliver l p
      else if d < 2048 then
        let s := s.linkCount l Reg.LINK_GAP_DROPS 0x0E05 1
        if (s.link l).nakSent then (s, none)
        else ((s.updLink l (fun x => { x with nakSent := true })).linkSend l 3 0 0 [], none)
      else ((s.linkCount l Reg.LINK_STALE_DROPS 0x0E04 1).linkSend l 2 0 0 [], none)

/-- DATA (R931): any DATA packet, and any packet that R921 discards. -/
def execDataMsg (link : Nat) (a : Arrival) (corr : Nat) (s : State) : Host.Outcome State Fault Refusal :=
  if 7 < link then .next s else .next (s.rxData link (packetOf a) corr).1

/-- A DATA packet that completes a link message of a code; any other changes nothing here. -/
def State.rxMessage (s : State) (code link : Nat) (a : Arrival) (corr : Nat) : Host.Outcome State Fault Refusal :=
  if 7 < link then .next s
  else
    let r := s.rxData link (packetOf a) corr
    if r.2 = some code then .next r.1 else .next s

/-- HELLO (R941, R942). -/
def execHello (link : Nat) (a : Arrival) (corr : Nat) (s : State) : Host.Outcome State Fault Refusal := s.rxMessage 1 link a corr
/-- RESPONSE (R943). -/
def execResponse (link : Nat) (a : Arrival) (corr : Nat) (s : State) : Host.Outcome State Fault Refusal := s.rxMessage 2 link a corr
/-- CONFIRM (R941). -/
def execConfirm (link : Nat) (a : Arrival) (corr : Nat) (s : State) : Host.Outcome State Fault Refusal := s.rxMessage 3 link a corr
/-- KEY_UPD (R952). -/
def execKeyUpd (link : Nat) (a : Arrival) (corr : Nat) (s : State) : Host.Outcome State Fault Refusal := s.rxMessage 4 link a corr
/-- LEAVE (R958). -/
def execLeave (link : Nat) (a : Arrival) (corr : Nat) (s : State) : Host.Outcome State Fault Refusal := s.rxMessage 5 link a corr
/-- LEAVE_ACK (R957). -/
def execLeaveAck (link : Nat) (a : Arrival) (corr : Nat) (s : State) : Host.Outcome State Fault Refusal := s.rxMessage 6 link a corr

/-- ACK (R935): its acknowledgement and credits. -/
def execAck (link : Nat) (a : Arrival) (corr : Nat) (s : State) : Host.Outcome State Fault Refusal :=
  if 7 < link then .next s
  else
    let r := s.rxPacket link (packetOf a) corr
    if r.2 = false ∨ pktKind (packetOf a) ≠ 2 ∨ r.1.linkOpen link = false then .next r.1 else .next (r.1.rxHeader link (packetOf a))

/-- NAK (R935, R937): as an ACK, and then a replay. -/
def execNak (link : Nat) (a : Arrival) (corr : Nat) (s : State) : Host.Outcome State Fault Refusal :=
  if 7 < link then .next s
  else
    let r := s.rxPacket link (packetOf a) corr
    if r.2 = false ∨ pktKind (packetOf a) ≠ 3 ∨ r.1.linkOpen link = false then .next r.1
    else
      let s := r.1.rxHeader link (packetOf a)
      .next (if s.linkOpen link then s.startReplay link else s)

/-- The buffer sizes that a TRAIN advertises. -/
def trainBufs (p : List Byte) : List Nat := (List.range 4).map (fun v => leAt p (0x14 + 2 * v) 2)

/-- TRAIN (R913, R915, R927, Table 18-6): in phase 4, a valid one is answered; two in a row and an echo end training. -/
def execTrain (link : Nat) (a : Arrival) (corr : Nat) (s : State) : Host.Outcome State Fault Refusal :=
  if 7 < link then .next s
  else
    let r := s.rxPacket link (packetOf a) corr
    let s := r.1
    if r.2 = false ∨ pktKind (packetOf a) ≠ 4 ∨ s.linkSt link ≠ lsTraining ∨ (s.link link).phase ≠ 4 then .next s
    else
      let bufs := trainBufs (packetOf a)
      if leAt (packetOf a) 0x10 1 ≠ 1 ∨ 7 < leAt (packetOf a) 0x11 1 ∨ leAt (packetOf a) 0x12 1 ≠ 33 ∨ 1 < leAt (packetOf a) 0x13 1 ∨
          bufs.getD 3 0 ≠ 0 then .next (s.updLink link (fun x => { x with trains := 0 }))
      else if (bufs.take 3).any (fun b => decide (b < 33) || decide (32768 < b)) then .next (s.trainFail link)
      else
        let s := s.updLink link (fun x => { x with
          trains := x.trains + 1, gotTrain := true, echoed := x.echoed || leAt (packetOf a) 0x13 1 == 1 })
        let s := s.sendTrain link
        if 2 ≤ (s.link link).trains ∧ (s.link link).echoed then .next (s.linkDiscover link bufs) else .next s

end Sys2Proof.Machine
end

