-- ==== Sys2Proof/Machine/Fabric.lean ====
section
/-! DEFINITION. The fabric and the tenant regions: packets through routers and the edge ring, multicast copies, drops, and the
region commands (spec/14 R722 to R765). A packet's place is a router 16 · y + x, a ring stop 128 + n, or, before it has entered,
256 + its source. -/

namespace Sys2Proof.Machine

/-! Portals and routes (R724 to R726, R729). -/

/-- The router of a ring stop. -/
def stopRouter (n : Nat) : Nat :=
  if n < 16 then n else if n < 24 then 16 * (n - 16) + 15 else if n < 40 then 16 * 7 + (39 - n) else 16 * (47 - n)

/-- The portal port of a stop at its router: the second where the router is a corner and the stop stands on its east or west side. -/
def stopPort (n : Nat) : Nat :=
  let r := stopRouter n
  let corner := (r % 16 == 0 || r % 16 == 15) && (r / 16 == 0 || r / 16 == 7)
  if corner && ((16 ≤ n && n < 24) || 40 ≤ n) then 6 else 5

/-- The ring way from stop a to stop b: true ascending (R725). -/
def ringUp (a b : Nat) : Bool := decide ((b + 48 - a) % 48 ≤ 24)

/-- Output ports of a router. -/
abbrev portN : Nat := 0
abbrev portE : Nat := 1
abbrev portS : Nat := 2
abbrev portW : Nat := 3
abbrev portTun : Nat := 4

/-- The neighbour behind an output, and the input port there that faces back. -/
def neighbour (r p : Nat) : Nat :=
  match p with
  | 0 => r + 16 | 1 => r + 1 | 2 => r - 16 | _ => r - 1
def facing (p : Nat) : Nat := (p + 2) % 4

/-- The outputs of a router that bring a packet closer: in x, and in y. -/
def outX (r d : Nat) : Option Nat := if r % 16 < d % 16 then some portE else if d % 16 < r % 16 then some portW else none
def outY (r d : Nat) : Option Nat := if r / 16 < d / 16 then some portN else if d / 16 < r / 16 then some portS else none

/-- Free flit slots of a channel (R727, R728). -/
def State.room (s : State) (loc port : Nat) (cls : PacketClass) (escape : Bool) : Nat :=
  9 - sumOf (·.flits) (s.mem.packets.filter (fun (p : Packet) => p.loc == loc && p.port == port && p.cls == cls && p.escape == escape))

def State.packet (s : State) (i : Nat) : Option Packet := s.mem.packets.find? (fun p => p.id == i)
def State.setPacket (s : State) (q : Packet) : State :=
  { s with mem := { s.mem with packets := s.mem.packets.map (fun p => if p.id == q.id then q else p) } }
def State.dropPacket (s : State) (i : Nat) : State :=
  { s with mem := { s.mem with packets := s.mem.packets.filter (fun p => p.id != i) } }

/-- Count at a router's port (RTR_SEL items 0 to 3). -/
def State.rtrCount (s : State) (router port item n : Nat) : State :=
  { s with mem := { s.mem with rtr := Tab.upd (fun _ => 0) (64 * router + 8 * port + item) (fun c => (c + n) % 0x100000000) s.mem.rtr } }

/-! Output ports (R722, R737, R738, R763). -/

def State.fabPort (s : State) (r p : Nat) : FabPort := Tab.get (fun _ => FabPort.reset) s.mem.ports (8 * r + p)

/-- The place of a class in the service order of R737. -/
def classOrder : PacketClass → Nat
  | .rsp => 0
  | .mc => 1
  | .req => 2

/-- A packet is the first of its channel: the one that arrived there first. -/
def State.front (s : State) (q : Packet) : Bool :=
  s.mem.packets.all (fun (x : Packet) => !(x.loc == q.loc && x.port == q.port && x.cls == q.cls && x.escape == q.escape &&
    (decide (x.since < q.since) || (decide (x.since = q.since) && decide (x.id < q.id)))))

/-- The CCLK cycle in which a packet can leave its place at the earliest. -/
def State.packetNow (s : State) (q : Packet) : Nat := Nat.max s.gov.ccycles q.since

/-- A packet passes an output of its router in a cycle: one flit in each cycle. -/
def State.takePort (s : State) (q : Packet) (r p at_ : Nat) : State :=
  let c := classOrder q.cls
  { s with mem := { s.mem with ports := Tab.upd (fun _ => FabPort.reset) (8 * r + p) (fun o =>
      { freeAt := at_ + q.flits, last := Tab.put (fun _ => 6) c q.port o.last, served := Tab.put (fun _ => 0) c at_ o.served }) s.mem.ports } }

/-- The class that an output serves in a cycle, of those that hold a packet ready (R737): one that has waited 8 cycles, in the order
RSP, MC, REQ; otherwise the first of that order. -/
def FabPort.pickClass (o : FabPort) (ready : List Packet) (at_ : Nat) : Option Nat :=
  let of := fun (c : Nat) => ready.filter (fun (q : Packet) => classOrder q.cls == c)
  let from_ := fun (c : Nat) => Nat.max (Tab.get (fun _ => 0) o.served c) (((of c).map (·.since)).foldl Nat.min at_)
  let held := [0, 1, 2].filter (fun c => of c != [])
  (held.find? (fun c => decide (from_ c + 8 ≤ at_))).orElse (fun _ => held.head?)

/-- The packet that an output serves (R737, R763): of the class served, the one at the next input port in turn after the port served
last; of one input port, the one that arrived first. -/
def FabPort.pick (o : FabPort) (ready : List Packet) (at_ : Nat) : Option Packet :=
  (o.pickClass ready at_).bind (fun c =>
    let turn := fun (q : Packet) => (q.port + 6 - Tab.get (fun _ => 6) o.last c) % 7
    leastBy (fun (a b : Packet) => decide (turn a < turn b) || (decide (turn a = turn b) && (decide (a.since < b.since) ||
      (decide (a.since = b.since) && decide (a.id < b.id))))) (ready.filter (fun (q : Packet) => classOrder q.cls == c)))

/-! Drops (R741 to R745, Table 14-5). -/

/-- The job of a dropped packet ends: its run with TUN_FAULT, its result valid as for an uncorrectable word of SSRAM (Table 14-5), any
other with the memory fault status. -/
def State.packetJobEnds (s : State) (job : Option Nat) : State :=
  match job with
  | none => s
  | some e =>
    match s.tun.runs.find? (fun r => s.faultable r.cmd && ((s.runCmd r).map (·.job)) == some e) with
    | some r =>
      let valid := r.hasBest && s.bestReads r.lead
      { s with fresh := s.fresh + 1 }.finishRun r St.TUN_FAULT 7 valid (valid && (match s.grist r.load with | some g => r.midSweep g | none => false))
    | none => s.failJob e St.MEMORY_FAULT

/-- The STOP that EDGE_LAST gives for a packet's source. -/
def srcStop (src : Nat) : Nat := if src < 128 then 63 else src - 128

/-- A packet is dropped at a router for containment (R741, R742, R733), and its job ends. -/
def State.containDrop (s : State) (q : Packet) (kind router port : Nat) : State :=
  let s := (s.dropPacket q.id).rtrCount router port 3 1
  (s.edgeDrop kind (q.region.getD 0) router (srcStop q.src)).packetJobEnds q.job

/-- The router's copy of the region table has a parity error: it drops what it would deliver or forward (FAB_CFG_PAR). -/
def State.routerBad (s : State) (r : Nat) : Bool := s.mem.badRouters.contains r

/-- A tun belongs to a packet's region (R740 to R742). -/
def State.tunOfRegion (s : State) (q : Packet) (t : Nat) : Bool :=
  match q.region with
  | none => false
  | some g => s.inRegion g t

/-! Unicast (R725, R726, R729 to R732, R741 to R743). -/

/-- A packet enters a VC_E for the first time (R730, R731). -/
def State.noteEscape (s : State) (q : Packet) (router port : Nat) : State :=
  let s := s.rtrCount router port 2 1
  if q.escape then s
  else (s.bump64 Reg.FAB_ESCAPE_PKTS_LO 1).event 0x0201 pgFabric { inst := some router, region := q.region }

/-- Move a packet to the next router on an output in a cycle: its head arrives 3 cycles later (R738). -/
def State.sendHop (s : State) (q : Packet) (r p at_ : Nat) (escape : Bool) : State :=
  let s := s.takePort q r p at_
  let s := (s.rtrCount r p 0 q.flits).event 0x0200 pgFabric { inst := some r, region := q.region } q.flits
  let s := if escape then s.noteEscape q r p else s
  let s := match q.region with
    | some g => if q.src < 128 ∧ r = q.src then s.bump (fabRg g Reg.FRG_RG_MESH_FLITS) q.flits else s
    | none => s
  s.setPacket { q with loc := neighbour r p, port := facing p, escape := q.escape || escape, since := at_ + 3 }

/-- A packet waits for room at an output. -/
def State.hopWait (s : State) (q : Packet) (r p : Nat) : State :=
  (s.rtrCount r p 1 1).event 0x0240 pgFabric { inst := some r, region := q.region }

/-- The channel a unicast packet takes at a router on its way to router d: the output and whether it is VC_E (R729 to R731); none while it
waits. -/
def State.hopChoice (s : State) (q : Packet) (r d : Nat) : Option (Nat × Bool) :=
  let a := fun (p : Option Nat) => match p with
    | none => 0
    | some p => s.room (neighbour r p) (facing p) q.cls false
  let fitsA := fun (p : Option Nat) => p.isSome && decide (q.flits ≤ a p)
  let x := outX r d
  let y := outY r d
  let dim := x.orElse (fun _ => y)
  let esc := match dim with
    | none => none
    | some p => if q.flits ≤ s.room (neighbour r p) (facing p) q.cls true then some (p, true) else none
  if q.escape ∨ s.rf Reg.FAB_FAB_CTRL 0 0 = 0 then esc
  else if fitsA x ∧ fitsA y then (if a x < a y then y.map (·, false) else x.map (·, false))
  else if fitsA x then x.map (·, false)
  else if fitsA y then y.map (·, false)
  else esc

/-- The bits of a mask that lie behind an output of a router. -/
def maskBehind (mask r p : Nat) : Nat :=
  ((List.range 128).filter (fun t => Nat.testBit mask t && (match p with
    | 0 => t % 16 == r % 16 && decide (r / 16 < t / 16)
    | 1 => decide (r % 16 < t % 16)
    | 2 => t % 16 == r % 16 && decide (t / 16 < r / 16)
    | 3 => decide (t % 16 < r % 16)
    | 4 => t == r
    | _ => false))).foldl (fun a t => a ||| (1 <<< t)) 0

/-- The router to which a unicast packet goes. -/
def Packet.target (q : Packet) : Nat := if q.dst < 128 then q.dst else stopRouter (q.dst - 128)

/-- The output by which a unicast packet leaves its target's router. -/
def Packet.exit (q : Packet) : Nat := if q.dst < 128 then portTun else stopPort (q.dst - 128)

/-- A packet at a router is ready to leave it by an output: it is the first of its channel, and its next channel has room (R729, R735). -/
def State.readyFor (s : State) (q : Packet) (p : Nat) : Bool :=
  s.front q &&
  (if q.cls = .mc then maskBehind q.mask q.loc p != 0 && (p == portTun || decide (q.flits ≤ s.room (neighbour q.loc p) (facing p) .mc false))
   else if q.loc = q.target then p == q.exit
   else (s.hopChoice q q.loc q.target).map (·.1) == some p)

/-- The cycle in which a ready packet passes an output, where that lies in this MCLK cycle and the output serves it then (R737). -/
def State.grant (s : State) (q : Packet) (p : Nat) : Option Nat :=
  let o := s.fabPort q.loc p
  let at_ := Nat.max (s.packetNow q) o.freeAt
  let ready := s.mem.packets.filter (fun (x : Packet) => x.loc == q.loc && decide (x.since ≤ at_) && s.readyFor x p)
  if at_ < s.cycleLimit ∧ (o.pick ready at_).map (·.id) = some q.id then some at_ else none

/-- A unicast packet at a router. A packet that the output does not serve yet stays. -/
def State.meshStep (s : State) (q : Packet) : State :=
  let r := q.loc
  if s.front q = false ∨ s.cycleLimit ≤ s.packetNow q then s
  else if s.routerBad r then (s.dropPacket q.id).rtrCount r portTun 3 1
  else if r = q.target then
    if q.dst < 128 ∧ s.tunOfRegion q r = false then s.containDrop q 1 r portTun
    else match s.grant q q.exit with
      | none => s
      | some t => ((s.takePort q r q.exit t).dropPacket q.id).rtrCount r q.exit 0 q.flits
  else match s.hopChoice q r q.target with
    | none => s.hopWait q r (((outX r q.target).orElse (fun _ => outY r q.target)).getD portTun)
    | some (p, e) =>
      if q.src < 128 ∧ q.dst < 128 ∧ s.tunOfRegion q (neighbour r p) = false then s.containDrop q 0 r p
      else match s.grant q p with
        | none => s
        | some t => s.sendHop q r p t e

/-- A packet enters the fabric in a cycle: a tun's at its router, a portal's at its router for a tun, 3 cycles later, and at its stop for a
portal (R738). -/
def State.enterStep (s : State) (q : Packet) : State :=
  let esc := s.rf Reg.FAB_FAB_CTRL 0 0 == 0 && q.cls != .mc
  let now := s.packetNow q
  if s.cycleLimit ≤ now then s
  else if q.src < 128 then
    if q.flits ≤ s.room q.src portTun q.cls esc then
      let s := if esc then s.noteEscape q q.src portTun else s
      s.setPacket { q with loc := q.src, port := portTun, escape := esc, since := now }
    else s.hopWait q q.src portTun
  else
    let n := q.src - 128
    if q.dst < 128 then
      let r := stopRouter n
      let p := stopPort n
      if q.flits ≤ s.room r p q.cls esc then
        let s := if esc then s.noteEscape q r p else s
        s.setPacket { q with loc := r, port := p, escape := esc, since := now + 3 }
      else s.hopWait q r p
    else
      let s := (s.bump64 Reg.FAB_RING_FLITS_LO q.flits).event 0x0204 pgFabric {} q.flits
      s.setPacket { q with loc := q.src, port := if ringUp n (q.dst - 128) then 7 else 8, since := now }

/-- A packet on the ring passes one stop in a cycle, and leaves the fabric at its own (R725, R738). -/
def State.ringStep (s : State) (q : Packet) : State :=
  let n := q.loc - 128
  if s.cycleLimit ≤ s.packetNow q then s
  else if q.loc = q.dst then s.dropPacket q.id
  else s.setPacket { q with loc := 128 + (if q.port = 7 then (n + 1) % 48 else (n + 47) % 48), since := s.packetNow q + 1 }

/-- A packet that a block offers takes its number and waits at its source. -/
def State.offer (s : State) (o : PacketOffer) : State × Nat :=
  let i := s.mem.nextPacket
  ({ s with mem := { s.mem with
      nextPacket := i + 1
      packets := s.mem.packets ++ [{ id := i, cls := o.cls, region := o.region, src := o.src, dst := o.dst, mask := o.mask, flits := o.flits
                                     job := o.job, item := none, loc := 256 + o.src, escape := false, port := portTun
                                     since := s.gov.ccycles }] } }, i)

/-- A source or destination of Table 14-1: a tun, or 128 + a ring stop. -/
def placeGood (a : Nat) : Bool := decide (a < 176)

/-- PACKET_HOP (R725 to R732, R741 to R743): one step of a unicast packet: it enters the fabric, moves to the next router or stop, is
delivered, or waits for room. A packet offered with the command is the one that steps. -/
def execPacketHop (offer : Option PacketOffer) (packet : Nat) (s : State) : Host.Outcome State Fault Refusal :=
  let r := match offer with
    | none => (s, packet)
    | some o => if o.cls = PacketClass.mc ∨ o.flits = 0 ∨ 9 < o.flits ∨ placeGood o.src = false ∨ placeGood o.dst = false then (s, s.mem.nextPacket) else s.offer o
  match r.1.packet r.2 with
  | none => .next r.1
  | some q =>
    if q.cls = PacketClass.mc then .next r.1
    else if 256 ≤ q.loc then .next (r.1.enterStep q)
    else if 128 ≤ q.loc then .next (r.1.ringStep q)
    else .next (r.1.meshStep q)

/-! Multicast (R733 to R736). -/

/-- What a dense sweep's packet brings to a tun: the flip or the marker has arrived (R1154, R1155). -/
def State.arriveItem (s : State) (item : Option McItem) (t : Nat) : State :=
  let idx := fun (r : Run) (t : Nat) => (r.tuns.takeWhile (fun x => x != t)).length
  match item with
  | none => s
  | some (.flip run replica cls spin src) => s.updRun run (fun r => { r with
      pendFlips := r.pendFlips.map (fun (f : PendFlip) =>
        if f.dst == idx r t && f.src == idx r src && f.cls == cls && f.replica == replica && f.spin == spin then { f with arrived := true } else f) })
  | some (.marker run replica cls src) => s.updRun run (fun r => { r with
      pendMarks := r.pendMarks.map (fun (f : PendMark) =>
        if f.dst == idx r t && f.src == idx r src && f.cls == cls && f.replica == replica then { f with arrived := true } else f) })

/-- The rest of a multicast packet at a router after some of its destinations have been served. -/
def State.mcRest (s : State) (q : Packet) (served : Nat) : State :=
  let m := q.mask - (q.mask &&& served)
  if m = 0 then s.dropPacket q.id else s.setPacket { q with mask := m }

/-- One copy of a multicast packet leaves a router by an output, or is delivered to the router's own tun. A channel is free for the next
packet once the last copy has left (R735, R736). -/
def State.mcStep (s : State) (q : Packet) (p : Nat) : State :=
  let r := q.loc
  let m := maskBehind q.mask r p
  if m = 0 ∨ s.front q = false ∨ s.cycleLimit ≤ s.packetNow q then s
  else if s.routerBad r then (s.mcRest q m).rtrCount r p 3 1
  else if p = portTun ∧ s.tunOfRegion q r = false then
    (((s.mcRest q m).rtrCount r p 3 1).edgeDrop 1 (q.region.getD 0) r 63).packetJobEnds q.job
  else if p ≠ portTun ∧ s.tunOfRegion q (neighbour r p) = false then
    (((s.mcRest q m).rtrCount r p 3 1).edgeDrop 0 (q.region.getD 0) r 63).packetJobEnds q.job
  else if p ≠ portTun ∧ s.room (neighbour r p) (facing p) .mc false < q.flits then s.hopWait q r p
  else match s.grant q p with
    | none => s
    | some t =>
      let i := s.mem.nextPacket
      let s := ((s.takePort q r p t).mcRest q m).rtrCount r p 0 q.flits
      if p = portTun then s.arriveItem q.item r
      else
        let s := s.event 0x0200 pgFabric { inst := some r, region := q.region } q.flits
        { s with mem := { s.mem with
            nextPacket := i + 1
            packets := s.mem.packets ++ [{ q with id := i, mask := m, loc := neighbour r p, port := facing p, since := t + 3 }] } }

/-- A multicast packet enters at its source's router: a mask with a tun of another region drops it whole (R733). -/
def State.mcEnter (s : State) (q : Packet) : State :=
  if (List.range 128).any (fun t => Nat.testBit q.mask t && !s.tunOfRegion q t) then s.containDrop q 2 q.src portTun
  else if s.mem.packets.any (fun (x : Packet) => x.cls == .mc && x.src == q.src && x.loc == q.loc && decide (x.id < q.id)) ∨
      s.cycleLimit ≤ s.packetNow q then s
  else if s.room q.src portTun .mc false < q.flits then s.hopWait q q.src portTun
  else
    let s := (s.bump64 Reg.FAB_MCAST_PKTS_LO 1).event 0x0202 pgFabric { inst := some q.src, region := q.region }
    let far := maskBehind q.mask q.src portTun != q.mask
    let s := match q.region with
      | some g => if far then s.bump (fabRg g Reg.FRG_RG_MESH_FLITS) q.flits else s
      | none => s
    s.setPacket { q with loc := q.src, port := portTun, since := s.packetNow q }

/-- MULTICAST_COPY (R733 to R736): a multicast packet enters the fabric, or one copy of it moves on along an output of its router or is
delivered (port 4). -/
def execMulticastCopy (offer : Option PacketOffer) (packet port : Nat) (s : State) : Host.Outcome State Fault Refusal :=
  let r := match offer with
    | none => (s, packet)
    | some o => if o.cls ≠ PacketClass.mc ∨ o.flits = 0 ∨ 9 < o.flits ∨ 128 ≤ o.src ∨ o.mask = 0 ∨ 1 <<< 128 ≤ o.mask then (s, s.mem.nextPacket) else s.offer o
  match r.1.packet r.2 with
  | none => .next r.1
  | some q =>
    if q.cls ≠ PacketClass.mc then .next r.1
    else if 256 ≤ q.loc then .next (r.1.mcEnter q)
    else .next (r.1.mcStep q port)

/-- The place of a packet as FAB_STUCK and FAB_UE name it. -/
def Packet.place (q : Packet) : Nat := if 256 ≤ q.loc then q.loc - 256 else q.loc

/-- PACKET_STUCK_TIMEOUT (R764): a head that has waited 65,536 cycles at one router or stop. -/
def execPacketStuckTimeout (packet : Nat) (s : State) : Host.Outcome State Fault Refusal :=
  match s.packet packet with
  | none => .next s
  | some q =>
    if s.gov.ccycles < q.since + 65536 then .next s
    else .next (((s.dropPacket q.id).raiseErr pgFabric 0x0204 q.place).packetJobEnds q.job)

/-! Regions (R746 to R762). -/

/-- The staged record of a region, as it would apply (R754). -/
def State.staged (s : State) (r : Nat) : RegionRec :=
  let q := s.rg (fabRg r Reg.FRG_RG_QUOTA)
  let cap := fun (q hi lo : Nat) => setFld q hi lo (Nat.min 16 (fld q hi lo))
  { rect := s.reg (fabRg r Reg.FRG_RG_RECT), quota := BitVec.ofNat 32 (cap (cap (cap q 20 16) 12 8) 4 0)
    commons := s.reg (fabRg r Reg.FRG_RG_COMMONS), hbm := s.reg (fabRg r Reg.FRG_RG_HBM) }

/-- Region r is quiet for a change to a rectangle (R755). -/
def State.quiet (s : State) (r : Nat) (new : Nat) : Bool :=
  let mine := fun (q : Nat) => s.qAssigned q && s.qRegion q == r
  !(s.jobs.any (fun j => decide (j.entry < 4096) && mine j.queue)) &&
  s.queues.all (fun (e : Nat × Queue) => !mine e.1 || decide (e.2.state = .unassigned) || decide (e.2.state = .disabled)) &&
  !(s.mem.marches.any (fun m => m.kind == 0 && (rectHas (s.rgn r).rect.toNat m.inst || rectHas new m.inst)))

/-- Two rectangles of Table 14-4 share a tun. -/
def rectMeet (a b : Nat) : Bool := (List.range 128).any (fun t => rectHas a t && rectHas b t)

/-- Two windows of a record meet: base and size fields of 9 or 10 bits. -/
def windowMeet (a b w : Nat) : Bool :=
  let ab := fld a w 0
  let az := fld a (16 + w) 16
  let bb := fld b w 0
  let bz := fld b (16 + w) 16
  decide (0 < az) && decide (0 < bz) && decide (ab < bb + bz) && decide (bb < ab + az)

/-- Checks 3 to 6 of Table 14-2. -/
def State.applyCheck (s : State) (r : Nat) (n : RegionRec) : Nat :=
  let rect := n.rect.toNat
  let others := (List.range 16).filter (fun q => q != r && s.rgnEnabled q)
  let en := rectEn rect
  if en ∧ (rectX1 rect < rectX0 rect ∨ rectY1 rect < rectY0 rect) then 2
  else if en ∧ others.any (fun q => rectMeet rect (s.rgn q).rect.toNat) then 3
  else if 512 < fld n.commons.toNat 9 0 + fld n.commons.toNat 25 16 ∨ 384 < fld n.hbm.toNat 8 0 + fld n.hbm.toNat 24 16 then 4
  else if en ∧ others.any (fun q => windowMeet n.commons.toNat (s.rgn q).commons.toNat 9 || windowMeet n.hbm.toNat (s.rgn q).hbm.toNat 8) then 5
  else 0

/-- A record becomes the applied one. -/
def State.setRgn (s : State) (r : Nat) (n : RegionRec) : State :=
  { s with mem := { s.mem with applied := Tab.put (fun _ => RegionRec.zero) r n s.mem.applied } }

/-- A reconfiguration (R756, R1040). -/
def State.reconfigure (s : State) (r : Nat) (n : RegionRec) : State :=
  let old := rectTuns (s.rgn r).rect.toNat
  let new := rectTuns n.rect.toNat
  let s := s.setRgn r n
  let s := (s.wr (fabRg r Reg.FRG_RG_ACT_RECT) n.rect.toNat).wf (fabRg r Reg.FRG_RG_STATE) 7 0 new.length
  let s := old.foldl (fun s t => if new.contains t then s else s.updTun t (fun x => { x with lull := .off, load := none, loading := false })) s
  let s := new.foldl (fun s t => if old.contains t then s
    else (s.updTun t (fun x => { x with lull := .off, load := none, loading := false })).wakeTun t) s
  let s := (s.dropImages (fun x => x.region == r)).dropPlans (fun x => x == r)
  let s := s.liveQueues.foldl (fun s q =>
    if s.qAssigned q && s.qRegion q == r then s.updQueue q (fun x => { x with arms := [] }) else s) s
  s.wf Reg.ERRP_RG_FENCE r r 0

def State.rgnResult (s : State) (r code : Nat) : State := s.wr Reg.FAB_RGN_RESULT ((r <<< 8) ||| code)

/-- An APPLY takes effect (R754 to R756). -/
def State.rgnApply (s : State) (r : Nat) : State :=
  let n := s.staged r
  let a := s.rgn r
  let quotaOnly := decide (n.rect = a.rect) && decide (n.commons = a.commons) && decide (n.hbm = a.hbm)
  if s.ready = false ∨ s.pageFailed pgFabric ∨ s.rf Reg.FAB_FAB_STATE 0 0 = 1 then s.rgnResult r 7
  else if quotaOnly then (s.setRgn r n).rgnResult r 0
  else if s.quiet r n.rect.toNat = false then s.rgnResult r 1
  else
    let c := s.applyCheck r n
    if c ≠ 0 then s.rgnResult r c else (s.reconfigure r n).rgnResult r 0

/-- A REVERT takes effect (Table 14-3): the staging record takes the applied record. -/
def State.rgnRevert (s : State) (r : Nat) : State :=
  let a := s.rgn r
  let s := (s.setReg (fabRg r Reg.FRG_RG_RECT) a.rect).setReg (fabRg r Reg.FRG_RG_QUOTA) a.quota
  ((s.setReg (fabRg r Reg.FRG_RG_COMMONS) a.commons).setReg (fabRg r Reg.FRG_RG_HBM) a.hbm).rgnResult r 0

/-- A write of RGN_CMD takes effect. -/
def State.rgnCommand (s : State) (v : Word) : State :=
  let r := fld v.toNat 3 0
  match fld v.toNat 31 28 with
  | 1 => s.rgnApply r
  | 2 => s.rgnRevert r
  | _ => s.rgnResult r 6

/-- The region commands of an MCLK cycle take effect at the beginning of the next one (R754, R756): before a queue of the region is
enabled or assigned in that cycle (R759, R760), and after the admission tests of the cycle of their arrival (R761). -/
def State.rgnStep (s : State) : State := s.mem.rgnAsks.foldl State.rgnCommand { s with mem := { s.mem with rgnAsks := [] } }

/-- A write of RGN_CMD has arrived: the command takes effect in the MCLK cycle that follows. -/
def State.rgnArrive (s : State) (v : Word) : State := { s with mem := { s.mem with rgnAsks := s.mem.rgnAsks ++ [v] } }

/-- RGN_APPLY (R754 to R756): a write of RGN_CMD with OP APPLY. -/
def effectRgnApply (_p : Path) (v : Word) (s : State) : Host.Outcome State Fault Refusal :=
  if fld v.toNat 31 28 ≠ 1 then .next s else .next (s.rgnArrive v)

/-- RGN_REVERT (Table 14-3): a write of RGN_CMD with OP REVERT. -/
def effectRgnRevert (_p : Path) (v : Word) (s : State) : Host.Outcome State Fault Refusal :=
  if fld v.toNat 31 28 ≠ 2 then .next s else .next (s.rgnArrive v)

/-- RGN_CMD with a reserved OP (Table 14-3). -/
def effectRgnBadOp (_p : Path) (v : Word) (s : State) : Host.Outcome State Fault Refusal :=
  let op := fld v.toNat 31 28
  if op = 1 ∨ op = 2 then .next s else .next (s.rgnArrive v)

end Sys2Proof.Machine
end

