-- ==== Sys2Proof/Machine/Memory.lean ====
section
/-! DEFINITION. The memories: accesses at the commons banks and HBM ports, write-back and patrol, the HBM window, the march
engine, soft repair and sparge (spec/15 R766 to R810, R1150). -/

namespace Sys2Proof.Machine

/-! Accesses (R744, R769, R770, R792, R797, R803). -/

/-- An access waits: its bytes are being sparged (R792), or a cipher command is unsealing into them (R893). -/
def State.accessHeld (s : State) (space : Nat) (r : MemReq) : Bool :=
  let n := opSize r.op
  s.sparging space r.addr n ||
  (match s.cipher with
   | some c => c.openIt && c.dstSpace == space && c.ends.isSome && decide (r.addr < c.dst + c.bytes) && decide (c.dst < r.addr + n)
   | none => false)

/-- A memory portal lets a request through, or drops it with an error reply and ends its job (R744, R745). -/
def State.portalDrop (s : State) (stop : Nat) (r : MemReq) : State :=
  let s := { s with mem := { s.mem with replies := s.mem.replies ++ [(⟨r, none⟩ : Reply)] } }
  (s.edgeDrop 3 (r.region.getD 0) 0 stop).packetJobEnds r.job

/-- Serve one access, reading data as it stood in s0, and reply; an error ends the requester's job (R775, R796). -/
def State.serve (s s0 : State) (space : Nat) (r : MemReq) : State :=
  let a := s.access space r
  let data := if opWrites r.op then a.2 else (s0.access space r).2
  let s := { a.1 with mem := { a.1.mem with replies := a.1.mem.replies ++ [{ req := r, data := data }] } }
  match data, r.job with
  | none, some e => s.failJob e St.MEMORY_FAULT
  | _, _ => s

/-- Take the first n requests that are not held out of a waiting list. -/
def takeFree (held : MemReq → Bool) : Nat → List MemReq → List MemReq × List MemReq
  | 0, l => ([], l)
  | _ + 1, [] => ([], [])
  | n + 1, r :: l =>
    if held r then (let t := takeFree held (n + 1) l; (t.1, r :: t.2))
    else (let t := takeFree held n l; (r :: t.1, t.2))

def byRank (l : List MemReq) : List MemReq := sortBy (fun a b => decide (a.rank < b.rank)) l

/-- The space has the bytes of a request. -/
def inSpace (space : Nat) (r : MemReq) : Bool := decide (r.addr + opSize r.op ≤ (if space = spHbm then hbmSize else comSize))

/-- COMMONS_ACCESS (R768 to R775, R803, R1150): one CCLK cycle of a bank. Requests that reach it are checked at its portal and
wait behind the earlier ones in ascending source rank; at most two are served, on ports 0 and 1. -/
def execCommonsAccess (bank : Nat) (reqs : List MemReq) (s : State) : Host.Outcome State Fault Refusal :=
  if 31 < bank then .next s
  else
    let mine := byRank (reqs.filter (fun (r : MemReq) => comBank r.addr == bank && inSpace spCom r && r.addr % 64 + opSize r.op ≤ 64))
    let s := { s with mem := { s.mem with replies := [] } }
    let s := (mine.filter (fun r => !s.contained spCom r)).foldl (fun s r => s.portalDrop (comStop bank) r) s
    let q := Tab.get (fun _ => []) s.mem.comWait bank ++ mine.filter (fun r => s.contained spCom r)
    let t := takeFree (s.accessHeld spCom) 2 q
    let s := { s with mem := { s.mem with comWait := Tab.put (fun _ => []) bank t.2 s.mem.comWait } }
    let rd := t.1.filter (fun (r : MemReq) => !opWrites r.op)
    let wr := t.1.filter (fun (r : MemReq) => opWrites r.op)
    let s0 := s
    let s := rd.foldl (fun s r => s.serve s0 spCom r) s
    let s := wr.foldl (fun s r => s.serve s0 spCom r) s
    match t.1 with
    | [a, b] =>
      if clash a b then .next ((s.bump Reg.MEM_WRITE_CLASH 1).event 0x0A00 pgMemory { inst := some bank }) else .next s
    | _ => .next s

/-- A request of the predictor's weight fetch that R388 demotes: from its portals, for its image, while OCC exceeds HBM_THR. -/
def State.demotedFetch (s : State) (r : MemReq) : Bool :=
  decide (s.rf Reg.PRD_FETCH_CTRL 7 0 < s.rf Reg.MEM_HBM_BUSY 8 0) && (r.rank == 22 || r.rank == 23) &&
  (match s.pred.run with
   | some p => decide (p.phase = .fetch) && decide (p.image.addr ≤ r.addr) && decide (r.addr < p.image.addr + p.image.bytes)
   | none => false)

/-- HBM_ACCESS (R793 to R797, R388): a port 4 · stack + p serves its next request; those that reach it in one cycle wait in ascending source
rank, and the predictor's weight fetches after all others while they are demoted. -/
def execHbmAccess (port : Nat) (reqs : List MemReq) (s : State) : Host.Outcome State Fault Refusal :=
  if 15 < port then .next s
  else
    let mine := byRank (reqs.filter (fun (r : MemReq) =>
      4 * hbmStack r.addr + hbmPort r.addr == port && inSpace spHbm r && r.addr % 256 + opSize r.op ≤ 256))
    let s := { s with mem := { s.mem with replies := [] } }
    let s := (mine.filter (fun r => !s.contained spHbm r)).foldl (fun s r => s.portalDrop (hbmStop (port / 4) (port % 4)) r) s
    let q := Tab.get (fun _ => []) s.mem.hbmWait port ++ mine.filter (fun r => s.contained spHbm r)
    let t := takeFree (s.accessHeld spHbm) 1 (q.filter (fun r => !s.demotedFetch r) ++ q.filter s.demotedFetch)
    let s := { s with mem := { s.mem with hbmWait := Tab.put (fun _ => []) port (q.diff t.1) s.mem.hbmWait } }
    .next (t.1.foldl (fun s r =>
      let s := { s with mem := { s.mem with busyCycles := s.mem.busyCycles + 1 } }
      let st := port / 4
      let s := (s.bump64 (hbmReg st Reg.HBM_BUSY_CYC_LO) 1).event 0x0B40 (pgHbm st) { inst := some st }
      s.serve s spHbm r) s)

/-- ECC_WRITE_BACK (R774, R806): the oldest corrected word that waits is written back, unless it has been written since. -/
def execEccWriteBack (s : State) : Host.Outcome State Fault Refusal :=
  match s.mem.writeBacks with
  | [] => .next s
  | k :: ks =>
    let s := { s with mem := { s.mem with writeBacks := ks } }
    .next (if s.mark k = 1 then s.setMark k 0 else s)

/-- 64-bit words of a stack. -/
abbrev stackWords : Nat := 3221225472

/-- The HBM address of word i of a stack (R793). -/
def stackAddr (stack i : Nat) : Nat := ((i / 32 * 4 + stack) <<< 8) + (i % 32) * 8

/-- PATROL_SCRUB_READ (R798): the patrol of a stack reads its next word; the operand is the number of bits it finds inverted. -/
def execPatrolScrubRead (stack upset : Nat) (s : State) : Host.Outcome State Fault Refusal :=
  if 3 < stack ∨ s.rf (hbmReg stack Reg.HBM_SCRUB) 15 0 = 0 ∨ s.rf (hbmReg stack Reg.HBM_HBM_STATE) 2 0 ≠ 3 then .next s
  else
    let i := Tab.get (fun _ => 0) s.mem.patrol stack
    let a := stackAddr stack i
    let s := { s with mem := { s.mem with patrol := Tab.put (fun _ => 0) stack ((i + 1) % stackWords) s.mem.patrol } }
    let k := spaceMark spHbm a
    let s := if upset = 0 then s else s.setMark k (s.mark k + upset)
    .next (s.noteWord spHbm a)

/-- HBM_OCCUPANCY_WINDOW (R799): the end of a window of 1,024 HCLK cycles. -/
def execHbmOccupancyWindow (s : State) : Host.Outcome State Fault Refusal :=
  let occ := Nat.min 256 (256 * s.mem.busyCycles / 16384)
  let s := { s with mem := { s.mem with busyCycles := 0 } }.wr Reg.MEM_HBM_BUSY occ
  if s.rf Reg.PRD_FETCH_CTRL 7 0 < occ then .next ((s.bump Reg.MEM_HBM_HOT 1).event 0x0B05 pgMemory) else .next s

/-- HBM_CATASTROPHIC_TEMP (R807, Table 15-7): a stack reports its catastrophic temperature. -/
def execHbmCatastrophicTemp (stack : Nat) (s : State) : Host.Outcome State Fault Refusal :=
  if 4 ≤ stack then .next s else .next (s.raiseErr (pgHbm stack) 0x0B05 0)

/-! Spare rows (R767, R783 to R786). -/

/-- Words and instances of a march target (Table 15-4). -/
def marchWords (kind : Nat) : Nat :=
  match kind with
  | 0 => 524288 | 1 => 65536 | 2 => 131072 | 3 => 6291456 | 4 => 8388608 | 5 => 2097152 | 6 => 4194304 | 7 => 262144 | _ => 0
def marchInsts (kind : Nat) : Nat := match kind with | 0 => 128 | 1 => 8 | 2 => 32 | _ => 1

/-- Spare rows of the memory that holds a row (Table 15-1). -/
def spareRows (kind row : Nat) : Nat :=
  match kind with
  | 0 => if row < 6144 then 48 else 16
  | 1 => 8 | 2 => 16 | 3 => 96 | 4 => 128 | 5 => 32 | 6 => 64 | 7 => 8 | _ => 0
def spareKey (kind inst row : Nat) : Nat := 2 * memKey kind inst + (if kind = 0 ∧ 6144 ≤ row then 1 else 0)
def State.sparesUsed (s : State) (key : Nat) : Nat := Tab.get (fun _ => 0) s.mem.spares key

/-- Spare rows of an instance and those used (REPAIR_DATA). -/
def State.repairData (s : State) (kind inst : Nat) : Nat × Nat :=
  if 7 < kind ∨ marchInsts kind ≤ inst then (0, 0)
  else if kind = 0 then (64, s.sparesUsed (2 * memKey 0 inst) + s.sparesUsed (2 * memKey 0 inst + 1))
  else (spareRows kind 0, s.sparesUsed (2 * memKey kind inst))

/-- The page of an instance. -/
def marchPage (kind inst : Nat) : Nat :=
  match kind with
  | 0 => pageIdx .tun inst
  | 1 => pageIdx .gnomos inst
  | 3 => pageIdx .solver 0
  | 4 => pageIdx .predictor 0
  | 5 => pageIdx .predictor 0
  | 6 => pageIdx .planner 0
  | 7 => pageIdx .planner 0
  | _ => pgMemory

/-- An instance has no spare left for a failing row (R785, Table 15-7). -/
def State.noSpare (s : State) (kind inst : Nat) : State :=
  match kind with
  | 0 => (s.updTun inst (fun x => { x with failed := true })).raiseErr pgMemory 0x0A04 inst (s.tunRegion inst)
  | 1 => (s.updCore inst (fun c => { c with failed := true })).raiseErr pgMemory 0x0A04 (256 + inst)
  | 2 => s.raiseErr pgMemory 0x0A03 inst
  | _ => (s.wf (pgReg (marchPage kind inst) Reg.H_STATUS) 1 1 1).raiseErr pgMemory 0x0A04 (256 * kind + inst)

/-- Map a failing row to a free spare (R783); true where there is none. -/
def State.repairRow (s : State) (kind inst row : Nat) : State × Bool :=
  let k := spareKey kind inst row
  let used := s.sparesUsed k
  if spareRows kind row ≤ used then (s.noSpare kind inst, true)
  else ({ s with mem := { s.mem with
      spares := Tab.put (fun _ => 0) k (used + 1) s.mem.spares
      rowMap := Tab.put (fun _ => 0) ((memKey kind inst <<< 20) + row) (used + 1) s.mem.rowMap } }, false)

/-- The failing bits of a march, by row: FAIL_ROWS, MARCH_FIRST, the event and the repairs. True where a row found no spare. -/
def State.repairs (s : State) (kind inst : Nat) (fails : List (Nat × Nat)) : State × Bool :=
  fails.foldl (fun (p : State × Bool × List Nat) (f : Nat × Nat) =>
    let row := f.1 / 64
    if p.2.2.contains row then p
    else
      let s := p.1
      let s := if s.rf Reg.MEM_MARCH_STATUS 15 0 = 0 then s.wr Reg.MEM_MARCH_FIRST ((f.2 <<< 24) ||| f.1) else s
      let s := (s.wf Reg.MEM_MARCH_STATUS 15 0 (satAdd 16 (s.rf Reg.MEM_MARCH_STATUS 15 0) 1)).event 0x0A03 pgMemory
      let r := s.repairRow kind inst row
      (r.1, p.2.1 || r.2, row :: p.2.2)) (s, false, []) |> fun p => (p.1, p.2.1)

/-- Words of a preserving march's range hold errors: it corrects single-bit errors, and an uncorrectable word of a row that is remapped
becomes zero in the spare, which its block then handles as such an error (R778, R784). -/
def State.scrub (s : State) (kind inst start count : Nat) (rows : List Nat) : State :=
  let lo := markKey (memKey kind inst) start
  let mine := (s.mem.marks.filter (fun (e : Nat × Nat) => decide (lo ≤ e.1) && decide (e.1 < lo + count))).map (fun (e : Nat × Nat) =>
    (start + (e.1 - lo), e.2))
  mine.foldl (fun s (e : Nat × Nat) =>
    let key := markKey (memKey kind inst) e.1
    let lost := decide (2 ≤ e.2) && rows.contains (e.1 / 64)
    match kind with
    | 1 =>
      if e.2 = 1 then (s.lmCorrect inst e.1).setMark key 0
      else if lost then ((s.setMark key 0).raiseErr (pgGnm inst) 0x0602 e.1).updCore inst (fun c =>
        { c with lmem := Tab.putList (fun _ => 0) (8 * e.1) (List.replicate 8 0) c.lmem })
      else s
    | 2 =>
      let a := comOffset inst e.1
      if e.2 = 1 then (s.noteWord spCom a).setMark key 0
      else if lost then ((s.noteWord spCom a).setMark key 0).putBytes spCom 0 a (List.replicate 8 0)
      else s
    | _ => s) s

/-! March (R776 to R782, R800, R801, R804, R805, R810). -/

def State.marchState (s : State) (st : Nat) : State := s.wf Reg.MEM_MARCH_STATUS 31 28 st
def State.marchCode (s : State) (c : Nat) : State := s.wf Reg.MEM_MARCH_STATUS 23 16 c

/-- The target of a march command and its range, as the registers stand (R801). -/
def State.marchArgs (s : State) : Nat × Nat × Nat × Nat :=
  (s.rf Reg.MEM_MARCH_TARGET 31 28, s.rf Reg.MEM_MARCH_TARGET 7 0, s.rf Reg.MEM_MARCH_START 23 0, s.rf Reg.MEM_MARCH_COUNT 23 0)

/-- The engine of a target holds or queues a command (Table 15-2). -/
def State.engineInUse (s : State) (kind : Nat) : Bool :=
  let e := if kind = 3 then Engine.solver else if kind ≤ 5 then .predictor else .planner
  s.cmds.any (fun (c : Command) => c.engine == e && decide (c.phase = .queued ∨ c.phase = .running))

/-- A commons bank's range meets the window of an enabled region that is not quiet. -/
def State.bankOwned (s : State) (start count : Nat) : Bool :=
  let lo := (start / 8) * 2048
  let hi := ((start + count - 1) / 8 + 1) * 2048
  (List.range 16).any (fun r =>
    let w := s.window r spCom
    decide (w.1 < hi) && decide (lo < w.2) && decide (w.1 < w.2) && !s.quiet r (s.rgn r).rect.toNat)

/-- A march of the target runs, or a sparge of it. -/
def State.targetBusy (s : State) (kind inst : Nat) : Bool :=
  s.mem.marches.any (fun (m : March) => m.kind == kind && m.inst == inst) ||
  s.mem.sparges.any (fun (g : Sparge) => kind == 0 && g.tun == some inst) ||
  (kind == 2 && s.mem.sparges.any (fun (g : Sparge) => g.tun.isNone && g.space == spCom))

/-- A core is neither IDLE nor in lull. -/
def State.coreInUse (s : State) (k : Nat) : Bool := decide ((s.core k).phase ≠ .idle)

/-- Table 15-2. -/
def State.marchBusy (s : State) (destructive : Bool) (kind inst start count : Nat) : Bool :=
  s.targetBusy kind inst ||
  (match kind with
   | 0 => if destructive then s.tunInUse inst || s.gwClaims inst else (s.tunSt inst).loading
   | 1 => s.coreInUse inst
   | 2 => destructive && s.bankOwned start count
   | _ => destructive && s.engineInUse kind)

/-- The code with which a march is refused; 0 where it starts. -/
def State.marchCheck (s : State) (destructive : Bool) (kind inst start count : Nat) : Nat :=
  if s.ready = false then 6
  else if 7 < kind ∨ marchInsts kind ≤ inst then 4
  else if count = 0 ∨ marchWords kind < start + count then 2
  else if s.marchBusy destructive kind inst start count then 1
  else 0

/-- The run that uses a tun. -/
def State.tunRun (s : State) (t : Nat) : Option Run := s.tun.runs.find? (fun r => decide (r.phase ≠ .stopped) && r.tuns.contains t)

/-- A march begins. -/
def State.marchBegin (s : State) (destructive : Bool) (kind inst start count : Nat) : State :=
  let sliced := !destructive && kind == 0 && (s.tunRun inst).isSome
  let paused := !destructive && decide (3 ≤ kind) && s.engineInUse kind
  let s := { s with mem := { s.mem with marches := s.mem.marches ++ [
    ({ kind := kind, inst := inst, start := start, count := count, destructive := destructive, done := 0
       sliceEnd := some s.gov.ccycles, paused := paused, failed := false } : March)] } }
  ((s.wr Reg.MEM_MARCH_STATUS ((if sliced then 2 else if paused then 3 else 1) <<< 28)).wr Reg.MEM_MARCH_DONE 0).wr Reg.MEM_MARCH_FIRST 0

/-- The range of a destructive march is left zero, and its target without grist, image or grid (R776, R781). -/
def State.marchZero (s : State) (kind inst start count : Nat) : State :=
  let lo := markKey (memKey kind inst) start
  let s := { s with mem := { s.mem with marks := Tab.keep (fun k _ => decide (k < lo) || decide (lo + count ≤ k)) s.mem.marks } }
  match kind with
  | 0 => s.updTun inst (fun x => { x with load := none, loading := false })
  | 1 => s.updCore inst (fun c => { c with lmem := Tab.keep (fun a _ => !(decide (8 * start ≤ a) && decide (a < 8 * (start + count)))) c.lmem })
  | 2 =>
    let inR := fun (a : Nat) => comBank a == inst && decide (start ≤ comBankWord a) && decide (comBankWord a < start + count)
    { s with commons := Tab.keep (fun a _ => !inR a) s.commons }
  | 4 => s.dropImages (fun _ => true)
  | 6 => s.dropPlans (fun _ => true)
  | 7 => s.dropPlans (fun _ => true)
  | _ => s

/-- A destructive march is evaluated (R776, R779, R781, R783). -/
def State.marchDestructive (s : State) (a : MemAsk) : State :=
  let c := s.marchCheck true a.kind a.inst a.start a.count
  if c ≠ 0 then s.marchCode c
  else
    let fs := a.fails.filter (fun (f : Nat × Nat) => decide (a.start ≤ f.1) && decide (f.1 < a.start + a.count) && decide (f.2 < 72))
    let s := (s.marchBegin true a.kind a.inst a.start a.count).marchZero a.kind a.inst a.start a.count
    let r := s.repairs a.kind a.inst fs
    let s := r.1
    { s with mem := { s.mem with marches := s.mem.marches.map (fun (m : March) =>
      if m.kind == a.kind && m.inst == a.inst then { m with failed := m.failed || r.2 } else m) } }

/-- A preserving march is evaluated (R777, R779). -/
def State.marchPreserving (s : State) (a : MemAsk) : State :=
  let c := s.marchCheck false a.kind a.inst a.start a.count
  if c ≠ 0 then s.marchCode c else s.marchBegin false a.kind a.inst a.start a.count

/-- The words of an aborted destructive march are undefined (R782). -/
def State.marchSpoil (s : State) (m : March) : State :=
  let bytes := fun (w : Nat) => (List.range 8).map (fun i => Config.marchByte s.fresh (8 * w + i))
  let ws := (List.range m.count).map (· + m.start)
  let s := match m.kind with
    | 1 => s.updCore m.inst (fun c => { c with lmem := ws.foldl (fun t w => Tab.putList (fun _ => 0) (8 * w) (bytes w) t) c.lmem })
    | 2 => ws.foldl (fun s w => s.putBytes spCom 0 (comOffset m.inst w) (bytes w)) s
    | _ => s
  { s with fresh := s.fresh + 1 }

/-- An abort stops the last march begun (R782). -/
def State.marchAbort (s : State) : State :=
  if s.ready = false then s.marchCode 6
  else match s.mem.marches.getLast? with
    | none => s.marchCode 0
    | some m =>
      let s := { s with mem := { s.mem with marches := s.mem.marches.dropLast } }
      let s := if m.destructive then s.marchSpoil m else s
      (s.marchState 0).marchCode 5

/-- A march command waits for the end of its MCLK cycle (R805), with its target and range as they stand (R801). -/
def State.askMarch (s : State) (op : Nat) (fails : List (Nat × Nat)) : State :=
  let a := s.marchArgs
  { s with mem := { s.mem with asks := s.mem.asks ++ [
    ({ op := some op, kind := a.1, inst := a.2.1, start := a.2.2.1, count := a.2.2.2, fails := fails } : MemAsk)] } }

/-- MARCH_DESTRUCTIVE (R776, R779, R781, R783, R801, R805): a write of MARCH_CMD with OP 1; the operand lists the failing bits it finds,
as word and bit. -/
def effectMarchDestructive (_p : Path) (v : Word) (fails : List (Nat × Nat)) (s : State) : Host.Outcome State Fault Refusal :=
  if fld v.toNat 31 28 ≠ 1 then .next s else .next (s.askMarch 1 fails)

/-- MARCH_PRESERVING (R777, R779, R801, R805): a write of MARCH_CMD with OP 2. -/
def effectMarchPreserving (_p : Path) (v : Word) (s : State) : Host.Outcome State Fault Refusal :=
  if fld v.toNat 31 28 ≠ 2 then .next s else .next (s.askMarch 2 [])

/-- MARCH_ABORT (R782): a write of MARCH_CMD with OP 3. -/
def effectMarchAbort (_p : Path) (v : Word) (s : State) : Host.Outcome State Fault Refusal :=
  if fld v.toNat 31 28 ≠ 3 then .next s else .next (s.askMarch 3 [])

/-- MARCH_CMD with a reserved OP (Table 15-5). -/
def effectMarchBadOp (_p : Path) (v : Word) (s : State) : Host.Outcome State Fault Refusal :=
  let op := fld v.toNat 31 28
  if 1 ≤ op ∧ op ≤ 3 then .next s else .next (s.askMarch op [])

/-- A preserving march has covered words w0 to w0 + n − 1 of its target, with the failing bits it found. -/
def State.marchCover (s : State) (m : March) (n : Nat) (fails : List (Nat × Nat)) : State :=
  let w0 := m.start + m.done
  let fs := fails.filter (fun (f : Nat × Nat) => decide (w0 ≤ f.1) && decide (f.1 < w0 + n) && decide (f.2 < 72))
  let s := s.scrub m.kind m.inst w0 n (fs.map (fun (f : Nat × Nat) => f.1 / 64))
  let r := s.repairs m.kind m.inst fs
  let s := r.1
  { s with mem := { s.mem with marches := s.mem.marches.map (fun (x : March) =>
      if x.kind == m.kind && x.inst == m.inst then
        { x with done := x.done + n, failed := x.failed || r.2, sliceEnd := some s.gov.ccycles } else x) } }.wr Reg.MEM_MARCH_DONE (m.done + n)

/-- A march ends (R785). -/
def State.marchEnd (s : State) (m : March) (failed : Bool) : State :=
  let s := { s with mem := { s.mem with marches := s.mem.marches.filter (fun (x : March) => !(x.kind == m.kind && x.inst == m.inst)) } }
  (s.marchState (if failed then 5 else 4)).marchCode 0

/-- Who reads and writes the SSRAM of a tun (R771). -/
inductive SsramUser where
  | updateLanes | energyUnit | sideLinks | fabric | bestCopy | march | sparge
deriving DecidableEq, Repr

/-- The port of an SSRAM that serves a user (R771). -/
def SsramUser.port : SsramUser → Nat
  | .updateLanes => 0 | .energyUnit => 0
  | .sideLinks => 1 | .fabric => 1 | .bestCopy => 1 | .march => 1 | .sparge => 1

/-- The users at work in a tun's SSRAM: a run but in the gap after a boundary, a load that streams from the fabric, a sparge. -/
def State.ssramUsers (s : State) (t : Nat) : List SsramUser :=
  (match s.tunRun t with
   | some r => if r.atGap then [] else [.updateLanes, .energyUnit, .sideLinks, .fabric, .bestCopy]
   | none => if (s.tunSt t).loading then [.fabric] else []) ++
  (if s.mem.sparges.any (fun (g : Sparge) => g.tun == some t) then [.sparge] else [])

/-- No other user of its port is at work beside a user of a tun's SSRAM. -/
def State.ssramFree (s : State) (t : Nat) (u : SsramUser) : Bool := (s.ssramUsers t).all (fun x => x == u || x.port != u.port)

/-- MARCH_SLICE (R163, R780): a slice of 2,048 words in the gap after boundary k ≥ 1 of a run that uses the tun, at least 3,840 cycles after the
last slice or the run's start. -/
def execMarchSlice (run tun : Nat) (fails : List (Nat × Nat)) (s : State) : Host.Outcome State Fault Refusal :=
  match s.run run, s.mem.marches.find? (fun m => m.kind == 0 && m.inst == tun && !m.destructive) with
  | some r, some m =>
    let from_ := Nat.max r.runFrom (m.sliceEnd.getD 0)
    if r.tuns.contains tun = false ∨ s.ssramFree tun .march = false ∨ r.phase ≠ .sweeping ∨ m.count ≤ m.done ∨
        s.gov.ccycles < (if m.sliceEnd.getD 0 ≤ r.runFrom then r.runFrom else from_) + 3840 ∨ r.sweepFrom < m.sliceEnd.getD 0 then .next s
    else
      let s := s.marchCover m (Nat.min 2048 (m.count - m.done)) fails
      let s := r.tuns.foldl (fun s t =>
        let a := tunReg t Reg.TUN_SWEEP_LAST_CYC
        s.wr a (satAdd 32 (s.rg a) (s.gov.ccycles - r.sweepFrom))) s
      .next ((s.event 0x0109 (pageIdx .tun tun) { inst := some tun }).updRun run (fun r => { r with sweepFrom := s.gov.ccycles }))
  | _, _ => .next s

/-- A march waits for its engine or its run's gaps. -/
def State.marchHeld (s : State) (m : March) : Bool :=
  !m.destructive && ((m.kind == 0 && (s.tunRun m.inst).isSome && decide (m.done < m.count)) || (decide (3 ≤ m.kind) && s.engineInUse m.kind) || m.paused)

/-- MARCH_RESUME (Table 15-2): the engine of a paused march is idle. -/
def execMarchResume (s : State) : Host.Outcome State Fault Refusal :=
  match s.mem.marches.find? (fun m => m.paused && !s.engineInUse m.kind) with
  | none => .next s
  | some m =>
    .next ({ s with mem := { s.mem with marches := s.mem.marches.map (fun (x : March) =>
      if x.kind == m.kind && x.inst == m.inst then { x with paused := false } else x) } }.marchState 1)

/-- A preserving march whose engine takes a command pauses, and one whose run has ended leaves slices. -/
def State.marchSync (s : State) : State :=
  s.mem.marches.foldl (fun s m =>
    if !m.destructive && decide (3 ≤ m.kind) && s.engineInUse m.kind && !m.paused then
      { s with mem := { s.mem with marches := s.mem.marches.map (fun (x : March) =>
        if x.kind == m.kind && x.inst == m.inst then { x with paused := true } else x) } }.marchState 3
    else if m.kind == 0 && !m.destructive then s.marchState (if (s.tunRun m.inst).isSome then 2 else 1)
    else s) s

/-- MARCH_DONE (R776, R780, R785): the first march that can end does: a preserving one outside a run covers 8 words a cycle; the operand
lists the failing bits of its last words. -/
def execMarchDone (fails : List (Nat × Nat)) (s : State) : Host.Outcome State Fault Refusal :=
  match s.mem.marches.find? (fun m => !s.marchHeld m &&
      (m.destructive || m.kind != 0 || decide (m.sliceEnd.getD 0 + ceilDiv (m.count - m.done) 8 ≤ s.gov.ccycles))) with
  | none => .next s
  | some m =>
    if m.destructive then .next ((s.wr Reg.MEM_MARCH_DONE m.count).marchEnd m m.failed)
    else
      let s := s.marchCover m (m.count - m.done) fails
      let failed := (s.mem.marches.find? (fun x => x.kind == m.kind && x.inst == m.inst)).any (·.failed)
      .next (s.marchEnd m failed)

/-! Sparge (R787 to R792, R801, R805, R810). -/

def State.spargeStatus (s : State) (st code : Nat) : State := s.wr Reg.MEM_SPARGE_STATUS ((st <<< 28) ||| code)

/-- A range meets the window of an enabled region that is not quiet. -/
def State.rangeOwned (s : State) (space base n : Nat) : Bool :=
  (List.range 16).any (fun r =>
    let w := s.window r space
    decide (w.1 < base + n) && decide (base < w.2) && decide (w.1 < w.2) && !s.quiet r (s.rgn r).rect.toNat)

/-- A march of a commons bank touches a commons range: one of its 64-byte lines lies in the bank. -/
def State.rangeMarched (s : State) (space base n : Nat) : Bool :=
  space == spCom && s.mem.marches.any (fun (m : March) =>
    m.kind == 2 && decide (base / 64 + (m.inst + 32 - base / 64 % 32) % 32 < ceilDiv (base + n) 64))

/-- A sparge is evaluated (R787, R789, R790). -/
def State.spargeGo (s : State) (a : MemAsk) : State :=
  let refuse := fun (c : Nat) => s.wf Reg.MEM_SPARGE_STATUS 7 0 c
  let base := a.start
  let n := a.count
  if s.ready = false then refuse 4
  else if 2 < a.kind ∨ (a.kind = 0 ∧ 127 < a.inst) then refuse 3
  else if a.kind = 0 then
    if s.tunInUse a.inst ∨ s.gwClaims a.inst ∨ s.targetBusy 0 a.inst then refuse 1
    else
      let s := s.updTun a.inst (fun x => { x with load := none, loading := false })
      { s with mem := { s.mem with sparges := s.mem.sparges ++ [
        ({ tun := some a.inst, space := 0, base := 0, bytes := 0, from_ := s.gov.ccycles } : Sparge)] } }.spargeStatus 1 0
  else
    let space := if a.kind = 1 then spCom else spHbm
    if base % 64 ≠ 0 ∨ n = 0 ∨ n % 64 ≠ 0 ∨ spaceSize space < base + n then refuse 2
    else if s.rangeOwned space base n ∨ s.rangeMarched space base n ∨ s.sparging space base n then refuse 1
    else
      let inR := fun (x : Nat) => decide (base ≤ x) && decide (x < base + n)
      let keep := fun (t : Tab Byte) => Tab.keep (fun x _ => !inR x) t
      let s := if space = spCom then { s with commons := keep s.commons } else { s with hbm := keep s.hbm }
      let gone := (s.mem.marks.map (·.1)).filter (fun k =>
        if space = spHbm then k >>> 40 == memKey 8 0 && inR ((k % (1 <<< 40)) * 8)
        else decide (k >>> 40 < memKey 3 0) && decide (memKey 2 0 ≤ k >>> 40) && inR (comOffset ((k >>> 40) - memKey 2 0) (k % (1 <<< 40))))
      let s := gone.foldl (fun s k => s.setMark k 0) s
      { s with mem := { s.mem with sparges := s.mem.sparges ++ [
        ({ tun := none, space := space, base := base, bytes := n, from_ := s.gov.ccycles } : Sparge)] } }.spargeStatus 1 0

/-- SPARGE_COMMAND (R787, R789, R790, R801, R805): a write of SPARGE_CMD with GO. -/
def effectSpargeCommand (_p : Path) (v : Word) (s : State) : Host.Outcome State Fault Refusal :=
  if bit v.toNat 0 = false then .next s
  else .next { s with mem := { s.mem with asks := s.mem.asks ++ [
    ({ op := none, kind := s.rf Reg.MEM_SPARGE_TARGET 31 28, inst := s.rf Reg.MEM_SPARGE_TARGET 7 0
       start := s.rg64 Reg.MEM_SPARGE_BASE_LO, count := s.rg64 Reg.MEM_SPARGE_BYTES_LO, fails := [] } : MemAsk)] } }

/-- A march or sparge command is evaluated. -/
def State.memCommand (s : State) (a : MemAsk) : State :=
  match a.op with
  | none => s.spargeGo a
  | some 1 => s.marchDestructive a
  | some 2 => s.marchPreserving a
  | some 3 => s.marchAbort
  | some _ => s.marchCode (if s.ready then 3 else 6)

/-- The march and sparge commands of an MCLK cycle, after its job start (R805). -/
def State.memStep (s : State) : State := s.mem.asks.foldl State.memCommand { s with mem := { s.mem with asks := [] } }

/-- SPARGE_DONE (R787, R791, R792): the first sparge ends; that of a tun takes 4,096 CCLK cycles. -/
def execSpargeDone (s : State) : Host.Outcome State Fault Refusal :=
  match s.mem.sparges with
  | [] => .next s
  | g :: gs =>
    if g.tun.isSome ∧ s.gov.ccycles < g.from_ + 4096 then .next s
    else
      let s := match g.tun with
        | some t => s.updTun t (fun x => { x with idleSince := s.time })
        | none => s
      .next (({ s with mem := { s.mem with sparges := gs } }.spargeStatus 2 0).event 0x0A04 pgMemory)

end Sys2Proof.Machine
end

