-- ==== Sys2Proof/Machine/Errors.lean ====
section
/-! DEFINITION. Errors: local responses, recording on a page and in the aggregator, fatal errors, squall and injection
(spec/20_errors.md). -/

namespace Sys2Proof.Machine

/-! Local responses (R1024, R1050, R1151). -/

/-- A page's FAILED indication. -/
def State.failPage (s : State) (page : Nat) : State := s.wf (pgReg page Reg.H_STATUS) 1 1 1

/-- The command that an engine holds, with the running phase. -/
def State.heldCmd (s : State) (id : Option Nat) : Option Command := id.bind s.cmd

/-- A fault of the solver's command. -/
def State.faultSolver (s : State) (status : Nat) (valid : Bool) : State :=
  match s.heldCmd (s.solver.map (·.cmd)) with
  | some c => s.stopSolver c status valid
  | none => s

/-- A fault of the predictor's command. -/
def State.faultPred (s : State) (status : Nat) (valid : Bool) : State :=
  match s.heldCmd (s.pred.run.map (·.cmd)) with
  | some c => s.stopPred c status valid
  | none => s

/-- A fault of the planner's command. -/
def State.faultPlan (s : State) (status : Nat) (valid : Bool) : State :=
  match s.heldCmd (s.plan.run.map (·.cmd)) with
  | some c => s.stopPlan c status valid
  | none => s

/-- The entry of a store buffer that fails its check goes with every younger one (GNM_SB_UE). -/
def State.cutStores (s : State) (k entry : Nat) : State := s.updCore k (fun c => { c with sb := c.sb.take entry })

/-- A queue's guard state clears (DSP_GUARD_PAR). -/
def State.clearGuard (s : State) (q : Nat) : State :=
  let s := s.updQueue q (fun k => { k with histCur := [], histPrev := [], ledCur := Ledger.zero, ledLast := Ledger.zero })
  (s.wr (qReg q Reg.QR_Q_EST) 0).wf (qReg q Reg.QR_Q_GUARD) 31 24 0

/-- A parity error in the staging, arm or fetch buffers of a queue (HOST_INTERNAL): the queue's lowest job that has not started
ends, and its arm slots are emptied. -/
def State.hostInternal (s : State) (q : Nat) : State :=
  let s := s.updQueue q (fun k => { k with arms := [] })
  match s.jobs.find? (fun (j : Job) => j.queue == q && decide (j.phase ≠ .running) && decide (j.phase ≠ .done)) with
  | some j => s.refuseJob j.entry St.MEMORY_FAULT
  | none => s

/-- A parity error in a meter (GOV_METER_PAR): a job meter takes its ceiling, a consumed meter its budget. The job is the lowest
running one with a ceiling. -/
def State.meterParity (s : State) (which : Nat) (region : Option Nat) : State :=
  match which with
  | 0 => match s.jobs.find? (fun (j : Job) => decide (j.phase = .running) && j.ceiling.isSome) with
    | some j => s.updJob j.entry (fun j => { j with energy := (j.ceiling.getD 0) * 1000000 })
    | none => s
  | 1 => match region with
    | some r => { s with gov := { s.gov with cReg := Tab.put (fun _ => 0) r ((s.bReg r).getD (s.gov.reg r)) s.gov.cReg } }
    | none => s
  | _ => { s with gov := { s.gov with cDev := s.bDev } }

/-- A packet at a place is lost with an uncorrectable flit (FAB_UE). -/
def State.flitLost (s : State) (place : Nat) : State :=
  match s.mem.packets.find? (fun (q : Packet) => q.loc == place) with
  | some q => (s.dropPacket q.id).packetJobEnds q.job
  | none => s

/-- The root PLL loses lock (R1047): TIME and the management block go on at 100 MHz, and CCLK and HCLK stop. -/
def State.unlock (s : State) : State := { s with gov := { s.gov with locked := false } }

/-- The calibration record in force becomes the built-in one (R1090). -/
def State.calFallback (s : State) : State :=
  let s := { s with boot := { s.boot with calNow := calTab builtInCal } }
  (s.wf Reg.BOOT_CAL_STATE 31 31 1).wr Reg.BOOT_CAL_WRITES 0

/-- The cipher command in progress ends with FAULT, its destination zeroed (CIPH_FAULT, R893). -/
def State.cipherFault (s : State) : State :=
  match s.cipher with
  | none => s
  | some c => (s.writeSpace none c.dstSpace 0 c.dst (List.replicate (if c.openIt then c.bytes else 64 + c.bytes) 0)).ciphEnd 12

/-- A link leaves ACTIVE with a reason. -/
def State.linkLeaves (s : State) (l reason : Nat) : State := if s.linkUp l then s.linkDown l lsDown reason else s

/-- An uncorrectable word of a tun's SSRAM, or a side-link error, ends the run that uses the tun. Its result is valid where the best-state
buffer reads back, of which nothing but its own marks is known (Table 03-10, R165). -/
def State.tunLost (s : State) (i : Nat) : State := { s with fresh := s.fresh + 1 }.tunFault i (s.bestReads i)

/-- A host read of a queue's job fails (HOST_OPERAND): the lowest started job of the queue that needs host memory ends. -/
def State.hostOperand (s : State) (q : Nat) : State :=
  match s.jobs.find? (fun (j : Job) => j.queue == q && decide (j.phase = .running) && j.needsHost) with
  | some j => s.failJob j.entry St.MEMORY_FAULT
  | none => s

/-- Local responses that concern the page's own instance, whatever INFO names. i is the page's instance. -/
def State.ownResponse (s : State) (page i code : Nat) : State :=
  match code with
  | 0x0102 => (s.tunFault i false).updTun i (fun x => { x with load := none, loading := false })
  | 0x0103 => s.tunLost i
  | 0x0104 => s.tunLost i
  | 0x0105 => (s.tunFault i true).updTun i (fun x => { x with failed := true })
  | 0x0106 => s.updTun i (fun x => { x with failed := true })
  | 0x0201 => s.bump Reg.FAB_FAB_CE 1
  | 0x0202 => s.bump Reg.FAB_FAB_UE 1
  | 0x0206 => s.failPage page
  | 0x0302 => { s with fresh := s.fresh + 1 }.faultSolver St.SOLVER_FAULT (Config.bestReads s.fresh)
  | 0x0303 => s.failPage page
  | 0x0304 => s.faultSolver St.MEMORY_FAULT false
  | 0x0402 => s.faultPred St.PREDICTOR_FAULT true
  | 0x0403 => s.faultPred St.PREDICTOR_FAULT true
  | 0x0404 => s.faultPred St.MEMORY_FAULT false
  | 0x0405 => s.faultPred St.PREDICTOR_FAULT true
  | 0x0406 => s.failPage page
  | 0x0502 => s.faultPlan St.PLANNER_FAULT true
  | 0x0503 => s.faultPlan St.PLANNER_FAULT true
  | 0x0504 => s.faultPlan St.MEMORY_FAULT false
  | 0x0505 => s.failPage page
  | 0x0601 => s.bump (gnmReg i Reg.GNM_LM_CE) 1
  | 0x0602 => s.faultProgram i St.CORE_FAULT
  | 0x0603 => s.faultProgram i St.CORE_FAULT
  | 0x0604 => s.updCore i (fun c => { c with failed := true })
  | 0x0703 => { s with gov := { s.gov with startBarred := true } }
  | 0x0801 => s.unlock
  | 0x0804 => s.bump Reg.GOV_AVS_TIMEOUTS 1
  | 0x0903 => { (s.wf Reg.HOST_LINK_STATE 17 17 0).failJobs (fun j => j.needsHost) St.MEMORY_FAULT with
      hif := { s.hif with ideBroken := true, ideSecure := false } }
  | 0x0B03 => (s.bump (hbmReg i Reg.HBM_PARITY_RETRIES) 1).event 0x0B04 (pgHbm i) { inst := some i }
  | 0x0B04 => s.wf (hbmReg i Reg.HBM_HBM_STATE) 2 0 4
  | 0x0C04 => { s with ent := { s.ent with condFailed := true } }
  | 0x0D02 => s.wf Reg.KEY_LC_STATE 9 9 1
  | 0x0D03 => { s with key := { s.key with ident := none } }
  | 0x0D04 => { s with key := { s.key with chain := [] } }.wf Reg.KEY_SPDM_STATE 8 8 0
  | 0x0D06 => s.failPage page
  | 0x0E03 => s.linkLeaves i 5
  | 0x0E04 => s.linkLeaves i 7
  | 0x0E05 => s.linkLeaves i 6
  | 0x0E07 => s.linkLeaves i 10
  | 0x0E08 => s.linkLeaves i 4
  | 0x1101 => s.calFallback
  | 0x1201 => { s.avsRequest false 3 with boot := { s.boot with shutdown := true } }
  | 0x1401 => s.cipherFault
  | _ => s

/-- Local responses that concern what INFO names, for a detected error (R1151 gives an injected one none of them). -/
def State.infoResponse (s : State) (page i code info : Nat) (region : Option Nat) : State :=
  match code with
  | 0x0202 => s.flitLost info
  | 0x0205 => { s with mem := { s.mem with badRouters := insertBy (fun a b => decide (a < b)) info (s.mem.badRouters.filter (fun r => r != info)) } }
  | 0x0402 => match s.pred.run with
    | some r => s.dropImages (fun x => x.is r.image)
    | none => s
  | 0x0502 => match s.plan.run with
    | some r => s.setPlanResident (s.plan.grids.filter (fun g => !(g.region == r.table.region && g.id == r.grid))) s.plan.tables
    | none => s
  | 0x0503 => match s.plan.run with
    | some r => s.setPlanResident s.plan.grids (s.plan.tables.filter (fun t => !(t.region == r.table.region && t.addr == r.table.addr)))
    | none => s
  | 0x0603 => s.cutStores i info
  | 0x0701 => s.clearGuard info
  | 0x0702 => s.failJob info St.MEMORY_FAULT
  | 0x0802 => s.meterParity info region
  | 0x0901 => s.updQueue info (fun k => if k.state = .enabled ∨ k.state = .draining then { k with state := .error, dbErr := 8 } else k)
  | 0x0902 => s.hostOperand info
  | 0x0904 => s.hostInternal info
  | 0x0C05 => if s.ent.chans.length ≤ info then s else s.updChan info (fun c => { c with st := 6, need := none, gen := none })
  | 0x0C06 => if s.ent.chans.length ≤ info then s else s.updChan info (fun c => { c with reserve := [] })
  | _ => if code % 256 = 0x1F then s.setReg (page * 0x1000 + info) (regReset (page * 0x1000 + info)) else s

/-- The region that a REGION-class error names (Table 20-3): a tun's owner, the region of a core's job, or the one that
is detected. -/
def State.errRegion (s : State) (i code : Nat) (region : Option Nat) : Option Nat :=
  match code with
  | 0x0105 => s.tunRegion i
  | 0x0106 => s.tunRegion i
  | 0x0604 => (s.core i).job.map (fun _ => (s.core i).region)
  | _ => region

/-- Raise an error with the INFO given; none is an injected one, of class DEGRADED where it is MARCH_REPAIR (R1050, R1151). -/
def State.raiseAny (s : State) (page code : Nat) (info region : Option Nat) : State :=
  { s with agg := { s.agg with raised := s.agg.raised ++
      [{ page := page, code := if code = 0x0F1F then 0x0F01 else code
         cls := errClass code (if code = 0x0A04 then info.map (· / 256) else none)
         info := info.getD allOnes32, region := region }] } }

/-- An error is raised by a page with its local response: info is none for an injected one. -/
def State.detect (s : State) (page code : Nat) (info : Option Nat) (region : Option Nat) : State :=
  match pageOf page with
  | none => s
  | some (k, i) =>
    if errClass code none = 0 ∨ code / 256 ≠ k.block then s
    else
      let s := s.raiseAny page code info (s.errRegion i code region)
      let s := match info with
        | some n => s.infoResponse page i code n region
        | none => if code = 0x0802 then s.meterParity 2 none else s
      s.ownResponse page i code

/-! Fatal errors (R1046). -/

/-- Every run, engine command, program and transfer stops without a result; packets and run messages go with them. -/
def State.endWork (s : State) : State :=
  let s := s.cmds.foldl (fun s c => if c.engine = .tun ∧ c.phase = .running then s.dropLoad c.block else s) s
  let s := (List.range 8).foldl (fun s k => if (s.core k).job.isSome then s.releaseCore k else s) s
  let s := { s with
    cmds := [], solver := none, pred := { s.pred with run := none }, plan := { s.plan with run := none }
    tun := { s.tun with runs := s.tun.runs.map (fun (r : Run) => { r with phase := .stopped }), inbox := [], outbox := []
                        tuns := Tab.mapV (fun _ => TunSt.reset) (fun _ t => { t with gw := none, idleSince := s.time }) s.tun.tuns }
    mem := { s.mem with packets := [], comWait := [], hbmWait := [] } }
  ((s.prPos 0 0 0).plPos 0 0 0).sweepGrists

/-- Insert in ascending pool entry. -/
def jobOrder (js : List Job) : List Job := sortBy (fun a b => decide (a.entry < b.entry)) js

/-- BOOT_STATE.PHASE. -/
def State.bootPhase (s : State) : Nat := s.rf Reg.BOOT_BOOT_STATE 31 28

/-- UART_TX at a change of PHASE (R1124). -/
def State.uartSend (s : State) (b : Nat) : State :=
  { s with boot := { s.boot with uartOut := BitVec.ofNat 8 b :: s.boot.uartOut } }

/-- The boot flow enters a phase (R1077, R1124). -/
def State.setPhase (s : State) (ph : Nat) : State :=
  if s.bootPhase = ph then s else (s.wf Reg.BOOT_BOOT_STATE 31 28 ph).uartSend (0x30 + ph)

/-- The boot flow holds in HALTED with a reason (R1078, R1124). -/
def State.bootHalt (s : State) (hold : Nat) : State :=
  let s := { s with boot := { s.boot with imageOn := false, memoryOn := false } }
  ((s.wf Reg.BOOT_BOOT_STATE 19 16 hold).setPhase 9).uartSend (0x41 + hold)

/-- Codes of the fatal errors after which no completion record is written. -/
def silentFatal (code : Nat) : Bool := code == 0x0801 || code == 0x1201 || code == 0x0F01

/-- The boot flow has begun and has not come to its end. -/
def State.booting (s : State) : Bool := decide (1 ≤ s.bootPhase) && decide (s.bootPhase ≤ 7)

/-- R1046, when an error of class FATAL is recorded; a later one finds it done, but for the completion records. -/
def State.goFatal (s : State) (code : Nat) : State :=
  let s := if silentFatal code then { s with hif := { s.hif with noRecords := true } } else s
  let s := if s.booting then s.bootHalt 6 else s
  if s.fatal then s
  else
    let s := (s.wf Reg.ERRP_AGG_STATE 1 1 1).wf Reg.PINS_PIN_STATE 1 1 1
    let s := { s with agg := { s.agg with fatalAt := some s.time, frozenFrom := some (s.time + 5) } }
    let s := s.endWork
    let s := (jobOrder s.jobs).foldl (fun (s : State) (j : Job) => s.refuseJob j.entry St.DEVICE_FAULT) s
    (List.range 8).foldl (fun s l => s.linkLeaves l 10) s

/-! Recording (R1027 to R1043, R1057, R1060). -/

/-- An error is masked (R1032). -/
def State.errMasked (s : State) (e : RaisedError) : Bool :=
  let i := e.code % 256
  decide (e.cls ≠ 6) && decide (0 < i) && decide (i < 32) && bit (s.rg (pgReg e.page Reg.H_ERR_MASK)) i

/-- ERR_FIRST's word for an error. -/
def errWord (e : RaisedError) : Nat := 0x80000000 + (e.cls <<< 28) + e.code

/-- R1027 and R1028: first, next or escalation. -/
def State.pageRecord (s : State) (e : RaisedError) : State :=
  let a := fun (o : Nat) => pgReg e.page o
  let first := s.rg (a Reg.H_ERR_FIRST)
  if bit first 31 = false then
    let s := (s.wr (a Reg.H_ERR_FIRST) (errWord e)).wr (a Reg.H_ERR_FIRST_INFO) e.info
    let s := ((s.wr (a Reg.H_ERR_COUNT) 1).wr (a Reg.H_ERR_NEXT) 0).wr (a Reg.H_ERR_NEXT_INFO) 0
    (s.wf (a Reg.H_STATUS) 2 2 1).setInt e.page 1
  else
    let s := s.bumpSat (a Reg.H_ERR_COUNT) 1
    if e.cls ≤ fld first 30 28 then (s.wr (a Reg.H_ERR_NEXT) (errWord e)).wr (a Reg.H_ERR_NEXT_INFO) e.info
    else
      let s := (s.wr (a Reg.H_ERR_NEXT) first).wr (a Reg.H_ERR_NEXT_INFO) (s.rg (a Reg.H_ERR_FIRST_INFO))
      ((s.wr (a Reg.H_ERR_FIRST) (errWord e)).wr (a Reg.H_ERR_FIRST_INFO) e.info).setInt e.page 1

/-- One raised error is recorded on its page, takes its containment, and goes to the aggregator. -/
def State.recordOne (s : State) (e : RaisedError) : State :=
  let masked := s.errMasked e
  let lost := s.squall && decide (e.cls < 6)
  let s := match e.region with
    | some r => if e.cls = 4 ∧ r < 16 then s.wr Reg.ERRP_RG_FENCE (s.rg Reg.ERRP_RG_FENCE ||| (1 <<< r)) else s
    | none => s
  let s := if masked then s
    else if lost then s.bumpSat (pgReg e.page Reg.H_ERR_COUNT) 1
    else s.pageRecord e
  let s := { s with agg := { s.agg with recorded := s.agg.recorded ++ [{ err := e, masked := masked, full := !masked && !lost, time := s.time }] } }
  if e.cls = 6 then s.goFatal e.code else s

/-- The order of R1057 within a page: descending class, then ascending code; pages follow R1058. -/
def raisedBefore (a b : RaisedError) : Bool :=
  if a.cls ≠ b.cls then decide (b.cls < a.cls)
  else if a.page ≠ b.page then decide (a.page < b.page) else decide (a.code < b.code)

/-- Record every error that is raised. -/
def State.recordAll (s : State) : State :=
  let es := sortBy raisedBefore s.agg.raised
  es.foldl State.recordOne { s with agg := { s.agg with raised := [] } }

/-- ERROR_RECORD (R1024 to R1033, R1057): hardware may detect an error of its own, which is raised with its local response, and
every error raised by the end of the MCLK cycle is recorded then (State.recordStep). -/
def execErrorRecord (det : Option Detected) (s : State) : Host.Outcome State Fault Refusal :=
  let s := match det with
    | none => s
    | some d => s.detect d.page d.code (some (d.info % allOnes32)) d.region
  .next { s with agg := { s.agg with pagesDue := true } }

/-- The order of R1058 among the records of one MCLK cycle; earlier cycles come first. -/
def recordBefore (a b : PageRecord) : Bool := if a.time ≠ b.time then decide (a.time < b.time) else raisedBefore a.err b.err

/-- DEV_FIRST takes an error (R1034). -/
def State.devFirst (s : State) (r : PageRecord) : State :=
  let d := s.rg Reg.ERRP_DEV_FIRST
  if bit d 31 ∧ r.err.cls ≤ fld d 30 28 then s
  else ((s.wr Reg.ERRP_DEV_FIRST (errWord r.err + (r.err.page <<< 16))).wr Reg.ERRP_DEV_FIRST_INFO r.err.info).wr64
    Reg.ERRP_DEV_FIRST_TIME_LO r.time

/-- The next log entry takes an error (R1036, Table 20-5). -/
def State.logError (s : State) (r : PageRecord) : State :=
  let n := s.rf Reg.ERRP_LOG_HEAD 4 0
  let a := Reg.ERRP_LOG_0 + 16 * n
  let s := s.wr64 a r.time
  let s := s.wr (a + 8) (errWord r.err + (b2n (r.err.info == allOnes32) <<< 27) + (r.err.page <<< 16))
  let s := (s.wr (a + 12) r.err.info).wf Reg.ERRP_LOG_HEAD 4 0 (n + 1)
  if n = 31 then s.wf Reg.ERRP_LOG_HEAD 5 5 1 else s

/-- The times of counted errors that a test at TIME t still looks at (R1041). -/
def recentErrors (t : Nat) (ts : List Nat) : List Nat := ts.filter (fun x => decide (t < x + 1000000))

/-- The aggregator takes one record (R1033 to R1037, R1041, R1042). -/
def State.aggregate (s : State) (r : PageRecord) : State :=
  let s := if r.err.cls = 0 then s else s.bumpSat (Reg.ERRP_CNT_CORRECTED + 4 * (r.err.cls - 1)) 1
  if r.masked then s
  else
    let s := s.event 0x0F00 pgErrors
    let ts := r.time :: recentErrors r.time s.agg.counted
    let s := { s with agg := { s.agg with counted := ts } }
    if r.full = false then s.bumpSat Reg.ERRP_SQUALL_LOST 1
    else
      let open_ := match s.agg.frozenFrom with | some f => decide (r.time < f) | none => true
      let s := if open_ then (s.devFirst r).logError r else s
      if s.squall = false ∧ s.agg.squallEntry.isNone ∧ 64 ≤ ts.length then
        { s with agg := { s.agg with squallEntry := some r.time, squallTests := 1 } }
      else s

/-- The aggregator takes every record of the pages (R1034 to R1037, R1041, R1058). -/
def State.takeRecords (s : State) : State :=
  (sortBy recordBefore s.agg.recorded).foldl State.aggregate { s with agg := { s.agg with recorded := [] } }

/-- AGGREGATOR_RECORD (R1034 to R1037, R1041, R1058, R1063): the aggregator takes what the pages have recorded by the end of the MCLK cycle
(State.recordStep). Squall starts in the following cycle. -/
def execAggregatorRecord (s : State) : Host.Outcome State Fault Refusal := .next { s with agg := { s.agg with aggDue := true } }

/-- What an MCLK cycle records, once its clears have taken effect (R1057 to R1063). -/
def State.recordStep (s : State) : State :=
  let pages := s.agg.pagesDue
  let agg := s.agg.aggDue
  let s := { s with agg := { s.agg with pagesDue := false, aggDue := false } }
  let s := if pages then s.recordAll else s
  if agg then s.takeRecords else s

/-- Squall starts in the MCLK cycle after its entry (R1041). -/
def State.squallStep (s : State) : State :=
  match s.agg.squallEntry with
  | some e => if s.squall = false ∧ e < s.time then (s.wf Reg.ERRP_AGG_STATE 0 0 1).event 0x0F01 pgErrors else s
  | none => s

/-- SQUALL_END_TEST (R1045): due at each E + k · 1,000,000. -/
def execSquallEndTest (s : State) : Host.Outcome State Fault Refusal :=
  match s.agg.squallEntry with
  | none => .next s
  | some e =>
    let t := e + s.agg.squallTests * 1000000
    if s.squall = false ∨ s.time < t then .next s
    else if (recentErrors t (s.agg.counted.filter (fun x => decide (x ≤ t)))).length < 16 then
      .next { s.wf Reg.ERRP_AGG_STATE 0 0 0 with agg := { s.agg with squallEntry := none, squallTests := 0 } }
    else .next { s with agg := { s.agg with squallTests := s.agg.squallTests + 1 } }

/-! Clears (R1029, R1034, R1037, R1040). -/

/-- ERR_FIRST_CLEAR (R1029): a write of 1 to ERR_FIRST.VALID. -/
def effectErrFirstClear (_p : Path) (page : Nat) (s : State) : Host.Outcome State Fault Refusal :=
  if (pageOf page).isNone then .next s
  else
    let s := [Reg.H_ERR_FIRST, Reg.H_ERR_FIRST_INFO, Reg.H_ERR_NEXT, Reg.H_ERR_NEXT_INFO, Reg.H_ERR_COUNT].foldl
      (fun s o => s.wr (pgReg page o) 0) s
    .next (s.wf (pgReg page Reg.H_STATUS) 2 2 0)

/-- DEV_FIRST_CLEAR (R1034, R1037): a write of 1 to DEV_FIRST.VALID, of no effect while FATAL is set. -/
def effectDevFirstClear (_p : Path) (s : State) : Host.Outcome State Fault Refusal :=
  if s.fatal then .next s
  else .next (((s.wr Reg.ERRP_DEV_FIRST 0).wr Reg.ERRP_DEV_FIRST_INFO 0).wr64 Reg.ERRP_DEV_FIRST_TIME_LO 0)

/-- FENCE_CLEAR (R1040): a write of RG_FENCE clears the bits written with 1. -/
def effectFenceClear (_p : Path) (v : Word) (s : State) : Host.Outcome State Fault Refusal :=
  let f := s.rg Reg.ERRP_RG_FENCE
  .next (s.wr Reg.ERRP_RG_FENCE (f - (f &&& v.toNat)))

/-! Injection (R1050 to R1052, R1151, Table 20-2). -/

/-- INJ_RESULT. -/
def State.injResult (s : State) (page code : Nat) : State := s.wr Reg.ERRP_INJ_RESULT ((page <<< 16) ||| code)

/-- Check 1 of R1052: MODE 0, a reserved field, or a field that the mode does not use. -/
def injBadMode (v : Nat) : Bool :=
  let m := fld v 31 30
  m == 0 || fld v 29 22 != 0 || (m == 1 && (fld v 21 16 != 0 || fld v 15 8 != 0)) || (m != 1 && fld v 15 0 != 0)

/-- A page's instance owns a SEC-DED memory (R1051). -/
def PageKind.hasMemory : PageKind → Bool
  | .tun => true | .gnomos => true | .solver => true | .predictor => true | .planner => true | .memory => true | .hbm => true
  | _ => false

/-- INJECT_BAD_MODE (R1052). -/
def effectInjectBadMode (_p : Path) (page : Nat) (v : Word) (s : State) : Host.Outcome State Fault Refusal :=
  if (pageOf page).isNone ∨ injBadMode v.toNat = false then .next s else .next (s.injResult page 4)

/-- INJECT_SIGNAL (R1050, R1052, R1151): outside FACTORY no error of class FATAL. -/
def effectInjectSignal (_p : Path) (page : Nat) (v : Word) (s : State) : Host.Outcome State Fault Refusal :=
  match pageOf page with
  | none => .next s
  | some (k, _) =>
    if injBadMode v.toNat ∨ fld v.toNat 31 30 ≠ 1 then .next s
    else
      let code := k.block * 256 + fld v.toNat 7 0
      if errClass code none = 0 then .next (s.injResult page 2)
      else if errClass code none = 6 ∧ s.lcState ≠ 1 then .next (s.injResult page 1)
      else .next ((s.injResult page 0).detect page code none none)

/-- The next word that the page's instance writes to its memory takes n inverted bits (R1051, R1052). -/
def State.injectCorrupt (s : State) (page v mode n : Nat) : State :=
  match pageOf page with
  | none => s
  | some (k, _) =>
    if injBadMode v ∨ fld v 31 30 ≠ mode then s
    else if k.hasMemory = false then s.injResult page 3
    else { s.injResult page 0 with mem := { s.mem with inject := Tab.put (fun _ => 0) page n s.mem.inject } }

/-- INJECT_CORRUPT_1 (R1051). -/
def effectInjectCorrupt1 (_p : Path) (page : Nat) (v : Word) (s : State) : Host.Outcome State Fault Refusal :=
  .next (s.injectCorrupt page v.toNat 2 1)

/-- INJECT_CORRUPT_2 (R1051). -/
def effectInjectCorrupt2 (_p : Path) (page : Nat) (v : Word) (s : State) : Host.Outcome State Fault Refusal :=
  .next (s.injectCorrupt page v.toNat 3 2)

/-! TRAY_RETIRE_N (R1048, R1049). -/

/-- RETIRE_CMD (R1048): the key from the manager path while FATAL is set. -/
def effectRetireCmd (p : Path) (v : Word) (s : State) : Host.Outcome State Fault Refusal :=
  if p = .manager ∧ v.toNat = 0xA5C3 ∧ s.fatal then .next ((s.wf Reg.ERRP_AGG_STATE 2 2 1).wf Reg.PINS_PIN_STATE 2 2 1)
  else .next s

/-- RETIRE_TIMEOUT_EXPIRY (R1049): RETIRE_TIMEOUT ms after FATAL_N was asserted. -/
def execRetireTimeoutExpiry (s : State) : Host.Outcome State Fault Refusal :=
  match s.agg.fatalAt with
  | none => .next s
  | some t =>
    if s.rf Reg.ERRP_AGG_STATE 2 2 = 1 ∨ s.time < t + s.rf Reg.ERRP_RETIRE_TIMEOUT 15 0 * 1000000 then .next s
    else .next ((s.wf Reg.ERRP_AGG_STATE 3 2 3).wf Reg.PINS_PIN_STATE 2 2 1)

end Sys2Proof.Machine
end

