-- ==== Sys2Proof/Machine/Lull.lean ====
section
/-! DEFINITION. Lull of tuns, cores and engines, the reference clock, and the governor page's command registers
(spec/13_clocks_epochs_governor.md R678, R705 to R713, R719, R1047). -/

namespace Sys2Proof.Machine

/-! What is idle (R705, R707). -/

/-- A filled arm slot names a rectangle that holds the tun. -/
def State.armHolds (s : State) (t : Nat) : Bool :=
  s.queues.any (fun (e : Nat × Queue) => e.2.arms.any (fun (a : Nat × Option ArmSlot) => match a.2 with
    | some x => (rbTuns x.block).contains t
    | none => false))

/-- A tun is in no run, load, grist-writer write, march or sparge, and no arm slot names it. -/
def State.tunIdle (s : State) (t : Nat) : Bool :=
  !s.tunClaimed t && (s.tunSt t).gw.isNone && !s.targetBusy 0 t && !s.armHolds t

/-- A core lies in some region's quota (R751). -/
def State.coreQuota (s : State) (k : Nat) : Bool := (List.range 16).any (fun r => s.rgnEnabled r && bit (s.coreMask r) k)

/-- A core has no job, sparge or march. -/
def State.coreIdle (s : State) (k : Nat) : Bool := decide ((s.core k).phase = .idle) && !s.targetBusy 1 k

/-- The march target kinds of an engine (Table 15-4). -/
def engineKinds (n : Nat) : List Nat := match n with | 1 => [3] | 2 => [4, 5] | _ => [6, 7]
def engineAt (n : Nat) : Engine := match n with | 1 => .solver | 2 => .predictor | _ => .planner

/-- A shared engine holds and queues no command, and no march of its memories runs. -/
def State.engineIdle (s : State) (n : Nat) : Bool :=
  s.cmds.all (fun (c : Command) => c.engine != engineAt n || decide (c.phase = .ended)) && (engineKinds n).all (fun k => !s.targetBusy k 0)

/-- A resource that is not idle counts no idle time: its idle time starts after this. -/
def State.touchBusy (s : State) : State :=
  let s := ((List.range 128).filter (fun t => !s.tunIdle t)).foldl (fun s t => s.updTun t (fun x => { x with idleSince := s.time })) s
  let s := ((List.range 8).filter (fun k => !s.coreIdle k)).foldl (fun s k => s.updCore k (fun c => { c with idleSince := s.time })) s
  [1, 2, 3].foldl (fun s n => if s.engineIdle n then s
    else s.setEngLull (engineAt n) { s.engLull (engineAt n) with idleSince := s.time }) s

/-- The time a resource idle since a TIME has to be idle is over: IDLE_US, and at least one MCLK cycle. -/
def State.idleLong (s : State) (since : Nat) : Bool := decide (since + Nat.max (s.rf Reg.GOV_LULL_CTRL 15 0 * 1000) 5 ≤ s.time)

/-- LULL_CTRL.EN, and ready (R721). -/
def State.lullOn (s : State) : Bool := s.ready && s.rf Reg.GOV_LULL_CTRL 31 31 == 1

/-- LULL_ENTRY (R705, R707, R719): engines are numbered 1 solver, 2 predictor, 3 planner. -/
def execLullEntry (r : LullRes) (s : State) : Host.Outcome State Fault Refusal :=
  if s.lullOn = false then .next s
  else match r with
    | .tun t =>
      if t < 128 ∧ (s.tunSt t).lull = .awake ∧ s.tunIdle t ∧ s.idleLong (s.tunSt t).idleSince then
        .next ({ s with gov := { s.gov with lullNow := t :: s.gov.lullNow } }.updTun t (fun x => { x with lull := .lull }))
      else .next s
    | .core k =>
      if k < 8 ∧ (s.core k).lull = .awake ∧ s.coreIdle k ∧ s.idleLong (s.core k).idleSince then
        .next (s.updCore k (fun c => { c with lull := .lull }))
      else .next s
    | .engine n =>
      let e := engineAt n
      if 1 ≤ n ∧ n ≤ 3 ∧ (s.engLull e).lull = .awake ∧ s.engineIdle n ∧ s.idleLong (s.engLull e).idleSince then
        .next (s.setEngLull e { s.engLull e with lull := .lull })
      else .next s

/-- LULL_OFF_ENTRY (R706): an idle owned tun with no grist, OFF_EMPTY set; also one that is in lull. -/
def execLullOffEntry (tun : Nat) (s : State) : Host.Outcome State Fault Refusal :=
  let x := s.tunSt tun
  if tun < 128 ∧ s.ready ∧ s.rf Reg.GOV_LULL_CTRL 30 30 = 1 ∧ (s.tunRegion tun).isSome ∧ x.load = none ∧
      (x.lull = .awake ∨ x.lull = .lull) ∧ s.tunIdle tun ∧ s.idleLong x.idleSince then
    .next (s.updTun tun (fun x => { x with lull := .off }))
  else .next s

/-- Idle cores outside every region's quota are in lull-off from ready (R707, R721). -/
def State.coresOff (s : State) : State :=
  if s.ready = false then s
  else (List.range 8).foldl (fun s k =>
    if s.coreIdle k && !s.coreQuota k && (decide ((s.core k).lull = .awake) || decide ((s.core k).lull = .lull)) then
      s.updCore k (fun c => { c with lull := .off })
    else s) s

/-- Tuns that belong to no region are in lull-off from ready (R706). -/
def State.tunsOff (s : State) : State :=
  (List.range 128).foldl (fun s t => if (s.tunRegion t).isNone then s.updTun t (fun x => { x with lull := .off, load := none }) else s) s

/-- A waking resource's time has come. -/
def Lull.wakes (l : Lull) (now : Nat) : Option Bool :=
  match l with
  | .waking fromOff t => if t ≤ now then some fromOff else none
  | _ => none

/-- WAKE_COMPLETE (R708, R788): out of lull-off a memory has been sparged. -/
def execWakeComplete (r : LullRes) (s : State) : Host.Outcome State Fault Refusal :=
  let sparged := fun (s : State) (off : Bool) => if off then s.event 0x0A04 pgMemory else s
  match r with
  | .tun t => match (s.tunSt t).lull.wakes s.time with
    | some off => .next (sparged (s.updTun t (fun x => { x with lull := .awake })) off)
    | none => .next s
  | .core k => match (s.core k).lull.wakes s.time with
    | some off => .next (sparged (s.updCore k (fun c => { c with lull := .awake })) off)
    | none => .next s
  | .engine n =>
    let e := engineAt n
    if n = 0 ∨ 3 < n then .next s
    else match (s.engLull e).lull.wakes s.time with
      | some _ => .next (s.setEngLull e { s.engLull e with lull := .awake })
      | none => .next s

/-! The reference clock (R678, R1047). -/

/-- REFCLK_LOSS (R1047): the root PLL unlocks, with GOV_PLL_UNLOCK; the management block runs from the on-die oscillator. -/
def execRefclkLoss (s : State) : Host.Outcome State Fault Refusal :=
  if s.gov.refclk = false then .next s
  else
    let s := { s with gov := { s.gov with refclk := false } }
    if s.gov.locked then .next ((s.raiseErr pgGovernor 0x0801 0).unlock) else .next s

/-- REFCLK_RETURN (R1047): the management clock moves back to REFCLK. The PLL stays unlocked until a cold reset. -/
def execRefclkReturn (s : State) : Host.Outcome State Fault Refusal := .next { s with gov := { s.gov with refclk := true } }

/-! Command registers of the governor page (R680, R711 to R713). -/

/-- A run, a command or a transfer is in progress (R712). -/
def State.working (s : State) : Bool :=
  s.tun.runs.any (fun (r : Run) => decide (r.phase ≠ .stopped)) || !s.cmds.isEmpty ||
  (List.range 8).any (fun k => !(s.core k).transfers.isEmpty) || s.cipher.isSome

/-- TIME_LOAD (R712): a write of TIME_CTRL. Samplings that recur, and idle times, go on from the new TIME. -/
def effectTimeLoad (_p : Path) (v : Word) (s : State) : Host.Outcome State Fault Refusal :=
  let t0 := s.time
  let s := s.timeLoad v.toNat s.working
  if s.time = t0 then .next s
  else
    let s := { s with
      gov := { s.gov with lastSample := s.time }
      ent := { s.ent with lastSample := s.time }
      ibi := { s.ibi with lastRaised := none }
      boot := { s.boot with tachWindow := s.time / 1000000000 }
      tun := { s.tun with tuns := Tab.mapV (fun _ => TunSt.reset) (fun _ x => { x with idleSince := s.time }) s.tun.tuns }
      gnm := { s.gnm with cores := Tab.mapV (fun _ => Core.reset) (fun _ (c : Core) => { c with idleSince := s.time }) s.gnm.cores } }
    .next ([1, 2, 3].foldl (fun s n => s.setEngLull (engineAt n) { s.engLull (engineAt n) with idleSince := s.time }) s)

/-- BUDGET_WRITE (R713): BUDGET, or RG_BUDGET of a region. The budgets of the current epoch follow at once. -/
def effectBudgetWrite (_p : Path) (region : Option Nat) (v : Word) (s : State) : Host.Outcome State Fault Refusal :=
  match region with
  | none => .next (s.budgetWrite v.toNat)
  | some r => if 16 ≤ r then .next s else .next (s.wr (govRg r Reg.GRG_RG_BUDGET) v.toNat)

/-- EPOCH_LEN_WRITE (R680, R715): taken at the next boundary, or dropped with EPOCH_RANGE. -/
def effectEpochLenWrite (_p : Path) (v : Word) (s : State) : Host.Outcome State Fault Refusal := .next (s.epochLenWrite v.toNat)

/-- CLK_CTRL_WRITE (R711): dropped with LIMITS where FAST_LIMIT exceeds SLOW_LIMIT. -/
def effectClkCtrlWrite (_p : Path) (v : Word) (s : State) : Host.Outcome State Fault Refusal := .next (s.clkCtrlWrite v.toNat)

end Sys2Proof.Machine
end

