-- ==== Sys2Proof/Machine/RegView.lean ====
section
/-! DEFINITION. What the registers read as: the registers that stand for other state, by page (spec/19 and each block chapter's
register table). Every other register reads as it is stored. -/

namespace Sys2Proof.Machine

/-- A queue's QDB_STATE (Table 11-9). -/
def State.qdbState (s : State) (q : Nat) : Nat :=
  let k := s.queue q
  let armed := sumOf (fun i => if (Tab.get (fun _ => none) k.arms i).isSome then 1 <<< i else 0) (List.range 4)
  (k.dbErr <<< 24) ||| (armed <<< 20) ||| (s.qClass q <<< 18) ||| (b2n k.phase <<< 3) ||| k.state.code

/-- TUN_STATE.STATE (Table 03-9). Where several states hold at once the table gives no order; the model shows FAILED, then MARCH, SPARGING,
LULL, LOADING, RUNNING, LOADED (DESIGN CHOICE, log 141). -/
def State.tunCode (s : State) (t : Nat) : Nat :=
  let x := s.tunSt t
  if x.failed then 6
  else if s.mem.marches.any (fun (m : March) => m.kind == 0 && m.inst == t) then 5
  else if s.mem.sparges.any (fun (p : Sparge) => p.tun == some t) then 4
  else if x.lull ≠ .awake then 3
  else if x.loading then 7
  else if s.tunInUse t then 2
  else if x.load.isSome then 1 else 0

/-- GRIST_INFO of a load (Table 03-9). -/
def gristInfo (g : Grist) : Nat :=
  (b2n g.coloured <<< 7) ||| ((if g.mode = 1 then g.wl % 8 else 0) <<< 4) ||| (g.prec % 4 <<< 2) ||| g.mode % 4

/-- RUN_STATE.PHASE (Table 04-12) of a run: a boundary's work is one step, so phases 4 and 5 are seen as 4. -/
def State.runPhaseCode (s : State) (r : Run) : Nat :=
  match r.phase with
  | .stopped => if (s.cmd r.cmd).isSome then 6 else 0
  | .loading => 1
  | .joining => 2
  | .coefs => 2
  | .sweeping =>
    if r.best.isNone && r.lastEnergies == [] then 2
    else if (s.grist r.load).any (fun g => r.sweepEnded g) then 4 else 3
  | _ => 4

/-- SPAN_STATE.PHASE (Table 05-6). -/
def spanPhaseCode (r : Run) : Nat :=
  match r.phase with
  | .joining => 1
  | .coefs => 1
  | .loading => 1
  | .sweeping => 2
  | .rendezvous => 3
  | .waitDecide => 3
  | .switching => 4
  | .waitGrant => 5
  | .stopped => 6

/-- The last run that a tun led: in progress, or ended with no run on it since (R215). -/
def State.ledRun (s : State) (t : Nat) : Option Run :=
  match (s.tun.runs.find? (fun (r : Run) => r.lead == t && decide (r.phase ≠ .stopped))) with
  | some r => some r
  | none => s.tun.runs.find? (fun (r : Run) => r.lead == t)

/-- A load into a rectangle whose lead tun is t is in progress. -/
def State.ledLoad (s : State) (t : Nat) : Bool :=
  s.cmds.any (fun (c : Command) => decide (c.engine = .tun) && decide (c.phase = .running) && (s.run c.id).isNone && rbLead c.block == t)

/-- The visit that a run's registers show: its number and entry. -/
def Run.visitShown (r : Run) : Nat × Nat := match r.visit with | some v => (v.number, v.entry) | none => (0, 0)

/-- Word i of the best reported energy, 128 bits in two's complement (Table 04-12). -/
def State.bestWord (s : State) (r : Run) (i : Nat) : Nat :=
  match r.best, s.grist r.load with
  | some b, some g => fld (toTwos 128 (reported g.offset b.1)) (32 * i + 31) (32 * i)
  | _, _ => 0

/-- Run-control and span registers of tun t that a run gives (R215, R290); none for a register of the page that is stored. The tuns of
a rectangle other than the lead tun read zero, in RUNG_IDX too (log 142); SPAN_ERR shows the refusals of the commands that name this tun
as their lead (R286), whatever run it last took part in. -/
def State.runView (s : State) (t o : Nat) : Option Nat :=
  if o < 0x100 ∨ 0x230 ≤ o ∨ (0x14C ≤ o ∧ o < 0x200) then none
  else
    let x := s.tunSt t
    let mine := x.lead == some t
    let run := if mine then s.ledRun t else none
    let of_ := fun (f : Run → Nat) => some ((run.map f).getD 0)
    let stored := if mine ∨ x.lead.isNone then none else some 0
    if o = Reg.TUN_RUN_STATE then
      let l := x.lead.getD 0
      let ph := if s.ledLoad t then 1 else (run.map s.runPhaseCode).getD 0
      let cause := if mine then s.rf (tunReg t Reg.TUN_RUN_STATE) 3 0 else 0
      some ((l % 16 <<< 11) ||| (l / 16 <<< 8) ||| (b2n mine <<< 7) ||| (ph <<< 4) ||| cause)
    else if o = Reg.TUN_RUN_SWEEP then of_ (fun r => if r.phase = .stopped then r.lastBoundary else r.sweep)
    else if o = Reg.TUN_RUN_BEST_BND then of_ (fun r => (r.best.map (·.2.2.2.1)).getD 0)
    else if o = Reg.TUN_RUN_SHAPE then of_ (fun r => ((r.best.map (·.2.1)).getD 0 <<< 16) ||| (r.nRungs <<< 8) ||| r.nr)
    else if Reg.TUN_BEST_EN_0 ≤ o ∧ o < Reg.TUN_BEST_EN_0 + 16 then of_ (fun r => s.bestWord r ((o - Reg.TUN_BEST_EN_0) / 4))
    else if o = Reg.TUN_RUN_SEED_LO then of_ (fun r => fld r.seed 31 0)
    else if o = Reg.TUN_RUN_SEED_HI then of_ (fun r => fld r.seed 63 32)
    else if o = Reg.TUN_RUN_STOP_LO then of_ (fun r => fld r.stop 31 0)
    else if o = Reg.TUN_RUN_STOP_HI then of_ (fun r => fld r.stop 63 32)
    else if o = Reg.TUN_KILN_BASE_LO then of_ (fun r => if rbDefaultKiln r.block then 0 else fld (rbKiln r.block) 31 0)
    else if o = Reg.TUN_KILN_BASE_HI then of_ (fun r => if rbDefaultKiln r.block then 0 else fld (rbKiln r.block) 63 32)
    else if o = Reg.TUN_EXCH_ATT then of_ (fun r => r.exchAtt)
    else if o = Reg.TUN_EXCH_ACC then of_ (fun r => r.exchAcc)
    else if o = Reg.TUN_SPAN_ERR then none
    else if o = Reg.TUN_RUNG_ATT then
      let i := s.rf (tunReg t Reg.TUN_RUNG_IDX) 5 0
      of_ (fun r => if i + 1 < r.nRungs then Tab.get (fun _ => 0) r.rungAtt i else 0)
    else if o = Reg.TUN_RUNG_ACC then
      let i := s.rf (tunReg t Reg.TUN_RUNG_IDX) 5 0
      of_ (fun r => if i + 1 < r.nRungs then Tab.get (fun _ => 0) r.rungAcc i else 0)
    else if o = Reg.TUN_SPAN_STATE then
      of_ (fun r =>
        let k := rbKind r.block % 8
        if k = 0 then 0
        else
          let c := (r.span.map (·.chip)).getD 0
          (c % 16 <<< 12) ||| (spanPhaseCode r <<< 8) ||| (b2n (r.span.isSome && c == 0) <<< 3) ||| k)
    else if o = Reg.TUN_VISIT then of_ (fun r => r.visitShown.1)
    else if o = Reg.TUN_WINDOW_CUR then of_ (fun r => r.visitShown.2)
    else stored

/-- The tun page. While a load is in progress GRIST_INFO shows the grist of the load before it, which the tun holds until then (DESIGN
CHOICE, log 143). -/
def State.tunView (s : State) (t o : Nat) : Option Nat :=
  if o = Reg.TUN_TUN_STATE then
    some (match s.tunRegion t with
      | some r => (r <<< 4) ||| 8 ||| s.tunCode t
      | none => s.tunCode t)
  else if o = Reg.TUN_GRIST_INFO then some ((((s.tunSt t).load.bind s.grist).map gristInfo).getD 0)
  else if o = Reg.TUN_THR_DATA then some (thrG (s.rf (tunReg t Reg.TUN_THR_IDX) 10 0))
  else s.runView t o

/-- Commands waiting at an engine (0 to 16). -/
def State.queuedAt (s : State) (e : Engine) : Nat :=
  countWhere (fun (c : Command) => decide (c.engine = e) && decide (c.phase = .queued)) s.cmds

/-- Region of a held command. -/
def State.heldRegion (s : State) (id : Option Nat) : Nat := ((s.heldCmd id).map (·.region)).getD 0

/-- PHASE of the command that the solver holds: FETCH until its operands are in; then RESIDUAL, and INNER between the residuals of a
LINSOLVE; once it has ended REPAIR for an ASSIGN with a result, for the time of its repair, and WRITING. -/
def State.solverPhase (s : State) (r : SolverRun) : Nat :=
  match s.cmd r.cmd with
  | none => 0
  | some c =>
    if c.phase = .ended then if s.repairing c then 4 else 5
    else if r.loaded = false then 1
    else if r.op = 1 ∧ 0 < r.done then 3 else 2

/-- The solver page (Table 06-11). -/
def State.solverView (s : State) (a : Nat) : Option Nat :=
  let failed := b2n (s.pageFailed (pageIdx .solver 0)) <<< 12
  if a = Reg.SLV_SLV_STATE then
    some (match s.solver with
      | none => failed ||| s.queuedAt .solver
      | some r => failed ||| (s.heldRegion (some r.cmd) <<< 8) ||| (r.op % 4 <<< 6) ||| s.queuedAt .solver)
  else if a = Reg.SLV_SLV_PHASE then
    some ((s.solver.map s.solverPhase).getD 0)
  else none

/-- The predictor page (Table 07-11). -/
def State.predView (s : State) (a : Nat) : Option Nat :=
  if a = Reg.PRD_PRD_STATE then
    let id := s.pred.run.map (·.cmd)
    some ((b2n (s.pageFailed (pageIdx .predictor 0)) <<< 12) ||| (s.heldRegion id <<< 8) ||| (b2n id.isSome <<< 7) ||| s.queuedAt .predictor)
  else if a = Reg.PRD_FETCH_CTRL then
    let thr := s.rf Reg.PRD_FETCH_CTRL 7 0
    some ((b2n (decide (thr < s.rf Reg.MEM_HBM_BUSY 8 0)) <<< 8) ||| thr)
  else none

/-- The planner page (Table 08-11). -/
def State.planView (s : State) (a : Nat) : Option Nat :=
  if a = Reg.PLN_PLN_STATE then
    let id := s.plan.run.map (·.cmd)
    some ((b2n (s.pageFailed (pageIdx .planner 0)) <<< 12) ||| (s.heldRegion id <<< 8) ||| (b2n id.isSome <<< 7) ||| s.queuedAt .planner)
  else none

/-- GNM_STATE.STATE (Table 09-10). -/
def Core.stateCode (c : Core) : Nat :=
  if c.failed then 6
  else if c.lull ≠ .awake then 5
  else match c.phase with
    | .idle => 0 | .loading => 1 | .running => 2 | .halting => 3 | .sparging => 4

/-- A Gnomos page. -/
def State.gnmView (s : State) (k o : Nat) : Option Nat :=
  let c := s.core k
  if o = Reg.GNM_GNM_STATE then
    let tags := countWhere (fun (e : Nat × Option CoreTag) => e.2.isSome) c.tags
    some ((tags <<< 8) ||| ((if c.job.isSome then c.region else 0) <<< 4) ||| c.stateCode)
  else if o = Reg.GNM_GNM_JOB then some c.queue
  else none

/-- Lulls counted over resources. -/
def countLull (l : Lull) (ls : List Lull) : Nat := countWhere (fun x => decide (x = l)) ls

/-- The governor page (Tables 13-7 and 13-8). -/
def State.govView (s : State) (o : Nat) : Option Nat :=
  let res := s.gov.resDev
  if o = 0xA0 then some (fld s.time 31 0)
  else if o = 0xA4 then some (fld s.time 63 32)
  else if o = 0xD0 then some (fld s.gov.cDev 31 0)
  else if o = 0xD4 then some (fld s.gov.cDev 63 32)
  else if o = 0xD8 then some (fld res 31 0)
  else if o = 0xDC then some (fld res 63 32)
  else if o = 0x104 then
    let tuns := (List.range 128).map (fun t => (s.tunSt t).lull)
    let cores := (List.range 8).map (fun k => (s.core k).lull)
    let eng := fun (e : Engine) => b2n (decide ((s.engLull e).lull = .lull))
    some ((countLull .lull tuns <<< 24) ||| (countLull .off tuns <<< 16) ||| (countLull .lull cores <<< 12) ||| (countLull .off cores <<< 8) |||
      eng .solver ||| (eng .predictor <<< 1) ||| (eng .planner <<< 2))
  else if 0x200 ≤ o ∧ o < 0x400 ∧ (o - 0x200) % 32 = 8 then
    some (Nat.min (ceilDiv (s.gov.reg ((o - 0x200) / 32)) 1000000) allOnes32)
  else if 0x200 ≤ o ∧ o < 0x400 ∧ (o - 0x200) % 32 = 12 then
    some (Nat.min (ceilDiv (s.gov.res ((o - 0x200) / 32)) 1000000) allOnes32)
  else none

/-- The dispatcher page (Table 12-7). -/
def State.dspView (s : State) (o : Nat) : Option Nat :=
  if o = 0x88 then some ((countWhere (fun (j : Job) => decide (j.phase = .waiting)) s.jobs <<< 16) ||| s.poolUsed)
  else if o = 0xA4 then some s.guardData
  else none

/-- The fabric page (Tables 14-3 and 14-4). -/
def State.fabView (s : State) (o : Nat) : Option Nat :=
  if o = 0x88 then some (b2n (s.pageFailed pgFabric))
  else if o = 0xBC then
    let sel := s.rg Reg.FAB_RTR_SEL
    let item := fld sel 26 24
    some (if 4 ≤ item then 0 else Tab.get (fun _ => 0) s.mem.rtr (64 * (16 * fld sel 14 12 + fld sel 19 16) + 8 * fld sel 2 0 + item))
  else if 0x100 ≤ o ∧ o < 0x300 ∧ (o - 0x100) % 32 = 0x14 then
    let r := (o - 0x100) / 32
    some ((b2n (s.quiet r (s.rgn r).rect.toNat) <<< 31) ||| (rectTuns (s.rgn r).rect.toNat).length)
  else if 0x100 ≤ o ∧ o < 0x300 ∧ (o - 0x100) % 32 = 0x10 then some (s.rgn ((o - 0x100) / 32)).rect.toNat
  else none

/-- The memory page (Table 15-5). -/
def State.memView (s : State) (o : Nat) : Option Nat :=
  if o = 0xC0 then
    let sel := s.rg Reg.MEM_REPAIR_SEL
    let d := s.repairData (fld sel 31 28) (fld sel 7 0)
    some ((d.1 <<< 16) ||| d.2)
  else none

/-- The entropy page (Table 16-4). LAST_VALID is the access path's own. -/
def State.entView (s : State) (p : Path) (o : Nat) : Option Nat :=
  if o = 0x84 then
    some ((s.rg Reg.ENT_ENT_STATE &&& 0x10000) ||| sumOf (fun c => (s.chan c).st <<< (4 * c)) (List.range 4))
  else if o = 0x88 then some (sumOf (fun n => (s.src n).st <<< (4 * n)) (List.range 3))
  else if 0xA0 ≤ o ∧ o < 0xB0 then
    let c := s.chan ((o - 0xA0) / 4)
    some ((Nat.min c.since 0xFFFF <<< 16) ||| c.reserve.length)
  else if 0xCC ≤ o ∧ o < 0xD8 then
    let x := s.src ((o - 0xCC) / 4)
    some ((x.cApt <<< 16) ||| x.cRct)
  else if o = 0xD8 then some (sumOf (fun n => (s.src n).h <<< (8 * n)) (List.range 3))
  else if o = 0xEC then
    let ok := match p with | .host => s.ent.softHost | .manager => s.ent.softMgr
    some ((b2n ok <<< 15) ||| (s.chan 3).reserve.length)
  else none

/-- The key page (Table 17-11). LC_TOKEN reads as written from the manager path only. -/
def State.keyView (s : State) (p : Path) (o : Nat) : Option Nat :=
  let slot := s.rf Reg.KEY_SLOT_SEL 5 0
  let gen := fun (b : Nat) => if s.bankValid slot b then bankGen (s.bank slot b) else 0
  if 0x90 ≤ o ∧ o < 0xF0 then (if p = .host then some 0 else none)
  else if o = 0x114 then
    let w := s.rf Reg.KEY_ID_PUB_IDX 4 0
    some (match s.key.ident with
      | none => 0
      | some d => if 24 ≤ w then 0 else leAt (natBE 48 d.2.1 ++ natBE 48 d.2.2) (4 * w) 4)
  else if o = 0x124 then
    let a := s.activeBank slot
    some ((b2n (s.bankValid slot 0) <<< 31) ||| (b2n (s.bankValid slot 1) <<< 30) ||| (b2n (a == some 1) <<< 29) |||
      (((a.map (fun b => bankRegion (s.bank slot b))).getD 0) % 16 <<< 8))
  else if o = 0x128 then some (gen 0)
  else if o = 0x12C then some (gen 1)
  else if o = 0x13C then some ((s.rg Reg.KEY_SPDM_STATE &&& 0x100) ||| (countWhere (fun (x : Session) => x.done) s.key.sessions))
  else none

/-- The pins page (Table 22-10). GPIO_IN is the sample of the last SCLK edge, each 40 ns (R1120). -/
def State.pinsView (s : State) (o : Nat) : Option Nat :=
  if o = 0x8C then some s.boot.gpioIn
  else if o = 0xBC then some (toTwos 16 (s.boot.therm.getD (s.rf Reg.PINS_THERM_SEL 3 0) 0))
  else if o = 0xC4 then some (Nat.min (s.railMv (s.rf Reg.PINS_VMON_SEL 2 0)) 0xFFFF)
  else none

/-- STATUS (Table 19-9): READY and ERR as stored, FAILED also where the block has a FAILED state of the page's own instance, and SQUALL. -/
def State.statusView (s : State) (k : PageKind) (i page : Nat) : Nat :=
  let w := s.rg (pgReg page Reg.H_STATUS)
  let failed := match k with
    | .tun => (s.tunSt i).failed
    | .gnomos => (s.core i).failed
    | .hbm => s.rf (hbmReg i Reg.HBM_HBM_STATE) 2 0 == 4
    | _ => false
  let ready := if k = .entropy then b2n (bit w 0 && s.entReady) else w &&& 1
  ready ||| (w &&& 4) ||| (b2n (bit w 1 || failed) <<< 1) ||| (b2n s.squall <<< 3)

/-- INT_PEND_n (R995). -/
def State.intPend (s : State) (n : Nat) : Nat :=
  sumOf (fun b => if (pageOf (32 * n + b)).isSome && s.pagePending (32 * n + b) then 1 <<< b else 0) (List.range 32)

/-- A register that stands for other state; none for a stored one. -/
def State.view (s : State) (p : Path) (k : PageKind) (i a : Nat) : Option Nat :=
  let o := a % 0x1000
  if o = Reg.H_STATUS then some (s.statusView k i (a / 0x1000))
  else if o < 0x80 then none
  else match k with
    | .device => if 0x100 ≤ o then some (s.intPend ((o - 0x100) / 4)) else none
    | .governor => s.govView o
    | .dispatch => s.dspView o
    | .fabric => s.fabView o
    | .memory => s.memView o
    | .entropy => s.entView p o
    | .key => s.keyView p o
    | .solver => s.solverView a
    | .predictor => s.predView a
    | .planner => s.planView a
    | .pins => s.pinsView o
    | .hbm => if o = Reg.HBM_HBM_TEMP then some (Config.hbmReport i s.time % 0x10000) else none
    | .gnomos => s.gnmView i o
    | .tun => s.tunView i o
    | .qpage =>
      let q := 32 * i + (o - 0x80) / 64
      if (o - 0x80) % 64 = 4 then some (s.qdbState q)
      else if (o - 0x80) % 64 = 0x1C then some (Nat.min (s.inflight q) 0xFFFF)
      else none
    | _ => none

/-- The value of the register at a BAR0 offset as a path reads it, before the effects of the read: 0 where nothing is mapped, and in
bits that do not read (R12, R27). -/
def State.peek (s : State) (p : Path) (a : Nat) : Nat :=
  match pageOf (a / 0x1000), regRow a with
  | some (k, i), some r => ((s.view p k i a).getD (s.rg a)) &&& r.rd
  | _, _ => 0

/-- A register of a queue's doorbell page (Table 11-9, R617). -/
def State.dbPeek (s : State) (q o : Nat) : Nat :=
  let k := s.queue q
  if o = 0x008 then s.qdbState q
  else if o = 0x00C then k.dbErrCount
  else if o = 0x010 then fld k.sqBase 31 0
  else if o = 0x014 then fld k.sqBase 63 32
  else if o = 0x018 then fld k.cqBase 31 0
  else if o = 0x01C then fld k.cqBase 63 32
  else if o = 0x020 then
    let en := match k.state with | .enabled => 1 | .quiescing => 1 | .draining => 1 | .error => 1 | _ => 0
    (en <<< 31) ||| (k.sqLog <<< 4) ||| k.cqLog
  else if o = 0x024 then (k.hS <<< 16) ||| k.tS
  else if o = 0x028 then (k.hC <<< 16) ||| k.tC
  else 0

end Sys2Proof.Machine
end

