-- ==== Sys2Proof/Machine/Pins.lean ====
section
/-! DEFINITION. The general-purpose pins, the debug UART, the tachometers and the flash handshake
(spec/22_pins_electrical_tray.md). -/

namespace Sys2Proof.Machine

/-! Pin functions (R1120 to R1122, R1145). -/

/-- A pin may carry a function code (Table 22-6). -/
def gpioAllowed (g f : Nat) : Bool :=
  match f with
  | 0 => true | 1 => g == 0 | 2 => decide (1 ≤ g) && decide (g ≤ 4) | 3 => g == 6 | 4 => g == 7 | 5 => g == 5 | 6 => true
  | _ => false

/-- The first SCLK edge at or after a TIME: SCLK has an edge each 40 ns. -/
def sclkEdge (t : Nat) : Nat := ceilDiv t 40 * 40

/-- GPIO_FUNC_WRITE (R1121, R1122, R1145): a write that a pin does not allow is dropped whole; a pin whose function changes begins its
switch at S0. -/
def effectGpioFuncWrite (_p : Path) (v : Word) (s : State) : Host.Outcome State Fault Refusal :=
  let f := fun (g : Nat) => fld v.toNat (4 * g + 3) (4 * g)
  match (List.range 8).find? (fun g => !gpioAllowed g (f g)) with
  | some g => .next (s.wr Reg.PINS_GPIO_ERR ((g <<< 8) ||| 1))
  | none =>
    let changed := (List.range 8).filter (fun g => f g != s.gpioFunc g)
    let sw := changed.foldl (fun t g => Tab.put (fun _ => 0) g (sclkEdge s.time) t) s.boot.gpioSwitch
    .next ({ s with boot := { s.boot with gpioSwitch := sw } }.wr Reg.PINS_GPIO_FUNC v.toNat)

/-- A pin carries a function and samples count on it: n SCLK cycles have passed since S0 of its last switch (R1122). -/
def State.gpioCarries (s : State) (g f n : Nat) : Bool :=
  s.gpioFunc g == f && (match (s.boot.gpioSwitch.find? (fun e => e.1 == g)).map (·.2) with
    | none => true
    | some t => decide (t + 40 * n ≤ s.time))

/-! Tachometers (R1123). -/

/-- TIME has left the window: each TACH_n takes its count (R1123). -/
def State.tachRoll (s : State) : State :=
  let k := s.time / 1000000000
  if k = s.boot.tachWindow then s
  else
    let t := s.boot.tach
    let s := { s with boot := { s.boot with tach := [], tachWindow := k } }
    (List.range 4).foldl (fun s n => s.wr (Reg.PINS_TACH_0 + 4 * n) (Nat.min (Tab.get (fun _ => 0) t n) 0xFFFF)) s

/-- TACH_RISING_EDGE (R1122, R1123): a low sample followed by a high one on TACH_n's pin, neither of them before S5. -/
def execTachRisingEdge (n : Nat) (s : State) : Host.Outcome State Fault Refusal :=
  if 3 < n ∨ s.gpioCarries (n + 1) 2 6 = false then .next s
  else
    let s := s.tachRoll
    .next { s with boot := { s.boot with tach := Tab.upd (fun _ => 0) n (· + 1) s.boot.tach } }

/-- TACH_WINDOW (R1123): due when TIME has left the window. -/
def execTachWindow (s : State) : Host.Outcome State Fault Refusal := .next s.tachRoll

/-! Levels (R1120, R1122, Table 22-6). -/

/-- Some page is pending (R995). -/
def State.anyPending (s : State) : Bool := (List.range 12).any (fun n => s.intPend n != 0)

/-- The level of a pad at the present SCLK edge: OUTPUT drives it from S2 on, and SPARE_IRQ_N pulls it low while a page is pending; else
it comes from outside. -/
def State.padNow (s : State) (g : Nat) : Bool :=
  if s.gpioCarries g 6 2 then bit (s.rg Reg.PINS_GPIO_OUT) g
  else if s.gpioCarries g 5 2 && s.anyPending then false else Config.padLevel g s.time

/-- GPIO_IN takes a sample of every pad at each SCLK edge; a pin whose switch is under way takes none before S5. -/
def State.gpioStep (s : State) : State :=
  if s.time % 40 ≠ 0 then s
  else
    let one := fun (g : Nat) => if s.gpioCarries g (s.gpioFunc g) 5 then s.padNow g else bit s.boot.gpioIn g
    { s with boot := { s.boot with gpioIn := sumOf (fun g => b2n (one g) <<< g) (List.range 8) } }

/-! UART (R1124, R1144). -/

/-- UART_RX_BYTE (R1124): in FACTORY, on the pin that carries UART_RX. -/
def execUartRxByte (b : Byte) (s : State) : Host.Outcome State Fault Refusal :=
  if s.lcState ≠ 1 ∨ s.gpioCarries 7 4 5 = false then .next s
  else .next (s.wr Reg.PINS_UART_RXDATA (0x100 ||| b.toNat))

/-- UART_RXDATA_READ (R1144): the read returns the byte with its VALID, and clears VALID. -/
def effectUartRxdataRead (p : Path) (s : State) : Host.Outcome State Fault Refusal :=
  let w := s.rg Reg.PINS_UART_RXDATA
  .next ((s.wf Reg.PINS_UART_RXDATA 8 8 0).pathRead p [BitVec.ofNat 32 w])

/-! The flash handshake (R1125 to R1127). -/

/-- FLASH_REQ_N (R1096, R1125, R1126): the pins follow the grant while it is asserted. -/
def State.flashReq (s : State) (on : Bool) : State :=
  let gnt := s.rf Reg.PINS_PIN_STATE 4 4 == 1
  let s := s.wf Reg.PINS_PIN_STATE 3 3 (b2n on)
  { s with boot := { s.boot with spiDrive := on && gnt, flashRetry := on && s.boot.flashRetry } }

/-- FLASH_GRANT (R1125, R1127): FLASH_GNT_N has been low on two consecutive SCLK edges. An interrupted access is repeated in full. -/
def execFlashGrant (s : State) : Host.Outcome State Fault Refusal :=
  let req := s.rf Reg.PINS_PIN_STATE 3 3 == 1
  let s := s.wf Reg.PINS_PIN_STATE 4 4 1
  .next { s with boot := { s.boot with spiDrive := req, flashRetry := false } }

/-- FLASH_GRANT_LOSS (R1127): the K16 releases the SPI pins, and what it was doing there waits for the grant. -/
def execFlashGrantLoss (s : State) : Host.Outcome State Fault Refusal :=
  let was := s.boot.spiDrive
  let s := s.wf Reg.PINS_PIN_STATE 4 4 0
  .next { s with boot := { s.boot with spiDrive := false, flashRetry := was || s.boot.flashRetry } }

end Sys2Proof.Machine
end

