-- ==== Sys2Proof/Machine/RegWrite.lean ====
section
/-! DEFINITION. Writes of BAR0 registers: the two paths' meeting in one cycle, the access codes, and what each register's write does
(spec/19_registers_counters.md R978 to R990, R1013 to R1018, and each block chapter's register table). The boot page is not here. -/

namespace Sys2Proof.Machine

/-- The state that an outcome leaves. -/
def ran (s : State) (o : Host.Outcome State Fault Refusal) : State := match o with | .next t => t | _ => s

/-! Counters (R1004, R1010, R1012, R1017). -/

/-- CTR_CLEAR (R1010): a write of a page's CTRL. -/
def effectCtrClear (_p : Path) (page : Nat) (v : Word) (s : State) : Host.Outcome State Fault Refusal :=
  if (pageOf page).isNone then .next s
  else
    let s := s.wf (pgReg page Reg.H_CTRL) 0 0 (fld v.toNat 0 0)
    .next (if bit v.toNat 1 = false then s else (List.range 4).foldl (fun s k => s.wr (pgReg page (Reg.H_CTR_0 + 4 * k)) 0) s)

/-- GBANK_SNAP (R1004): a write of GBANK_SNAP with GO set. -/
def effectGbankSnap (_p : Path) (v : Word) (s : State) : Host.Outcome State Fault Refusal :=
  if bit v.toNat 0 then .next s.snapCounters else .next s

/-- GBANK_CLEAR (R1012): a write of GBANK_CTRL. -/
def effectGbankClear (_p : Path) (v : Word) (s : State) : Host.Outcome State Fault Refusal :=
  let s := s.wr Reg.CNT_GBANK_CTRL (v.toNat &&& 5)
  if bit v.toNat 1 then .next ((List.range 16).foldl (fun s k => s.wr64 (Reg.CNT_GCTR_0_LO + 8 * k) 0) s) else .next s

/-! Writes of one cycle (R978, R979, R986 to R988, R1013, R1015). -/

/-- A path that a register takes no writes from (R979): STEWARD, LC_TOKEN, RETIRE_CMD, WARM_RESET, AVS_ACK and MCMD take those of the
manager path only, HCMD those of the host path only. -/
def pathShut (p : Path) (k : PageKind) (o : Nat) : Bool :=
  match p with
  | .host => o == 0x1C || (match k with
      | .key => decide (0x90 ≤ o) && decide (o < 0xF0)
      | .errors => o == 0xB4
      | .boot => o == 0xA4
      | .pins => o == 0xAC
      | .dispatch => decide (0xE0 ≤ o) && decide (o < 0xF4)
      | _ => false)
  | .manager => match k with
      | .dispatch => decide (0xC0 ≤ o) && decide (o < 0xD4)
      | _ => false

/-- A dropped write is recorded (R987, R988). -/
def State.lostWrite (s : State) (p : Path) (a v : Nat) : State :=
  let page := a / 0x1000
  let r := pgReg page Reg.H_LOST_WRITE
  let multi := b2n (bit (s.rg r) 31)
  let src := match p with | .host => 0 | .manager => 1
  let s := s.wr r (0x80000000 ||| (src <<< 30) ||| (multi <<< 29) ||| (a % 0x1000 <<< 16) ||| v % 0x10000)
  ((s.bumpSat Reg.DEV_LOST_WRITES 1).setInt page 4).event 0x0003 page { inst := some page }

/-! What a write does (R27 and the tables). -/

/-- The plain effect of the access codes: RW bits take the value, W1C bits clear, W1S bits set. -/
def RegRow.store (r : RegRow) (old v : Nat) : Nat :=
  let kept := old - (old &&& r.rw)
  let x := kept ||| (v &&& r.rw)
  let x := x - (x &&& (v &&& r.w1c))
  x ||| (v &&& r.w1s)

/-- The header's registers that do more than store (Table 19-9); none for the others. -/
def State.writeHeader (s : State) (p : Path) (page o v : Nat) : Option State :=
  let w := BitVec.ofNat 32 v
  if o = Reg.H_CTRL then some (ran s (effectCtrClear p page w s))
  else if o = Reg.H_INT_ENABLE then
    let before := s.pagePending page
    some ((s.wr (pgReg page o) (v % 16)).pendCheck page before)
  else if o = Reg.H_INT_STATUS then
    let set := Tab.get (fun _ => 0) s.intSet page
    let old := s.rg (pgReg page o)
    some (s.wr (pgReg page o) (old - (old &&& (v &&& (0xF - (set &&& 0xF))))))
  else if o = Reg.H_INT_SET then some (s.setInt page (v % 16))
  else if o = Reg.H_ERR_FIRST then some (if bit v 31 then ran s (effectErrFirstClear p page s) else s)
  else if o = Reg.H_ERR_INJECT then
    let s := ran s (effectInjectBadMode p page w s)
    let s := ran s (effectInjectSignal p page w s)
    let s := ran s (effectInjectCorrupt1 p page w s)
    some (ran s (effectInjectCorrupt2 p page w s))
  else if o = Reg.H_LOST_WRITE then
    let a := pgReg page o
    some (if bit v 31 then (s.wf a 31 31 0).wf a 29 29 0 else s)
  else none

/-- A command window's GO (R655, R656, Table 12-4). -/
def State.writeGo (s : State) (p : Path) (v : Nat) : State :=
  let q := fld v 25 16
  match fld v 31 28 with
  | 1 => ran s (effectCancel p q s)
  | 2 => ran s (effectCancelQueue p q s)
  | 3 => ran s (effectReprio p q s)
  | 4 => ran s (effectDrain p q s)
  | 5 => ran s (effectUndrain p q s)
  | _ => ran s (effectDispatchCmdBadOp p (BitVec.ofNat 32 v) s)

/-- LINK_CTRL, LINK_CMD, KEY_CFG and the rest of a link's page; none for those that only store. -/
def State.writeLink (s : State) (p : Path) (l o v : Nat) : Option State :=
  let w := BitVec.ofNat 32 v
  if o = Reg.LINK_LINK_CTRL then
    some (ran (ran s (effectLinkEnable p l w s)) (effectLinkDisable p l w (ran s (effectLinkEnable p l w s))))
  else if o = Reg.LINK_LINK_CMD then
    let s := ran s (effectLinkCmdLeave p l w s)
    match fld v 31 28 with
    | 1 => some s
    | 2 => some (ran s (effectLinkCmdRotate p l w s))
    | 3 => some (ran s (effectLinkCmdReenable p l w s))
    | _ => some (ran s (effectLinkCmdBadOp p l w s))
  else if o = Reg.LINK_KEY_CFG then some (if 16 ≤ fld v 4 0 then s.wr (linkReg l o) (fld v 4 0) else s)
  else none

/-- The entropy page. SRC_CTRL's DISABLE bits go before RESTART. -/
def State.writeEnt (s : State) (p : Path) (a v : Nat) : Option State :=
  let w := BitVec.ofNat 32 v
  if a = Reg.ENT_SRC_CTRL then some (ran s (effectSourceRestart p w s))
  else if a = Reg.ENT_KAT_CMD then
    some (if 4 < fld v 2 0 then ran s (effectKatBadTarget p w s)
      else if fld v 2 0 = 0 then ran s (effectKatConditioner p w s) else ran s (effectKatChannel p w s))
  else if a = Reg.ENT_TP_CTRL then some (ran s (effectTestPatternWrite p true w s))
  else if a = Reg.ENT_TP_DATA then some (ran s (effectTestPatternWrite p false w s))
  else none

/-- The memory page's commands. A destructive march written this way finds no failing bit: MARCH_DESTRUCTIVE carries those. -/
def State.writeMem (s : State) (p : Path) (a v : Nat) : Option State :=
  let w := BitVec.ofNat 32 v
  if a = Reg.MEM_MARCH_CMD then
    match fld v 31 28 with
    | 1 => some (ran s (effectMarchDestructive p w [] s))
    | 2 => some (ran s (effectMarchPreserving p w s))
    | 3 => some (ran s (effectMarchAbort p w s))
    | _ => some (ran s (effectMarchBadOp p w s))
  else if a = Reg.MEM_SPARGE_CMD then some (ran s (effectSpargeCommand p w s))
  else none

/-- The governor page. -/
def State.writeGov (s : State) (p : Path) (a v : Nat) : Option State :=
  let w := BitVec.ofNat 32 v
  let o := a % 0x1000
  if a = Reg.GOV_CLK_CTRL then some (ran s (effectClkCtrlWrite p w s))
  else if a = Reg.GOV_BUDGET then some (ran s (effectBudgetWrite p none w s))
  else if a = Reg.GOV_EPOCH_LEN then some (ran s (effectEpochLenWrite p w s))
  else if a = Reg.GOV_TIME_CTRL then some (ran s (effectTimeLoad p w s))
  else if 0x200 ≤ o ∧ o < 0x400 ∧ (o - 0x200) % 32 = 0 then some (ran s (effectBudgetWrite p (some ((o - 0x200) / 32)) w s))
  else none

/-- The cipher's GO, by the OP of CIPH_CTRL. -/
def State.writeCipher (s : State) (p : Path) (v : Nat) : State :=
  let w := BitVec.ofNat 32 v
  match s.rf Reg.CIPH_CIPH_CTRL 31 28 with
  | 1 => ran s (effectSeal p w s)
  | 2 => ran s (effectUnseal p w s)
  | _ => ran s (effectCipherBadOp p w s)

/-- The registers of every page but the boot page that do more than store; none for the others. -/
def State.writeBlock (s : State) (p : Path) (k : PageKind) (i a v : Nat) : Option State :=
  let w := BitVec.ofNat 32 v
  let o := a % 0x1000
  if o < 0x80 then s.writeHeader p (a / 0x1000) o v
  else match k with
    | .counters =>
      if a = Reg.CNT_GBANK_CTRL then some (ran s (effectGbankClear p w s))
      else if a = Reg.CNT_GBANK_SNAP then some (ran s (effectGbankSnap p w s))
      else none
    | .errors =>
      if a = Reg.ERRP_DEV_FIRST then some (if bit v 31 then ran s (effectDevFirstClear p s) else s)
      else if a = Reg.ERRP_RG_FENCE then some (ran s (effectFenceClear p w s))
      else if a = Reg.ERRP_RETIRE_CMD then some (ran s (effectRetireCmd p w s))
      else if a = Reg.ERRP_RETIRE_TIMEOUT then some (s.wr a (Nat.max 1 (fld v 15 0)))
      else none
    | .pins =>
      if a = Reg.PINS_GPIO_FUNC then some (ran s (effectGpioFuncWrite p w s))
      else if a = Reg.PINS_AVS_ACK then some (ran s (effectAvsAck p w s))
      else none
    | .governor => s.writeGov p a v
    | .dispatch => if a = Reg.DSP_HCMD_GO ∨ a = Reg.DSP_MCMD_GO then some (s.writeGo p v) else none
    | .fabric =>
      if a = Reg.FAB_RGN_CMD then
        match fld v 31 28 with
        | 1 => some (ran s (effectRgnApply p w s))
        | 2 => some (ran s (effectRgnRevert p w s))
        | _ => some (ran s (effectRgnBadOp p w s))
      else none
    | .memory => s.writeMem p a v
    | .entropy => s.writeEnt p a v
    | .key =>
      if a = Reg.KEY_LC_CMD then
        some (if fld v 31 28 = 1 then ran s (effectLcTransition p w s) else ran s (effectLcBadOp p w s))
      else none
    | .cipher => if a = Reg.CIPH_CIPH_GO then some (s.writeCipher p v) else none
    | .predictor =>
      if a = Reg.PRD_RES_FLUSH then
        some (if bit v 4 then ran s (effectResFlushAll p w s) else ran s (effectResFlushRegion p w s))
      else none
    | .planner =>
      if a = Reg.PLN_PLN_FLUSH then
        some (if bit v 4 then ran s (effectPlnFlushAll p w s) else ran s (effectPlnFlushRegion p w s))
      else none
    | .link => s.writeLink p i o v
    | .qpage =>
      let q := 32 * i + (o - 0x80) / 64
      match (o - 0x80) % 64 with
      | 0x00 => some (ran s (effectQOwnerWrite p q w s))
      | 0x30 => some (ran s (effectContractWrite p q false w s))
      | 0x34 => some (ran s (effectContractWrite p q true w s))
      | _ => none
    | .tun => if o = Reg.TUN_PHX_GO then some (ran s (effectPhxGo p i w s)) else none
    | _ => none

/-- A write that has prevailed takes effect (R27, R985), with ext for the boot page's own registers. -/
def State.applyWrite (s : State) (ext : State → Path → Nat → Nat → Option State) (p : Path) (k : PageKind) (i a v : Nat) (r : RegRow) : State :=
  match if k = .boot ∧ 0x80 ≤ a % 0x1000 then ext s p a v else s.writeBlock p k i a v with
  | some t => t
  | none => s.wr a (r.store (s.rg a) v)

/-! Bad accesses (R982, R983, R1007). -/

/-- One bad access: REASON 0 UNMAPPED, 1 SIZE, 2 ALIGN. -/
def State.noteBad (s : State) (p : Path) (reason a : Nat) : State :=
  let src := match p with | .host => 0 | .manager => 1
  let s := s.bumpSat Reg.DEV_BAD_ACCESS_COUNT 1
  let s := s.wr Reg.DEV_BAD_ACCESS_LAST (0x80000000 ||| (src <<< 30) ||| (reason <<< 28) ||| a % 0x1000000)
  s.event 0x0004 pgDevice

/-- Why a host access is bad (R982): SIZE, ALIGN, UNMAPPED in this order; none for one that is not. -/
def badReason (addr len : Nat) : Option Nat :=
  if len ≠ 4 ∧ len ≠ 8 then some 1 else if addr % len ≠ 0 then some 2 else if (pageOf (addr / 0x1000)).isNone then some 0 else none

/-! A path's word in its cycle (R25, R984 to R990). -/

def State.path (s : State) (p : Path) : PathState := match p with | .host => s.hostPath | .manager => s.mgrPath
def State.updPath (s : State) (p : Path) (f : PathState → PathState) : State :=
  match p with
  | .host => { s with hostPath := f s.hostPath }
  | .manager => { s with mgrPath := f s.mgrPath }

/-- A word arrives for a write (R985). -/
def State.arrive (s : State) (p : Path) (a : Nat) (v : Word) : State :=
  s.updPath p (fun x => { x with waiting := x.waiting ++ [(a, v)] })

/-- A write that takes effect: its path, the register's BAR0 offset, its value, and for a _LO register the held upper half that it
commits (R25). -/
structure BusWrite where
  path : Path
  addr : Nat
  value : Nat
  upper : Option Nat
deriving DecidableEq, Repr

/-- A register that takes writes from a path (R12, R979): one that the path may not write, and an unmapped offset, ignore them. -/
def takesWrite (p : Path) (a : Nat) : Bool :=
  match pageOf (a / 0x1000), regRow a with
  | some (k, _), some _ => !pathShut p k (a % 0x1000)
  | _, _ => false

/-- A _HI register that takes writes from a path (R25, R979). -/
def hiWritable (p : Path) (a : Nat) : Bool :=
  isPairHi a && takesWrite p a && (match regRow a with | some r => r.rw != 0 | none => false)

/-- A write of a _HI register is held (R25). -/
def State.holdHi (s : State) (p : Path) (a v : Nat) : State :=
  s.updPath p (fun x => { x with holds := Tab.put (fun _ => none) (a - 4) (some (BitVec.ofNat 32 v)) x.holds })

/-- What a path's word writes: nothing where its register takes no write from the path, or holds it. -/
def State.wordWrite (s : State) (p : Path) (a v : Nat) : State × Option BusWrite :=
  if takesWrite p a = false then (s, none)
  else if hiWritable p a then (s.holdHi p a v, none)
  else if isPairLo a then
    (s.updPath p (fun x => { x with holds := Tab.put (fun _ => none) a none x.holds }),
      some { path := p, addr := a, value := v, upper := (Tab.get (fun _ => none) (s.path p).holds a).map (·.toNat) })
  else (s, some { path := p, addr := a, value := v, upper := none })

/-- A write takes effect: of a pair both halves at once, where the upper one was held (R25, R26). -/
def State.writeOne (s : State) (ext : State → Path → Nat → Nat → Option State) (w : BusWrite) : State :=
  match pageOf (w.addr / 0x1000), regRow w.addr with
  | some (k, i), some r =>
    let s := match w.upper, regRow (w.addr + 4) with
      | some h, some x => s.applyWrite ext w.path k i (w.addr + 4) h x
      | _, _ => s
    s.applyWrite ext w.path k i w.addr w.value r
  | _, _ => s

/-- A word of one path with none of the other in its cycle. -/
def State.writeAlone (s : State) (ext : State → Path → Nat → Nat → Option State) (p : Path) (a v : Nat) : State :=
  let x := s.wordWrite p a v
  match x.2 with
  | some w => x.1.writeOne ext w
  | none => x.1

/-- Where a write stands among those of its cycle (R989): in ascending offset, but for GBANK_SNAP, which copies the counts of the last
cycle (R1004). -/
def BusWrite.place (w : BusWrite) : Nat := if w.addr = Reg.CNT_GBANK_SNAP then 0 else w.addr

/-- The writes of one cycle (R986 to R989, R1013, R1015): of two to one register the steward's prevails, and the other is recorded once
the first has taken effect. -/
def State.writeBoth (s : State) (ext : State → Path → Nat → Nat → Option State) (h m : BusWrite) : State :=
  if h.addr = m.addr then
    let x := match s.steward (h.addr / 0x1000) with | .host => (h, m) | .manager => (m, h)
    (s.writeOne ext x.1).lostWrite x.2.path x.2.addr x.2.value
  else if h.place < m.place then (s.writeOne ext h).writeOne ext m
  else (s.writeOne ext m).writeOne ext h

/-- No boot page. -/
def noExt (_ : State) (_ : Path) (_ _ : Nat) : Option State := none

end Sys2Proof.Machine
end

