-- ==== Sys2Proof/Machine/Boot.lean ====
section
/-! DEFINITION. Resets, the boot flow with its image and its calibration record, and block resets
(spec/21_reset_boot_calibration.md). -/

namespace Sys2Proof.Machine

/-! Page resets (R1072, R28). -/

/-- Every register of the pages that p names takes its reset value. -/
def State.resetPages (s : State) (p : Nat → Bool) : State := { s with regs := Tab.keep (fun a _ => !p (a / 0x1000)) s.regs }

def State.resetPage (s : State) (page : Nat) : State := s.resetPages (fun x => x == page)

/-- STATUS.READY of a page (Table 19-9). -/
def State.setReady (s : State) (page : Nat) : State :=
  if s.pageFailed page then s else s.wf (pgReg page Reg.H_STATUS) 0 0 1

/-- A page that a warm reset resets whole (Table 21-1). -/
def warmPage (page : Nat) : Bool :=
  match pageOf page with
  | none => false
  | some (k, _) => match k with
    | .errors => false | .pins => false | .key => false | .boot => false | .governor => false | .hbm => false
    | _ => true

/-- Registers of the governor page that a warm reset keeps: CLK_STATE, EPOCH_LEN, EPOCH_NUM, EPOCH_START, EPOCH_NEXT and TJ_MAX. -/
def govKept (a : Nat) : Bool :=
  [Reg.GOV_CLK_STATE, Reg.GOV_EPOCH_LEN, Reg.GOV_EPOCH_NUM_LO, Reg.GOV_EPOCH_NUM_LO + 4, Reg.GOV_EPOCH_START_LO, Reg.GOV_EPOCH_START_LO + 4,
    Reg.GOV_EPOCH_NEXT_LO, Reg.GOV_EPOCH_NEXT_LO + 4, Reg.GOV_TJ_MAX].contains a

/-- The registers after a warm reset. HBM keeps HBM_STATE with its training (R1073). -/
def State.warmRegs (s : State) : State :=
  { s with regs := Tab.keep (fun a _ =>
      match pageOf (a / 0x1000) with
      | some (.governor, _) => govKept a
      | some (.hbm, i) => a == hbmReg i Reg.HBM_HBM_STATE
      | _ => !warmPage (a / 0x1000)) s.regs }

/-! Warm reset (R1068, R1069, R1073, R1080, R1101, R721). -/

/-- CCLK returns to code 3 through a slower change that RATIO_CHANGES does not count (R721). -/
def State.warmClock (s : State) : State :=
  let s := s.withdrawRaise
  if s.gov.gapEnd.isSome then { s with gov := { s.gov with slowAfter := some 3, gapQuiet := true } }
  else if s.ratio = 3 then s
  else
    let s := s.slowTo 3
    { s with gov := { s.gov with gapQuiet := true } }

/-- The governor's own state after a warm reset: every meter and reservation is 0; clocks, epoch and thermal state go on. -/
def Governor.warm (g : Governor) : Governor :=
  { g with tickCycles := 0, tickEnergy := 0, tickShort := false, tickDue := none, cDev0 := 0, cReg0 := [], missAsked := false, startAsked := false, startBarred := false, cDev := 0, resDev := 0, cReg := [], resReg := []
           holdJob := none, syncOutDue := false }

/-- The cores sparge their local memories after a reset of their pages (R528). -/
def State.coresStart (s : State) : State :=
  (List.range 8).foldl (fun s k => (s.spargeLm k).updCore k (fun _ =>
    { Core.reset with phase := .sparging, idleSince := s.time, spargeEnd := s.gov.ccycles + 512 })) s

/-- Every core has sparged its local memory. -/
def State.coresSettled (s : State) : Bool :=
  (List.range 8).all (fun k => decide ((s.core k).phase ≠ .sparging) || decide ((s.core k).spargeEnd ≤ s.gov.ccycles))

/-- BLOCKS begins, or the flow halts before it (R1078). -/
def State.toBlocks (s : State) : State :=
  if s.pendingReset then s.bootHalt 5
  else if s.fatal then s.bootHalt 6
  else (s.setPhase 6).entStart.coresStart

/-- Everything but the registers that a warm reset clears (R1069, R1073). -/
def State.warmState (s : State) : State :=
  { s with
    jobs := [], fetched := [], cmds := [], stops := [], queues := [], cipher := none, solver := none, pred := PredState.reset, plan := PlanState.reset
    tun := TunArray.reset, gnm := CoreArray.reset
    hif := { s.hif with flr := [], held := [], winNext := [], winNow := [] }
    mem := { s.mem with packets := [], rtr := [], badRouters := [], ports := [], rgnAsks := [], asks := [], applied := [], comWait := [], hbmWait := [], replies := [], writeBacks := []
                        inject := [], marches := [], sparges := [], busyCycles := 0 }
    links := Tab.mapV (fun _ => Link.reset) (fun _ (l : Link) => { Link.reset with line := l.line, lineOpen := l.lineOpen }) s.links
    key := { s.key with tasks := s.key.tasks.filter (fun (t : KeyTask) => match t.work with
      | .hello _ => false | .response _ => false | .backoff _ => false | _ => true) }
    ent := { EntState.reset with lastSample := s.ent.lastSample }, events := [], intSet := [], records := []
    gov := s.gov.warm
    boot := { s.boot with warmWaits := none, update := none } }

/-- A warm reset with its cause. During the phases of a cold reset before BLOCKS the flow goes on where it is. -/
def State.doWarm (s : State) (cause : Nat) : State :=
  let early := decide (s.bootPhase < 6)
  let s := s.endWork.warmRegs.warmState.warmClock.sealSteps
  let count := satAdd 16 (s.rf Reg.BOOT_RESET_CAUSE 31 16) 1
  let s := s.wr Reg.BOOT_RESET_CAUSE ((count <<< 16) ||| cause)
  if early then s
  else ((s.flashReq false).wf Reg.BOOT_BOOT_STATE 19 0 0).toBlocks

/-- A warm reset asked for: nothing while FATAL is set; during a commit it waits for the commit's end (R1080, R1101). -/
def State.askWarm (s : State) (cause : Nat) : State :=
  if s.fatal then s
  else if s.boot.commit.isSome then { s with boot := { s.boot with warmWaits := some cause } }
  else s.doWarm cause

/-- WARM_RESET (R1068): the key, from the manager path. -/
def effectWarmReset (p : Path) (v : Word) (s : State) : Host.Outcome State Fault Refusal :=
  if p = .manager ∧ v.toNat = 0x3C5A then .next (s.askWarm 2) else .next s

/-- PCIE_RESET (R1068, R1080): PERST_N (3), a Hot Reset (4) or a link disable (5). PCIe configuration space and the link reset even while FATAL
is set. -/
def execPcieReset (cause : Nat) (s : State) : Host.Outcome State Fault Refusal :=
  if cause < 3 ∨ 5 < cause then .next s
  else
    let s := { s with hif := { HostIf.reset with noRecords := s.hif.noRecords, held := s.hif.held } }
    .next ((s.wr Reg.HOST_LINK_STATE 0).askWarm cause)

/-! Cold reset (R1067, R1074, R1075, R1102, R1103). -/

/-- A commit that a reset cuts leaves a record whose CAL_CRC does not match (R1091, R1102). -/
def tornRecord (t : Tab Byte) : Tab Byte := Tab.putList (fun _ => 0) 0xFFC (natLE 4 (calAt t 0xFFC 4 + 1)) t

/-- COLD_RESET (R1067): PWR_GOOD goes low (cause 0), or RESET_N has been low for 10 µs (cause 1). On-die non-volatile storage, the flash
and what has left the K16 stay. -/
def execColdReset (cause : Nat) (s : State) : Host.Outcome State Fault Refusal :=
  if 1 < cause then .next s
  else
    let s := s.lcCut.sealSteps
    let stored := match s.boot.commit with | some c => tornRecord c.2 | none => s.boot.calStored
    let t := { State.reset with
      pending := s.pending, fresh := s.fresh, nextId := s.nextId, hostMem := s.hostMem, mgrOut := s.mgrOut
      ibi := { IbiState.reset with raised := s.ibi.raised }
      key := { KeyState.reset with otp := s.key.otp, store := s.key.store, seals := s.key.seals, sent := s.key.sent }
      boot := { BootState.reset with calStored := stored, flash := s.boot.flash, uartOut := s.boot.uartOut, pldmOut := s.boot.pldmOut }
      links := Tab.mapV (fun _ => Link.reset) (fun _ (l : Link) => { Link.reset with line := l.line, lineOpen := l.lineOpen }) s.links
      gov := { Governor.reset with refclk := s.gov.refclk }
      jtag := if cause = 0 then Jtag.reset else s.jtag }
    let t := t.wf Reg.PINS_PIN_STATE 4 4 (s.rf Reg.PINS_PIN_STATE 4 4)
    let t := t.wf Reg.PINS_PIN_STATE 5 5 (if cause = 0 then 0 else s.rf Reg.PINS_PIN_STATE 5 5)
    .next (t.wr Reg.BOOT_RESET_CAUSE cause)

/-- RESET_N_RISE (R1075, R1149): the straps are sampled, the pads come on, and CLOCKS begins. -/
def execResetNRise (pos : Nat) (recovery : Bool) (s : State) : Host.Outcome State Fault Refusal :=
  if s.bootPhase ≠ 0 then .next s
  else
    let s := { s with boot := { s.boot with padsOff := false } }
    .next (((s.wf Reg.PINS_PIN_STATE 5 5 1).wr Reg.BOOT_BOOT_STRAPS ((b2n recovery <<< 2) ||| pos % 4)).setPhase 1)

/-! The image (R1081 to R1085, R1098, Table 21-9). -/

/-- Bytes of the flash; an erased byte is 0xFF. -/
def State.flashBytes (s : State) (off n : Nat) : List Byte := Tab.getList (fun _ => 0xFF) s.boot.flash off n

/-- Section i of a header: its type, its reserved field and its bytes. -/
def imageSection (h : List Byte) (i : Nat) : Nat × Nat × Nat := (leAt h (0x20 + 8 * i) 2, leAt h (0x22 + 8 * i) 2, leAt h (0x24 + 8 * i) 4)

/-- The section table and BODY_BYTES hold together (R1098). -/
def imageSectionsOk (h : List Byte) : Bool :=
  let n := leAt h 0x10 2
  let body := leAt h 0x0C 4
  let secs := (List.range n).map (imageSection h)
  decide (1 ≤ n) && decide (n ≤ 16) && decide (64 ≤ body) && decide (body ≤ 4194304) && body % 64 == 0 &&
  secs.all (fun x => (x.1 == 1 || x.1 == 2) && x.2.1 == 0 && x.2.2 % 64 == 0) &&
  countWhere (fun (x : Nat × Nat × Nat) => x.1 == 1) secs == 1 && decide (countWhere (fun (x : Nat × Nat × Nat) => x.1 == 2) secs ≤ 1) &&
  sumOf (fun (x : Nat × Nat × Nat) => x.2.2) secs == body && allZero ((h.drop (0x20 + 8 * n)).take (128 - 8 * n))

/-- Step 1 of R1083 as IMAGE_STATUS gives it: 0 VALID, 1 EMPTY, 2 HEADER, 3 SIGNATURE, 5 SECTIONS. -/
def imageHeader (h : List Byte) : Nat :=
  if leAt h 0 4 = 0xFFFFFFFF then 1
  else if leAt h 0 4 ≠ 0x4936314B ∨ leAt h 4 1 ≠ 1 ∨ allZero ((h.drop 5).take 3) = false ∨ allZero ((h.drop 0x12).take 14) = false ∨
      allZero ((h.drop 0x130).take 208) = false ∨ leAt h 8 4 = 0 ∨ leAt h 8 4 = allOnes32 then 2
  else if imageSectionsOk h = false then 5
  else if ecVerify Config.imageKey (h.take 0xD0) (beNat ((h.drop 0xD0).take 48)) (beNat ((h.drop 0x100).take 48)) = false then 3
  else 0

/-- The header of a slot, 0 A or 1 B, and its body. -/
def State.slotHeader (s : State) (slot : Nat) : List Byte := s.flashBytes (slot * 0x1000000) 512
def State.slotBody (s : State) (slot : Nat) : List Byte := s.flashBytes (slot * 0x1000000 + 512) (leAt (s.slotHeader slot) 0x0C 4)
def State.slotSeq (s : State) (slot : Nat) : Nat := leAt (s.slotHeader slot) 8 4

/-- Step 3 of R1083. -/
def State.digestOk (s : State) (slot : Nat) : Bool := decide (sha384 (s.slotBody slot) = ((s.slotHeader slot).drop 0xA0).take 48)

/-- The slots that pass step 1, in the order in which they are tried. -/
def State.slotOrder (s : State) : List Nat :=
  let ok := fun (k : Nat) => imageHeader (s.slotHeader k) == 0
  if ok 0 && ok 1 then (if s.slotSeq 0 < s.slotSeq 1 then [1, 0] else [0, 1])
  else (if ok 0 then [0] else []) ++ (if ok 1 then [1] else [])

/-- The slots that fail their digest before one passes, and the one that does (R1083 steps 3 and 4). -/
def State.trySlots (s : State) : List Nat → List Nat × Option Nat
  | [] => ([], none)
  | k :: ks => if s.digestOk k then ([], some k) else
      let r := s.trySlots ks
      (k :: r.1, r.2)

/-- IMAGE ends with a slot loaded or none (R1083). -/
def State.selectImage (s : State) : State × Bool :=
  let r := s.trySlots s.slotOrder
  let st := fun (k : Nat) => if r.1.contains k then 4 else imageHeader (s.slotHeader k)
  let t := s.wr Reg.BOOT_IMAGE_STATUS ((st 1 <<< 8) ||| st 0)
  match r.2 with
  | none => (t, false)
  | some k =>
    let img := s.slotHeader k ++ s.slotBody k
    ({ (t.wr Reg.BOOT_BOOT_IMAGE (0x80000000 ||| (k <<< 30))).wr Reg.BOOT_IMAGE_SEQ (s.slotSeq k) with boot := { t.boot with image := img } }, true)

/-! REG_INIT (R1084). -/

/-- The offset and length of the REG_INIT section in the body. -/
def regInitArea (h : List Byte) : Nat → Nat → Option (Nat × Nat)
  | 0, _ => none
  | n + 1, off =>
    let x := imageSection h (leAt h 0x10 2 - (n + 1))
    if x.1 = 2 then some (off, x.2.2) else regInitArea h n (off + x.2.2)

/-- The entries of REG_INIT, as offset and value. -/
def regInits (img : List Byte) : List (Nat × Nat) :=
  match regInitArea img (leAt img 0x10 2) 0 with
  | none => []
  | some (off, n) =>
    let bs := (img.drop (512 + off)).take n
    (List.range (n / 8)).map (fun i => (leAt bs (8 * i) 4, leAt bs (8 * i + 4) 4))

/-- One entry: a manager-path write, or skipped. -/
def State.regInit (s : State) (e : Nat × Nat) : State :=
  let page := e.1 / 0x1000
  if (page = 0x000 ∨ page = 0x002 ∨ page = 0x003 ∨ page = 0x00B) ∧ e.1 % 0x1000 ≠ 0x1C then s.bump Reg.BOOT_INIT_SKIPPED 1
  else match badReason e.1 4 with
    | some r => s.noteBad .manager r e.1
    | none => s.writeAlone noExt .manager e.1 e.2

/-! Boot phases (R1076 to R1080, R1090, R1106). -/

/-- Phase CALIBRATION (R1090): the stored record, or the built-in one with CAL_INVALID. -/
def State.bootCal (s : State) : State :=
  if calValid s.boot.calStored then
    let s := { s with boot := { s.boot with calNow := s.boot.calStored, calBoot := s.boot.calStored } }
    (s.wf Reg.BOOT_CAL_STATE 31 31 0).wr Reg.BOOT_CAL_WRITES (calAt s.boot.calStored 8 4)
  else
    let t := calTab builtInCal
    let s := { s with boot := { s.boot with calNow := t, calBoot := t } }
    ((s.wf Reg.BOOT_CAL_STATE 31 31 1).wr Reg.BOOT_CAL_WRITES 0).raiseErr pgBoot 0x1101 0

/-- STRAP_REC. -/
def State.recovery (s : State) : Bool := s.rf Reg.BOOT_BOOT_STRAPS 2 2 == 1

/-- IMAGE and MEMORY begin (R1077). -/
def State.startImage (s : State) : State :=
  let s := { s.setPhase 4 with boot := { (s.setPhase 4).boot with imageOn := true, memoryOn := true } }
  let s := (List.range 4).foldl (fun s k => s.wf (hbmReg k Reg.HBM_HBM_STATE) 2 0 1) s
  if s.recovery then s else s.flashReq true

/-- One of IMAGE and MEMORY has ended: BLOCKS follows the second. -/
def State.imageMemory (s : State) : State :=
  if s.boot.imageOn then s
  else if s.boot.memoryOn then s.setPhase 5
  else s.toBlocks

/-- The end of IMAGE: 2^sizeLog2 bytes of flash, quad read, 4-byte addressing. -/
def State.imageEnd (s : State) (sizeLog2 : Nat) (quad addr4 : Bool) : State :=
  if s.recovery then (s.wr Reg.BOOT_IMAGE_STATUS 0x0606).bootHalt 3
  else if s.boot.spiDrive = false ∨ s.boot.flashRetry then s
  else
    let s := s.wr Reg.BOOT_FLASH_INFO ((sizeLog2 % 256 <<< 24) ||| (b2n quad <<< 1) ||| b2n addr4)
    if addr4 = false ∨ sizeLog2 < 26 then ((s.wr Reg.BOOT_IMAGE_STATUS 0x0606).flashReq false).bootHalt 4
    else
      let r := s.selectImage
      let s := r.1.flashReq false
      if r.2 then { s with boot := { s.boot with imageOn := false } }.imageMemory else s.bootHalt 3

/-- A failing row of the boot march, by target kind, instance and row; kind 8 is a stack whose training fails (R808, R809). -/
def State.memoryFail (s : State) (f : Nat × Nat × Nat) : State :=
  if f.1 ≤ 7 then (if f.2.1 < marchInsts f.1 then (s.repairRow f.1 f.2.1 f.2.2).1 else s)
  else if f.1 = 8 ∧ f.2.1 < 4 then s.detect (pgHbm f.2.1) 0x0B04 (some f.2.1) none
  else s

/-- The end of MEMORY: the stacks that have trained and been cleared are ready. -/
def State.memoryEnd (s : State) (fails : List (Nat × Nat × Nat)) : State :=
  let s := fails.foldl State.memoryFail s
  let s := (List.range 4).foldl (fun s k =>
    if s.rf (hbmReg k Reg.HBM_HBM_STATE) 2 0 = 4 then s else (s.wf (hbmReg k Reg.HBM_HBM_STATE) 2 0 3).setReady (pgHbm k)) s
  { s.setReady pgMemory with boot := { (s.setReady pgMemory).boot with memoryOn := false } }.imageMemory

/-- Failures of start-up tests, as page, code and INFO (R1079). -/
def State.bootFails (s : State) (fails : List (Nat × Nat × Nat)) : State :=
  fails.foldl (fun s f => s.detect f.1 f.2.1 (some (f.2.2 % allOnes32)) none) s

/-- Every mapped page. -/
def allPages : List Nat := (List.range 0x180).filter (fun p => (pageOf p).isSome)

/-- Entropy has come to its end of R860: every channel is instantiated, or has failed. -/
def State.entSettled (s : State) : Bool :=
  !s.ent.starting && s.ent.chans.all (fun (c : Channel) => c.instantiated || c.st == 6)

/-- The end of BLOCKS. -/
def State.blocksEnd (s : State) (fails : List (Nat × Nat × Nat)) : State :=
  let s := (List.range 8).foldl (fun s k => s.updCore k (fun c => { c with phase := .idle })) (s.bootFails fails)
  let s := allPages.foldl State.setReady s
  (s.keyIdentity.setPhase 7).flashReq true

/-- The certificate chain of the flash: the empty one where MAGIC, LENGTH or the CRC is wrong (Table 21-4). -/
def State.flashChain (s : State) : List Byte :=
  let h := s.flashBytes 0x2000000 16
  let n := leAt h 4 4
  let c := s.flashBytes 0x2000010 n
  if leAt h 0 4 = 0x43545243 ∧ n ≤ 16384 ∧ leAt h 8 4 = crc32c c then c else []

/-- FINISH and READY: chain, REG_INIT, READY and READY_TIME; idle time counts from here (R721), and what no region owns goes off (R706). -/
def State.finishBoot (s : State) : State :=
  let s := s.takeChain s.flashChain
  let s := (regInits s.boot.image).foldl State.regInit s
  let s := s.flashReq false
  let s := (s.wf Reg.BOOT_BOOT_STATE 0 0 1).wr64 Reg.BOOT_READY_TIME_LO s.time
  let s := s.setPhase 8
  let s := (List.range 128).foldl (fun s t => s.updTun t (fun x => { x with idleSince := s.time })) s
  let s := (List.range 8).foldl (fun s k => s.updCore k (fun c => { c with idleSince := s.time })) s
  let s := [1, 2, 3].foldl (fun s n => s.setEngLull (engineAt n) { s.engLull (engineAt n) with idleSince := s.time }) s
  s.tunsOff.coresOff

/-- BOOT_PHASE_END (R1077 to R1080): the named phase, in progress, ends; the next begins, or the flow halts. -/
def execBootPhaseEnd (phase sizeLog2 : Nat) (quad addr4 : Bool) (fails : List (Nat × Nat × Nat)) (s : State) :
    Host.Outcome State Fault Refusal :=
  match phase with
  | 1 =>
    if s.bootPhase ≠ 1 ∨ s.gov.refclk = false then .next s
    else
      let s := { s with time := 0, gov := { s.gov with locked := true, everLocked := true, lastSample := 0 } }
      .next (s.setPhase 2)
  | 2 =>
    if s.bootPhase ≠ 2 then .next s
    else
      let s := s.keyStart.bootFails fails
      let s := (s.setReady pgKey).setReady pgCipher
      .next (if s.lcState = 0 then s.bootHalt 1 else if s.lcState = 5 then s.bootHalt 2 else s.setPhase 3)
  | 3 => if s.bootPhase ≠ 3 then .next s else .next s.bootCal.startImage
  | 4 => if s.boot.imageOn then .next (s.imageEnd sizeLog2 quad addr4) else .next s
  | 5 => if s.boot.memoryOn then .next (s.memoryEnd fails) else .next s
  | 6 => if s.bootPhase = 6 ∧ s.entSettled ∧ s.coresSettled then .next (s.blocksEnd fails) else .next s
  | 7 => if s.bootPhase = 7 ∧ s.boot.spiDrive ∧ !s.boot.flashRetry then .next s.finishBoot else .next s
  | _ => .next s

/-! Block reset (R1070, R1086, R955, R1104). -/

/-- The page of a block code and an instance that may be reset alone (Table 21-1). -/
def blockPage (block inst : Nat) : Option PageKind :=
  match block with
  | 0x01 => if inst < 128 then some .tun else none
  | 0x03 => if inst = 0 then some .solver else none
  | 0x04 => if inst = 0 then some .predictor else none
  | 0x05 => if inst = 0 then some .planner else none
  | 0x06 => if inst < 8 then some .gnomos else none
  | 0x0C => if inst = 0 then some .entropy else none
  | 0x0E => if inst < 8 then some .link else none
  | _ => none

/-- The instance is in use. -/
def State.blockBusy (s : State) (k : PageKind) (i : Nat) : Bool :=
  match k with
  | .tun => s.tunInUse i || s.targetBusy 0 i || s.armHolds i
  | .gnomos => decide ((s.core i).phase ≠ .idle) && !(s.core i).failed
  | .solver => s.engineInUse 3
  | .predictor => s.engineInUse 4
  | .planner => s.engineInUse 6
  | .entropy => s.ent.kat.isSome
  | _ => false

/-- The state behind a page that resets. -/
def State.resetBlock (s : State) (k : PageKind) (i : Nat) : State :=
  match k with
  | .tun =>
    let off := (s.tunRegion i).isNone
    let s := { s with tun := { s.tun with runs := s.tun.runs.filter (fun (r : Run) => r.lead != i || decide (r.phase ≠ RunPhase.stopped)) } }
    (s.updTun i (fun _ => { TunSt.reset with lull := if off then .off else .awake, idleSince := s.time })).sweepGrists
  | .gnomos => (s.spargeLm i).updCore i (fun _ => { Core.reset with phase := .sparging, idleSince := s.time, spargeEnd := s.gov.ccycles + 512 })
  | .solver => s.setEngLull .solver { lull := .awake, idleSince := s.time }
  | .predictor => { s with pred := PredState.reset }.setEngLull .predictor { lull := .awake, idleSince := s.time }
  | .planner => { s with plan := PlanState.reset }.setEngLull .planner { lull := .awake, idleSince := s.time }
  | .link => (s.linkDown i lsDown 1).updLink i (fun l => { Link.reset with line := l.line, lineOpen := l.lineOpen })
  | _ => s

/-- A block reset (R1086): the instance's page resets and its start-up test runs, finding the failures given for it. -/
def State.blockReset (s : State) (v : Nat) (fails : List (Nat × Nat × Nat)) : State :=
  let block := fld v 31 24
  let inst := fld v 15 0
  let res := fun (s : State) (c : Nat) => s.wr Reg.BOOT_BLOCK_RESET_RESULT ((block <<< 24) ||| c)
  match blockPage block inst with
  | none => res s 2
  | some k =>
    if s.ready = false then res s 3
    else if s.blockBusy k inst then res s 1
    else
      let page := pageIdx k inst
      let s := (s.resetBlock k inst).resetPage page
      let s := if k = .entropy then { s with ent := { s.ent with softHost := false, softMgr := false } }.entStart else s
      res ((s.bootFails (fails.filter (fun f => f.1 == page))).setReady page) 0

/-- The block resets of an MCLK cycle, once its job start is settled (R1104). -/
def State.resetStep (s : State) : State :=
  s.boot.resets.foldl (fun s r => s.blockReset r.1.toNat r.2) { s with boot := { s.boot with resets := [] } }

/-- BLOCK_RESET (R1086, R1104): the cycle's job start is evaluated first (State.resetStep). -/
def effectBlockReset (_p : Path) (v : Word) (fails : List (Nat × Nat × Nat)) (s : State) : Host.Outcome State Fault Refusal :=
  .next { s with boot := { s.boot with resets := s.boot.resets ++ [(v, fails)] } }

/-! The end of a commit (R1089, R1091, R1101). -/

/-- CAL_COMMIT_DONE (R1091): the record is stored and in force; a warm reset that has waited follows. -/
def execCalCommitDone (s : State) : Host.Outcome State Fault Refusal :=
  match s.boot.commit with
  | none => .next s
  | some (_, t) =>
    let waits := s.boot.warmWaits
    let s := { s with boot := { s.boot with commit := none, warmWaits := none, calStored := t, calNow := t } }
    let s := ((s.wf Reg.BOOT_CAL_STATE 31 30 0).calCode 0).wr Reg.BOOT_CAL_WRITES (calAt t 8 4)
    .next (match waits with | some c => s.askWarm c | none => s)

/-! Registers of the boot page. -/

/-- The boot page's own registers that do more than store (Table 21-10). -/
def bootExt (s : State) (p : Path) (a v : Nat) : Option State :=
  let w := BitVec.ofNat 32 v
  if a = Reg.BOOT_WARM_RESET then some (ran s (effectWarmReset p w s))
  else if a = Reg.BOOT_BLOCK_RESET then some (ran s (effectBlockReset p w [] s))
  else if a = Reg.BOOT_CAL_DATA then some (ran s (effectCalDataAccess p (some w) s))
  else if a = Reg.BOOT_CAL_CMD then
    match fld v 31 28 with
    | 1 => some (ran s (effectCalLoad p w s))
    | 2 => some (ran s (effectCalClear p w s))
    | 3 => some (ran s (effectCalCommit p w s))
    | _ => some (ran s (effectCalBadOp p w s))
  else none

end Sys2Proof.Machine
end

