-- ==== Sys2Proof/Machine/RegPath.lean ====
section
/-! DEFINITION. The two access paths to the registers: reads with their captures, writes with their holds, bad accesses, the manager's
messages and in-band interrupts (spec/00 R20 to R26, spec/04 R216, spec/11 R617 to R620, spec/19 R977 to R996, R1006, R1007). -/

namespace Sys2Proof.Machine

/-! Paths. -/

/-- A pending capture of the word at a key, and the state once it has been read or replaced (R22 to R24). -/
def State.capture (s : State) (p : Path) (key : Nat) : Option Word := (Tab.get (fun _ => none) (s.path p).captures key).bind (·.head?)
def State.setCapture (s : State) (p : Path) (key : Nat) (w : Option Word) : State :=
  s.updPath p (fun x => { x with captures := Tab.put (fun _ => none) key (w.map (fun v => [v])) x.captures })

/-- Where doorbell pages' captures are keyed. -/
def dbKey (q o : Nat) : Nat := 0x1000000 + 0x1000 * q + o

/-! The words that wait on a path (R984, R985). -/

/-- The next word of a path that waits for its cycle: what it writes, if anything. A word of a manager's message can be a bad access
(R1007). -/
def State.takeWord (s : State) (p : Path) : State × Option BusWrite :=
  match (s.path p).waiting with
  | [] => (s, none)
  | (a, v) :: rest =>
    let s := s.updPath p (fun x => { x with waiting := rest })
    match badReason a 4 with
    | some r => (s.noteBad p r a, none)
    | none => s.wordWrite p a v.toNat

/-- The register file's cycle: at most one word of each path takes effect (R984, R986, R989). -/
def State.regCycle (s : State) : State :=
  let h := s.takeWord .host
  let m := h.1.takeWord .manager
  match h.2, m.2 with
  | none, none => m.1
  | some w, none => m.1.writeOne bootExt w
  | none, some w => m.1.writeOne bootExt w
  | some w, some x => m.1.writeBoth bootExt w x

/-- A path's access that does not pass its earlier writes (R984): the cycles in which those take effect are over. -/
def State.turn (s : State) (p : Path) : State := (List.range (s.path p).waiting.length).foldl (fun s _ => s.regCycle) s

/-! Reads. -/

/-- BEST_EN_0 of a tun page, whose read captures the other three words (R216). -/
def isBest0 (a : Nat) : Bool := match pageOf (a / 0x1000) with | some (.tun, _) => a % 0x1000 == Reg.TUN_BEST_EN_0 | _ => false

/-- A word that a capture may hold: a _HI register, or BEST_EN_1 to BEST_EN_3. -/
def isCaptured (a : Nat) : Bool :=
  isPairHi a || (List.range 3).any (fun i => decide (4 * (i + 1) ≤ a) && isBest0 (a - 4 * (i + 1)))

/-- A read of the register at a BAR0 offset on a path (R22 to R24, R216, R985): the state after it; the value is the path's last read. -/
def State.busRead (s : State) (p : Path) (a : Nat) : State :=
  if let some r := badReason a 4 then (s.noteBad p r a).pathRead p [0]
  else if a = Reg.ENT_SOFT_DATA then ran s (effectSoftDataRead p s)
  else if a = Reg.BOOT_CAL_DATA then ran s (effectCalDataAccess p none s)
  else if a = Reg.PINS_UART_RXDATA then ran s (effectUartRxdataRead p s)
  else
    let word := fun (x : Nat) => BitVec.ofNat 32 (s.counted.peek p x)
    if isPairLo a then (s.setCapture p (a + 4) (some (word (a + 4)))).pathRead p [word a]
    else if isBest0 a then
      ([4, 8, 12].foldl (fun s i => s.setCapture p (a + i) (some (word (a + i)))) s).pathRead p [word a]
    else match if isCaptured a then s.capture p a else none with
      | some w => (s.setCapture p a none).pathRead p [w]
      | none => s.pathRead p [word a]

/-- The value of the path's last read. -/
def State.lastWord (s : State) (p : Path) : Nat := (((s.path p).lastRead.head?).map (·.toNat)).getD 0

/-- A read of a doorbell page's register, from the host (R580, R617). -/
def State.dbRead (s : State) (func q o : Nat) : State :=
  if s.dbReaches func q = false then s.pathRead .host [0]
  else
    let word := fun (x : Nat) => BitVec.ofNat 32 (s.dbPeek q x)
    if o = 0x010 ∨ o = 0x018 then (s.setCapture .host (dbKey q (o + 4)) (some (word (o + 4)))).pathRead .host [word o]
    else if o = 0x014 ∨ o = 0x01C then
      match s.capture .host (dbKey q o) with
      | some w => (s.setCapture .host (dbKey q o) none).pathRead .host [w]
      | none => s.pathRead .host [word o]
    else s.pathRead .host [word o]

/-- LO_READ_CAPTURE (R22, R216): a read of a _LO register, or of BEST_EN_0. -/
def execLoReadCapture (p : Path) (r : RegRef) (s : State) : Host.Outcome State Fault Refusal :=
  match r with
  | .bar0 a => if isPairLo a ∨ isBest0 a then .next ((s.turn p).busRead p a) else .next s
  | .db func q o => if p = .host ∧ (o = 0x010 ∨ o = 0x018) then .next (s.dbRead func q o) else .next s

/-- HI_READ (R24, R216): a read of a _HI register, or of BEST_EN_1 to BEST_EN_3. -/
def execHiRead (p : Path) (r : RegRef) (s : State) : Host.Outcome State Fault Refusal :=
  match r with
  | .bar0 a => if isCaptured a then .next ((s.turn p).busRead p a) else .next s
  | .db func q o => if p = .host ∧ (o = 0x014 ∨ o = 0x01C) then .next (s.dbRead func q o) else .next s

/-! Writes. -/

/-- A queue's ring base takes a value: only while it is DISABLED (R620). -/
def State.dbBase (s : State) (q o v : Nat) : State :=
  let k := s.queue q
  if k.state ≠ .disabled then s.dbDrop q 7
  else
    let lo := v - v % 0x1000
    if o = 0x010 then s.setQueue q { k with sqBase := lo + (((k.sqHold.map (·.toNat)).getD (fld k.sqBase 63 32)) <<< 32), sqHold := none }
    else s.setQueue q { k with cqBase := lo + (((k.cqHold.map (·.toNat)).getD (fld k.cqBase 63 32)) <<< 32), cqHold := none }

/-- A 4-byte write to a doorbell page from the host (R580, R596, R617 to R620). -/
def State.dbWrite (s : State) (func q o : Nat) (v : Word) : State :=
  if o = 0x000 then ran s (execSqTailDb func q 4 v s)
  else if o = 0x004 then ran s (execCqHeadDb func q 4 v s)
  else if 0x100 ≤ o ∧ o < 0x180 then ran s (execInlineWrite func q o (natLE 4 v.toNat) s)
  else if s.dbReaches func q = false then s.dbStray
  else if o = 0x010 ∨ o = 0x018 then s.dbBase q o v.toNat
  else if o = 0x014 then s.updQueue q (fun k => { k with sqHold := some v })
  else if o = 0x01C then s.updQueue q (fun k => { k with cqHold := some v })
  else if o = 0x020 then (if bit v.toNat 31 then ran s (execRingEnable func q v s) else ran s (execRingDisable func q v s))
  else if o < 0x008 then s.dbDrop q 3
  else s

/-- HI_WRITE_HOLD (R25). -/
def execHiWriteHold (p : Path) (r : RegRef) (v : Word) (s : State) : Host.Outcome State Fault Refusal :=
  match r with
  | .bar0 a => if hiWritable p a then .next ((s.turn p).holdHi p a v.toNat) else .next s
  | .db func q o => if p = .host ∧ (o = 0x014 ∨ o = 0x01C) then .next (s.dbWrite func q o v) else .next s

/-- LO_WRITE_COMMIT (R25, R26). -/
def execLoWriteCommit (p : Path) (r : RegRef) (v : Word) (s : State) : Host.Outcome State Fault Refusal :=
  match r with
  | .bar0 a => if isPairLo a then .next ((s.turn p).writeAlone bootExt p a v.toNat) else .next s
  | .db func q o => if p = .host ∧ (o = 0x010 ∨ o = 0x018) then .next (s.dbWrite func q o v) else .next s

/-- REGISTER_WRITE (R985): a write to any register arrives at its page; it takes effect in the MCLK cycle after (State.regCycle). A
doorbell page's registers are no register page. -/
def execRegisterWrite (p : Path) (r : RegRef) (v : Word) (s : State) : Host.Outcome State Fault Refusal :=
  match r with
  | .bar0 a => .next (s.arrive p a v)
  | .db func q o => if p = .host then .next (s.dbWrite func q o v) else .next s

/-! The manager's messages (R991 to R993, R1006, R1007, Tables 19-3 and 19-4). -/

/-- The first check of R992 that a request fails; 0 where it passes. -/
def mgrCheck (via : Carrier) (m : List Byte) : Nat :=
  let op := leAt m 3 1
  let n := leAt m 5 1
  let a := leAt m 8 4
  if via = .pcieVdm then 4
  else if op ≠ 1 ∧ op ≠ 2 then 1
  else if n = 0 ∨ 32 < n ∨ m.length ≠ (if op = 1 then 12 else 12 + 4 * n) then 2
  else if a % 4 ≠ 0 ∨ 16777216 < a + 4 * n then 3
  else if leAt m 6 1 ≠ 0 ∨ leAt m 7 1 ≠ 0 then 5
  else 0

/-- The response to a request. -/
def mgrResponse (m : List Byte) (status : Nat) (data : List Byte) : List Byte :=
  [0x7E] ++ (m.drop 1).take 2 ++ natLE 1 (0x80 + leAt m 3 1) ++ natLE 1 (leAt m 4 1) ++ natLE 1 (leAt m 5 1) ++ natLE 1 status ++ [0] ++
  natLE 4 (leAt m 8 4) ++ data

def State.mgrSend (s : State) (b : List Byte) : State := { s with mgrOut := s.mgrOut ++ [b] }

/-- A message is a register access message that the endpoint takes: TYPE 0x7E, from the end of LIFECYCLE (R1076). On I3C a message that
fails its PEC is discarded (R1020). -/
def State.mgrTakes (s : State) (via : Carrier) (m : List Byte) : Bool :=
  via != .i3c false && decide (3 ≤ s.bootPhase) && decide (4 ≤ m.length) && leAt m 0 1 == 0x7E

/-- MGR_REGISTER_READ (R991, R992, R1020): a request with OP READ, or with a reserved OP. -/
def execMgrRegisterRead (via : Carrier) (msg : List Byte) (s : State) : Host.Outcome State Fault Refusal :=
  if s.mgrTakes via msg = false ∨ leAt msg 3 1 = 2 then .next s
  else
    let c := mgrCheck via msg
    if c ≠ 0 then .next (s.mgrSend (mgrResponse msg c []))
    else
      let r := (List.range (leAt msg 5 1)).foldl (fun (x : State × List Byte) j =>
        let s := x.1.busRead .manager (leAt msg 8 4 + 4 * j)
        (s, x.2 ++ natLE 4 (s.lastWord .manager))) (s.turn .manager, [])
      .next (r.1.mgrSend (mgrResponse msg 0 r.2))

/-- MGR_REGISTER_WRITE (R991, R992, R1020): a request with OP WRITE, or with a reserved OP. Its words arrive in ascending address order,
and take effect one per MCLK cycle. -/
def execMgrRegisterWrite (via : Carrier) (msg : List Byte) (s : State) : Host.Outcome State Fault Refusal :=
  if s.mgrTakes via msg = false ∨ leAt msg 3 1 = 1 then .next s
  else
    let c := mgrCheck via msg
    if c ≠ 0 then .next (s.mgrSend (mgrResponse msg c []))
    else
      let s := (List.range (leAt msg 5 1)).foldl (fun (s : State) j =>
        s.arrive .manager (leAt msg 8 4 + 4 * j) (BitVec.ofNat 32 (leAt msg (12 + 4 * j) 4))) s
      .next (s.mgrSend (mgrResponse msg 0 []))

/-! Host accesses of other lengths (R980 to R982). -/

/-- BAD_ACCESS (R980 to R983): a host access to BAR0 of any length. A bad one is recorded, returns zeros, and drops its data. A good one
of 8 bytes acts as two words in consecutive cycles: the lower first for a read, the upper first for a write. data: what a write writes; a
read has none. -/
def execBadAccess (data : Option (List Byte)) (addr len : Nat) (s : State) : Host.Outcome State Fault Refusal :=
  match badReason addr len with
  | some r =>
    let s := (s.turn .host).noteBad .host r addr
    .next (if data.isSome then s else s.pathRead .host (List.replicate (ceilDiv len 4) 0))
  | none =>
    match data with
    | some d =>
      let word := fun (o : Nat) => BitVec.ofNat 32 (leAt d o 4)
      .next (if len = 8 then (s.arrive .host (addr + 4) (word 4)).arrive .host addr (word 0) else s.arrive .host addr (word 0))
    | none =>
      let s := (s.turn .host).busRead .host addr
      if len ≠ 8 then .next s
      else
        let w := BitVec.ofNat 32 (s.lastWord .host)
        let s := s.busRead .host (addr + 4)
        .next (s.pathRead .host [w, BitVec.ofNat 32 (s.lastWord .host)])

/-! In-band interrupts (R996, R1044). -/

/-- The least time between two in-band interrupts. -/
def State.ibiGap (s : State) : Nat := if s.squall then 100000 else 10000

/-- IBI_RAISE (R996, R1044): a held interrupt is raised when the rate allows, 0x02 before 0x01. -/
def execIbiRaise (s : State) : Host.Outcome State Fault Refusal :=
  let open_ := match s.ibi.lastRaised with | some t => decide (t + s.ibiGap ≤ s.time) | none => true
  if open_ = false ∨ (s.ibi.held01 = false ∧ s.ibi.held02 = false) then .next s
  else
    let b := if s.ibi.held02 then 2 else 1
    .next { s with ibi := {
      held01 := s.ibi.held01 && b == 2, held02 := false, lastRaised := some s.time, raised := b :: s.ibi.raised } }

end Sys2Proof.Machine
end

