-- ==== Sys2Proof/Machine/PathRows.lean ====
section
/-! DEFINITION. The register accesses that have a row of their own: each is its row's effect in the turn of its path, which the words that
arrived before it have had (R984, R990). -/

namespace Sys2Proof.Machine

/-- GBANK_SNAP (R1004), in the turn of its path. -/
def execGbankSnap (p : Path) (v : Word) (s : State) : Host.Outcome State Fault Refusal :=
  effectGbankSnap p v (s.turn p)

/-- GBANK_CLEAR (R1012), in the turn of its path. -/
def execGbankClear (p : Path) (v : Word) (s : State) : Host.Outcome State Fault Refusal :=
  effectGbankClear p v (s.turn p)

/-- CTR_CLEAR (R1010), in the turn of its path. -/
def execCtrClear (p : Path) (page : Nat) (v : Word) (s : State) : Host.Outcome State Fault Refusal :=
  effectCtrClear p page v (s.turn p)

/-- Q_OWNER_WRITE (R622), in the turn of its path. -/
def execQOwnerWrite (p : Path) (q : Nat) (v : Word) (s : State) : Host.Outcome State Fault Refusal :=
  effectQOwnerWrite p q v (s.turn p)

/-- CANCEL (R657), in the turn of its path. -/
def execCancel (p : Path) (q : Nat) (s : State) : Host.Outcome State Fault Refusal :=
  effectCancel p q (s.turn p)

/-- CANCEL_QUEUE (R657), in the turn of its path. -/
def execCancelQueue (p : Path) (q : Nat) (s : State) : Host.Outcome State Fault Refusal :=
  effectCancelQueue p q (s.turn p)

/-- REPRIO (R657), in the turn of its path. -/
def execReprio (p : Path) (q : Nat) (s : State) : Host.Outcome State Fault Refusal :=
  effectReprio p q (s.turn p)

/-- DRAIN (R657), in the turn of its path. -/
def execDrain (p : Path) (q : Nat) (s : State) : Host.Outcome State Fault Refusal :=
  effectDrain p q (s.turn p)

/-- UNDRAIN (R657), in the turn of its path. -/
def execUndrain (p : Path) (q : Nat) (s : State) : Host.Outcome State Fault Refusal :=
  effectUndrain p q (s.turn p)

/-- DISPATCH_CMD_BAD_OP (R657), in the turn of its path. -/
def execDispatchCmdBadOp (p : Path) (v : Word) (s : State) : Host.Outcome State Fault Refusal :=
  effectDispatchCmdBadOp p v (s.turn p)

/-- CONTRACT_WRITE (R661), in the turn of its path. -/
def execContractWrite (p : Path) (q : Nat) (target : Bool) (v : Word) (s : State) : Host.Outcome State Fault Refusal :=
  effectContractWrite p q target v (s.turn p)

/-- PHX_GO (R160), in the turn of its path. -/
def execPhxGo (p : Path) (tun : Nat) (v : Word) (s : State) : Host.Outcome State Fault Refusal :=
  effectPhxGo p tun v (s.turn p)

/-- RES_FLUSH_ALL (R390), in the turn of its path. -/
def execResFlushAll (p : Path) (v : Word) (s : State) : Host.Outcome State Fault Refusal :=
  effectResFlushAll p v (s.turn p)

/-- RES_FLUSH_REGION (R390), in the turn of its path. -/
def execResFlushRegion (p : Path) (v : Word) (s : State) : Host.Outcome State Fault Refusal :=
  effectResFlushRegion p v (s.turn p)

/-- PLN_FLUSH_ALL (R443), in the turn of its path. -/
def execPlnFlushAll (p : Path) (v : Word) (s : State) : Host.Outcome State Fault Refusal :=
  effectPlnFlushAll p v (s.turn p)

/-- PLN_FLUSH_REGION (R443), in the turn of its path. -/
def execPlnFlushRegion (p : Path) (v : Word) (s : State) : Host.Outcome State Fault Refusal :=
  effectPlnFlushRegion p v (s.turn p)

/-- AVS_ACK (R1117), in the turn of its path. -/
def execAvsAck (p : Path) (v : Word) (s : State) : Host.Outcome State Fault Refusal :=
  effectAvsAck p v (s.turn p)

/-- TIME_LOAD (R712), in the turn of its path. -/
def execTimeLoad (p : Path) (v : Word) (s : State) : Host.Outcome State Fault Refusal :=
  effectTimeLoad p v (s.turn p)

/-- BUDGET_WRITE (R713), in the turn of its path. -/
def execBudgetWrite (p : Path) (region : Option Nat) (v : Word) (s : State) : Host.Outcome State Fault Refusal :=
  effectBudgetWrite p region v (s.turn p)

/-- EPOCH_LEN_WRITE (R680), in the turn of its path. -/
def execEpochLenWrite (p : Path) (v : Word) (s : State) : Host.Outcome State Fault Refusal :=
  effectEpochLenWrite p v (s.turn p)

/-- CLK_CTRL_WRITE (R711), in the turn of its path. -/
def execClkCtrlWrite (p : Path) (v : Word) (s : State) : Host.Outcome State Fault Refusal :=
  effectClkCtrlWrite p v (s.turn p)

/-- RGN_APPLY (R755), in the turn of its path. -/
def execRgnApply (p : Path) (v : Word) (s : State) : Host.Outcome State Fault Refusal :=
  effectRgnApply p v (s.turn p)

/-- RGN_REVERT (R758), in the turn of its path. -/
def execRgnRevert (p : Path) (v : Word) (s : State) : Host.Outcome State Fault Refusal :=
  effectRgnRevert p v (s.turn p)

/-- RGN_BAD_OP (R758), in the turn of its path. -/
def execRgnBadOp (p : Path) (v : Word) (s : State) : Host.Outcome State Fault Refusal :=
  effectRgnBadOp p v (s.turn p)

/-- MARCH_DESTRUCTIVE (R776), in the turn of its path. -/
def execMarchDestructive (p : Path) (v : Word) (fails : List (Nat × Nat)) (s : State) : Host.Outcome State Fault Refusal :=
  effectMarchDestructive p v fails (s.turn p)

/-- MARCH_PRESERVING (R777), in the turn of its path. -/
def execMarchPreserving (p : Path) (v : Word) (s : State) : Host.Outcome State Fault Refusal :=
  effectMarchPreserving p v (s.turn p)

/-- MARCH_ABORT (R782), in the turn of its path. -/
def execMarchAbort (p : Path) (v : Word) (s : State) : Host.Outcome State Fault Refusal :=
  effectMarchAbort p v (s.turn p)

/-- MARCH_BAD_OP (R800), in the turn of its path. -/
def execMarchBadOp (p : Path) (v : Word) (s : State) : Host.Outcome State Fault Refusal :=
  effectMarchBadOp p v (s.turn p)

/-- SPARGE_COMMAND (R789), in the turn of its path. -/
def execSpargeCommand (p : Path) (v : Word) (s : State) : Host.Outcome State Fault Refusal :=
  effectSpargeCommand p v (s.turn p)

/-- KAT_CONDITIONER (R845), in the turn of its path. -/
def execKatConditioner (p : Path) (v : Word) (s : State) : Host.Outcome State Fault Refusal :=
  effectKatConditioner p v (s.turn p)

/-- KAT_CHANNEL (R843), in the turn of its path. -/
def execKatChannel (p : Path) (v : Word) (s : State) : Host.Outcome State Fault Refusal :=
  effectKatChannel p v (s.turn p)

/-- KAT_BAD_TARGET (R849), in the turn of its path. -/
def execKatBadTarget (p : Path) (v : Word) (s : State) : Host.Outcome State Fault Refusal :=
  effectKatBadTarget p v (s.turn p)

/-- SOFT_DATA_READ (R839), in the turn of its path. -/
def execSoftDataRead (p : Path) (s : State) : Host.Outcome State Fault Refusal :=
  effectSoftDataRead p (s.turn p)

/-- SOURCE_RESTART (R822), in the turn of its path. -/
def execSourceRestart (p : Path) (v : Word) (s : State) : Host.Outcome State Fault Refusal :=
  effectSourceRestart p v (s.turn p)

/-- SOURCE_DISABLE (R816), in the turn of its path. -/
def execSourceDisable (p : Path) (v : Word) (s : State) : Host.Outcome State Fault Refusal :=
  effectSourceDisable p v (s.turn p)

/-- SOURCE_ENABLE (R849), in the turn of its path. -/
def execSourceEnable (p : Path) (v : Word) (s : State) : Host.Outcome State Fault Refusal :=
  effectSourceEnable p v (s.turn p)

/-- TEST_PATTERN_WRITE (R848), in the turn of its path. -/
def execTestPatternWrite (p : Path) (ctrl : Bool) (v : Word) (s : State) : Host.Outcome State Fault Refusal :=
  effectTestPatternWrite p ctrl v (s.turn p)

/-- LC_TRANSITION (R869), in the turn of its path. -/
def execLcTransition (p : Path) (v : Word) (s : State) : Host.Outcome State Fault Refusal :=
  effectLcTransition p v (s.turn p)

/-- LC_BAD_OP (R869), in the turn of its path. -/
def execLcBadOp (p : Path) (v : Word) (s : State) : Host.Outcome State Fault Refusal :=
  effectLcBadOp p v (s.turn p)

/-- SEAL (R890), in the turn of its path. -/
def execSeal (p : Path) (v : Word) (s : State) : Host.Outcome State Fault Refusal :=
  effectSeal p v (s.turn p)

/-- UNSEAL (R892), in the turn of its path. -/
def execUnseal (p : Path) (v : Word) (s : State) : Host.Outcome State Fault Refusal :=
  effectUnseal p v (s.turn p)

/-- CIPHER_BAD_OP (R902), in the turn of its path. -/
def execCipherBadOp (p : Path) (v : Word) (s : State) : Host.Outcome State Fault Refusal :=
  effectCipherBadOp p v (s.turn p)

/-- LINK_ENABLE (R913), in the turn of its path. -/
def execLinkEnable (p : Path) (link : Nat) (v : Word) (s : State) : Host.Outcome State Fault Refusal :=
  effectLinkEnable p link v (s.turn p)

/-- LINK_DISABLE (R964), in the turn of its path. -/
def execLinkDisable (p : Path) (link : Nat) (v : Word) (s : State) : Host.Outcome State Fault Refusal :=
  effectLinkDisable p link v (s.turn p)

/-- LINK_CMD_LEAVE (R957), in the turn of its path. -/
def execLinkCmdLeave (p : Path) (link : Nat) (v : Word) (s : State) : Host.Outcome State Fault Refusal :=
  effectLinkCmdLeave p link v (s.turn p)

/-- LINK_CMD_ROTATE (R952), in the turn of its path. -/
def execLinkCmdRotate (p : Path) (link : Nat) (v : Word) (s : State) : Host.Outcome State Fault Refusal :=
  effectLinkCmdRotate p link v (s.turn p)

/-- LINK_CMD_REENABLE (R966), in the turn of its path. -/
def execLinkCmdReenable (p : Path) (link : Nat) (v : Word) (s : State) : Host.Outcome State Fault Refusal :=
  effectLinkCmdReenable p link v (s.turn p)

/-- LINK_CMD_BAD_OP (R966), in the turn of its path. -/
def execLinkCmdBadOp (p : Path) (link : Nat) (v : Word) (s : State) : Host.Outcome State Fault Refusal :=
  effectLinkCmdBadOp p link v (s.turn p)

/-- ERR_FIRST_CLEAR (R1029), in the turn of its path. -/
def execErrFirstClear (p : Path) (page : Nat) (s : State) : Host.Outcome State Fault Refusal :=
  effectErrFirstClear p page (s.turn p)

/-- DEV_FIRST_CLEAR (R1034), in the turn of its path. -/
def execDevFirstClear (p : Path) (s : State) : Host.Outcome State Fault Refusal :=
  effectDevFirstClear p (s.turn p)

/-- FENCE_CLEAR (R1040), in the turn of its path. -/
def execFenceClear (p : Path) (v : Word) (s : State) : Host.Outcome State Fault Refusal :=
  effectFenceClear p v (s.turn p)

/-- INJECT_SIGNAL (R1050), in the turn of its path. -/
def execInjectSignal (p : Path) (page : Nat) (v : Word) (s : State) : Host.Outcome State Fault Refusal :=
  effectInjectSignal p page v (s.turn p)

/-- INJECT_CORRUPT_1 (R1051), in the turn of its path. -/
def execInjectCorrupt1 (p : Path) (page : Nat) (v : Word) (s : State) : Host.Outcome State Fault Refusal :=
  effectInjectCorrupt1 p page v (s.turn p)

/-- INJECT_CORRUPT_2 (R1051), in the turn of its path. -/
def execInjectCorrupt2 (p : Path) (page : Nat) (v : Word) (s : State) : Host.Outcome State Fault Refusal :=
  effectInjectCorrupt2 p page v (s.turn p)

/-- INJECT_BAD_MODE (R1052), in the turn of its path. -/
def execInjectBadMode (p : Path) (page : Nat) (v : Word) (s : State) : Host.Outcome State Fault Refusal :=
  effectInjectBadMode p page v (s.turn p)

/-- RETIRE_CMD (R1048), in the turn of its path. -/
def execRetireCmd (p : Path) (v : Word) (s : State) : Host.Outcome State Fault Refusal :=
  effectRetireCmd p v (s.turn p)

/-- WARM_RESET (R1068), in the turn of its path. -/
def execWarmReset (p : Path) (v : Word) (s : State) : Host.Outcome State Fault Refusal :=
  effectWarmReset p v (s.turn p)

/-- BLOCK_RESET (R1086), in the turn of its path. -/
def execBlockReset (p : Path) (v : Word) (fails : List (Nat × Nat × Nat)) (s : State) : Host.Outcome State Fault Refusal :=
  effectBlockReset p v fails (s.turn p)

/-- CAL_LOAD (R1088), in the turn of its path. -/
def execCalLoad (p : Path) (v : Word) (s : State) : Host.Outcome State Fault Refusal :=
  effectCalLoad p v (s.turn p)

/-- CAL_CLEAR (R1088), in the turn of its path. -/
def execCalClear (p : Path) (v : Word) (s : State) : Host.Outcome State Fault Refusal :=
  effectCalClear p v (s.turn p)

/-- CAL_COMMIT (R1089), in the turn of its path. -/
def execCalCommit (p : Path) (v : Word) (s : State) : Host.Outcome State Fault Refusal :=
  effectCalCommit p v (s.turn p)

/-- CAL_BAD_OP (R1100), in the turn of its path. -/
def execCalBadOp (p : Path) (v : Word) (s : State) : Host.Outcome State Fault Refusal :=
  effectCalBadOp p v (s.turn p)

/-- CAL_DATA_ACCESS (R1088), in the turn of its path. -/
def execCalDataAccess (p : Path) (v : Option Word) (s : State) : Host.Outcome State Fault Refusal :=
  effectCalDataAccess p v (s.turn p)

/-- GPIO_FUNC_WRITE (R1122), in the turn of its path. -/
def execGpioFuncWrite (p : Path) (v : Word) (s : State) : Host.Outcome State Fault Refusal :=
  effectGpioFuncWrite p v (s.turn p)

/-- UART_RXDATA_READ (R1144), in the turn of its path. -/
def execUartRxdataRead (p : Path) (s : State) : Host.Outcome State Fault Refusal :=
  effectUartRxdataRead p (s.turn p)

end Sys2Proof.Machine
end

