-- ==== Sys2Proof/Machine/Pldm.lean ====
section
/-! DEFINITION. PLDM: discovery, numeric sensors and the firmware device (spec/21, R1092 to R1096). A reply's command is
256 · PLDM type + command code, and its completion code is that of the PLDM standards. -/

namespace Sys2Proof.Machine

/-- An answer, which the endpoints give from the end of LIFECYCLE (R1076). -/
def State.pldm (s : State) (cmd code : Nat) (vals : List Int) : State :=
  if s.bootPhase < 3 then s
  else { s with boot := { s.boot with pldmOut := ({ cmd := cmd, code := code, vals := vals } : PldmReply) :: s.boot.pldmOut } }

/-! Discovery (R1092). -/

/-- GET_TID: 1 + tray position. -/
def execGetTid (s : State) : Host.Outcome State Fault Refusal :=
  .next (s.pldm 0x002 0 [((1 + s.rf Reg.BOOT_BOOT_STRAPS 1 0 : Nat) : Int)])

/-- The PLDM types of the terminus, and the commands of each. -/
def pldmTypes : List Nat := [0, 2, 5]
def pldmCommands (ty : Nat) : List Nat :=
  match ty with
  | 0 => [0x02, 0x03, 0x04, 0x05]
  | 2 => [0x04, 0x0A, 0x10, 0x11, 0x50, 0x51]
  | 5 => [0x10, 0x15, 0x16, 0x17, 0x18, 0x1A, 0x1D]
  | _ => []

/-- GET_PLDM_VERSION. -/
def execGetPldmVersion (ty : Nat) (s : State) : Host.Outcome State Fault Refusal :=
  .next (if pldmTypes.contains ty then s.pldm 0x003 0 [(Config.pldmVersion ty : Int)] else s.pldm 0x003 0x83 [])

/-- GET_PLDM_TYPES: types 0, 2 and 5. -/
def execGetPldmTypes (s : State) : Host.Outcome State Fault Refusal := .next (s.pldm 0x004 0 (pldmTypes.map (fun (n : Nat) => (n : Int))))

/-- GET_PLDM_COMMANDS. -/
def execGetPldmCommands (ty : Nat) (s : State) : Host.Outcome State Fault Refusal :=
  .next (if pldmTypes.contains ty then s.pldm 0x005 0 ((pldmCommands ty).map (fun (n : Nat) => (n : Int))) else s.pldm 0x005 0x83 [])

/-! Sensors (Table 21-5). -/

/-- A sensor's present value in its resolution: 1/16 °C, 1 mV, or 0.1 W. -/
def State.sensorValue (s : State) (n : Nat) : Int :=
  match n with
  | 1 => sInt 16 (s.rf Reg.GOV_TJ_MAX 15 0)
  | 6 => (s.railMv 0 : Int)
  | 7 => (Config.corePower s.time : Int)
  | 8 => ((s.rg64 Reg.GOV_DEV_LAST_LO / (100 * Nat.max (s.rg Reg.GOV_EPOCH_LEN) 1) : Nat) : Int)
  | n => sInt 16 (Config.hbmReport (n - 2) s.time)

def sensorIs (n : Nat) : Bool := decide (1 ≤ n) && decide (n ≤ 8)

/-- GET_SENSOR_READING: the operational state, 0 enabled or 1 disabled, the threshold state and the value. -/
def execGetSensorReading (sensor : Nat) (s : State) : Host.Outcome State Fault Refusal :=
  if sensorIs sensor = false then .next (s.pldm 0x211 0x80 [])
  else if Tab.get (fun _ => false) s.boot.sensorOff sensor then .next (s.pldm 0x211 0 [1])
  else
    let st := if sensor = 1 then tjThreshold (s.sensorValue 1) else 0
    .next (s.pldm 0x211 0 [0, (st : Int), s.sensorValue sensor])

/-- GET_PDR_REPOSITORY_INFO: one record for each sensor. -/
def execGetPdrRepositoryInfo (s : State) : Host.Outcome State Fault Refusal := .next (s.pldm 0x250 0 [8])

/-- A sensor's PDR: its ID, its unit (0 °C, 1 mV, 2 W), the steps of its resolution in a unit, and its thresholds where it has any. -/
def sensorPdr (n : Nat) : List Int :=
  if n = 1 then [1, 0, 16, 1520, 1600, 1840]
  else if n ≤ 5 then [(n : Int), 0, 16]
  else if n = 6 then [6, 1, 1]
  else [(n : Int), 2, 10]

/-- GET_PDR: record handles are the sensor IDs, and handle 0 asks for the first; the answer begins with the next handle, 0 at the end. -/
def execGetPdr (handle : Nat) (s : State) : Host.Outcome State Fault Refusal :=
  let h := if handle = 0 then 1 else handle
  if sensorIs h then .next (s.pldm 0x251 0 ((if h = 8 then 0 else ((h + 1 : Nat) : Int)) :: sensorPdr h))
  else .next (s.pldm 0x251 0x82 [])

/-- SET_EVENT_RECEIVER. -/
def execSetEventReceiver (enable : Bool) (addr : Nat) (s : State) : Host.Outcome State Fault Refusal :=
  if s.bootPhase < 3 then .next s
  else .next ({ s with boot := { s.boot with receiver := if enable then some addr else none } }.pldm 0x204 0 [])

/-- SET_NUMERIC_SENSOR_ENABLE. -/
def execSetNumericSensorEnable (sensor : Nat) (enable : Bool) (s : State) : Host.Outcome State Fault Refusal :=
  if s.bootPhase < 3 then .next s
  else if sensorIs sensor = false then .next (s.pldm 0x210 0x80 [])
  else .next ({ s with boot := { s.boot with sensorOff := Tab.put (fun _ => false) sensor (!enable) s.boot.sensorOff } }.pldm 0x210 0 [])

/-! Firmware update (R1093 to R1096, R1103). -/

/-- An image is loaded. -/
def State.imageLoaded (s : State) : Bool := s.rf Reg.BOOT_BOOT_IMAGE 31 31 == 1

/-- The slot not loaded at boot; A where none is. -/
def State.updateSlot (s : State) : Nat := if s.imageLoaded then 1 - s.rf Reg.BOOT_BOOT_IMAGE 30 30 else 0

/-- REQUEST_UPDATE (R1096): in READY or HALTED; the K16 asks for the flash. -/
def execRequestUpdate (s : State) : Host.Outcome State Fault Refusal :=
  if s.boot.update.isSome then .next (s.pldm 0x510 0x81 [])
  else if s.bootPhase < 8 then .next (s.pldm 0x510 0x8A [])
  else
    let s := { s with boot := { s.boot with update := some { slot := s.updateSlot, got := 0, verified := false } } }
    .next ((s.flashReq true).pldm 0x510 0 [4096])

/-- FIRMWARE_TRANSFER (R1093): at most 4,096 bytes of the image at an offset, written to the slot once the K16 drives the flash. -/
def execFirmwareTransfer (offset : Nat) (bytes : List Byte) (s : State) : Host.Outcome State Fault Refusal :=
  match s.boot.update with
  | none => .next (s.pldm 0x515 0x80 [])
  | some u =>
    if 4096 < bytes.length ∨ 0x1000000 < offset + bytes.length then .next (s.pldm 0x515 0x82 [])
    else if s.boot.spiDrive = false ∨ s.boot.flashRetry then .next s
    else
      let fl := Tab.putList (fun _ => 0xFF) (u.slot * 0x1000000 + offset) bytes s.boot.flash
      let u := { u with got := u.got + bytes.length, verified := false }
      .next ({ s with boot := { s.boot with flash := fl, update := some u } }.pldm 0x515 0 [])

/-- FIRMWARE_VERIFY (R1094): R1083 steps 1 and 3 on the slot, and IMAGE_SEQ above that of the loaded image. -/
def execFirmwareVerify (s : State) : Host.Outcome State Fault Refusal :=
  match s.boot.update with
  | none => .next (s.pldm 0x517 0x80 [])
  | some u =>
    if s.boot.spiDrive = false ∨ s.boot.flashRetry then .next s
    else
      let ok := imageHeader (s.slotHeader u.slot) == 0 && s.digestOk u.slot &&
        (!s.imageLoaded || decide (s.rg Reg.BOOT_IMAGE_SEQ < s.slotSeq u.slot))
      .next ({ s with boot := { s.boot with update := some { u with verified := ok } } }.pldm 0x517 0 [if ok then 0 else 1])

/-- The update is over, and the flash is the manager's. -/
def State.updateOver (s : State) : State := { s with boot := { s.boot with update := none } }.flashReq false

/-- ACTIVATE_FIRMWARE (R1095): a verified image becomes active at the next cold reset, which the answer asks for (1). -/
def execActivateFirmware (s : State) : Host.Outcome State Fault Refusal :=
  match s.boot.update with
  | none => .next (s.pldm 0x51A 0x80 [])
  | some u => if u.verified then .next (s.updateOver.pldm 0x51A 0 [1]) else .next (s.pldm 0x51A 0x85 [])

/-- CANCEL_UPDATE (R1096). -/
def execCancelUpdate (s : State) : Host.Outcome State Fault Refusal :=
  match s.boot.update with
  | none => .next (s.pldm 0x51D 0x80 [])
  | some _ => .next (s.updateOver.pldm 0x51D 0 [])

end Sys2Proof.Machine
end

