-- ==== Sys2Proof/Machine/Tick.lean ====
section
/-! DEFINITION. One MCLK cycle in which no command is taken: the clocks, the static and per-cycle charges, the counters
that count cycles, and what waits for a condition (spec/13 R675 to R682, R704; spec/19 R997, R998; Table 13-3). Whatever
has a command of its own happens at that command. -/

namespace Sys2Proof.Machine

/-! Clocks (R675 to R678, R1047). -/

/-- ns that TIME advances by at an MCLK edge: none before the root PLL first locks, 10 on the 100 MHz clock. -/
def State.timeStep (s : State) : Nat := if s.gov.everLocked = false then 0 else if s.gov.locked then 5 else 10

/-- Count an event that every page's instance raises, in the pages that select any event (R999). The global counters
take it once. -/
def State.eventAll (s : State) (code n : Nat) : State :=
  if n = 0 then s
  else
    let pages := (s.regs.filter (fun (e : Nat × Word) =>
      decide (Reg.H_EVSEL_0 ≤ e.1 % 0x1000) && decide (e.1 % 0x1000 < Reg.H_EVSEL_0 + 16))).map (fun (e : Nat × Word) => e.1 / 0x1000)
    let s := pages.eraseDups.foldl (fun s p => s.countPage p code n) s
    s.countGlobal code n {}

/-! Charges and cycle counts (R681, Table 13-3). -/

/-- The static charge of a lull state, in units of Table 13-3. -/
def Lull.staticTun : Lull → Nat
  | .lull => 160
  | .off => 0
  | _ => 640

def Lull.staticCore : Lull → Nat
  | .lull => 0
  | .off => 0
  | _ => 2500

/-- The static charge of an MCLK cycle that begins with these lull states and this ratio (R681). -/
def State.staticCharge (s : State) : Nat :=
  let tuns := sumOf (fun t => s.scaled (s.tunSt t).lull.staticTun) (List.range 128)
  let cores := sumOf (fun k => s.scaled (s.core k).lull.staticCore) (List.range 8)
  s.scaled 150000 + tuns + cores

def State.chargeStatic (s : State) : State := s.chargeDev (s.gov.static.getD s.staticCharge)

/-- A live partner for whose halo a phase waits (R255). -/
def Run.haloWaits (r : Run) : Bool :=
  match r.span with
  | some sp => decide (r.phase = .sweeping) && sp.partners.any (fun p => p.waitSince.isSome)
  | none => false

/-- n CCLK cycles of a run. -/
def State.cyclesRun (n : Nat) (s : State) (r : Run) : State :=
  if r.phase = .stopped then s
  else match s.runCmd r with
    | none => s
    | some c =>
      let s := s.chargeJob c.job (n * r.count * s.scaled 2560)
      let s := r.tuns.foldl (fun s t => s.tunEvent r t 0x0140 n) s
      if r.haloWaits then (s.bump64 (tunReg r.lead Reg.TUN_HALO_WAIT_LO) n).tunEvent r r.lead 0x0142 n else s

/-- n CCLK cycles of an anneal command that streams its grist. -/
def State.cyclesLoad (n : Nat) (s : State) (c : Command) : State :=
  if c.engine = .tun ∧ c.phase = .running ∧ (s.run c.id).isNone then
    s.chargeJob c.job (n * (rbTuns c.block).length * s.scaled 1024)
  else s

/-- n CCLK cycles of the command that the solver engine holds: while it fetches, those that wait for host bytes count (R323). -/
def State.cyclesSolver (s : State) (n : Nat) : State :=
  match s.solver.bind (fun r => (s.cmd r.cmd).map (fun c => (r, c))) with
  | none => s
  | some (r, c) =>
    let s := ((s.chargeJob c.job (n * s.scaled 32768)).bump64 Reg.SLV_BUSY_LO n).event 0x0340 pgSolver c.ev n
    if r.loaded ∨ c.phase ≠ .running ∨ r.hostDue c.block ≤ s.time then s
    else (s.bump64 Reg.SLV_OPERAND_WAIT_LO n).event 0x0341 pgSolver c.ev n

/-- n CCLK cycles of the command that the predictor array holds: those of a pass, in which the MAC array holds a tile (R384), and those
in which it waits for weights or input (Table 07-11). -/
def State.cyclesPred (s : State) (n : Nat) : State :=
  match s.pred.run with
  | none => s
  | some r => match s.cmd r.cmd with
    | none => s
    | some c =>
      let now := s.gov.ccycles
      let mac := if r.phase = .pass ∧ c.phase = .running then Nat.min (now + n) r.passEnd - Nat.max now r.from_ else 0
      let wide := if r.wide then mac else 0
      let waits := decide (c.phase = .running) && (decide (r.phase = .fetch) || decide (r.phase = .scan) || decide (r.phase = .await))
      let s := s.chargeJob c.job ((n - wide) * s.scaled 1536 + wide * s.scaled 2688)
      let s := if waits then (s.bump64 Reg.PRD_FETCH_WAIT_LO n).event 0x0442 pgPred c.ev n else s
      let s := if mac = 0 then s else (s.bump64 Reg.PRD_MAC_BUSY_LO mac).event 0x0440 pgPred c.ev mac
      if wide = 0 then s else (s.bump64 Reg.PRD_WIDE_BUSY_LO wide).event 0x0441 pgPred c.ev wide

/-- n CCLK cycles of the command that the planner holds, and those in which it waits for what it fetches (Table 08-11). -/
def State.cyclesPlan (s : State) (n : Nat) : State :=
  match s.plan.run.bind (fun r => (s.cmd r.cmd).map (fun c => (r, c))) with
  | none => s
  | some (r, c) =>
    let s := s.chargeJob c.job (n * s.scaled 4096)
    if r.loaded ∨ c.phase ≠ .running then s else (s.bump64 Reg.PLN_FETCH_WAIT_LO n).event 0x0541 pgPlan c.ev n

/-- n CCLK cycles of a core: in RUNNING, those in which it issued no bundle count in STALL, and those lost to a full store
buffer in SB_FULL. -/
def State.cyclesCore (n : Nat) (s : State) (k : Nat) : State :=
  let c := s.core k
  if c.phase ≠ .running ∧ c.phase ≠ .halting then s
  else
    let s := s.charge c.job (n * s.scaled 1024)
    if c.phase ≠ .running then s
    else
      let lost := n - c.issues
      let s := (s.bump64 (gnmReg k Reg.GNM_STALL_LO) lost).event 0x0640 (pgGnm k) (coreEv c k) lost
      if c.stall = some .storeBuffer then (s.bump (gnmReg k Reg.GNM_SB_FULL) lost).event 0x0641 (pgGnm k) (coreEv c k) lost else s

/-- A VC's next packet waits for credits (R922), or for room in the replay buffer (R930). -/
def State.linkWaits (s : State) (l : Nat) (full : Bool) : Bool :=
  let x := s.link l
  [0, 1, 2].any (fun vc => s.carries l vc && match s.nextUnits l vc with
    | some u => if full then decide (1024 ≤ x.buf.length) else !x.credits vc u
    | none => false)

/-- n CCLK cycles of a link. -/
def State.cyclesLink (n : Nat) (s : State) (l : Nat) : State :=
  let e : EvSource := { inst := some l }
  let s := if s.linkWaits l false then s.event 0x0E40 (pgLink l) e n else s
  if s.linkWaits l true then s.event 0x0E41 (pgLink l) e n else s

/-- n CCLK cycles of the whole K16. -/
def State.cyclesAll (s : State) (n : Nat) : State :=
  if n = 0 then s
  else
    let s := s.tun.runs.foldl (State.cyclesRun n) s
    let s := s.cmds.foldl (State.cyclesLoad n) s
    let s := ((s.cyclesSolver n).cyclesPred n).cyclesPlan n
    let s := (s.gnm.cores.map (·.1)).foldl (State.cyclesCore n) s
    let s := (s.links.map (·.1)).foldl (State.cyclesLink n) s
    let s := if s.hif.held = [] then s else (s.bump64 Reg.HOST_CPL_STALL_LO n).event 0x0940 pgHost {} n
    (s.eventAll 0x0002 n)

/-! Counts of MCLK cycles. -/

/-- Work of the KEY channel waits for bytes (R837). -/
def State.keyWaits (s : State) : Bool := !s.key.tasks.isEmpty || (match s.key.lc with | some r => r.seedDue | none => false)

/-- A SEAL waits for its IV (R890). -/
def State.cipherWaits (s : State) : Bool := match s.cipher with | some c => c.ends.isNone | none => false

/-- What one MCLK cycle adds to the counters that count them. -/
def State.mclkCounts (s : State) : State :=
  let s := s.eventAll 0x0001 1
  let s := if (s.freeEntry false).isNone then (s.bump Reg.DSP_POOL_FULL_CYCLES 1).event 0x0740 pgDispatch else s
  let therm := s.rf Reg.GOV_CLK_STATE 11 10
  let s := if therm = 1 ∨ therm = 2 then s.event 0x0842 pgGovernor else s
  let s := if s.backlog = 0 then s else s.event 0x0941 pgHost
  let s := if s.rf Reg.PRD_FETCH_CTRL 7 0 < s.rf Reg.MEM_HBM_BUSY 8 0 then s.event 0x0443 pgPred else s
  let s := if s.squall then s.event 0x0F40 pgErrors else s
  let s := if s.keyWaits then (s.bumpSat Reg.ENT_CHAN_0_WAITS 1).event 0x0C40 pgEntropy { inst := some 0 } else s
  if s.cipherWaits then
    ((s.bump Reg.CIPH_CIPH_ENT_WAIT 1).bumpSat (Reg.ENT_CHAN_0_WAITS + 4) 1).event 0x0C40 pgEntropy { inst := some 1 }
  else s

/-! What a cycle's end finds due. -/

/-- TIMER of every core is evaluated against TIME (R560). -/
def State.timers (s : State) : State :=
  { s with gnm := { s.gnm with cores := Tab.mapV (fun _ => Core.reset) (fun _ (c : Core) => c.timerAt s.time s.gov.ccycles) s.gnm.cores } }

/-- What waits for a condition and has no command of its own: entropy for keys, seals and links, links that may train or
leave, marches that an engine's use pauses, and idle times. -/
def State.settle (s : State) : State :=
  let s := s.squallStep.syncOutStep.timers
  let s := State.keyServe (s.key.tasks.length + 1) s
  let s := (State.tenantServe (s.key.tenants.length + 1) s).cipherServe
  let s := (List.range 8).foldl (fun s l => (s.linkTry l).leaveStep l) s
  s.marchSync.touchBusy.coresOff.gpioStep

/-- What the end of an MCLK cycle settles, once every command of the cycle has taken effect: its charges and counts, the stores that become
visible in it (R803), its seed draws (R852), its stop causes (R66), a missed boundary (R702), an acknowledgement (R1147), the guard's records
(R671), the errors it records (R1057), its job start (R641), the reprioritisations (R668), its march and sparge commands (R805), its block
resets (R1104), the entropy channels' policies (R856), the links' windows (R973), and its events (R997). -/
def State.cycleEnd (s : State) (edges : Nat) : State :=
  let s := (s.chargeStatic.cyclesAll edges).mclkCounts
  let s := (State.performStores 256 s.drawStep).settleStops.missStep.ackStep.guardRecords.recordStep.startStep.winReprio.memStep
  let s := s.resetStep.entStep
  ((s.links.map (·.1)).foldl State.linkCycle s).counted

/-- The governor's counts of a cycle that ends at TIME t: the root counter, the CCLK edges, and the tick, of 4,000 MCLK cycles from
TIME 0 (R695). -/
def Governor.cycled (g : Governor) (e : Nat × Nat) (t : Nat) : Governor :=
  let g := { g with rootPhase := e.2, ccycles := g.ccycles + e.1, tickCycles := g.tickCycles + b2n g.everLocked, bound := none, lullNow := [] }
  if g.tickCycles < 4000 then g
  else { g with tickDue := some (t, g.tickEnergy, g.tickShort), tickCycles := 0, tickEnergy := 0, tickShort := false }

/-- TIME and the clocks move on: a new MCLK cycle has the meters and the static charge of its start. -/
def State.advance (s : State) (e : Nat × Nat) : State :=
  let t := (s.time + s.timeStep) % 0x10000000000000000
  let g := s.gov.cycled e t
  { s with
    time := t
    intSet := []
    ent := { s.ent with katEnded := false, katBusy := false, softRead := none }
    gov := { g with static := some s.staticCharge, cDev0 := g.cDev, cReg0 := g.cReg }
    gnm := { s.gnm with cores := Tab.mapV (fun _ => Core.reset) (fun _ (c : Core) => { c with issues := 0 }) s.gnm.cores } }

/-- What takes effect as an MCLK cycle begins: the register writes (R985), the dispatcher's window commands (R656, R664) and the region
commands (R754, R756) that arrived in the last one, and operands that have come in. -/
def State.cycleBegin (s : State) : State := s.regCycle.winCycle.rgnStep.svLoad.prFetched.plLoad

/-- One MCLK cycle ends and the next begins. -/
def State.tick (s : State) : State :=
  let e := s.cclkEdges
  (((s.cycleEnd e.1).advance e).cycleBegin).settle

end Sys2Proof.Machine
end

