-- ==== Sys2Proof/Machine/Families.lean ====
section
/-! DEFINITION. Every file of meanings, in one import. -/
end

