-- ==== Sys2Proof/Machine/Dispatch.lean ====
section
/-! DEFINITION. exec: one arm per step of the table. -/

namespace Sys2Proof.Machine

def exec (i : Instr) (s : State) : Host.Outcome State Fault Refusal :=
  match i with
  | .loReadCapture p r => Sys2Proof.Machine.execLoReadCapture p r s
  | .hiWriteHold p r v => Sys2Proof.Machine.execHiWriteHold p r v s
  | .loWriteCommit p r v => Sys2Proof.Machine.execLoWriteCommit p r v s
  | .registerWrite p r v => Sys2Proof.Machine.execRegisterWrite p r v s
  | .badAccess data addr len => Sys2Proof.Machine.execBadAccess data addr len s
  | .mgrRegisterRead via msg => Sys2Proof.Machine.execMgrRegisterRead via msg s
  | .mgrRegisterWrite via msg => Sys2Proof.Machine.execMgrRegisterWrite via msg s
  | .ibiRaise => Sys2Proof.Machine.execIbiRaise s
  | .gbankSnap p v => Sys2Proof.Machine.execGbankSnap p v s
  | .gbankClear p v => Sys2Proof.Machine.execGbankClear p v s
  | .ctrClear p page v => Sys2Proof.Machine.execCtrClear p page v s
  | .sqTailDb func q len v => Sys2Proof.Machine.execSqTailDb func q len v s
  | .cqHeadDb func q len v => Sys2Proof.Machine.execCqHeadDb func q len v s
  | .inlineWrite func q off bytes => Sys2Proof.Machine.execInlineWrite func q off bytes s
  | .fetch => Sys2Proof.Machine.execFetch s
  | .engineCmd => Sys2Proof.Machine.execEngineCmd s
  | .enginePayloadRead job => Sys2Proof.Machine.execEnginePayloadRead job s
  | .programCmd => Sys2Proof.Machine.execProgramCmd s
  | .chainCmd => Sys2Proof.Machine.execChainCmd s
  | .armCmd job => Sys2Proof.Machine.execArmCmd job s
  | .fireCmd => Sys2Proof.Machine.execFireCmd s
  | .gustLaneEntry job => Sys2Proof.Machine.execGustLaneEntry job s
  | .ringEnable func q v => Sys2Proof.Machine.execRingEnable func q v s
  | .ringDisable func q v => Sys2Proof.Machine.execRingDisable func q v s
  | .qOwnerWrite p q v => Sys2Proof.Machine.execQOwnerWrite p q v s
  | .flr vf => Sys2Proof.Machine.execFlr vf s
  | .flrPf => Sys2Proof.Machine.execFlrPf s
  | .flrComplete func => Sys2Proof.Machine.execFlrComplete func s
  | .hostIdeFail => Sys2Proof.Machine.execHostIdeFail s
  | .completionRecord job credits => Sys2Proof.Machine.execCompletionRecord job credits s
  | .guardUpdate q => Sys2Proof.Machine.execGuardUpdate q s
  | .jobStart => Sys2Proof.Machine.execJobStart s
  | .lateBeforeStart job => Sys2Proof.Machine.execLateBeforeStart job s
  | .cancel p q => Sys2Proof.Machine.execCancel p q s
  | .cancelQueue p q => Sys2Proof.Machine.execCancelQueue p q s
  | .reprio p q => Sys2Proof.Machine.execReprio p q s
  | .drain p q => Sys2Proof.Machine.execDrain p q s
  | .undrain p q => Sys2Proof.Machine.execUndrain p q s
  | .dispatchCmdBadOp p v => Sys2Proof.Machine.execDispatchCmdBadOp p v s
  | .contractWrite p q target v => Sys2Proof.Machine.execContractWrite p q target v s
  | .stopTimeReached w => Sys2Proof.Machine.execStopTimeReached w s
  | .haltTimeReached core => Sys2Proof.Machine.execHaltTimeReached core s
  | .energyCeilingStop job => Sys2Proof.Machine.execEnergyCeilingStop job s
  | .engineQueueEntry cmd => Sys2Proof.Machine.execEngineQueueEntry cmd s
  | .engineCommandEnd cmd => Sys2Proof.Machine.execEngineCommandEnd cmd s
  | .loadCmd cmd => Sys2Proof.Machine.execLoadCmd cmd s
  | .runCmd cmd => Sys2Proof.Machine.execRunCmd cmd s
  | .loadRun cmd => Sys2Proof.Machine.execLoadRun cmd s
  | .loadComplete cmd => Sys2Proof.Machine.execLoadComplete cmd s
  | .latticePhase run tun => Sys2Proof.Machine.execLatticePhase run tun s
  | .denseClassStep run tun replica => Sys2Proof.Machine.execDenseClassStep run tun replica s
  | .endMarker run dst src => Sys2Proof.Machine.execEndMarker run dst src s
  | .flipApply run tun => Sys2Proof.Machine.execFlipApply run tun s
  | .sweepBoundary run => Sys2Proof.Machine.execSweepBoundary run s
  | .phxGo p tun v => Sys2Proof.Machine.execPhxGo p tun v s
  | .windowSwitch run => Sys2Proof.Machine.execWindowSwitch run s
  | .rowStaging run => Sys2Proof.Machine.execRowStaging run s
  | .join => Sys2Proof.Machine.execJoinMsg s
  | .startMsg => Sys2Proof.Machine.execStartMsg s
  | .abortMsg => Sys2Proof.Machine.execAbortMsg s
  | .joinTimeout run => Sys2Proof.Machine.execJoinTimeout run s
  | .coef => Sys2Proof.Machine.execCoefMsg s
  | .halo => Sys2Proof.Machine.execHaloMsg s
  | .haloWaitTimeout run dir => Sys2Proof.Machine.execHaloWaitTimeout run dir s
  | .rendezvous run => Sys2Proof.Machine.execRendezvous run s
  | .report => Sys2Proof.Machine.execReportMsg s
  | .reportTimeout run chip => Sys2Proof.Machine.execReportTimeout run chip s
  | .decide => Sys2Proof.Machine.execDecideMsg s
  | .decideTimeout run => Sys2Proof.Machine.execDecideTimeout run s
  | .partReq => Sys2Proof.Machine.execPartReqMsg s
  | .part => Sys2Proof.Machine.execPartMsg s
  | .grant => Sys2Proof.Machine.execGrantMsg s
  | .return => Sys2Proof.Machine.execReturnMsg s
  | .leaseEnd run visit => Sys2Proof.Machine.execLeaseEnd run visit s
  | .updateMsg => Sys2Proof.Machine.execUpdateMsg s
  | .linsolve cmd => Sys2Proof.Machine.execLinsolve cmd s
  | .assign cmd => Sys2Proof.Machine.execAssign cmd s
  | .boxqp cmd => Sys2Proof.Machine.execBoxqp cmd s
  | .solverIterate cmd => Sys2Proof.Machine.execSolverIterate cmd s
  | .assignStop cmd => Sys2Proof.Machine.execAssignStop cmd s
  | .predictorCommand cmd => Sys2Proof.Machine.execPredictorCommand cmd s
  | .inputScanDone cmd => Sys2Proof.Machine.execInputScanDone cmd s
  | .layerPassDone cmd => Sys2Proof.Machine.execLayerPassDone cmd s
  | .rowBlockDone cmd => Sys2Proof.Machine.execRowBlockDone cmd s
  | .gristWriterWrite cmd => Sys2Proof.Machine.execGristWriterWrite cmd s
  | .resFlushAll p v => Sys2Proof.Machine.execResFlushAll p v s
  | .resFlushRegion p v => Sys2Proof.Machine.execResFlushRegion p v s
  | .planCmd cmd n => Sys2Proof.Machine.execPlanCmd cmd n s
  | .repairCmd cmd n => Sys2Proof.Machine.execRepairCmd cmd n s
  | .plnFlushAll p v => Sys2Proof.Machine.execPlnFlushAll p v s
  | .plnFlushRegion p v => Sys2Proof.Machine.execPlnFlushRegion p v s
  | .bundleIssue k => Sys2Proof.Machine.execBundleIssue k s
  | .engWaitReturn k => Sys2Proof.Machine.execEngWaitReturn k s
  | .waitIWake k => Sys2Proof.Machine.execWaitIWake k s
  | .interruptTake k => Sys2Proof.Machine.execInterruptTake k s
  | .timerExpiry k => Sys2Proof.Machine.execTimerExpiry k s
  | .storeVisible k => Sys2Proof.Machine.execStoreVisible k s
  | .transferStart k => Sys2Proof.Machine.execTransferStart k s
  | .transferEnd k => Sys2Proof.Machine.execTransferEnd k s
  | .coreSpargeDone k => Sys2Proof.Machine.execCoreSpargeDone k s
  | .governorTick => Sys2Proof.Machine.execGovernorTick s
  | .avsAck p v => Sys2Proof.Machine.execAvsAck p v s
  | .avsTimeout => Sys2Proof.Machine.execAvsTimeout s
  | .cclkGapEnd => Sys2Proof.Machine.execCclkGapEnd s
  | .thermalSample readings => Sys2Proof.Machine.execThermalSample readings s
  | .epochBoundary => Sys2Proof.Machine.execEpochBoundary s
  | .syncPulse src => Sys2Proof.Machine.execSyncPulse src s
  | .syncOutPulseEnd => Sys2Proof.Machine.execSyncOutPulseEnd s
  | .timeLoad p v => Sys2Proof.Machine.execTimeLoad p v s
  | .budgetWrite p region v => Sys2Proof.Machine.execBudgetWrite p region v s
  | .epochLenWrite p v => Sys2Proof.Machine.execEpochLenWrite p v s
  | .clkCtrlWrite p v => Sys2Proof.Machine.execClkCtrlWrite p v s
  | .lullEntry r => Sys2Proof.Machine.execLullEntry r s
  | .lullOffEntry tun => Sys2Proof.Machine.execLullOffEntry tun s
  | .wakeComplete r => Sys2Proof.Machine.execWakeComplete r s
  | .refclkLoss => Sys2Proof.Machine.execRefclkLoss s
  | .refclkReturn => Sys2Proof.Machine.execRefclkReturn s
  | .rgnApply p v => Sys2Proof.Machine.execRgnApply p v s
  | .rgnRevert p v => Sys2Proof.Machine.execRgnRevert p v s
  | .rgnBadOp p v => Sys2Proof.Machine.execRgnBadOp p v s
  | .packetHop offer packet => Sys2Proof.Machine.execPacketHop offer packet s
  | .multicastCopy offer packet port => Sys2Proof.Machine.execMulticastCopy offer packet port s
  | .packetStuckTimeout packet => Sys2Proof.Machine.execPacketStuckTimeout packet s
  | .commonsAccess bank reqs => Sys2Proof.Machine.execCommonsAccess bank reqs s
  | .hbmAccess port reqs => Sys2Proof.Machine.execHbmAccess port reqs s
  | .eccWriteBack => Sys2Proof.Machine.execEccWriteBack s
  | .patrolScrubRead stack upset => Sys2Proof.Machine.execPatrolScrubRead stack upset s
  | .hbmOccupancyWindow => Sys2Proof.Machine.execHbmOccupancyWindow s
  | .marchDestructive p v fails => Sys2Proof.Machine.execMarchDestructive p v fails s
  | .marchPreserving p v => Sys2Proof.Machine.execMarchPreserving p v s
  | .marchAbort p v => Sys2Proof.Machine.execMarchAbort p v s
  | .marchBadOp p v => Sys2Proof.Machine.execMarchBadOp p v s
  | .marchSlice run tun fails => Sys2Proof.Machine.execMarchSlice run tun fails s
  | .marchResume => Sys2Proof.Machine.execMarchResume s
  | .marchDone fails => Sys2Proof.Machine.execMarchDone fails s
  | .spargeCommand p v => Sys2Proof.Machine.execSpargeCommand p v s
  | .spargeDone => Sys2Proof.Machine.execSpargeDone s
  | .noiseWord => Sys2Proof.Machine.execNoiseWord s
  | .restartTestStart src => Sys2Proof.Machine.execRestartTestStart src s
  | .conditionedBlockReady chan => Sys2Proof.Machine.execConditionedBlockReady chan s
  | .drbgGenerateStart chan => Sys2Proof.Machine.execDrbgGenerateStart chan s
  | .drbgGenerateDone chan => Sys2Proof.Machine.execDrbgGenerateDone chan s
  | .drbgReseedDone chan => Sys2Proof.Machine.execDrbgReseedDone chan s
  | .katConditioner p v => Sys2Proof.Machine.execKatConditioner p v s
  | .katChannel p v => Sys2Proof.Machine.execKatChannel p v s
  | .katStart => Sys2Proof.Machine.execKatStart s
  | .katDone pass => Sys2Proof.Machine.execKatDone pass s
  | .katBadTarget p v => Sys2Proof.Machine.execKatBadTarget p v s
  | .softDataRead p => Sys2Proof.Machine.execSoftDataRead p s
  | .sourceRestart p v => Sys2Proof.Machine.execSourceRestart p v s
  | .sourceDisable p v => Sys2Proof.Machine.execSourceDisable p v s
  | .sourceEnable p v => Sys2Proof.Machine.execSourceEnable p v s
  | .testPatternWrite p ctrl v => Sys2Proof.Machine.execTestPatternWrite p ctrl v s
  | .lcTransition p v => Sys2Proof.Machine.execLcTransition p v s
  | .lcBadOp p v => Sys2Proof.Machine.execLcBadOp p v s
  | .mctpControl e cmd data => Sys2Proof.Machine.execMctpControl e cmd data s
  | .spdmRequest e session r => Sys2Proof.Machine.execSpdmRequest e session r s
  | .getMeasurements e session index sign toSign => Sys2Proof.Machine.execGetMeasurements e session index sign toSign s
  | .keyExchange e x y toSign => Sys2Proof.Machine.execKeyExchange e x y toSign s
  | .ideKmQuery session stream => Sys2Proof.Machine.execIdeKmQuery session stream s
  | .ideKmKeyProg session stream set dir sub key => Sys2Proof.Machine.execIdeKmKeyProg session stream set dir sub key s
  | .ideKmKSetGo session stream set dir sub => Sys2Proof.Machine.execIdeKmKSetGo session stream set dir sub s
  | .ideKmKSetStop session stream set dir sub => Sys2Proof.Machine.execIdeKmKSetStop session stream set dir sub s
  | .setTenantKey e session payload => Sys2Proof.Machine.execSetTenantKey e session payload s
  | .eraseTenantKey e session payload fail => Sys2Proof.Machine.execEraseTenantKey e session payload fail s
  | .querySlot e session payload => Sys2Proof.Machine.execQuerySlot e session payload s
  | .seal p v => Sys2Proof.Machine.execSeal p v s
  | .unseal p v => Sys2Proof.Machine.execUnseal p v s
  | .cipherBadOp p v => Sys2Proof.Machine.execCipherBadOp p v s
  | .cipherDone fault => Sys2Proof.Machine.execCipherDone fault s
  | .cipherEntropyTimeout => Sys2Proof.Machine.execCipherEntropyTimeout s
  | .bypass => Sys2Proof.Machine.execBypass s
  | .idcode => Sys2Proof.Machine.execIdcode s
  | .samplePreload pads shift => Sys2Proof.Machine.execSamplePreload pads shift s
  | .extest pads => Sys2Proof.Machine.execExtest pads s
  | .jtagPrivate code => Sys2Proof.Machine.execJtagPrivate code s
  | .linkEnable p link v => Sys2Proof.Machine.execLinkEnable p link v s
  | .linkDisable p link v => Sys2Proof.Machine.execLinkDisable p link v s
  | .linkCmdLeave p link v => Sys2Proof.Machine.execLinkCmdLeave p link v s
  | .linkCmdRotate p link v => Sys2Proof.Machine.execLinkCmdRotate p link v s
  | .linkCmdReenable p link v => Sys2Proof.Machine.execLinkCmdReenable p link v s
  | .linkCmdBadOp p link v => Sys2Proof.Machine.execLinkCmdBadOp p link v s
  | .signalDetect link => Sys2Proof.Machine.execSignalDetect link s
  | .trainingPhaseDone link => Sys2Proof.Machine.execTrainingPhaseDone link s
  | .trainingTimeout link => Sys2Proof.Machine.execTrainingTimeout link s
  | .trainingRetry link => Sys2Proof.Machine.execTrainingRetry link s
  | .train link a corr => Sys2Proof.Machine.execTrain link a corr s
  | .dataMsg link a corr => Sys2Proof.Machine.execDataMsg link a corr s
  | .ack link a corr => Sys2Proof.Machine.execAck link a corr s
  | .nak link a corr => Sys2Proof.Machine.execNak link a corr s
  | .packetTransmit link vc => Sys2Proof.Machine.execPacketTransmit link vc s
  | .ackSend link => Sys2Proof.Machine.execAckSend link s
  | .creditReturn link => Sys2Proof.Machine.execCreditReturn link s
  | .replayTimeout link => Sys2Proof.Machine.execReplayTimeout link s
  | .handshakeStart link => Sys2Proof.Machine.execHandshakeStart link s
  | .hello link a corr => Sys2Proof.Machine.execHello link a corr s
  | .response link a corr => Sys2Proof.Machine.execResponse link a corr s
  | .challengeWindowClose link => Sys2Proof.Machine.execChallengeWindowClose link s
  | .confirm link a corr => Sys2Proof.Machine.execConfirm link a corr s
  | .confirmTimeout link => Sys2Proof.Machine.execConfirmTimeout link s
  | .backoffEnd link => Sys2Proof.Machine.execBackoffEnd link s
  | .keyRotate link => Sys2Proof.Machine.execKeyRotate link s
  | .keyUpd link a corr => Sys2Proof.Machine.execKeyUpd link a corr s
  | .leave link a corr => Sys2Proof.Machine.execLeave link a corr s
  | .leaveAck link a corr => Sys2Proof.Machine.execLeaveAck link a corr s
  | .leaveTimeout link => Sys2Proof.Machine.execLeaveTimeout link s
  | .linkSignalLoss link lanes => Sys2Proof.Machine.execLinkSignalLoss link lanes s
  | .linkRefclkLoss lanes => Sys2Proof.Machine.execLinkRefclkLoss lanes s
  | .errorRecord det => Sys2Proof.Machine.execErrorRecord det s
  | .aggregatorRecord => Sys2Proof.Machine.execAggregatorRecord s
  | .squallEndTest => Sys2Proof.Machine.execSquallEndTest s
  | .errFirstClear p page => Sys2Proof.Machine.execErrFirstClear p page s
  | .devFirstClear p => Sys2Proof.Machine.execDevFirstClear p s
  | .fenceClear p v => Sys2Proof.Machine.execFenceClear p v s
  | .injectSignal p page v => Sys2Proof.Machine.execInjectSignal p page v s
  | .injectCorrupt1 p page v => Sys2Proof.Machine.execInjectCorrupt1 p page v s
  | .injectCorrupt2 p page v => Sys2Proof.Machine.execInjectCorrupt2 p page v s
  | .injectBadMode p page v => Sys2Proof.Machine.execInjectBadMode p page v s
  | .retireCmd p v => Sys2Proof.Machine.execRetireCmd p v s
  | .retireTimeoutExpiry => Sys2Proof.Machine.execRetireTimeoutExpiry s
  | .coldReset cause => Sys2Proof.Machine.execColdReset cause s
  | .resetNRise pos recovery => Sys2Proof.Machine.execResetNRise pos recovery s
  | .warmReset p v => Sys2Proof.Machine.execWarmReset p v s
  | .pcieReset cause => Sys2Proof.Machine.execPcieReset cause s
  | .bootPhaseEnd phase sizeLog2 quad addr4 fails => Sys2Proof.Machine.execBootPhaseEnd phase sizeLog2 quad addr4 fails s
  | .blockReset p v fails => Sys2Proof.Machine.execBlockReset p v fails s
  | .calLoad p v => Sys2Proof.Machine.execCalLoad p v s
  | .calClear p v => Sys2Proof.Machine.execCalClear p v s
  | .calCommit p v => Sys2Proof.Machine.execCalCommit p v s
  | .calCommitDone => Sys2Proof.Machine.execCalCommitDone s
  | .calBadOp p v => Sys2Proof.Machine.execCalBadOp p v s
  | .calDataAccess p v => Sys2Proof.Machine.execCalDataAccess p v s
  | .getTid => Sys2Proof.Machine.execGetTid s
  | .getPldmVersion ty => Sys2Proof.Machine.execGetPldmVersion ty s
  | .getPldmTypes => Sys2Proof.Machine.execGetPldmTypes s
  | .getPldmCommands ty => Sys2Proof.Machine.execGetPldmCommands ty s
  | .getSensorReading sensor => Sys2Proof.Machine.execGetSensorReading sensor s
  | .getPdrRepositoryInfo => Sys2Proof.Machine.execGetPdrRepositoryInfo s
  | .getPdr handle => Sys2Proof.Machine.execGetPdr handle s
  | .setEventReceiver enable addr => Sys2Proof.Machine.execSetEventReceiver enable addr s
  | .setNumericSensorEnable sensor enable => Sys2Proof.Machine.execSetNumericSensorEnable sensor enable s
  | .requestUpdate => Sys2Proof.Machine.execRequestUpdate s
  | .firmwareTransfer offset bytes => Sys2Proof.Machine.execFirmwareTransfer offset bytes s
  | .firmwareVerify => Sys2Proof.Machine.execFirmwareVerify s
  | .activateFirmware => Sys2Proof.Machine.execActivateFirmware s
  | .cancelUpdate => Sys2Proof.Machine.execCancelUpdate s
  | .gpioFuncWrite p v => Sys2Proof.Machine.execGpioFuncWrite p v s
  | .tachWindow => Sys2Proof.Machine.execTachWindow s
  | .uartRxByte b => Sys2Proof.Machine.execUartRxByte b s
  | .uartRxdataRead p => Sys2Proof.Machine.execUartRxdataRead p s
  | .flashGrant => Sys2Proof.Machine.execFlashGrant s
  | .flashGrantLoss => Sys2Proof.Machine.execFlashGrantLoss s
  | .hiRead p r => Sys2Proof.Machine.execHiRead p r s
  | .noiseSample bits => Sys2Proof.Machine.execNoiseSample bits s
  | .programLoadDone k => Sys2Proof.Machine.execProgramLoadDone k s
  | .hostReadFailure fetch n => Sys2Proof.Machine.execHostReadFailure fetch n s
  | .postedCreditReturn => Sys2Proof.Machine.execPostedCreditReturn s
  | .pcieLinkTraining rate width flit => Sys2Proof.Machine.execPcieLinkTraining rate width flit s
  | .uncorrectableCodeword link => Sys2Proof.Machine.execUncorrectableCodeword link s
  | .ctExpiry task => Sys2Proof.Machine.execCtExpiry task s
  | .lcTransitionDone => Sys2Proof.Machine.execLcTransitionDone s
  | .keyBankWriteDone fail => Sys2Proof.Machine.execKeyBankWriteDone fail s
  | .hbmCatastrophicTemp stack => Sys2Proof.Machine.execHbmCatastrophicTemp stack s
  | .shortSyncPulse src => Sys2Proof.Machine.execShortSyncPulse src s
  | .tachRisingEdge n => Sys2Proof.Machine.execTachRisingEdge n s

end Sys2Proof.Machine
end

