-- ==== Sys2Proof/Safety.lean ====
section
/-! DEFINITION. What counts as a safe run: the machine's data structures keep the form that every statement assumes, and
no step stops. -/

namespace Sys2Proof.Machine

/-- The canonical form of a memory: a table of bytes, where an unlisted byte reads 0. -/
abbrev Memory.wf (m : Tab Byte) : Bool := Tab.wf (fun _ => 0) m

/-- Every byte memory and the register file keep the canonical form of Machine/Tab.lean: host memory by function, the
commons, HBM and the registers of BAR0. -/
def State.wfTabs (s : State) : Bool :=
  Tab.wf regReset s.regs && Tab.wf (fun _ => []) s.hostMem && s.hostMem.all (fun e => Memory.wf e.2) &&
    Memory.wf s.commons && Memory.wf s.hbm

/-- A step goes on. -/
def goesOn (s : State) : Prop := ∃ t, step s = .next t

end Sys2Proof.Machine
end

