-- ==== Sys2Proof/Certificates/Slice0/Obligations.lean ====
section
/-! DEFINITION. The statements for the provers. Each name says what it states, each docstring the rules it follows. -/

open Sys2Proof Sys2Proof.Machine

/-- A whole run message of a kind waits for a running split run of this chip, whose command and grist stand, and is addressed to the
chip or to all; u is the state with the message taken (R289, R290). -/
def Sys2Proof.Machine.State.Delivers (s : State) (kind : Nat) (m : RunMsg) (u : State) (r : Run) (sp : Span) (c : Command)
    (g : Grist) : Prop :=
  s.takeMsg kind = some (m, u) ∧ u.linkRun m.link = some (r, sp) ∧ u.runCmd r = some c ∧ u.grist r.load = some g ∧
    m.span = sp.spanId ∧ sp.lost.contains m.src = false ∧ (m.dst = 0xFF ∨ m.dst = sp.chip)

/-- The state in which a delivered message acts: a message to all has been passed on (R291). -/
def Sys2Proof.Machine.State.passedOn (u : State) (sp : Span) (m : RunMsg) : State := if m.dst = 0xFF then u.relayMsg sp m else u

/-- A step on a waiting command is that command's effect on the state with the rest of the queue. -/
def Obligations.StepTakesFront : Prop :=
  ∀ (c : Instr) (rest : List Instr) (s : State), s.pending = c :: rest → step s = exec c { s with pending := rest }

/-- With no command waiting one MCLK cycle passes: the model's choice, log entry 1. TIME advances by 5 on the PLL, by 10
on the 100 MHz clock, and stands still before the first lock, unless a register write that takes effect loads it. -/
def Obligations.IdleStepIsOneCycle : Prop :=
  (∀ s : State, s.pending = [] → step s = .next s.tick ∧ s.tick.pending = []) ∧
  (∀ s : State, s.hostPath.waiting = [] → s.mgrPath.waiting = [] →
    s.tick.time = (s.time + (s.cycleEnd s.cclkEdges.1).timeStep) % 0x10000000000000000) ∧
  (∀ s : State, s.gov.everLocked = false → s.timeStep = 0) ∧
  (∀ s : State, s.gov.everLocked = true → s.gov.locked = true → s.timeStep = 5) ∧
  (∀ s : State, s.gov.everLocked = true → s.gov.locked = false → s.timeStep = 10)

/-- Every command answers a next state: no command faults and none is refused. -/
def Obligations.EveryCommandAnswers : Prop :=
  ∀ (c : Instr) (s : State), ∃ t, exec c s = .next t

/-- No command changes the queue of waiting commands. -/
def Obligations.CommandsKeepTheQueue : Prop :=
  ∀ (c : Instr) (s t : State), exec c s = .next t → t.pending = s.pending

/-- The canonical form of the register file, host memory, commons and HBM is kept by every step. -/
def Obligations.StepKeepsCanonicalForm : Prop :=
  ∀ s t : State, s.wfTabs = true → step s = .next t → t.wfTabs = true

/-- The state after reset has the canonical form, no command waiting, and every register at its reset value. -/
def Obligations.ResetIsCanonical : Prop :=
  State.reset.wfTabs = true ∧ State.reset.pending = [] ∧ State.reset.time = 0 ∧ (∀ a, State.reset.reg a = regReset a) ∧
    (∀ q, State.reset.queue q = Queue.reset) ∧ State.reset.jobs = [] ∧ State.reset.cmds = []

/-- R22, R24: a read of a _LO register captures the other half for the same path, and the next read of the _HI register takes it; with no
capture it takes the live value. A read of BEST_EN_0 captures the other three words (R216). A read does not pass its path's earlier writes
(R984): it acts in the turn of its path, in which no event of the cycle is lost to it. -/
def Obligations.PairReadsAreCaptured : Prop :=
  (∀ (p : Path) (a : Nat) (s u : State), u = s.turn p → isPairLo a = true → badReason a 4 = none →
    ∃ t, exec (.loReadCapture p (.bar0 a)) s = .next t ∧ (t.path p).lastRead = [BitVec.ofNat 32 (u.counted.peek p a)] ∧
      t.capture p (a + 4) = some (BitVec.ofNat 32 (u.counted.peek p (a + 4))) ∧ (∀ q, q ≠ p → t.path q = u.path q) ∧
      t = { u with hostPath := t.hostPath, mgrPath := t.mgrPath }) ∧
  (∀ (p : Path) (a : Nat) (s u : State), u = s.turn p → isBest0 a = true → badReason a 4 = none →
    ∃ t, exec (.loReadCapture p (.bar0 a)) s = .next t ∧ (t.path p).lastRead = [BitVec.ofNat 32 (u.counted.peek p a)] ∧
      (∀ i, 1 ≤ i → i ≤ 3 → t.capture p (a + 4 * i) = some (BitVec.ofNat 32 (u.counted.peek p (a + 4 * i)))) ∧
      (∀ q, q ≠ p → t.path q = u.path q) ∧ t = { u with hostPath := t.hostPath, mgrPath := t.mgrPath }) ∧
  (∀ (p : Path) (a : Nat) (w : Word) (s u : State), u = s.turn p → isCaptured a = true → isPairLo a = false → isBest0 a = false →
    badReason a 4 = none → u.capture p a = some w →
    ∃ t, exec (.hiRead p (.bar0 a)) s = .next t ∧ (t.path p).lastRead = [w] ∧ t.capture p a = none ∧
      (∀ q, q ≠ p → t.path q = u.path q) ∧ t = { u with hostPath := t.hostPath, mgrPath := t.mgrPath }) ∧
  (∀ (p : Path) (a : Nat) (s u : State), u = s.turn p → isCaptured a = true → isPairLo a = false → isBest0 a = false →
    badReason a 4 = none → u.capture p a = none →
    ∃ t, exec (.hiRead p (.bar0 a)) s = .next t ∧ (t.path p).lastRead = [BitVec.ofNat 32 (u.counted.peek p a)] ∧
      (∀ q, q ≠ p → t.path q = u.path q) ∧ t = { u with hostPath := t.hostPath, mgrPath := t.mgrPath }) ∧
  (∀ (func q o : Nat) (s : State), o = 0x010 ∨ o = 0x018 → s.dbReaches func q = true →
    ∃ t, exec (.loReadCapture .host (.db func q o)) s = .next t ∧ t.hostPath.lastRead = [BitVec.ofNat 32 (s.dbPeek q o)] ∧
      t.capture .host (dbKey q (o + 4)) = some (BitVec.ofNat 32 (s.dbPeek q (o + 4))) ∧ t = { s with hostPath := t.hostPath }) ∧
  (∀ (func q o : Nat) (w : Word) (s : State), o = 0x014 ∨ o = 0x01C → s.dbReaches func q = true →
    s.capture .host (dbKey q o) = some w →
    ∃ t, exec (.hiRead .host (.db func q o)) s = .next t ∧ t.hostPath.lastRead = [w] ∧ t.capture .host (dbKey q o) = none ∧
      t = { s with hostPath := t.hostPath }) ∧
  (∀ (func q o : Nat) (s : State), o = 0x014 ∨ o = 0x01C → s.dbReaches func q = true → s.capture .host (dbKey q o) = none →
    ∃ t, exec (.hiRead .host (.db func q o)) s = .next t ∧ t.hostPath.lastRead = [BitVec.ofNat 32 (s.dbPeek q o)] ∧
      t = { s with hostPath := t.hostPath })

/-- R25, R26: a write of a writable _HI register is held, and the write of its _LO register from the same path commits both; with nothing
held it commits the lower half alone. R984, R985: any other write waits on its path and takes effect in the register file's next cycle,
in the order of arrival; a path with no write waiting is in its turn. -/
def Obligations.PairWritesAreHeld : Prop :=
  (∀ (p : Path) (s : State), (s.path p).waiting = [] → s.turn p = s) ∧
  (∀ (p : Path) (a : Nat) (v : Word) (s u : State), u = s.turn p → hiWritable p a = true →
    ∃ t, exec (.hiWriteHold p (.bar0 a) v) s = .next t ∧ Tab.get (fun _ => none) (t.path p).holds (a - 4) = some v ∧
      (∀ q, q ≠ p → t.path q = u.path q) ∧ t = { u with hostPath := t.hostPath, mgrPath := t.mgrPath }) ∧
  (∀ (p : Path) (a : Nat) (v w : Word) (s u : State), u = s.turn p → isPairLo a = true → hiWritable p a = false → takesWrite p a = true →
    Tab.get (fun _ => none) (u.path p).holds a = some w →
    exec (.loWriteCommit p (.bar0 a) v) s = .next
      ((u.updPath p (fun x => { x with holds := Tab.put (fun _ => none) a none x.holds })).writeOne bootExt
        { path := p, addr := a, value := v.toNat, upper := some w.toNat })) ∧
  (∀ (p : Path) (a : Nat) (v : Word) (s u : State), u = s.turn p → isPairLo a = true → hiWritable p a = false → takesWrite p a = true →
    Tab.get (fun _ => none) (u.path p).holds a = none →
    exec (.loWriteCommit p (.bar0 a) v) s = .next
      ((u.updPath p (fun x => { x with holds := Tab.put (fun _ => none) a none x.holds })).writeOne bootExt
        { path := p, addr := a, value := v.toNat, upper := none })) ∧
  (∀ (p : Path) (a : Nat) (v : Word) (s : State), isPairLo a = true → takesWrite p a = false →
    exec (.loWriteCommit p (.bar0 a) v) s = .next (s.turn p)) ∧
  (∀ (func q o : Nat) (v : Word) (s : State), o = 0x014 ∨ o = 0x01C →
    exec (.hiWriteHold .host (.db func q o) v) s = .next (s.dbWrite func q o v)) ∧
  (∀ (func q o : Nat) (v : Word) (s : State), o = 0x010 ∨ o = 0x018 →
    exec (.loWriteCommit .host (.db func q o) v) s = .next (s.dbWrite func q o v)) ∧
  (∀ (p : Path) (a : Nat) (v : Word) (s : State), ∃ t, exec (.registerWrite p (.bar0 a) v) s = .next t ∧
    (t.path p).waiting = (s.path p).waiting ++ [(a, v)] ∧ (∀ q, q ≠ p → t.path q = s.path q) ∧
    t = { s with hostPath := t.hostPath, mgrPath := t.mgrPath }) ∧
  (∀ (func q o : Nat) (v : Word) (s : State), exec (.registerWrite .host (.db func q o) v) s = .next (s.dbWrite func q o v)) ∧
  (∀ (a : Nat) (v : Word) (ws : List (Nat × Word)) (s : State), s.hostPath.waiting = (a, v) :: ws → s.mgrPath.waiting = [] →
    badReason a 4 = none →
    s.regCycle = (s.updPath .host (fun x => { x with waiting := ws })).writeAlone bootExt .host a v.toNat) ∧
  (∀ (a : Nat) (v : Word) (ws : List (Nat × Word)) (s : State), s.mgrPath.waiting = (a, v) :: ws → s.hostPath.waiting = [] →
    badReason a 4 = none →
    s.regCycle = (s.updPath .manager (fun x => { x with waiting := ws })).writeAlone bootExt .manager a v.toNat) ∧
  (∀ (p : Path) (k : PageKind) (i a v : Nat) (r : RegRow) (s : State), takesWrite p a = true → hiWritable p a = false →
    isPairLo a = false → pageOf (a / 0x1000) = some (k, i) → regRow a = some r →
    s.writeAlone bootExt p a v = s.applyWrite bootExt p k i a v r)

/-- BAD_ACCESS (R982): the first reason that applies is recorded and counted, and a bad read returns zeros; a good access of 8 bytes acts
as two words, the upper first for a write, the lower first for a read (R981). The manager's READ and WRITE messages, and one that fails its
PEC (R991, R992, R1020). The in-band interrupt (R996). -/
def Obligations.BadAccessAndManagerPath : Prop :=
  (∀ (data : Option (List Byte)) (addr len : Nat) (s u : State), u = s.turn .host → len ≠ 4 → len ≠ 8 →
    exec (.badAccess data addr len) s = .next (if data.isSome then u.noteBad .host 1 addr
      else (u.noteBad .host 1 addr).pathRead .host (List.replicate (ceilDiv len 4) 0))) ∧
  (∀ (data : Option (List Byte)) (addr len : Nat) (s u : State), u = s.turn .host → len = 4 ∨ len = 8 → addr % len ≠ 0 →
    exec (.badAccess data addr len) s = .next (if data.isSome then u.noteBad .host 2 addr
      else (u.noteBad .host 2 addr).pathRead .host (List.replicate (ceilDiv len 4) 0))) ∧
  (∀ (data : Option (List Byte)) (addr len : Nat) (s u : State), u = s.turn .host → len = 4 ∨ len = 8 → addr % len = 0 →
    pageOf (addr / 0x1000) = none →
    exec (.badAccess data addr len) s = .next (if data.isSome then u.noteBad .host 0 addr
      else (u.noteBad .host 0 addr).pathRead .host (List.replicate (ceilDiv len 4) 0))) ∧
  (∀ (addr : Nat) (data : List Byte) (s : State), addr % 8 = 0 → (pageOf (addr / 0x1000)).isSome = true →
    ∃ t, exec (.badAccess (some data) addr 8) s = .next t ∧ t.hostPath.waiting = s.hostPath.waiting ++
      [(addr + 4, BitVec.ofNat 32 (leAt data 4 4)), (addr, BitVec.ofNat 32 (leAt data 0 4))] ∧ t = { s with hostPath := t.hostPath }) ∧
  (∀ (addr : Nat) (s u v : State), u = (s.turn .host).busRead .host addr → v = u.busRead .host (addr + 4) →
    addr % 8 = 0 → (pageOf (addr / 0x1000)).isSome = true →
    exec (.badAccess none addr 8) s = .next (v.pathRead .host [BitVec.ofNat 32 (u.lastWord .host), BitVec.ofNat 32 (v.lastWord .host)])) ∧
  (∀ (via : Carrier) (msg : List Byte) (s : State), s.mgrTakes via msg = true → leAt msg 3 1 ≠ 2 → mgrCheck via msg = 0 →
    ∃ u ws, (List.range (leAt msg 5 1)).foldl (fun (x : State × List Word) j =>
        ((x.1.busRead .manager (leAt msg 8 4 + 4 * j)),
          x.2 ++ [BitVec.ofNat 32 ((x.1.busRead .manager (leAt msg 8 4 + 4 * j)).lastWord .manager)])) (s.turn .manager, []) = (u, ws) ∧
      ws.length = leAt msg 5 1 ∧
      exec (.mgrRegisterRead via msg) s = .next (u.mgrSend (mgrResponse msg 0 (ws.flatMap (fun w => natLE 4 w.toNat))))) ∧
  (∀ (via : Carrier) (msg : List Byte) (s : State), s.mgrTakes via msg = true → leAt msg 3 1 ≠ 2 → mgrCheck via msg ≠ 0 →
    exec (.mgrRegisterRead via msg) s = .next (s.mgrSend (mgrResponse msg (mgrCheck via msg) []))) ∧
  (∀ (via : Carrier) (msg : List Byte) (s : State), s.mgrTakes via msg = true → leAt msg 3 1 ≠ 1 → mgrCheck via msg ≠ 0 →
    exec (.mgrRegisterWrite via msg) s = .next (s.mgrSend (mgrResponse msg (mgrCheck via msg) []))) ∧
  (∀ (via : Carrier) (msg : List Byte) (s : State), s.mgrTakes via msg = true → leAt msg 3 1 ≠ 1 → mgrCheck via msg = 0 →
    ∃ t, exec (.mgrRegisterWrite via msg) s = .next t ∧ t.mgrOut = s.mgrOut ++ [mgrResponse msg 0 []] ∧
      t.mgrPath.waiting = s.mgrPath.waiting ++ (List.range (leAt msg 5 1)).map (fun j =>
        (leAt msg 8 4 + 4 * j, BitVec.ofNat 32 (leAt msg (12 + 4 * j) 4))) ∧
      t = { s with mgrPath := t.mgrPath, mgrOut := t.mgrOut }) ∧
  (∀ (msg : List Byte) (s : State), exec (.mgrRegisterRead (.i3c false) msg) s = .next s ∧ exec (.mgrRegisterWrite (.i3c false) msg) s = .next s) ∧
  (∀ s : State, s.ibi.held02 = true → (∀ t0, s.ibi.lastRaised = some t0 → t0 + s.ibiGap ≤ s.time) → exec .ibiRaise s = .next { s with ibi :=
    { s.ibi with held02 := false, lastRaised := some s.time, raised := 2 :: s.ibi.raised } }) ∧
  (∀ s : State, s.ibi.held01 = true → s.ibi.held02 = false → (∀ t0, s.ibi.lastRaised = some t0 → t0 + s.ibiGap ≤ s.time) →
    exec .ibiRaise s = .next { s with ibi :=
      { s.ibi with held01 := false, lastRaised := some s.time, raised := 1 :: s.ibi.raised } }) ∧
  (∀ (t0 : Nat) (s : State), s.ibi.lastRaised = some t0 → s.time < t0 + s.ibiGap → exec .ibiRaise s = .next s)

/-- R1004, R1010, R1012: GBANK_SNAP copies the sixteen counters and the epoch number; GBANK_CLEAR writes GBANK_CTRL, and with CLEAR set
zeroes the sixteen counters; CTR_CLEAR writes a page's CTRL, and with CTR_CLEAR set zeroes its four counters. Nothing else changes. -/
def Obligations.CounterCommandsComplete : Prop :=
  (∀ (p : Path) (v : Word) (s u : State), u = s.turn p → bit v.toNat 0 = true → ∃ t, exec (.gbankSnap p v) s = .next t ∧
    (∀ k, k < 16 → t.rg64 (Reg.CNT_SNAP_n_LO + 8 * k) = u.rg64 (Reg.CNT_GCTR_0_LO + 8 * k)) ∧
    t.rg Reg.CNT_SNAP_EPOCH = u.rg Reg.GOV_EPOCH_NUM_LO ∧
    (∀ a, (a < Reg.CNT_SNAP_n_LO ∨ Reg.CNT_SNAP_n_LO + 128 ≤ a) → a ≠ Reg.CNT_SNAP_EPOCH → t.reg a = u.reg a) ∧
    t = { u with regs := t.regs }) ∧
  (∀ (p : Path) (v : Word) (s u : State), u = s.turn p → ∃ t, exec (.gbankClear p v) s = .next t ∧
    t.rg Reg.CNT_GBANK_CTRL = v.toNat &&& 5 ∧
    (∀ k, k < 16 → t.rg64 (Reg.CNT_GCTR_0_LO + 8 * k) = if bit v.toNat 1 then 0 else u.rg64 (Reg.CNT_GCTR_0_LO + 8 * k)) ∧
    (∀ a, (a < Reg.CNT_GCTR_0_LO ∨ Reg.CNT_GCTR_0_LO + 128 ≤ a) → a ≠ Reg.CNT_GBANK_CTRL → t.reg a = u.reg a) ∧
    t = { u with regs := t.regs }) ∧
  (∀ (p : Path) (page : Nat) (v : Word) (s u : State), u = s.turn p → (pageOf page).isSome = true →
    ∃ t, exec (.ctrClear p page v) s = .next t ∧ t.rf (pgReg page Reg.H_CTRL) 0 0 = fld v.toNat 0 0 ∧
      (∀ k, k < 4 → t.rg (pgReg page (Reg.H_CTR_0 + 4 * k)) = if bit v.toNat 1 then 0 else u.rg (pgReg page (Reg.H_CTR_0 + 4 * k))) ∧
      (∀ a, (a < pgReg page Reg.H_CTR_0 ∨ pgReg page Reg.H_CTR_0 + 16 ≤ a) → a ≠ pgReg page Reg.H_CTRL → t.reg a = u.reg a) ∧
      t = { u with regs := t.regs })

/-- R577 and R576: a valid write of a doorbell moves the index; SQ_TAIL_DB makes the new descriptors visible with one
arrival time. Nothing else changes, but for the event that the write raises. -/
def Obligations.DoorbellsMoveTheirIndex : Prop :=
  (∀ (func q : Nat) (v : Word) (s : State), s.dbOpen func q = true → ((s.queue q).state = .enabled ∨ (s.queue q).state = .draining) →
    fld v.toNat 15 0 < 1 <<< (s.queue q).sqLog →
    modDist (fld v.toNat 15 0) (s.queue q).tS (1 <<< (s.queue q).sqLog) ≤
      modDist ((s.queue q).hS + (1 <<< (s.queue q).sqLog) - 1) (s.queue q).tS (1 <<< (s.queue q).sqLog) →
    ∃ t, exec (.sqTailDb func q 4 v) s = .next t ∧
      t.queue q = { s.queue q with tS := fld v.toNat 15 0, visible := ((s.queue q).visible ++
        List.replicate (modDist (fld v.toNat 15 0) (s.queue q).tS (1 <<< (s.queue q).sqLog)) { arrival := s.time, inline := false }) } ∧
      (∀ x, x ≠ q → t.queue x = s.queue x) ∧
      t.events = s.events ++ [{ code := 0x0900, page := pgHost, src := { queue := some q }, count := 1 }] ∧
      t = { s with queues := t.queues, events := t.events }) ∧
  (∀ (func q : Nat) (v : Word) (s : State), s.dbOpen func q = true →
    ((s.queue q).state = .enabled ∨ (s.queue q).state = .draining ∨ (s.queue q).state = .quiescing ∨ (s.queue q).state = .error) →
    fld v.toNat 15 0 < 1 <<< (s.queue q).cqLog →
    modDist (fld v.toNat 15 0) (s.queue q).hC (1 <<< (s.queue q).cqLog) ≤ modDist (s.queue q).tC (s.queue q).hC (1 <<< (s.queue q).cqLog) →
    ∃ t, exec (.cqHeadDb func q 4 v) s = .next t ∧ t.queue q = { s.queue q with hC := fld v.toNat 15 0 } ∧
      (∀ x, x ≠ q → t.queue x = s.queue x) ∧
      t.events = s.events ++ [{ code := 0x0900, page := pgHost, src := { queue := some q }, count := 1 }] ∧
      t = { s with queues := t.queues, events := t.events })

/-- INLINE_WRITE (R596 to R602): bytes enter a FAST queue's staging buffer, those outside it are ignored; the write that completes the
buffer submits the descriptor, or is dropped where the queue is full; a queue that is not FAST drops its writes with NOT_FAST. R618 to
R620, R757: RING_CFG.EN moves a queue between DISABLED, ENABLED and QUIESCING, and enables none of a region that is not enabled. R622: a
write of Q_OWNER assigns or unassigns a queue, or is dropped and recorded. -/
def Obligations.QueueConfiguration : Prop :=
  (∀ (func q off : Nat) (bs : List Byte) (st : Tab (Option Byte)) (s : State), s.dbOpen func q = true →
    ((s.queue q).state = .enabled ∨ (s.queue q).state = .draining) → s.qClass q = 0 →
    st = (((List.range bs.length).map (fun i => off + i)).zip bs).foldl (fun m (e : Nat × Byte) =>
      if 0x100 ≤ e.1 ∧ e.1 < 0x180 then Tab.put (fun _ => none) (e.1 - 0x100) (some e.2) m else m) (s.queue q).staging →
    (st.length < 128 → exec (.inlineWrite func q off bs) s = .next (s.setQueue q { s.queue q with staging := st })) ∧
    (128 ≤ st.length → ((s.queue q).tS + 1) % (1 <<< (s.queue q).sqLog) = (s.queue q).hS →
      exec (.inlineWrite func q off bs) s = .next ((s.setQueue q { s.queue q with staging := [] }).dbDrop q 5)) ∧
    (128 ≤ st.length → ((s.queue q).tS + 1) % (1 <<< (s.queue q).sqLog) ≠ (s.queue q).hS → (s.queue q).freeSlots ≠ 0 →
      ∃ u f, u = s.setQueue q { s.queue q with
          staging := [], tS := ((s.queue q).tS + 1) % (1 <<< (s.queue q).sqLog), reserved := (s.queue q).reserved + 1
          visible := (s.queue q).visible ++ [{ arrival := s.time, inline := true }] } ∧
        f = { queue := q, slot := (s.queue q).tS, arrival := s.time, inline := true, head := st.map (fun e => e.2.getD 0), chain := []
              joined := [], badChain := false } ∧
        exec (.inlineWrite func q off bs) s = .next (u.takeUp f ((u.freeEntry true).getD (4096 + u.nextId))))) ∧
  (∀ (func q off : Nat) (bs : List Byte) (s : State), s.dbOpen func q = true →
    ((s.queue q).state = .enabled ∨ (s.queue q).state = .draining) → s.qClass q ≠ 0 →
    exec (.inlineWrite func q off bs) s = .next (s.dbDrop q 6)) ∧
  (∀ (func q : Nat) (v : Word) (s : State), s.dbReaches func q = true → (s.queue q).state = .disabled → s.ready = true →
    s.rgnEnabled (s.qRegion q) = true → 4 ≤ fld v.toNat 7 4 → 4 ≤ fld v.toNat 3 0 →
    exec (.ringEnable func q v) s = .next (s.setQueue q { s.queue q with
      state := .enabled, sqLog := fld v.toNat 7 4, cqLog := fld v.toNat 3 0, tS := 0, hS := 0, tC := 0, hC := 0, phase := true
      visible := [] })) ∧
  (∀ (func q : Nat) (v : Word) (s : State), s.dbReaches func q = true → (s.queue q).state = .disabled →
    (s.ready = false ∨ s.rgnEnabled (s.qRegion q) = false ∨ fld v.toNat 7 4 < 4 ∨ fld v.toNat 3 0 < 4) →
    exec (.ringEnable func q v) s = .next (s.dbDrop q 7)) ∧
  (∀ (func q : Nat) (v : Word) (s u : State), s.dbReaches func q = true →
    ((s.queue q).state = .enabled ∨ (s.queue q).state = .draining ∨ (s.queue q).state = .error) →
    u = (if fld v.toNat 7 4 = (s.queue q).sqLog ∧ fld v.toNat 3 0 = (s.queue q).cqLog then s else s.dbDrop q 7) →
    exec (.ringDisable func q v) s = .next
      ((u.setQueue q { u.queue q with state := .quiescing, staging := [] }).quiesced q)) ∧
  (∀ (func q : Nat) (v : Word) (s : State), s.dbReaches func q = true → (s.queue q).state = .disabled →
    exec (.ringDisable func q v) s = .next
      (s.setQueue q { s.queue q with sqLog := fld v.toNat 7 4, cqLog := fld v.toNat 3 0 })) ∧
  (∀ (p : Path) (q : Nat) (v : Word) (s u : State), u = s.turn p → q < 1024 →
    ((u.queue q).state = .unassigned ∨ (u.queue q).state = .disabled) →
    (bit (v.toNat &&& 0x833F0F00) 31 = false ∨ fld (v.toNat &&& 0x833F0F00) 25 24 ≠ 0 ∨
      (u.qAssigned q = true ∧ u.qClass q = 0) ∨ u.fastCount < 64) →
    ∃ t, exec (.qOwnerWrite p q v) s = .next t ∧ t.rg (qReg q Reg.QR_Q_OWNER) = v.toNat &&& 0x833F0F00 ∧
      t.queue q = { u.queue q with state := if bit (v.toNat &&& 0x833F0F00) 31 then .disabled else .unassigned } ∧
      (∀ x, x ≠ q → t.queue x = u.queue x) ∧ (∀ a, a ≠ qReg q Reg.QR_Q_OWNER → t.reg a = u.reg a) ∧
      t = { u with queues := t.queues, regs := t.regs }) ∧
  (∀ (p : Path) (q : Nat) (v : Word) (s u : State), u = s.turn p → q < 1024 →
    (u.queue q).state ≠ .unassigned → (u.queue q).state ≠ .disabled →
    exec (.qOwnerWrite p q v) s = .next (u.wr Reg.HOST_QCFG_ERR ((q <<< 16) ||| 2)))

/-- FLR, FLR_PF, FLR_COMPLETE and HOST_IDE_FAIL (R611 to R613, R630). HOST_READ_FAILURE and PCIE_LINK_TRAINING (R568,
R630). -/
def Obligations.FunctionResetsAndHostLink : Prop :=
  (∀ (vf : Nat) (s : State), 1 ≤ vf → vf ≤ 63 →
    exec (.flr vf) s = .next (((s.bump Reg.HOST_FLR_COUNT 1).event 0x0906 pgHost).flrFunc vf)) ∧
  (∀ s u : State, u = (List.range 64).foldl (fun s f => s.flrFunc f) ((s.bump Reg.HOST_FLR_COUNT 1).event 0x0906 pgHost) →
    exec .flrPf s = .next { u with hif := { u.hif with vfEnable := false } }) ∧
  (∀ (func t0 : Nat) (mine : List Job) (s u v : State), Tab.get (fun _ => none) s.hif.flr func = some t0 →
    mine = s.jobs.filter (fun j => (s.funcQueues func).contains j.queue) →
    mine.any (fun j => decide (j.phase ≠ .done) || s.jobBusy j.entry) = false →
    u = mine.foldl (fun s j => s.dropJob j.entry) s →
    v = (s.funcQueues func).foldl (fun s q => s.updQueue q (fun k => { k with state := .disabled, reserved := 0 })) u →
    exec (.flrComplete func) s = .next { v with hif := { v.hif with flr := Tab.put (fun _ => none) func none v.hif.flr } }) ∧
  (∀ (func t0 : Nat) (s : State), Tab.get (fun _ => none) s.hif.flr func = some t0 → s.jobs = [] →
    ∃ t, exec (.flrComplete func) s = .next t ∧ (∀ q, q ∈ s.funcQueues func → (t.queue q).state = .disabled) ∧
      (∀ q, q ∉ s.funcQueues func → t.queue q = s.queue q) ∧ t.hif.flr = Tab.put (fun _ => none) func none s.hif.flr ∧
      t = { s with hif := t.hif, queues := t.queues }) ∧
  (∀ s : State, exec .hostIdeFail s = .next ((({ s with hif := { s.hif with ideBroken := true, ideSecure := false } }.wf
    Reg.HOST_LINK_STATE 17 17 0).raiseErr pgHost 0x0903 0).failJobs (fun j => j.needsHost) St.MEMORY_FAULT)) ∧
  (∀ (q : Nat) (s : State), ((s.queue q).state = .enabled ∨ (s.queue q).state = .draining) →
    exec (.hostReadFailure true q) s = .next ((s.setQueue q { s.queue q with state := .error, dbErr := 8 }).raiseErr pgHost 0x0901 q)) ∧
  (∀ (j : Job) (s : State), s.job j.entry = some j → j.phase ≠ .done → exec (.hostReadFailure false j.entry) s = .next
    ((s.raiseErr pgHost 0x0902 j.queue).failJobs (fun x => x.entry == j.entry) St.MEMORY_FAULT)) ∧
  (∀ (rate width : Nat) (flit : Bool) (s : State), rate ≤ 6 → width ≤ 16 → ∃ t, exec (.pcieLinkTraining rate width flit) s = .next t ∧
    t.rf Reg.HOST_LINK_STATE 3 0 = rate ∧ t.rf Reg.HOST_LINK_STATE 12 8 = (if rate = 0 then 0 else width) ∧
    t.rf Reg.HOST_LINK_STATE 16 16 = b2n (flit && rate != 0) ∧ t.rf Reg.HOST_LINK_STATE 31 17 = s.rf Reg.HOST_LINK_STATE 31 17 ∧
    (∀ a, a ≠ Reg.HOST_LINK_STATE → t.reg a = s.reg a) ∧ t = { s with regs := t.regs })

/-- FETCH and the take-up of a fetched descriptor by opcode: ENGINE, PROGRAM, CHAIN, ARM, FIRE (R581 to R593, R637).
ENGINE_PAYLOAD_READ (R588, R1156): a block without defect makes the job wait with its T_first, its allowance and its stop
time, and its first feasibility test refuses it as late or lets it wait; a block that cannot be read ends it with MEMORY_FAULT. -/
def Obligations.FetchAndTakeUp : Prop :=
  (∀ s u : State, s.ready = true → s.fatal = false → s.pendingReset = false → s.hif.ideBroken = false →
    u = (s.fetchOrder.filter (fun q => decide ((s.queue q).state = .enabled) || decide ((s.queue q).state = .draining))).foldl
      State.fetchQueue s → exec .fetch s = .next u.takeUpReserved) ∧
  (∀ (f : Fetched) (fs : List Fetched) (e : Nat) (s : State), s.fatal = false → s.pendingReset = false → f.chain = [] →
    s.freeEntry false = some e → popFetched 1 s.fetched = some (f, fs) →
    exec .engineCmd s = .next ({ s with fetched := fs }.takeUp f e)) ∧
  (∀ (f : Fetched) (fs : List Fetched) (e : Nat) (s : State), s.fatal = false → s.pendingReset = false → f.chain = [] →
    s.freeEntry false = some e → popFetched 2 s.fetched = some (f, fs) →
    exec .programCmd s = .next ({ s with fetched := fs }.takeUp f e)) ∧
  (∀ (f : Fetched) (fs : List Fetched) (e : Nat) (s : State), s.fatal = false → s.pendingReset = false → f.chain = [] →
    s.freeEntry false = some e → popFetched 4 s.fetched = some (f, fs) →
    exec (.armCmd none) s = .next ({ s with fetched := fs }.takeUp f e)) ∧
  (∀ (f : Fetched) (fs : List Fetched) (e : Nat) (s : State), s.fatal = false → s.pendingReset = false → f.chain = [] →
    s.freeEntry false = some e → popFetched 5 s.fetched = some (f, fs) →
    exec .fireCmd s = .next ({ s with fetched := fs }.takeUp f e)) ∧
  (∀ (f : Fetched) (fs : List Fetched) (c : List Byte) (cs : List (List Byte)) (s : State), s.fetched = f :: fs → f.chain = c :: cs →
    exec .chainCmd s = .next { s with fetched :=
      { f with chain := cs, joined := f.joined ++ [c], badChain := f.badChain || decide (dOpcode c ≠ 3) } :: fs }) ∧
  (∀ (j : Job) (s : State), s.job j.entry = some j → j.kind = .arm → j.phase = .running →
    exec (.armCmd (some j.entry)) s = .next (s.armSlot j)) ∧
  (∀ (j : Job) (kiln : List Byte) (s : State), s.armCheck j.region j.func j.payload = .ok kiln → rbDefaultKiln j.payload = true →
    s.armSlot j = (s.updQueue j.queue (fun q => { q with arms := (Tab.put (fun _ => none) (dTarget j.desc)
      (some { block := j.payload, kiln := kiln, tFirst := s.armTFirst j.payload }) q.arms) })).finishJob j.entry St.OK true 0 0 0) ∧
  (∀ (j : Job) (e : Engine) (b : List Byte) (s u v : State), s.job j.entry = some j → j.phase = .payload → j.kind = .engine e →
    u = (if dPaySpace j.desc = spHost then s.backlogLess 128 else s).noteRead (some j.entry) (dPaySpace j.desc) (dPayAddr j.desc) 128 →
    u.readSpace j.region j.func (dPaySpace j.desc) (dPayAddr j.desc) 128 = some b →
    u.takeUpDefect (j.asCommand e b [] false) = none →
    v = u.updJob j.entry (fun j => { j with
      payload := b, tFirst := u.cmdTFirst (j.asCommand e b [] false), hostBytes := u.cmdHostBytes (j.asCommand e b [] false)
      allowance := allowance (blockResult e b).1 (blockResult e b).2
      stop := stopTime j.deadline engineMargin (allowance (blockResult e b).1 (blockResult e b).2), phase := .waiting }) →
    ∃ t, exec (.enginePayloadRead j.entry) s = .next t ∧
      (t = v ∨ ∃ j', v.job j.entry = some j' ∧ t = (v.event 0x0702 pgDispatch j'.ev).refuseJob j.entry St.LATE_ON_ARRIVAL)) ∧
  (∀ (j : Job) (s u : State), s.job j.entry = some j → j.phase = .payload →
    u = (if dPaySpace j.desc = spHost then s.backlogLess 128 else s).noteRead (some j.entry) (dPaySpace j.desc) (dPayAddr j.desc) 128 →
    u.readSpace j.region j.func (dPaySpace j.desc) (dPayAddr j.desc) 128 = none →
    exec (.enginePayloadRead j.entry) s = .next (u.refuseJob j.entry St.MEMORY_FAULT))

/-- GUST_LANE_ENTRY, COMPLETION_RECORD, POSTED_CREDIT_RETURN and GUARD_UPDATE (R603 to R609, R624, R70, R644). JOB_START (R641, R693): it
asks for the selection, which the cycle's end makes; where the first waiting job fits its budgets and is feasible, that job starts.
LATE_BEFORE_START (R45) ends an infeasible waiting job. -/
def Obligations.GustLaneRecordsAndStarts : Prop :=
  (∀ (j : Job) (c : Command) (s u : State), s.job j.entry = some j → j.phase = .lane → j.kind = .fire → s.laneDue j = true →
    s.laneReady j = true → s.laneFeasible j = true → s.fits j = true → s.laneOpen j = true →
    u = (((((s.updJob j.entry (fun j => { j with gust := true })).bump Reg.HOST_GUST_STARTS 1).event 0x0902 pgHost j.ev).event
      0x0701 pgDispatch j.ev).reserve j.entry).startJob j.entry → u.cmds.getLast? = some c →
    exec (.gustLaneEntry j.entry) s = .next (u.annealIssue c)) ∧
  (∀ (j : Job) (s : State), s.job j.entry = some j → j.phase = .lane → j.kind = .fire → s.laneDue j = true → s.laneReady j = true →
    s.laneFeasible j = false →
    exec (.gustLaneEntry j.entry) s = .next ((s.event 0x0702 pgDispatch j.ev).refuseJob j.entry St.LATE_ON_ARRIVAL)) ∧
  (∀ (j : Job) (s : State), s.job j.entry = some j → j.phase = .lane → j.kind = .fire → s.laneDue j = true → s.laneFeasible j = true →
    (s.laneReady j = false ∨ s.fits j = false ∨ s.laneOpen j = false) →
    exec (.gustLaneEntry j.entry) s = .next (s.gustFallback j)) ∧
  (∀ (j : Job) (s : State), s.job j.entry = some j → j.phase = .done → s.jobBusy j.entry = false → s.hif.held = [] →
    (s.queue j.queue).state ≠ .flr → s.hif.noRecords = false → s.hif.ideBroken = false →
    exec (.completionRecord j.entry true) s = .next (s.issueRecord j)) ∧
  (∀ (j : Job) (s : State), s.job j.entry = some j → j.phase = .done → s.jobBusy j.entry = false → s.hif.held = [] →
    (s.queue j.queue).state ≠ .flr → s.hif.noRecords = false →
    exec (.completionRecord j.entry false) s = .next { s with hif := { s.hif with held := [j.entry] } }) ∧
  (∀ (j : Job) (s : State), s.hif.ideBroken = false → s.job j.entry = some j → s.hif.held = [j.entry] →
    exec .postedCreditReturn s = .next ({ s with hif := { s.hif with held := [] } }.issueRecord j)) ∧
  (∀ s : State, s.hif.ideBroken = false → s.hif.held = [] → exec .postedCreditReturn s = .next s) ∧
  (∀ (q : Nat) (s : State), exec (.guardUpdate q) s = .next ((s.guardUpdate q).bump Reg.DSP_GUARD_UPDATES 1)) ∧
  (∀ s : State, exec .jobStart s = .next { s with gov := { s.gov with startAsked := true } }) ∧
  (∀ s : State, s.gov.startAsked = true → s.mayStart = true → s.boot.commit = none →
    s.startStep = { s with gov := { s.gov with startAsked := false, startBarred := false } }.selectJob) ∧
  (∀ s : State, (s.gov.startAsked = false ∨ s.mayStart = false) → s.boot.commit = none →
    s.startStep = { s with gov := { s.gov with startAsked := false, startBarred := false } }) ∧
  (∀ (s u : State) (j : Job) (ws : List Job), u = s.waitingJobs.foldl State.admitJob s → u.waitingJobs = j :: ws →
    u.resourceTest j = true → u.fenced j.region = false → (u.gov.therm = .alert → j.cls < 2) → u.fits j = true → u.jobFeasible j = true →
    ∃ v, v = ((((u.reserve j.entry).startJob j.entry).bump Reg.DSP_DSP_STARTS 1).event 0x0701 pgDispatch j.ev) ∧
      s.selectJob = { v with gov := { v.gov with holdJob := none } }) ∧
  (∀ (j : Job) (s : State), s.job j.entry = some j → j.phase = .waiting → s.jobFeasible j = false →
    exec (.lateBeforeStart j.entry) s = .next
      (((s.bump Reg.DSP_LATE_BEFORE_START 1).event 0x0703 pgDispatch j.ev).refuseJob j.entry St.DEADLINE))

/-- The dispatcher's commands CANCEL, CANCEL_QUEUE, REPRIO, DRAIN and UNDRAIN, and a reserved OP (R656, R657, Table 12-4): each arrives in
its window, and takes effect in the next cycle; a REPRIO after that cycle's job start (R668); a host's DRAIN or UNDRAIN yields to the
manager's other command (R665). CONTRACT_WRITE (R661): a contract or target takes effect at once and the queue's pressure is recomputed. -/
def Obligations.DispatcherCommands : Prop :=
  (∀ (p : Path) (q : Nat) (s u : State), u = s.turn p → ∃ c : Nat → WinCmd,
    (∀ op, c op = { manager := decide (p = .manager), op := op, queue := q % 1024, tag := u.rg64 (winReg p Reg.DSP_HCMD_TAG_LO)
                    boost := u.rf (winReg p Reg.DSP_HCMD_ARG) 7 0 }) ∧
    exec (.cancel p q) s = .next { u with hif := { u.hif with winNext := u.hif.winNext ++ [c 1] } } ∧
    exec (.cancelQueue p q) s = .next { u with hif := { u.hif with winNext := u.hif.winNext ++ [c 2] } } ∧
    exec (.reprio p q) s = .next { u with hif := { u.hif with winNext := u.hif.winNext ++ [c 3] } } ∧
    exec (.drain p q) s = .next { u with hif := { u.hif with winNext := u.hif.winNext ++ [c 4] } } ∧
    exec (.undrain p q) s = .next { u with hif := { u.hif with winNext := u.hif.winNext ++ [c 5] } }) ∧
  (∀ (p : Path) (v : Word) (s u : State), u = s.turn p → fld v.toNat 31 28 = 0 ∨ 5 < fld v.toNat 31 28 →
    exec (.dispatchCmdBadOp p v) s = .next { u with hif := { u.hif with winNext := u.hif.winNext ++
      [{ manager := decide (p = .manager), op := fld v.toNat 31 28, queue := fld v.toNat 25 16 % 1024
         tag := u.rg64 (winReg p Reg.DSP_HCMD_TAG_LO), boost := u.rf (winReg p Reg.DSP_HCMD_ARG) 7 0 }] } }) ∧
  (∀ (c : WinCmd) (s : State), s.hif.winNext = [c] → c.op ≠ 3 →
    s.winCycle = { s with hif := { s.hif with winNext := [], winNow := [] } }.winApply c) ∧
  (∀ (c : WinCmd) (s : State), s.hif.winNext = [c] → c.op = 3 →
    s.winCycle = { s with hif := { s.hif with winNext := [], winNow := [c] } }) ∧
  (∀ (c m : WinCmd) (s : State), s.hif.winNext = [c, m] → c.manager = false → m.manager = true → c.queue = m.queue → c.op = 4 → m.op = 5 →
    s.winCycle = ({ s with hif := { s.hif with winNext := [], winNow := [] } }.cmdResult .host 0 4).winApply m) ∧
  (∀ (c : WinCmd) (s : State), s.hif.winNow = [c] → s.winReprio = { s with hif := { s.hif with winNow := [] } }.winApply c) ∧
  (∀ (c : WinCmd) (s : State), c.op = 1 ∨ c.op = 2 → (s.queue c.queue).state ≠ .unassigned → s.jobs.filter c.cancels ≠ [] →
    s.winApply c = ((s.jobs.filter c.cancels).foldl State.winCancel s).cmdResult c.path (s.jobs.filter c.cancels).length 0) ∧
  (∀ (c : WinCmd) (s : State), c.op = 1 ∨ c.op = 2 → (s.queue c.queue).state ≠ .unassigned → s.jobs.filter c.cancels = [] →
    s.winApply c = s.cmdResult c.path 0 1) ∧
  (∀ (c : WinCmd) (s : State), c.op = 3 → (s.queue c.queue).state ≠ .unassigned → countWhere c.boosts s.jobs ≠ 0 →
    s.winApply c = { s with jobs := s.jobs.map (fun j => if c.boosts j then { j with boost := c.boost } else j) }.cmdResult c.path
      (countWhere c.boosts s.jobs) 0) ∧
  (∀ (c : WinCmd) (s : State), c.op = 4 → (s.queue c.queue).state = .enabled →
    s.winApply c = ((s.jobs.filter c.drains).foldl (fun s j => s.refuseJob j.entry St.DRAINING)
      (s.setQueue c.queue { s.queue c.queue with state := .draining })).cmdResult c.path (s.jobs.filter c.drains).length 0) ∧
  (∀ (c : WinCmd) (s : State), c.op = 4 → (s.queue c.queue).state ≠ .enabled → s.winApply c = s.cmdResult c.path 0 3) ∧
  (∀ (c : WinCmd) (s : State), c.op = 5 → (s.queue c.queue).state = .draining →
    s.winApply c = (s.setQueue c.queue { s.queue c.queue with state := .enabled }).cmdResult c.path 0 0) ∧
  (∀ (c : WinCmd) (s : State), c.op = 5 → (s.queue c.queue).state ≠ .draining → s.winApply c = s.cmdResult c.path 0 3) ∧
  (∀ (c : WinCmd) (s : State), c.op = 0 ∨ 5 < c.op → s.winApply c = s.cmdResult c.path 0 2) ∧
  (∀ (p : Path) (q : Nat) (v : Word) (s u : State), u = s.turn p → q < 1024 →
    exec (.contractWrite p q true v) s = .next ((u.wr (qReg q Reg.QR_Q_TARGET) v.toNat).guardUpdate q) ∧
    exec (.contractWrite p q false v) s = .next ((u.wr (qReg q Reg.QR_Q_CONTRACT) (v.toNat &&& 0xFF003FFF)).guardUpdate q))

/-- STOP_TIME_REACHED, HALT_TIME_REACHED and ENERGY_CEILING_STOP (R54, R491, R691): each is a cause of the cycle, and the cycle's end
settles it (R66). ENGINE_QUEUE_ENTRY and ENGINE_COMMAND_END (R331, R481): the first issued command enters its engine's queue; an ended
command with no core shows its result and ends its job. -/
def Obligations.StopsAndEngineQueues : Prop :=
  (∀ (c : Command) (s : State), s.cmd c.id = some c → c.stop ≠ allOnes64 → c.stop ≤ s.time → c.phase = .running →
    exec (.stopTimeReached (.command c.id)) s = .next (s.askStop (.command c.id) St.DEADLINE)) ∧
  (∀ (j : Job) (s : State), s.job j.entry = some j → j.stop ≠ allOnes64 → j.stop ≤ s.time → j.phase = .running →
    exec (.stopTimeReached (.job j.entry)) s = .next (s.askStop (.job j.entry) St.DEADLINE)) ∧
  (∀ (k : Nat) (s : State), k < 8 → (s.core k).job.isSome = true → (s.core k).ending = none → (s.core k).haltTime ≠ allOnes64 →
    (s.core k).haltTime ≤ s.time →
    exec (.haltTimeReached k) s = .next (s.askStop (.halt k) (stopStatus (s.core k).stopcause))) ∧
  (∀ (j : Job) (c : Nat) (s : State), s.job j.entry = some j → j.ceiling = some c → j.phase = .running → c * 1000000 ≤ j.energy →
    j.stopping = none → s.stops = [] →
    exec (.energyCeilingStop j.entry) s = .next ((s.event 0x0805 pgGovernor j.ev).askStop (.job j.entry) St.ENERGY_CEILING)) ∧
  (∀ (a : StopAsk) (s : State), s.stops = [a] → s.settleStops = { s with stops := [] }.settleStop a) ∧
  (∀ (e i k st : Nat) (s : State), s.settleStop { target := .job e, status := st } = s.stopJob e st ∧
    s.settleStop { target := .command i, status := st } = s.stopCommand i st ∧
    ((s.core k).ending = none → s.settleStop { target := .halt k, status := st } = s.haltNow k)) ∧
  (∀ (c : Command) (s : State), s.cmd c.id = some c → c.engine ≠ .tun → c.phase = .issued → c.block ≠ [] →
    (∀ x ∈ s.cmds, x.engine = c.engine → x.phase = .issued → x.block ≠ [] → x.id = c.id ∨ c.issued < x.issued ∨
      (c.issued = x.issued ∧ c.issueRank < x.issueRank)) →
    countWhere (fun (x : Command) => decide (x.engine = c.engine) && decide (x.phase = .queued)) s.cmds < 16 →
    exec (.engineQueueEntry c.id) s = .next ({ s with cmds := s.cmds.filter (fun (x : Command) => x.id != c.id) ++
      [{ c with phase := .queued }] }.wakeEngine c.engine)) ∧
  (∀ (c : Command) (e e' : CmdEnd) (j : Job) (en : Engine) (s u v : State), s.cmd c.id = some c → c.phase = .ended → c.ending = some e →
    s.repairing c = false → c.core = none → s.showResult c e = (u, e') → v = u.releaseEngine c →
    { v with cmds := v.cmds.filter (fun (x : Command) => x.id != c.id) }.job c.job = some j → j.kind = .engine en →
    exec (.engineCommandEnd c.id) s = .next ({ v with cmds := v.cmds.filter (fun (x : Command) => x.id != c.id) }.finishJob
      c.job e'.status e'.valid e'.reason e'.stopCause 0))

/-- LOAD, RUN and LOAD_RUN (R173, R174, R176): an issued anneal command that passes its checks is begun; a load streams its body, and a run
begins with its replicas' states and its seed, given by the block or drawn at the cycle's end (R852). LOAD_COMPLETE (R108 to R110, R1153): a
body without defect leaves the tuns loaded, and starts the run of a LOAD_RUN; a body with one leaves them without grist. -/
def Obligations.AnnealCommandsBeginAndLoad : Prop :=
  (∀ (c : Command) (kiln : List Byte) (s : State), s.issuedTun c.id = some c → (rbTuns c.block).any (fun t => (s.tunSt t).loading) = false →
    s.annealSteps c = .ok kiln → (rbTuns c.block).any (fun t => (s.tunSt t).gw.isSome) = false →
    (rbOp c.block = 1 → exec (.loadCmd c.id) s = .next ((s.noteKiln c kiln).beginLoad c kiln)) ∧
    (rbOp c.block = 3 → exec (.loadRun c.id) s = .next ((s.noteKiln c kiln).beginLoad c kiln)) ∧
    (rbOp c.block = 2 → exec (.runCmd c.id) s = .next (s.startHeld c kiln))) ∧
  (∀ (c : Command) (kiln h : List Byte) (g : Grist) (s u v : State), s.readSpace c.region c.func (rbGristSpace c.block) (rbGrist c.block) 128 =
      some h → firstBad (s.headerChecks c.region c.block h) = none → g = parseGrist c.id c.block h →
    firstBad (s.gristDependent c.region c.block g) = none → rbKind c.block = 0 → s.anyAsleep (rbTuns c.block) = false →
    rbGristSpace c.block ≠ spHost → u = s.noteRead (some c.job) (rbGristSpace c.block) (rbGrist c.block) 128 →
    v = (rbTuns c.block).foldl (fun s t => s.updTun t (fun x => { x with loading := true }))
      { u with tun := { u.tun with grists := u.tun.grists ++ [g] } } →
    s.beginLoad c kiln = v.updCmd c.id (fun c => { c with phase := .running, began := v.time, kiln := kiln })) ∧
  (∀ (c : Command) (kiln : List Byte) (g : Grist) (x : List Nat × Nat × Bool) (s u : State), s.anyAsleep (rbTuns c.block) = false →
    s.rectGrist c.block = some g → (s.noteKiln c kiln).statesAndSeed c g = (u, .ok x) →
    s.startHeld c kiln = u.beginRun c g kiln x.1 x.2.1 x.2.2) ∧
  (∀ (c : Command) (kiln : List Byte) (g : Grist) (s u : State), s.anyAsleep (rbTuns c.block) = false → s.rectGrist c.block = some g →
    (s.noteKiln c kiln).statesAndSeed c g = (u, .error drawWait) → s.startHeld c kiln = s.askDraw c.id) ∧
  (∀ (id : Nat) (s : State), s.tun.draws = [id] → s.drawStep = { s with tun := { s.tun with draws := [] } }.serveDraw id) ∧
  (∀ (c : Command) (s u : State) (seed : Option Nat), s.cmd c.id = some c → c.engine = .tun → s.run c.id = none → c.phase = .issued →
    s.drawSeed = (u, seed) → ∃ v, v = { u with tun := { u.tun with drawn := some (c.id, seed) } }.annealIssue c ∧
      s.serveDraw c.id = { v with tun := { v.tun with drawn := none } }) ∧
  (∀ (c : Command) (e : Bad × RunHead) (s : State), s.issuedTun c.id = some c → s.annealSteps c = .error e →
    ((firstBad (s.blockChecks c.region c.block)).isSome = true ∨ (rbTuns c.block).any (fun t => (s.tunSt t).loading) = false) →
    (rbOp c.block = 1 → exec (.loadCmd c.id) s = .next (s.annealBad c e.2 e.1)) ∧
    (rbOp c.block ≠ 1 → rbOp c.block ≠ 3 → exec (.runCmd c.id) s = .next (s.annealBad c e.2 e.1)) ∧
    (rbOp c.block = 3 → exec (.loadRun c.id) s = .next (s.annealBad c e.2 e.1))) ∧
  (∀ (c : Command) (g g' : Grist) (body : List Byte) (s u : State), s.cmd c.id = some c → s.grist c.id = some g → c.engine = .tun →
    c.phase = .running → s.run c.id = none → rbOp c.block ≠ 2 →
    u = (s.noteRead (some c.job) (rbGristSpace c.block) (rbGrist c.block + 128) g.bodyBytes).arrived c.id →
    u.readSpace c.region c.func (rbGristSpace c.block) (rbGrist c.block + 128) g.bodyBytes = some body → g' = { g with body := body.toArray } →
    (∀ e, bodyDefect g' body = some e → exec (.loadComplete c.id) s = .next
      (((u.dropLoad c.block).annealBad c (headOf c.block (some g) (leAt c.kiln 5 1)) e).sweepGrists)) ∧
    (bodyDefect g' body = none → rbOp c.block = 1 →
      ∃ v, v = (((u.updGrist c.id (fun _ => g')).commitLoad c.block c.id).recomputeArms c.block g').sweepGrists ∧
        exec (.loadComplete c.id) s = .next (v.endCmd c.id
          (v.annealRefusal c (headOf c.block (some g) (leAt c.kiln 5 1)) St.OK 0 0))) ∧
    (bodyDefect g' body = none → rbOp c.block = 3 → ∀ (x : List Nat × Nat × Bool) (v : State),
      (u.updGrist c.id (fun _ => g')).statesAndSeed c g' = (v, .ok x) → exec (.loadComplete c.id) s = .next
        ((((v.commitLoad c.block c.id).recomputeArms c.block g').beginRun c g' c.kiln x.1 x.2.1 x.2.2).sweepGrists)))

/-- LATTICE_PHASE (R128, R129, R252 to R256): a tun decides one sublattice for every replica; a tun of a split run, once its chip's halos
allow, and its halos are sent as the phase ends. DENSE_CLASS_STEP, END_MARKER and FLIP_APPLY (R152 to R155, R1154, R1155). SWEEP_BOUNDARY
(R193): a boundary captures, tests, exchanges and starts the next sweep. WINDOW_SWITCH and ROW_STAGING (R236, R242). -/
def Obligations.SweepSteps : Prop :=
  (∀ (r r' : Run) (g : Grist) (tun m ph : Nat) (fs : List (Nat × Nat × Int)) (s u v w : State), s.run r.cmd = some r →
    s.grist r.load = some g → r.phase = .sweeping → g.mode = 1 → r.tuns.contains tun = true → m = r.numberOf tun → ph = r.phaseOf m →
    (ph = 0 ∨ (ph = 1 ∧ (phaseNeeds g m).all (fun x => decide (1 ≤ r.phaseOf x)) = true)) →
    r.boundaryDue g = none → r.rdvDue g = none → r.span = none → u = s.tunReads tun → u.run r.cmd = some r →
    fs = r.latticeDecisions g m ph → r' = { r.applyFlips fs with phases := Tab.put (fun _ => 0) m (ph + 1) (r.applyFlips fs).phases, atGap := false } →
    v = (u.updRun r.cmd (fun _ => r')).countDecisions r' tun (r'.nr * g.wl * 16384) fs.length →
    w = (if fs = [] then v else v.tunStores tun (fun x n => { x with ssMark := n })) →
    exec (.latticePhase r.cmd tun) s = .next w) ∧
  (∀ (r q r' : Run) (sp sq : Span) (g : Grist) (tun m : Nat) (fs : List (Nat × Nat × Int)) (s h u v w : State), s.run r.cmd = some r →
    s.grist r.load = some g → r.phase = .sweeping → g.mode = 1 → r.tuns.contains tun = true → m = r.numberOf tun → r.phaseOf m = 0 →
    r.rdvDue g = none → r.span = some sp → (List.range r.count).all (fun x => decide (r.phaseOf x ≤ 0)) = true →
    s.haloStart r sp 0 = (h, true) → u = h.tunReads tun → u.run r.cmd = some q → q.phase = .sweeping → q.span = some sq →
    fs = q.latticeDecisions g m 0 →
    r' = { q.applyFlips fs with phases := Tab.put (fun _ => 0) m 1 (q.applyFlips fs).phases, atGap := false } →
    v = (u.updRun r.cmd (fun _ => r')).countDecisions r' tun (r'.nr * g.wl * 16384) fs.length →
    w = (if fs = [] then v else v.tunStores tun (fun x n => { x with ssMark := n })) →
    exec (.latticePhase r.cmd tun) s = .next (if (List.range r'.count).all (fun x => decide (1 ≤ r'.phaseOf x)) then
      w.sendHalos r' sq g 0 (r'.sweep + 1) else w)) ∧
  (∀ (r : Run) (sp : Span) (g : Grist) (tun m : Nat) (s h : State), s.run r.cmd = some r → s.grist r.load = some g → r.phase = .sweeping →
    g.mode = 1 → r.tuns.contains tun = true → m = r.numberOf tun → r.phaseOf m = 0 → r.rdvDue g = none → r.span = some sp →
    (List.range r.count).all (fun x => decide (r.phaseOf x ≤ 0)) = true → s.haloStart r sp 0 = (h, false) →
    exec (.latticePhase r.cmd tun) s = .next h) ∧
  (∀ (r : Run) (g : Grist) (c : Command) (tun k cl m : Nat) (fs : List (Nat × Nat × Int)) (s : State), s.run r.cmd = some r →
    s.grist r.load = some g → s.runCmd r = some c → r.phase = .sweeping → g.mode ≠ 1 → r.tuns.contains tun = true → k < r.nr →
    m = r.numberOf tun → (r.tunClasses g m)[r.stepsOf m k]? = some cl → r.boundaryDue g = none → r.classReady g m k cl = true →
    (s.tunSt tun).csMark < 2 → (s.tunSt tun).ssMark < 2 →
    fs = (r.members g m cl).filterMap (fun l =>
      (r.verdict k (r.spinIdx l) (r.bitOf k (r.spinIdx l)) (r.denseField g m k l)).map (fun dE => (l, r.spinIdx l, dE))) →
    ∃ t r', exec (.denseClassStep r.cmd tun k) s = .next t ∧ t.run r.cmd = some r' ∧
      r'.bits = (r.applyFlips (fs.map (fun f => (k, f.2.1, f.2.2)))).bits ∧
      r'.energies = (r.applyFlips (fs.map (fun f => (k, f.2.1, f.2.2)))).energies ∧
      r'.stepsOf m k = r.stepsOf m k + 1 ∧ r'.atGap = false ∧
      r'.pendFlips = r.pendFlips ++ fs.flatMap (fun f => ((List.range r.count).filter (fun d => decide (r.homes g d ≠ 0))).map (fun d =>
        { dst := d, src := m, cls := cl, replica := k, spin := f.1, arrived := d == m : PendFlip })) ∧
      r'.pendMarks = r.pendMarks ++ ((List.range r.count).filter (fun d => d != m)).map (fun d =>
        { dst := d, src := m, cls := cl, replica := k, arrived := false : PendMark }) ∧
      (∀ x, x ≠ r.cmd → t.run x = s.run x)) ∧
  (∀ (r : Run) (p : PendMark) (i dst src : Nat) (s : State), s.run r.cmd = some r →
    findIdx (fun (p : PendMark) => p.dst == r.numberOf dst && p.src == r.numberOf src && p.arrived) r.pendMarks = some i →
    r.pendMarks[i]? = some p →
    exec (.endMarker r.cmd dst src) s = .next (s.updRun r.cmd (fun r => { r with
      pendMarks := r.pendMarks.eraseIdx i
      seen := Tab.upd (fun _ => 0) (64 * (128 * p.dst + p.src) + p.replica) (· + 1) r.seen }))) ∧
  (∀ (r : Run) (g : Grist) (tun m : Nat) (x : List PendFlip × Option (PendFlip × Nat)) (rest : List PendFlip) (s u : State),
    s.run r.cmd = some r → s.grist r.load = some g → r.phase = .sweeping → r.tuns.contains tun = true → m = r.numberOf tun →
    x = r.flipCycle g m → rest = r.pendFlips.filter (fun f => !x.1.contains f) →
    u = s.updRun r.cmd (fun _ => { r with pendFlips := rest, applying := Tab.put (fun _ => none) m x.2 r.applying }) →
    exec (.flipApply r.cmd tun) s = .next (if rest.any (fun f => f.dst == m && f.arrived) then
      (u.bump64 (tunReg tun Reg.TUN_CSRAM_RD_SAT_LO) 1).tunEvent r tun 0x0141 1 else u)) ∧
  (∀ (r : Run) (c : Command) (g : Grist) (s u : State), s.run r.cmd = some r → s.runCmd r = some c → s.grist r.load = some g →
    r.span = none → r.boundaryDue g = some 0 → s.markedTun r = none → u = r.tuns.foldl State.tunReads s →
    (g.mode ≠ 3 ∨ (u.arraysFaulty g = false ∧ u.arraysOutside c.region g = false)) →
    exec (.sweepBoundary r.cmd) s = .next (u.boundaryWork r c g 0 (u.initialEnergies r c g))) ∧
  (∀ (r : Run) (c : Command) (g : Grist) (k : Nat) (s u : State), s.run r.cmd = some r → s.runCmd r = some c → s.grist r.load = some g →
    r.span = none → r.boundaryDue g = some (k + 1) → s.markedTun r = none → u = r.tuns.foldl State.tunReads s →
    exec (.sweepBoundary r.cmd) s = .next (u.boundaryWork r c g (k + 1) r.energies)) ∧
  (∀ (r : Run) (sp : Span) (c : Command) (g : Grist) (s : State), s.run r.cmd = some r → s.runCmd r = some c → s.grist r.load = some g →
    r.span = some sp → sp.kind ≠ 2 → r.visit = none → r.boundaryDue g = some 0 → s.markedTun r = none → s.arraysFaulty g = false →
    s.arraysOutside c.region g = false →
    exec (.sweepBoundary r.cmd) s = .next (s.boundaryWork r c g 0 (s.initialEnergies r c g))) ∧
  (∀ (r : Run) (sp : Span) (c : Command) (g : Grist) (v : Visit) (k : Nat) (s : State), s.run r.cmd = some r → s.runCmd r = some c →
    s.grist r.load = some g → r.span = some sp → sp.kind ≠ 2 → r.visit = some v → r.boundaryDue g = some k → s.markedTun r = none →
    exec (.sweepBoundary r.cmd) s = .next (if v.dwell ≤ v.swept + 1 then (s.noteSweep r).visitDone r sp c g v
      else (s.noteSweep r).updRun r.cmd (fun r => { r with visit := some { v with swept := v.swept + 1 } }.startSweep (r.sweep + 1)
        (s.noteSweep r).gov.ccycles false))) ∧
  (∀ (r : Run) (c : Command) (g : Grist) (v : Visit) (s u w : State), s.run r.cmd = some r → s.runCmd r = some c → s.grist r.load = some g →
    r.phase = .switching →
    s.buildVisit c.region g r (s.nextVisit r).1 (s.nextVisit r).2 (s.storedStates r g.n) = .ok v →
    u = s.countSerial r c g (s.nextVisit r).2 →
    w = (if r.visit.any (fun x => x.staged) then u else u.noteRows c g v.spins) →
    exec (.windowSwitch r.cmd) s = .next (w.updRun r.cmd (fun _ =>
      Run.startSweep { r with bits := s.storedStates r g.n, visit := some v, phase := .sweeping } (if r.span.isSome then 0 else r.sweep)
        w.gov.ccycles r.span.isNone))) ∧
  (∀ (r : Run) (c : Command) (g : Grist) (b : Bad) (s : State), s.run r.cmd = some r → s.runCmd r = some c → s.grist r.load = some g →
    r.phase = .switching →
    s.buildVisit c.region g r (s.nextVisit r).1 (s.nextVisit r).2 (s.storedStates r g.n) = .error b →
    exec (.windowSwitch r.cmd) s = .next (s.windowDefect r c g b)) ∧
  (∀ (r : Run) (c : Command) (g : Grist) (v : Visit) (s : State), s.run r.cmd = some r → s.runCmd r = some c → s.grist r.load = some g →
    r.visit = some v → r.phase = .sweeping → r.span = none → v.staged = false →
    s.stagingFits c.region g r v ((v.number + 1) % Nat.max (s.nWindows r) 1) = true →
    exec (.rowStaging r.cmd) s = .next ((s.noteRows c g (s.entrySpins c.region r ((v.number + 1) % Nat.max (s.nWindows r) 1))).updRun
      r.cmd (fun r => { r with visit := some { v with staged := true } })))

/-- PHX_GO (R160): the generator's four words are in PHX_OUT, and nothing else changes; a write of 0 does nothing. -/
def Obligations.PhiloxGoWritesItsOutput : Prop :=
  (∀ (p : Path) (tun : Nat) (v : Word) (s u : State), u = s.turn p → tun < 128 → bit v.toNat 0 = true → ∃ t, exec (.phxGo p tun v) s = .next t ∧
    (∀ i, i < 4 → t.rg (tunReg tun (Reg.TUN_PHX_OUT_0 + 4 * i)) =
      (philox (u.rg64 (tunReg tun Reg.TUN_PHX_KEY_LO)) (u.rg (tunReg tun Reg.TUN_PHX_CTR_0)) (u.rg (tunReg tun (Reg.TUN_PHX_CTR_0 + 4)))
        (u.rg (tunReg tun (Reg.TUN_PHX_CTR_0 + 8))) (u.rg (tunReg tun (Reg.TUN_PHX_CTR_0 + 12)))).getD i 0 % 0x100000000) ∧
    (∀ a, (a < tunReg tun Reg.TUN_PHX_OUT_0 ∨ tunReg tun Reg.TUN_PHX_OUT_0 + 16 ≤ a) → t.reg a = u.reg a) ∧ t = { u with regs := t.regs }) ∧
  (∀ (p : Path) (tun : Nat) (v : Word) (s : State), bit v.toNat 0 = false → exec (.phxGo p tun v) s = .next (s.turn p))

/-- R246, R289: a message for another chip is passed on, and one of another span or from a lost chip is dropped and counted. JOIN, START and
ABORT (R247 to R249), and the timeout of a join (R250). COEF and HALO (R251, R254), and the timeout of a wait for a halo (R273). -/
def Obligations.JoiningAndHalos : Prop :=
  (∀ (kind : Nat) (f : State → RunMsg → Run → Span → Command → Grist → Option State) (m : RunMsg) (s u : State) (r : Run) (sp : Span)
    (c : Command) (g : Grist), s.takeMsg kind = some (m, u) → u.linkRun m.link = some (r, sp) → u.runCmd r = some c →
    u.grist r.load = some g →
    ((m.span ≠ sp.spanId ∨ sp.lost.contains m.src = true) → s.serveMsg kind f = u.dropMsg m.link) ∧
    (m.span = sp.spanId → sp.lost.contains m.src = false → m.dst ≠ 0xFF → m.dst ≠ sp.chip → s.serveMsg kind f = u.relayMsg sp m) ∧
    (s.Delivers kind m u r sp c g → s.serveMsg kind f = (f (u.passedOn sp m) m r sp c g).getD ((u.passedOn sp m).dropMsg m.link))) ∧
  (∀ (m : RunMsg) (s u : State) (r : Run) (sp : Span) (c : Command) (g : Grist), s.Delivers 1 m u r sp c g → r.phase = .joining →
    sp.chip = 0 → m.tag = 0 → m.src ≠ 0 → m.src < sp.cx * sp.cy → m.payload.take 50 = joinPayload r g →
    sp.joined.contains m.src = false →
    ∃ q v, q = { sp with joined := sp.joined ++ [m.src] } ∧ v = (u.passedOn sp m).updRun r.cmd (fun _ => { r with span := some q }) ∧
      exec .join s = .next (if sp.chips.all (fun x => (sp.joined ++ [m.src]).contains x) then
        (v.sendRun q 2 0xFF 0 (natLE 8 r.seed ++ natLE 8 v.time)).startSpan { r with span := some q } q c g r.seed
          (v.sendRun q 2 0xFF 0 (natLE 8 r.seed ++ natLE 8 v.time)).time else v)) ∧
  (∀ (m : RunMsg) (s u : State) (r : Run) (sp : Span) (c : Command) (g : Grist), s.Delivers 1 m u r sp c g → r.phase = .joining →
    sp.chip = 0 → m.tag = 0 → m.src ≠ 0 → m.src < sp.cx * sp.cy → m.payload.take 50 ≠ joinPayload r g →
    exec .join s = .next (((u.passedOn sp m).sendRun sp 3 0xFF 0 (natLE 2 St.EXT_INVALID ++ natLE 1 0x0D ++ natLE 5 0)).endSpan r c g
      St.EXT_INVALID 0x0D)) ∧
  (∀ (m : RunMsg) (s u : State) (r : Run) (sp : Span) (c : Command) (g : Grist), s.Delivers 2 m u r sp c g → r.phase = .joining →
    sp.chip ≠ 0 → m.src = 0 → m.tag = 0 →
    exec .startMsg s = .next ((u.passedOn sp m).startSpan r sp c g (leAt m.payload 0 8) (leAt m.payload 8 8))) ∧
  (∀ (m : RunMsg) (s u : State) (r : Run) (sp : Span) (c : Command) (g : Grist), s.Delivers 3 m u r sp c g → r.phase = .joining →
    sp.chip ≠ 0 → m.src = 0 → m.tag = 0 →
    exec .abortMsg s = .next ((u.passedOn sp m).endSpan r c g (leAt m.payload 0 2) (leAt m.payload 2 1))) ∧
  (∀ (s : State) (r : Run) (sp : Span) (c : Command) (g : Grist), s.cmd r.cmd = some c → newSpan c.block = some sp → c.phase = .running →
    c.began + 1000 * sp.joinUs ≤ s.time → s.run r.cmd = some r → s.grist r.load = some g → r.phase = .joining →
    exec (.joinTimeout r.cmd) s = .next ((if sp.chip = 0 then s.sendRun sp 3 0xFF 0 (natLE 2 St.PARTNER_LOST ++ natLE 6 0) else s).endSpan
      r c g St.PARTNER_LOST 0)) ∧
  (∀ (s : State) (id : Nat) (sp : Span) (c : Command), s.cmd id = some c → newSpan c.block = some sp → c.phase = .running →
    c.began + 1000 * sp.joinUs ≤ s.time → s.run id = none →
    exec (.joinTimeout id) s = .next
      (((if sp.chip = 0 then s.sendRun sp 3 0xFF 0 (natLE 2 St.PARTNER_LOST ++ natLE 6 0) else s).dropLoad c.block).endCmd id
        (s.annealRefusal c (s.headKnown c) St.PARTNER_LOST 0 0))) ∧
  (∀ (m : RunMsg) (s u : State) (r : Run) (sp : Span) (c : Command) (g : Grist) (p : Partner) (h : Nat × List Nat), s.Delivers 5 m u r sp c g →
    sp.partners.find? (fun p => p.link == m.link) = some p → sp.kind = 2 → m.src = p.chip → m.flags % 2 = p.dir % 2 →
    h = (lowBits (m.tag + 1) 32, (List.range r.nr).map (fun i =>
      leAt m.payload (i * bitsBytes (edgeCount g p.dir)) (bitsBytes (edgeCount g p.dir)))) →
    exec .halo s = .next ((u.passedOn sp m).updSpan r.cmd (fun sp => { sp with partners := sp.partners.map (fun q =>
      if q.link == m.link ∧ q.frozen = false then
        let q := if r.endsWait q (lowBits (m.tag + 1) 32) then { q with waitSince := none } else q
        if m.flags % 2 = 0 then { q with nextA := newer q.nextA (some h) } else { q with nextB := newer q.nextB (some h) }
      else q) }))) ∧
  (∀ (m : RunMsg) (s u : State) (r : Run) (sp sq : Span) (c : Command) (g : Grist) (p : Partner) (keys : List Nat) (t : Tab Int),
    s.Delivers 4 m u r sp c g → sp.partners.find? (fun p => p.link == m.link) = some p → sp.kind = 2 → p.dir % 2 = 1 → m.src = p.chip →
    m.tag = 0 → p.coef = none → keys = (g.crossing (oppDir p.dir)).map (fun x => x.1) →
    t = (keys.zip (List.range keys.length)).foldl (fun t e => Tab.put (fun _ => 0) e.1
      (sInt (precBits g.prec) (leAt m.payload (precBytes g.prec * e.2) (precBytes g.prec))) t) [] →
    sq = { sp with partners := sp.partners.map (fun q => if q.link == m.link then { q with coef := some t } else q) } →
    exec .coef s = .next ((u.passedOn sp m).updRun r.cmd (fun r => { r with
      span := some sq, phase := if r.phase = .coefs ∧ Run.coefsIn sq then .sweeping else r.phase }))) ∧
  (∀ (dir t0 : Nat) (s : State) (r : Run) (sp : Span) (p : Partner), s.run r.cmd = some r → r.span = some sp →
    sp.partners.find? (fun p => p.dir == dir) = some p → p.waitSince = some t0 → r.phase ≠ .stopped → t0 + 1000 * sp.rdvUs ≤ s.time →
    exec (.haloWaitTimeout r.cmd dir) s = .next (s.partnerLost r.cmd p.chip))

/-- RENDEZVOUS, REPORT and DECIDE, and their timeouts (R258 to R260, R271, R277). The gather of a best state and the
leases of a split window run: PART_REQ, PART, GRANT, RETURN, UPDATE and LEASE_END (R262, R263, R266 to R270). -/
def Obligations.RendezvousAndGathers : Prop :=
  (∀ (k : Nat) (s u v : State) (r q : Run) (sp sq : Span) (g : Grist) (ps : List Partner) (es : List Int), s.run r.cmd = some r →
    r.span = some sp → s.grist r.load = some g → r.rdvDue g = some k → ps = sp.partners.map (fun p => p.take true true) →
    ps.all (fun p => p.frozen || p.haloTag.any (fun t => decide (k ≤ t))) = true → s.markedTun r = none → u = r.tuns.foldl State.tunReads s →
    q = { r with span := some { sp with partners := ps.map (fun p => { p with waitSince := none }) } } →
    es = (List.range r.nr).map (fun i => q.latEnergy g i) →
    sq = { sp with partners := ps.map (fun p => { p with waitSince := none }), reportTime := u.time
                   reports := sp.reports.filter (fun p => p.1 != sp.chip) ++ [(sp.chip, k, es, r.haloStale)] } →
    v = (if k = 0 then u else u.noteSweep q).updRun r.cmd (fun _ => { r with span := some sq, phase := .waitDecide, energies := es, sweep := k }) →
    exec (.rendezvous r.cmd) s = .next (if sp.chip = 0 then v.tryDecide r.cmd else v.sendRun sq 6 0 k
      (es.flatMap (fun e => natLE 16 (toTwos 128 e)) ++ natLE 8 r.haloStale ++ natLE 2 (lostBits sp.found) ++ natLE 6 0))) ∧
  (∀ (k : Nat) (s : State) (r : Run) (sp : Span) (g : Grist) (ps : List Partner) (late : Partner → Bool), s.run r.cmd = some r →
    r.span = some sp → s.grist r.load = some g → r.rdvDue g = some k → ps = sp.partners.map (fun p => p.take true true) →
    (∀ p, late p = !(p.frozen || p.haloTag.any (fun t => decide (k ≤ t)))) → ps.any late = true →
    exec (.rendezvous r.cmd) s = .next (s.updRun r.cmd (fun r => { r with phase := .rendezvous, span := some { sp with partners :=
      (ps.map (fun p => { p with waitSince := if late p then p.waitSince.orElse (fun _ => some s.time) else none })) } }))) ∧
  (∀ (m : RunMsg) (s u : State) (r : Run) (sp : Span) (c : Command) (g : Grist), s.Delivers 6 m u r sp c g → sp.chip = 0 → sp.kind = 2 →
    m.src ≠ 0 → m.src < sp.cx * sp.cy → m.tag = r.nextRdv → sp.reportSeen m.src m.tag = false → leAt m.payload (16 * r.nr + 8) 2 = 0 →
    exec .report s = .next ((((u.passedOn sp m).updSpan r.cmd (fun sp => { sp with
      reports := (sp.reports.filter (fun p => p.1 != m.src)) ++
        [(m.src, m.tag, (List.range r.nr).map (fun i => sInt 128 (leAt m.payload (16 * i) 16)), leAt m.payload (16 * r.nr) 8)] })).tryDecide
      r.cmd).gatherGo r.cmd)) ∧
  (∀ (m : RunMsg) (s u v : State) (r q : Run) (sp : Span) (c : Command) (g : Grist), s.Delivers 7 m u r sp c g → sp.kind = 2 → sp.chip ≠ 0 →
    m.src = 0 → r.phase = .waitDecide → m.tag = r.sweep → leAt m.payload 4 2 = 0 → leAt m.payload 0 1 = 0 → (u.passedOn sp m).run r.cmd = some r →
    q = { r with rungs := (List.range r.nr).map (fun i => leAt m.payload (8 + i) 1), lastBoundary := m.tag, lastEnergies := r.energies
                 span := r.span.map (fun sp => { sp with reportTime := allOnes64 }) } → v = (u.passedOn sp m).updRun r.cmd (fun _ => q) →
    exec .decide s = .next (if leAt m.payload 1 1 ≠ 0 then v.finishRun q St.OK (leAt m.payload 3 1) true false
      else v.updRun r.cmd (fun r => { r with phase := .sweeping }.startSweep m.tag v.gov.ccycles true))) ∧
  (∀ (m : RunMsg) (s u : State) (r : Run) (sp : Span) (c : Command) (g : Grist), s.Delivers 7 m u r sp c g → sp.kind = 3 → sp.chip ≠ 0 →
    m.src = 0 → leAt m.payload 1 1 ≠ 0 → leAt m.payload 4 2 = 0 → (u.passedOn sp m).run r.cmd = some r →
    exec .decide s = .next ((u.passedOn sp m).finishRun r St.OK (leAt m.payload 3 1) true false)) ∧
  (∀ (chip : Nat) (s : State) (r : Run) (sp : Span), s.run r.cmd = some r → r.span = some sp → sp.chip = 0 → r.phase = .waitDecide →
    chip ≠ 0 → chip < sp.cx * sp.cy → sp.lost.contains chip = false → sp.reports.all (fun p => p.1 != chip || decide (p.2.1 < r.sweep)) = true →
    sp.reportTime ≠ allOnes64 → sp.reportTime + 1000 * sp.rdvUs ≤ s.time →
    exec (.reportTimeout r.cmd chip) s = .next (((s.declareLost r.cmd chip).tryDecide r.cmd).gatherGo r.cmd)) ∧
  (∀ (s : State) (r : Run) (sp : Span) (c : Command) (g : Grist), s.run r.cmd = some r → r.span = some sp → s.runCmd r = some c →
    s.grist r.load = some g → sp.chip ≠ 0 → r.phase ≠ .stopped → r.phase ≠ .joining → sp.reportTime ≠ allOnes64 →
    sp.reportTime + 1000 * sp.rdvUs ≤ s.time →
    exec (.decideTimeout r.cmd) s = .next ((s.maskLost r 0).endSpan r c g St.PARTNER_LOST 0)) ∧
  (∀ (m : RunMsg) (s u : State) (r : Run) (sp : Span) (c : Command) (g : Grist) (p : Nat × Nat), s.Delivers 8 m u r sp c g → sp.kind = 2 →
    sp.chip ≠ 0 → m.src = 0 → m.tag = 0 → sp.pending = some p →
    exec .partReq s = .next (((u.passedOn sp m).sendRun sp 9 0 p.1 (natLE (g.n / 8) p.2)).updSpan r.cmd (fun sp =>
      { sp with sending := some p, pending := none }))) ∧
  (∀ (m : RunMsg) (s u : State) (r : Run) (sp : Span) (c : Command) (g : Grist) (q : Nat × Nat × Int × Nat), s.Delivers 9 m u r sp c g →
    sp.gather = some q → sp.chip = 0 → m.tag = q.1 → m.src ≠ 0 → m.src < sp.cx * sp.cy →
    exec .part s = .next ((((u.passedOn sp m).writeSpace (some c.job) spHbm 0 (partAddr sp g (sp.gathers % 2) m.src)
      (m.payload.take (g.n / 8))).updSpan r.cmd (fun sp => { sp with
        parts := if sp.parts.contains m.src then sp.parts else sp.parts ++ [m.src] })).gatherGo r.cmd)) ∧
  (∀ (m : RunMsg) (s u : State) (r : Run) (sp : Span) (c : Command) (g : Grist) (rs : List Nat), s.Delivers 0x0A m u r sp c g → sp.kind = 3 →
    sp.chip ≠ 0 → m.src = 0 → r.phase = .waitGrant → rs = (List.range r.nr).map (fun i => leAt m.payload (16 + i) 1) →
    exec .grant s = .next ((u.passedOn sp m).updRun r.cmd (fun x => { x with
      span := some { sp with leases := [(m.tag, leAt m.payload 0 2, sp.chip, leAt m.payload 8 8)], granted := rs, reportTime := allOnes64 }
      phase := .switching, rungs := rs }))) ∧
  (∀ (m : RunMsg) (s u v : State) (r : Run) (sp : Span) (c : Command) (g : Grist) (l : Nat × Nat × Nat × Nat) (sz : Nat),
    s.Delivers 0x0B m u r sp c g → sp.kind = 3 → sp.chip = 0 → sp.leases.find? (fun l => l.1 == m.tag && l.2.2.1 == m.src) = some l →
    leAt m.payload 0 2 = l.2.1 → v = u.passedOn sp m → sz = bitsBytes (v.entrySpins c.region r (leAt m.payload 0 2)).length →
    (m.arrival < l.2.2.2 → exec .return s = .next (v.applyReturn r sp c g m.tag (leAt m.payload 0 2) m.src ((List.range r.nr).map (fun i =>
      leAt m.payload (8 + i * sz) sz)))) ∧
    (l.2.2.2 ≤ m.arrival → exec .return s = .next (State.grantAll c.region r.cmd 16 (v.updSpan r.cmd (fun sp => { sp with
      leases := sp.leases.filter (fun x => x.1 != m.tag), requeue := sp.requeue ++ [m.tag], idle := sp.idle ++ [m.src] }))))) ∧
  (∀ (m : RunMsg) (s u v : State) (r : Run) (sp : Span) (c : Command) (g : Grist) (spins : List Nat) (sz : Nat), s.Delivers 0x0C m u r sp c g →
    sp.kind = 3 → sp.chip ≠ 0 → m.src = 0 → v = u.passedOn sp m → spins = v.entrySpins c.region r (leAt m.payload 0 2) →
    sz = bitsBytes spins.length →
    exec .updateMsg s = .next ((v.storeStates { r with bits := (List.range r.nr).map (fun i =>
        setWindow spins (leAt m.payload (8 + i * sz) sz) ((v.storedStates r g.n).getD i 0)) } (some c.job) g.n).updRun r.cmd (fun r =>
      { r with rungs := (List.range r.nr).map (fun i => leAt m.payload (8 + r.nr * sz + i) 1)
               span := some { sp with reportTime := allOnes64 } }))) ∧
  (∀ (visit : Nat) (l : Nat × Nat × Nat × Nat) (s : State) (r : Run) (sp : Span) (c : Command), s.run r.cmd = some r → r.span = some sp →
    s.runCmd r = some c → sp.leases.find? (fun l => l.1 == visit) = some l → sp.chip = 0 → r.phase ≠ .stopped → l.2.2.2 ≤ s.time →
    s.tun.inbox.all (fun m => m.kind != 0x0B) = true →
    exec (.leaseEnd r.cmd visit) s = .next (State.grantAll c.region r.cmd 16 (s.updSpan r.cmd (fun sp => { sp with
      leases := sp.leases.filter (fun x => x.1 != visit), requeue := sp.requeue ++ [visit] }))))

/-- The solver's commands LINSOLVE, ASSIGN and BOXQP (R305, R312, R319, R327): the head of the queue whose checks pass starts, and its
operands stream in and are read; a reserved OP reaches LINSOLVE and is refused. SOLVER_ITERATE and ASSIGN_STOP (R296 to R300, R316, R321): the
next iterate once the cycles of its step have passed, and the early stop of an ASSIGN. -/
def Obligations.SolverCommands : Prop :=
  (∀ (c : Command) (s u v : State), s.engineNext .solver pgSolver s.solver.isSome c.id = some c →
    s.pageFailed pgSolver = false → firstBad (s.svBlockChecks c.region c.block) = none → s.stopPassed c = false →
    svOverlap c.block = false → svN c.block ≠ 0 →
    u = { s with solver := some (fetchingRun c s.time s.gov.ccycles) }.await c.id (hostLen (svFetched c.block)) →
    v = (((u.wr64 Reg.SLV_SLV_STOP_LO c.stop).wr Reg.SLV_SLV_ITER 0).wr64 Reg.SLV_BEST_RES_LO 0).updCmd c.id (fun c => { c with phase := .running }) →
    (svOp c.block ≠ 2 → svOp c.block ≠ 3 → exec (.linsolve c.id) s = .next v) ∧
    (svOp c.block = 2 → exec (.assign c.id) s = .next v) ∧ (svOp c.block = 3 → exec (.boxqp c.id) s = .next v)) ∧
  (∀ (c : Command) (e : Bad) (s : State), s.engineNext .solver pgSolver s.solver.isSome c.id = some c → s.pageFailed pgSolver = false →
    firstBad (s.svBlockChecks c.region c.block) = some e →
    (svOp c.block ≠ 2 → svOp c.block ≠ 3 → exec (.linsolve c.id) s = .next (s.svRefuse c e.status e.reason 0)) ∧
    (svOp c.block = 2 → exec (.assign c.id) s = .next (s.svRefuse c e.status e.reason 0)) ∧
    (svOp c.block = 3 → exec (.boxqp c.id) s = .next (s.svRefuse c e.status e.reason 0))) ∧
  (∀ (c : Command) (r q : SolverRun) (s u : State), s.solver = some r → s.cmd r.cmd = some c → c.phase = .running → r.loaded = false →
    r.fetchDue c.block ≤ s.time → u = (s.noteAreas c (svFetched c.block)).arrived c.id → u.svFetch c r = some q → q.badValue c.block = false →
    s.svLoad = { u.disarm pgSolver with solver := some { q with
      loaded := true, from_ := u.gov.ccycles, mark := u.armedBits pgSolver, g := if q.op = 3 then [] else q.g } }) ∧
  (∀ (r : SolverRun) (c : Command) (s : State), s.solver = some r → s.cmd r.cmd = some c → c.phase = .running → r.loaded = true →
    r.mark = 0 → r.op = 2 → r.from_ + svStep c.block (r.done == 0) ≤ s.gov.ccycles → svSparse c.block = false →
    exec (.solverIterate r.cmd) s = .next (s.svIterated c { r.assignStep c.block with mark := 0 })) ∧
  (∀ (r : SolverRun) (c : Command) (s : State), s.solver = some r → s.cmd r.cmd = some c → c.phase = .running → r.loaded = true →
    r.mark = 0 → r.op = 3 → r.from_ + svStep c.block (r.done == 0) ≤ s.gov.ccycles → svSparse c.block = false →
    exec (.solverIterate r.cmd) s = .next (s.svIterated c { r.boxStep c.block with mark := 0 })) ∧
  (∀ (r : SolverRun) (e : StepEnd) (c : Command) (s : State), s.solver = some r → s.cmd r.cmd = some c → c.phase = .running →
    r.loaded = true → r.mark = 0 → s.svNext c r = .ok e → r.from_ + s.svCycles c.block e ≤ s.gov.ccycles →
    exec (.solverIterate r.cmd) s = .next (s.svStepped c { e with run := { e.run with mark := 0 } })) ∧
  (∀ (r : SolverRun) (e : StepEnd) (c : Command) (s : State), s.solver = some r → s.cmd r.cmd = some c → c.phase = .running →
    r.loaded = true → s.svNext c r = .ok e → s.gov.ccycles < r.from_ + s.svCycles c.block e → exec (.solverIterate r.cmd) s = .next s) ∧
  (∀ (r : SolverRun) (c : Command) (s : State), s.solver = some r → s.cmd r.cmd = some c → c.phase = .running → r.op = 2 →
    c.stop ≠ allOnes64 → c.stop ≤ s.time + svTRep c.block →
    exec (.assignStop r.cmd) s = .next (s.askStop (.command r.cmd) St.DEADLINE)) ∧
  (∀ (i st : Nat) (s : State), s.stops = [{ target := .command i, status := st }] → s.settleStops = { s with stops := [] }.stopCommand i st)

/-- PREDICTOR_COMMAND (R355, R379, R380, R385): a command without defect begins, with its image resident or its fetch begun; a failed array
refuses it. INPUT_SCAN_DONE, LAYER_PASS_DONE, ROW_BLOCK_DONE and GRIST_WRITER_WRITE (R345, R356 to R364, R374, R381, R391, R392), each once
its cycles have passed. -/
def Obligations.PredictorCommands : Prop :=
  (∀ (c : Command) (s : State), s.engineNext .predictor pgPred s.pred.run.isSome c.id = some c → s.pageFailed pgPred = true →
    exec (.predictorCommand c.id) s = .next (s.prRefuse c St.PREDICTOR_FAULT 0 0)) ∧
  (∀ (c : Command) (e : Bad) (s : State), s.engineNext .predictor pgPred s.pred.run.isSome c.id = some c → s.pageFailed pgPred = false →
    firstBad (s.pbChecks c.region c.block (s.pbShape c).1 (s.pbShape c).2) = some e →
    exec (.predictorCommand c.id) s = .next (s.prRefuse c e.status e.reason 0)) ∧
  (∀ (c : Command) (im : Resident) (r : PredRun) (s u : State), s.engineNext .predictor pgPred s.pred.run.isSome c.id = some c →
    s.pageFailed pgPred = false → firstBad (s.pbChecks c.region c.block (s.pbShape c).1 (s.pbShape c).2) = none →
    s.stopPassed c = false → pbBatch c.block ≠ 0 → pbGrist c.block = false →
    im = (s.residentFor c.region c.block).getD
      { region := c.region, addr := pbWeight c.block, bytes := pbWeightBytes c.block, crc := pbWeightCrc c.block, data := [], mark := 0 } →
    r = predStart c im (s.time + (if (s.residentFor c.region c.block).isSome then 0 else ceilDiv (pbWeightBytes c.block) 64)) s.time →
    u = ((((s.setRun r).wr64 Reg.PRD_PRD_STOP_LO c.stop).prPos 0 0 1).updCmd c.id (fun c => { c with phase := .running })).setRun
      { r with gw := [] } →
    exec (.predictorCommand c.id) s = .next (if (s.residentFor c.region c.block).isSome then u.prLoad c { r with gw := [] } else u)) ∧
  (∀ (c : Command) (r : PredRun) (s : State), s.pred.run = some r → s.cmd r.cmd = some c → c.phase = .running → r.phase = .fetch →
    r.due ≤ s.time → s.prFetched = s.prLoad c r) ∧
  (∀ (c : Command) (r : PredRun) (a : Area) (bs : List Byte) (s u : State), s.predAt c.id .scan = some (c, r) → r.due ≤ s.time →
    a = { space := pbInSpace c.block, addr := pbInput c.block, len := 4 * pbBatch c.block * lyKin r.image.data 0 } →
    u = (s.noteArea c a).arrived c.id → u.readArea c a = some bs →
    (values 4 bs (pbBatch c.block * lyKin r.image.data 0)).any (fun v => !f32.finite v) = false →
    ∃ s0, exec (.inputScanDone c.id) s = .next ((u.prPos 0 0 1).wantBlock c { r with s0 := s0, phase := .await } 0) ∧
      s0 = (if f32.eqB (f32.maxOf ((values 4 bs (pbBatch c.block * lyKin r.image.data 0)).map f32.absB)) 0 then f32.ofInt 1
        else f32.divB (f32.maxOf ((values 4 bs (pbBatch c.block * lyKin r.image.data 0)).map f32.absB))
          (f32.ofInt (predQmax (lyFmt r.image.data 0))))) ∧
  (∀ (c : Command) (r : PredRun) (s u : State), s.predAt c.id .pass = some (c, r) → r.layer + 1 = pbLayers c.block → r.passEnd ≤ s.gov.ccycles →
    s.imageMark r < 2 → r.aMark < 2 → u = s.passReads r →
    ∃ out, exec (.layerPassDone c.id) s = .next (u.setPred { r with phase := .passed, cur := { r.cur with out := out } }) ∧
      out = dequant (pbFp c.block) ((layerData c.block r.image.data r.layer r.wide).c r.scale)
        (accumulate (pbFp c.block) r.wide (lyRelu r.image.data r.layer) (layerData c.block r.image.data r.layer r.wide)
          ((layerData c.block r.image.data r.layer r.wide).c r.scale) r.zero r.tensor)) ∧
  (∀ (c : Command) (r : PredRun) (img : List Byte) (cs : List Nat) (accs : List (List Int)) (s u : State),
    s.predAt c.id .pass = some (c, r) → r.layer + 1 ≠ pbLayers c.block → r.passEnd ≤ s.gov.ccycles → s.imageMark r < 2 → r.aMark < 2 →
    u = s.passReads r → img = r.image.data → cs = (layerData c.block img r.layer r.wide).c r.scale →
    accs = accumulate (pbFp c.block) r.wide (lyRelu img r.layer) (layerData c.block img r.layer r.wide) cs r.zero r.tensor →
    (r.wide = true → ∀ (sOut : Nat) (q : List (List Int) × Nat),
      sOut = (if pbFp c.block then f32.ofInt 1 else wideScale (r.ringMax r.layer) r.aCur (lyInit img r.layer)) →
      q = requantWide (pbFp c.block) cs sOut accs →
      exec (.layerPassDone c.id) s = .next (u.setPred ({ r with cur := { r.cur with wideClamps := r.cur.wideClamps + q.2 } }.advance q.1 sOut
        (List.replicate (lyKout img r.layer) 0) (amaxOf (pbFp c.block) cs accs)))) ∧
    (r.wide = false → ∀ (o : Nat × List RqEntry) (q : List (List Int) × Nat), o = r.narrowOut c.block r.layer cs →
      q = requant (lyFmt img (r.layer + 1)) o.2 accs → q.2 ≤ lyLimit img r.layer →
      exec (.layerPassDone c.id) s = .next (((u.bump64 Reg.PRD_CLAMPS_LO q.2).event 0x0402 pgPred c.ev q.2).setPred
        ({ r with cur := { r.cur with clamps := r.cur.clamps + q.2 } }.advance q.1 o.1
          (if lyStatic img r.layer then o.2.map (fun (e : RqEntry) => e.zero) else List.replicate (lyKout img r.layer) 0)
          (amaxOf (pbFp c.block) cs accs))))) ∧
  (∀ (c : Command) (r : PredRun) (s : State), s.predAt c.id .pass = some (c, r) → s.gov.ccycles < r.passEnd →
    exec (.layerPassDone c.id) s = .next s) ∧
  (∀ (c : Command) (r : PredRun) (s : State), s.predAt c.id .passed = some (c, r) → pbGrist c.block = false →
    exec (.rowBlockDone c.id) s = .next (s.blockComplete c r)) ∧
  (∀ (c : Command) (r : PredRun) (s : State), s.predAt c.id .passed = some (c, r) → pbGrist c.block = true →
    exec (.rowBlockDone c.id) s = .next ((s.setRun { r with phase := .grist, from_ := s.gov.ccycles }).prPos r.block (pbLayers c.block - 1) 5)) ∧
  (∀ (c : Command) (r : PredRun) (g : Grist) (s : State), s.predAt c.id .grist = some (c, r) →
    (gwTuns r.gw).any (fun t => s.tun.runs.any (fun x => decide (x.phase ≠ .stopped) && x.tuns.contains t)) = false →
    r.from_ + gwCycles r.tensor.length (lyKout r.image.data (pbLayers c.block - 1)) ≤ s.gov.ccycles →
    (gwTuns r.gw).find? (fun t => (s.tunSt t).failed) = none → s.gwGrist r.gw = some g → gwModeOk (gwTarget r.gw) g.mode = true →
    ∃ t p, exec (.gristWriterWrite c.id) s = .next t ∧
      p = gwBlock r.gw g (1024 * r.block) (lyKout r.image.data (pbLayers c.block - 1)) r.cur ∧
      t = (((s.updGrist g.id (fun g => { g with body := p.2 })).bump Reg.PRD_GW_COUNT p.1.writes).event 0x0405 pgPred c.ev
        p.1.writes).blockComplete c { r with cur := p.1, claimed := true })

/-- RES_FLUSH and PLN_FLUSH, for all and for one region (R390, R443). PLAN and REPAIR (R418, R427, R431): a command at the head of the
planner's queue whose checks succeed starts, and its fetch begins; one that has been fetched begins with its grid, and handles n more
requests or steps. -/
def Obligations.PlannerCommands : Prop :=
  (∀ (p : Path) (v : Word) (s u : State), u = s.turn p → bit v.toNat 4 = true →
    exec (.resFlushAll p v) s = .next (u.dropImages (fun _ => true)) ∧ exec (.plnFlushAll p v) s = .next (u.dropPlans (fun _ => true))) ∧
  (∀ (p : Path) (v : Word) (s u : State), u = s.turn p → bit v.toNat 4 = false →
    exec (.resFlushRegion p v) s = .next (u.dropImages (fun r => r.region == fld v.toNat 3 0)) ∧
    exec (.plnFlushRegion p v) s = .next (u.dropPlans (fun r => r == fld v.toNat 3 0))) ∧
  (∀ (f : Resident → Bool) (s : State), s.pred.run = none → (s.dropImages f).pred.resident = s.pred.resident.filter (fun x => !f x)) ∧
  (∀ (f : Nat → Bool) (s : State), s.plan.run = none → (s.dropPlans f).plan.grids = s.plan.grids.filter (fun g => !f g.region) ∧
    (s.dropPlans f).plan.tables = s.plan.tables.filter (fun t => !f t.region)) ∧
  (∀ (c : Command) (n : Nat) (r : PlanRun) (s u : State), s.cmd c.id = some c → s.planRunOf c = none →
    s.engineNext .planner pgPlan s.plan.run.isSome c.id = some c → s.pageFailed pgPlan = false → firstBad (s.plChecks c) = none →
    s.stopPassed c = false → (s.plArrays c).any (fun a => a.meets (plResArea c.block)) = false →
    r = planStart c (s.time + ceilDiv (4 * hostLen (s.plFetched c) + devLen (s.plFetched c)) 64) s.time →
    u = ((((s.setPlan r).wr64 Reg.PLN_PLN_STOP_LO c.stop).plPos 0 0 1).updCmd c.id (fun c => { c with phase := .running })).await c.id
      (hostLen (s.plFetched c)) →
    (plOp c.block ≠ 2 → exec (.planCmd c.id n) s = .next u) ∧ (plOp c.block = 2 → exec (.repairCmd c.id n) s = .next u)) ∧
  (∀ (c : Command) (e : Bad) (n : Nat) (s : State), s.cmd c.id = some c → s.planRunOf c = none →
    s.engineNext .planner pgPlan s.plan.run.isSome c.id = some c → s.pageFailed pgPlan = false → firstBad (s.plChecks c) = some e →
    (plOp c.block ≠ 2 → exec (.planCmd c.id n) s = .next (s.plRefuse c e.status e.reason 0)) ∧
    (plOp c.block = 2 → exec (.repairCmd c.id n) s = .next (s.plRefuse c e.status e.reason 0))) ∧
  (∀ (c : Command) (r : PlanRun) (p : PlanInput) (s u : State), s.plan.run = some r → s.cmd r.cmd = some c → c.phase = .running →
    r.loaded = false → r.due ≤ s.time → u = (s.noteAreas c (s.plFetched c)).arrived c.id → u.planFetch c = .ok p →
    s.plLoad = u.planBegin c r p) ∧
  (∀ (c : Command) (n : Nat) (s : State), s.cmd c.id = some c → (s.planRunOf c).isSome = true → c.phase = .running →
    (plOp c.block ≠ 2 → exec (.planCmd c.id n) s = .next (s.planRunUnits c n)) ∧
    (plOp c.block = 2 → exec (.repairCmd c.id n) s = .next (s.planRunUnits c n))) ∧
  (∀ (c : Command) (r : PlanRun) (n : Nat) (s u : State), s.planRunOf c = some r → r.loaded = true → s.planReads r = (u, false) → r.todo = [] →
    s.planRunUnits c (n + 1) = u.plFinish r St.OK 1)

/-- BUNDLE_ISSUE (R538): a bundle that steps 1 to 4 clear, with no interrupt to take and nothing to wait for, takes effect whole; one that
raises an exception is trapped; a core whose pc is misaligned or past its text takes the fetch exception. ENG_WAIT_RETURN and WAIT_I_WAKE
(R477, R499): a bundle stalled on eng.wait or wait.i is issued again. -/
def Obligations.BundlesIssue : Prop :=
  (∀ (k at_ : Nat) (act : List Slot) (s u : State), k < 8 → (s.core k).phase = .running →
    (s.coreTimer k).checkBundle k = (u, .clear act at_) → (u.core k).irq = false → u.bundleStall (u.core k) act = none →
    exec (.bundleIssue k) s = .next (u.runBundle k at_ act)) ∧
  (∀ (k at_ : Nat) (act : List Slot) (w : Stall) (s u : State), k < 8 → (s.core k).phase = .running →
    (s.coreTimer k).checkBundle k = (u, .clear act at_) → (u.core k).irq = false → u.bundleStall (u.core k) act = some w →
    exec (.bundleIssue k) s = .next (u.updCore k (fun c => { c with stall := some w }))) ∧
  (∀ (k e v at_ : Nat) (s u : State), k < 8 → (s.core k).phase = .running → (s.coreTimer k).checkBundle k = (u, .raises e v at_) →
    exec (.bundleIssue k) s = .next (u.trap k e v at_)) ∧
  (∀ (k at1 at2 : Nat) (bs : List Byte) (s u : State), Nat.max (s.core k).nextIssue s.gov.ccycles < s.cycleLimit → (s.core k).pc % 64 = 0 →
    (s.core k).pc + 64 ≤ (s.core k).text → s.lmRead k (s.core k).pc 64 = (u, some bs) →
    (s.core k).readyAt (Nat.max (s.core k).nextIssue s.gov.ccycles) ((bundleSlots bs).map (fun x => 96 + x.pr)) = some at1 →
    (s.core k).readyAt at1 (((s.core k).active (bundleSlots bs)).flatMap Slot.reads) = some at2 → at2 < u.cycleLimit →
    conflict ((s.core k).active (bundleSlots bs)) = none → ((s.core k).active (bundleSlots bs)).filterMap (u.slotFault (s.core k)) = [] →
    s.checkBundle k = (u, .clear ((s.core k).active (bundleSlots bs)) at2)) ∧
  (∀ (k : Nat) (s : State), Nat.max (s.core k).nextIssue s.gov.ccycles < s.cycleLimit →
    ((s.core k).pc % 64 ≠ 0 ∨ (s.core k).text < (s.core k).pc + 64) →
    s.checkBundle k = (s, .raises 8 (s.core k).pc (Nat.max (s.core k).nextIssue s.gov.ccycles))) ∧
  (∀ (k : Nat) (s : State), s.cycleLimit ≤ Nat.max (s.core k).nextIssue s.gov.ccycles → s.checkBundle k = (s, .early)) ∧
  (∀ (k : Nat) (s : State), k < 8 → (s.core k).stall = some .wait → exec (.engWaitReturn k) s = exec (.bundleIssue k) s) ∧
  (∀ (k : Nat) (s : State), k < 8 → (s.core k).stall = some .waitI → exec (.waitIWake k) s = exec (.bundleIssue k) s) ∧
  (∀ (k at_ : Nat) (act : List Slot) (s u : State), k < 8 → (s.core k).stall = some .wait → (s.core k).phase = .running →
    (s.coreTimer k).checkBundle k = (u, .clear act at_) → (u.core k).irq = false → u.bundleStall (u.core k) act = none →
    exec (.engWaitReturn k) s = .next (u.runBundle k at_ act)) ∧
  (∀ (k at_ : Nat) (act : List Slot) (s u : State), k < 8 → (s.core k).stall = some .waitI → (s.core k).phase = .running →
    (s.coreTimer k).checkBundle k = (u, .clear act at_) → (u.core k).irq = false → u.bundleStall (u.core k) act = none →
    exec (.waitIWake k) s = .next (u.runBundle k at_ act)) ∧
  (∀ (k : Nat) (s : State), (s.core k).stall ≠ some .wait → exec (.engWaitReturn k) s = .next s) ∧
  (∀ (k : Nat) (s : State), (s.core k).stall ≠ some .waitI → exec (.waitIWake k) s = .next s)

/-- INTERRUPT_TAKE (R497, R520): epc takes the pc, cause the source's code with bit 63 set, tval 0, status.IE moves to PIE and
clears, and the pc is tvec; the registers, local memory and store buffer stay, and every other core keeps its state. A bundle that raises an
exception is trapped in its place. -/
def Obligations.InterruptEntersTheHandler : Prop :=
  (∀ (k : Nat) (s u v : State) (x : Checked), k < 8 → u = s.coreTimer k → (u.core k).irq = true → u.checkBundle k = (v, x) →
    (∀ e w at_, x ≠ .raises e w at_) → ∃ t, exec (.interruptTake k) s = .next t ∧
      (t.core k).epc = (s.core k).pc ∧ (t.core k).cause = 0x8000000000000000 + irqCode (u.core k).pendingSources ∧
      (t.core k).tval = 0 ∧ (t.core k).status = 4 * b2n (bit (s.core k).status 2) + 2 ∧ (t.core k).pc = (s.core k).tvec ∧
      (t.core k).stall = none ∧ (t.core k).regs = (s.core k).regs ∧ (t.core k).lmem = (s.core k).lmem ∧ (t.core k).sb = (s.core k).sb ∧
      (∀ i, i ≠ k → t.core i = s.core i) ∧ t = { s with regs := t.regs, events := t.events, gnm := t.gnm }) ∧
  (∀ (k e w at_ : Nat) (s u v : State), k < 8 → u = s.coreTimer k → (u.core k).irq = true → u.checkBundle k = (v, .raises e w at_) →
    exec (.interruptTake k) s = .next (v.trap k e w at_))

/-- TIMER_EXPIRY (R560): ip[2] becomes pending at timecmp, and not before. PROGRAM_LOAD_DONE, STORE_VISIBLE, TRANSFER_START, TRANSFER_END and
CORE_SPARGE_DONE (R470, R503, R475, R529): a store that becomes visible in a cycle performs at the cycle's end (R524). -/
def Obligations.CoreMemoryAndTimer : Prop :=
  (∀ (k : Nat) (s : State), k < 8 → (s.core k).timecmp ≤ s.time →
    exec (.timerExpiry k) s = .next (s.updCore k (fun c => { c with timer := true }))) ∧
  (∀ (k : Nat) (s : State), k < 8 → s.time < (s.core k).timecmp → ∃ t, exec (.timerExpiry k) s = .next t ∧ ∀ i, t.core i = s.core i) ∧
  (∀ (k sp addr len at_ : Nat) (j : Job) (img arg : List Byte) (s u v : State), k < 8 → (s.core k).job = some j.entry →
    s.job j.entry = some j → (s.core k).phase = .loading → (s.core k).lull = .awake → sp = fld (leAt j.desc 4 2) 1 0 →
    addr = leAt j.desc 0x10 8 → len = leAt j.desc 0x18 4 → u = (s.backlogLess j.hostImage).noteRead (some j.entry) sp addr len →
    v = (argSegments j).foldl (fun s a => s.noteRead (some j.entry) a.space a.addr a.len) u →
    v.readSpace j.region j.func sp addr len = some img → v.readArgs j (argSegments j) = some arg → imageDefectOf img arg.length = none →
    at_ = pad64 (leAt img 0x0C 4 + leAt img 0x10 4 + leAt img 0x14 4) →
    exec (.programLoadDone k) s = .next ((v.lmFresh k 0 (ceilDiv (at_ + arg.length) 8)).updCore k (fun c => { c with
      phase := .running, pc := leAt img 8 4, text := leAt img 0x0C 4, argAddr := at_, argBytes := arg.length
      lmem := (Tab.putList (fun _ => 0) at_ arg (Tab.putList (fun _ => 0) 0 ((img.drop 64).take (leAt img 0x0C 4 + leAt img 0x10 4)) []))
      cycle0 := v.gov.ccycles, nextIssue := v.gov.ccycles }))) ∧
  (∀ (k : Nat) (s : State), k < 8 → s.gnm.visible.count k < (s.core k).sb.length →
    exec (.storeVisible k) s = .next { s with gnm := { s.gnm with visible := s.gnm.visible ++ [k] } }) ∧
  (∀ (k : Nat) (e : StoreEntry) (es : List StoreEntry) (old : List Byte) (s u v : State), s.gnm.visible = [k] → (s.core k).sb = e :: es →
    u = { s with gnm := { s.gnm with visible := [] } } → s.sparging e.space e.addr (opSize e.op) = false →
    (u.updCore k (fun c => { c with sb := es })).access e.space
      { rank := coreStop k, region := some (s.core k).region, job := (s.core k).job, addr := e.addr, op := e.op, upset := 0 } = (v, some old) →
    (e.dest = none → State.performStores 256 s = (v.openGates k).haltStep k) ∧
    (∀ d, e.dest = some d → State.performStores 256 s = ((v.updCore k (fun c => { c with regs :=
      (Tab.put (fun _ => 0) d (to64 (sInt (8 * old.length) (leNat old))) c.regs) })).openGates k).haltStep k)) ∧
  (∀ (k : Nat) (t : Transfer) (ts : List Transfer) (s : State), k < 8 → (s.core k).transfers = t :: ts → t.start = none →
    (s.core k).storesBelow t.after = false → s.hostShut (s.core k) t = false → s.areaIn (s.core k).region t.srcSpace t.src t.len = true →
    s.areaIn (s.core k).region t.dstSpace t.dst t.len = true →
    exec (.transferStart k) s = .next ((if t.srcSpace = spHost then s.addBacklog t.len else s).updCore k (fun c =>
      { c with transfers := { t with start := some (if t.srcSpace = spHost then s.addBacklog t.len else s).time } :: ts }))) ∧
  (∀ (k t0 : Nat) (t : Transfer) (ts : List Transfer) (bs : List Byte) (s : State), k < 8 → (s.core k).transfers = t :: ts →
    t.start = some t0 → t0 + ceilDiv t.len t.rate ≤ s.time → s.hostShut (s.core k) t = false →
    s.sparging t.srcSpace t.src t.len = false → s.sparging t.dstSpace t.dst t.len = false →
    (s.noteRead (s.core k).job t.srcSpace t.src t.len).readSpace (s.core k).region (s.core k).func t.srcSpace t.src t.len = some bs →
    exec (.transferEnd k) s = .next (((s.noteRead (s.core k).job t.srcSpace t.src t.len).writeSpace (s.core k).job t.dstSpace
      (s.core k).func t.dst bs).transferEnd k St.OK)) ∧
  (∀ (k : Nat) (s : State), k < 8 → (s.core k).phase = .sparging → (s.core k).spargeEnd ≤ s.gov.ccycles →
    ∃ t, exec (.coreSpargeDone k) s = .next t ∧ (t.core k).phase = .idle ∧ (t.core k).lmem = [] ∧ (t.core k).idleSince = s.time ∧
      (∀ i, i ≠ k → t.core i = s.core i) ∧ t = { s with events := t.events, gnm := t.gnm, mem := t.mem })

/-- GOVERNOR_TICK, CCLK_GAP_END, AVS_ACK and AVS_TIMEOUT (R695 to R697, R1117, R1147, R1158): an acknowledgement is tested at the end of
its cycle. THERMAL_SAMPLE (R699): a due sample reads the sensors, stores the hottest junction and enters its thermal state. -/
def Obligations.GovernorSteps : Prop :=
  (∀ (t0 e : Nat) (short : Bool) (s : State), s.gov.tickDue = some (t0, e, short) → s.ready = false → s.gov.therm = .normal →
    ∃ t, exec .governorTick s = .next t ∧ t.rg Reg.GOV_TICK_ENERGY = Nat.min (e / 1000) 0xFFFFFFFF ∧ t.gov = { s.gov with tickDue := none } ∧
    (∀ a, a ≠ Reg.GOV_TICK_ENERGY → t.reg a = s.reg a) ∧ t = { s with regs := t.regs, gov := t.gov }) ∧
  (∀ (t0 e want : Nat) (short : Bool) (s u : State), s.gov.tickDue = some (t0, e, short) → s.ready = true →
    s.rg64 Reg.BOOT_READY_TIME_LO + 20000 ≤ t0 →
    want = (if s.rf Reg.GOV_BUDGET 9 0 * 20000000 < e ∨ short = true then Nat.min 3 (s.ratio + 1)
      else if e * 256 < s.rf Reg.GOV_BUDGET 9 0 * 20000000 * s.rf Reg.GOV_BUDGET 31 24 then s.ratio - 1 else s.ratio) →
    u = (if s.gov.therm = .normal then s.wr Reg.GOV_TICK_ENERGY (Nat.min (e / 1000) allOnes32)
      else (s.wr Reg.GOV_TICK_ENERGY (Nat.min (e / 1000) allOnes32)).bump Reg.GOV_THERM_TICKS 1) → u.ready = true →
    u.rg64 Reg.BOOT_READY_TIME_LO = s.rg64 Reg.BOOT_READY_TIME_LO →
    exec .governorTick s = .next ({ u with gov := { u.gov with tickDue := none } }.setTarget
      ({ u with gov := { u.gov with tickDue := none } }.limitCode want))) ∧
  (∀ s : State, s.gov.tickDue = none → exec .governorTick s = .next s) ∧
  (∀ (t0 : Nat) (s u v w : State), s.gov.gapEnd = some t0 → t0 ≤ s.time → s.gov.slowAfter = none → s.gov.gapQuiet = false →
    u = (s.wf Reg.GOV_CLK_STATE 1 0 (s.rf Reg.GOV_CLK_STATE 5 4)).wf Reg.GOV_CLK_STATE 8 8 0 →
    v = ({ u with gov := { u.gov with gapEnd := none, gapQuiet := false, rootPhase := cclkDiv (s.rf Reg.GOV_CLK_STATE 5 4) } }.bump
      Reg.GOV_RATIO_CHANGES 1).event 0x0800 pgGovernor →
    w = (if s.ratio < s.rf Reg.GOV_CLK_STATE 5 4 then v.avsRequest false (s.rf Reg.GOV_CLK_STATE 5 4) else v) →
    w.gov.slowAfter = none → exec .cclkGapEnd s = .next w) ∧
  (∀ (v : Word) (s u : State), u = s.turn .manager → ∃ w, w = u.wr Reg.PINS_AVS_ACKED (fld v.toNat 15 0) ∧
    exec (.avsAck .manager v) s = .next { w with gov := { w.gov with ackAsked := some (fld v.toNat 15 0) } }) ∧
  (∀ (v : Word) (s : State), exec (.avsAck .host v) s = .next (s.turn .host)) ∧
  (∀ (mv : Nat) (s : State), s.gov.ackAsked = some mv →
    (bit (s.rg Reg.PINS_AVS_TARGET) 16 = false ∨ bit (s.rg Reg.PINS_AVS_TARGET) 17 = false) → s.rf Reg.PINS_AVS_TARGET 15 0 = mv →
    s.ackStep = { s with gov := { s.gov with ackAsked := none } }.wf Reg.PINS_AVS_TARGET 16 16 0) ∧
  (∀ (mv t0 : Nat) (s u : State), s.gov.ackAsked = some mv → bit (s.rg Reg.PINS_AVS_TARGET) 16 = true → bit (s.rg Reg.PINS_AVS_TARGET) 17 = true →
    s.rf Reg.PINS_AVS_TARGET 15 0 ≤ mv → s.gov.avsSince = some t0 →
    u = ({ s with gov := { s.gov with ackAsked := none } }.wf Reg.PINS_AVS_TARGET 16 16 0).wf Reg.GOV_CLK_STATE 9 9 0 →
    s.ackStep = { u with gov := { u.gov with avsSince := none } }.startGap (u.rf Reg.GOV_CLK_STATE 5 4)) ∧
  (∀ (t0 : Nat) (s : State), s.gov.avsSince = some t0 → t0 + 200000 ≤ s.time →
    exec .avsTimeout s = .next ((s.withdrawRaise.bump Reg.GOV_AVS_TIMEOUTS 1).raiseErr pgGovernor 0x0804 (s.rf Reg.GOV_CLK_STATE 5 4))) ∧
  (∀ (readings : List (Option Int)) (s u v : State) (ts : List Int), s.gov.lastSample + 10000 ≤ s.time →
    (List.range 16).foldl (State.thermOne readings) ({ s with gov := { s.gov with lastSample := s.time } }, []) = (u, ts) →
    v = { u with boot := { u.boot with therm := ts } }.wr Reg.GOV_TJ_MAX (toTwos 16 (hottest ts)) →
    ∃ w, w = (v.enterTherm (v.gov.therm.next (hottest ts))).platformEvent 1 (tjThreshold (hottest ts)) (hottest ts) ∧
      (hottest ts < 1840 → exec (.thermalSample readings) s = .next w) ∧
      (1840 ≤ hottest ts → v.gov.therm ≠ .shutdown → exec (.thermalSample readings) s = .next
        (w.thermShutdown ((findIdx (fun x => x == hottest ts) ts).getD 0))))

/-- EPOCH_BOUNDARY, SYNC_PULSE, SHORT_SYNC_PULSE and SYNC_OUT_PULSE_END (R702 to R704): a boundary that follows SYNC and gets no pulse in
its window falls at the window's end, once the cycle's own pulses are in. -/
def Obligations.EpochStepsComplete : Prop :=
  (∀ s : State, s.rf Reg.GOV_SYNC_CTRL 0 0 = 0 → s.epochNext ≤ s.time → exec .epochBoundary s = .next (s.boundary s.epochNext)) ∧
  (∀ s : State, s.rf Reg.GOV_SYNC_CTRL 0 0 = 0 → s.time < s.epochNext → exec .epochBoundary s = .next s) ∧
  (∀ s : State, s.rf Reg.GOV_SYNC_CTRL 0 0 = 1 → s.epochNext + s.gov.epochLen / 8 ≤ s.time →
    exec .epochBoundary s = .next { s with gov := { s.gov with missAsked := true } }) ∧
  (∀ s : State, s.gov.missAsked = true → s.gov.bound = none →
    s.missStep = (({ s with gov := { s.gov with missAsked := false } }.wf Reg.GOV_SYNC_COUNTS 7 0
      (satAdd 8 (s.rf Reg.GOV_SYNC_COUNTS 7 0) 1)).event 0x0804 pgGovernor).boundary (s.epochNext + s.gov.epochLen / 8)) ∧
  (∀ (b : Nat) (s : State), s.gov.missAsked = true → s.gov.bound = some b → s.missStep = { s with gov := { s.gov with missAsked := false } }) ∧
  (∀ (src : Nat) (s : State), s.rf Reg.GOV_SYNC_CTRL 0 0 = 1 → s.syncSelected src = true →
    s.epochNext ≤ s.time - 40 + s.gov.epochLen / 8 → s.time - 40 + 40 ≤ s.epochNext + s.gov.epochLen / 8 →
    exec (.syncPulse src) s = .next ((((s.wf Reg.GOV_SYNC_COUNTS 31 16 (satAdd 16 (s.rf Reg.GOV_SYNC_COUNTS 31 16) 1)).wr Reg.GOV_SYNC_LAST
      (toTwos 32 (((s.time - 40 : Nat) : Int) - (s.epochNext : Int)))).event 0x0802 pgGovernor).boundary (s.time - 40))) ∧
  (∀ (src : Nat) (s : State), s.rf Reg.GOV_SYNC_CTRL 0 0 = 1 → s.syncSelected src = true →
    exec (.shortSyncPulse src) s = .next s.syncIgnored) ∧
  (∀ (t0 : Nat) (s : State), s.gov.syncOutEnd = some t0 → t0 ≤ s.time →
    exec .syncOutPulseEnd s = .next { s with gov := { s.gov with syncOut := false, syncOutEnd := none } })

/-- TIME_LOAD, BUDGET_WRITE, EPOCH_LEN_WRITE and CLK_CTRL_WRITE (R680, R711 to R713, R715). -/
def Obligations.GovernorWritesComplete : Prop :=
  (∀ (p : Path) (v : Word) (s u : State), u = s.turn p → bit v.toNat 0 = true → u.working = false → u.poolUsed = 0 →
    u.rg64 Reg.GOV_TIME_LOAD_LO / 5 * 5 ≠ u.time → ∃ t, exec (.timeLoad p v) s = .next t ∧
      t.time = u.rg64 Reg.GOV_TIME_LOAD_LO / 5 * 5 ∧ t.gov.epochLen = u.rg Reg.GOV_EPOCH_LEN ∧ t.gov.lastSample = t.time ∧
      t.rg64 Reg.GOV_EPOCH_START_LO = t.time % 0x10000000000000000 ∧
      t.rg64 Reg.GOV_EPOCH_NEXT_LO = (t.time + u.rg Reg.GOV_EPOCH_LEN) % 0x10000000000000000 ∧
      t.jobs = u.jobs ∧ t.queues = u.queues ∧ t.hostMem = u.hostMem ∧ t.commons = u.commons ∧ t.hbm = u.hbm) ∧
  (∀ (p : Path) (v : Word) (s u : State), u = s.turn p → bit v.toNat 0 = true → (u.working = true ∨ 0 < u.poolUsed) →
    (exec (.timeLoad p v) s = .next (u.govReason 3))) ∧
  (∀ (p : Path) (v : Word) (s u : State), u = s.turn p → ∃ t, exec (.budgetWrite p none v) s = .next t ∧
    150 ≤ t.rf Reg.GOV_BUDGET 9 0 ∧ t.rf Reg.GOV_BUDGET 9 0 ≤ 700 ∧
    (150 ≤ fld v.toNat 9 0 → fld v.toNat 9 0 ≤ 700 → t.rf Reg.GOV_BUDGET 9 0 = fld v.toNat 9 0) ∧
    t.rf Reg.GOV_BUDGET 31 24 = fld v.toNat 31 24 ∧ (∀ a, a ≠ Reg.GOV_BUDGET → t.reg a = u.reg a) ∧ t = { u with regs := t.regs }) ∧
  (∀ (p : Path) (r : Nat) (v : Word) (s u : State), u = s.turn p → r < 16 →
    exec (.budgetWrite p (some r) v) s = .next (u.wr (govRg r Reg.GRG_RG_BUDGET) v.toNat)) ∧
  (∀ (p : Path) (v : Word) (s u : State), u = s.turn p → 100000 ≤ v.toNat → v.toNat ≤ 100000000 → v.toNat % 5 = 0 → u.gov.bound = none →
    exec (.epochLenWrite p v) s = .next (u.wr Reg.GOV_EPOCH_LEN v.toNat)) ∧
  (∀ (p : Path) (v : Word) (b : Nat) (s u w : State), u = s.turn p → 100000 ≤ v.toNat → v.toNat ≤ 100000000 → v.toNat % 5 = 0 →
    u.gov.bound = some b → w = u.wr Reg.GOV_EPOCH_LEN v.toNat →
    exec (.epochLenWrite p v) s = .next ({ w with gov := { w.gov with epochLen := v.toNat } }.wr64 Reg.GOV_EPOCH_NEXT_LO (b + v.toNat))) ∧
  (∀ (p : Path) (v : Word) (s u : State), u = s.turn p → (v.toNat < 100000 ∨ 100000000 < v.toNat ∨ v.toNat % 5 ≠ 0) →
    exec (.epochLenWrite p v) s = .next (u.govReason 1)) ∧
  (∀ (p : Path) (v : Word) (s u : State), u = s.turn p → fld v.toNat 1 0 ≤ fld v.toNat 3 2 →
    exec (.clkCtrlWrite p v) s = .next (u.wr Reg.GOV_CLK_CTRL (fld v.toNat 3 0))) ∧
  (∀ (p : Path) (v : Word) (s u : State), u = s.turn p → fld v.toNat 3 2 < fld v.toNat 1 0 →
    exec (.clkCtrlWrite p v) s = .next (u.govReason 2))

/-- REFCLK_LOSS and REFCLK_RETURN (R1047). LULL_ENTRY, LULL_OFF_ENTRY and WAKE_COMPLETE (R705 to R708, R788), for tuns, cores
and engines. -/
def Obligations.LullAndRefclk : Prop :=
  (∀ s : State, s.gov.refclk = true → s.gov.locked = true →
    exec .refclkLoss s = .next (({ s with gov := { s.gov with refclk := false } }.raiseErr pgGovernor 0x0801 0).unlock)) ∧
  (∀ s : State, s.gov.refclk = true → s.gov.locked = false → exec .refclkLoss s = .next { s with gov := { s.gov with refclk := false } }) ∧
  (∀ s : State, exec .refclkReturn s = .next { s with gov := { s.gov with refclk := true } }) ∧
  (∀ (n : Nat) (s : State), s.lullOn = true → n < 128 → (s.tunSt n).lull = .awake → s.tunIdle n = true →
    s.idleLong (s.tunSt n).idleSince = true → exec (.lullEntry (.tun n)) s = .next
      ({ s with gov := { s.gov with lullNow := n :: s.gov.lullNow } }.updTun n (fun x => { x with lull := .lull }))) ∧
  (∀ (k : Nat) (s : State), s.lullOn = true → k < 8 → (s.core k).lull = .awake → s.coreIdle k = true →
    s.idleLong (s.core k).idleSince = true → exec (.lullEntry (.core k)) s = .next (s.updCore k (fun c => { c with lull := .lull }))) ∧
  (∀ (n : Nat) (s : State), s.lullOn = true → 1 ≤ n → n ≤ 3 → (s.engLull (engineAt n)).lull = .awake → s.engineIdle n = true →
    s.idleLong (s.engLull (engineAt n)).idleSince = true →
    exec (.lullEntry (.engine n)) s = .next (s.setEngLull (engineAt n) { s.engLull (engineAt n) with lull := .lull })) ∧
  (∀ (n : Nat) (s : State), n < 128 → s.ready = true → s.rf Reg.GOV_LULL_CTRL 30 30 = 1 → (s.tunRegion n).isSome = true →
    (s.tunSt n).load = none → (s.tunSt n).lull = .awake ∨ (s.tunSt n).lull = .lull → s.tunIdle n = true →
    s.idleLong (s.tunSt n).idleSince = true → exec (.lullOffEntry n) s = .next (s.updTun n (fun x => { x with lull := .off }))) ∧
  (∀ (n t0 : Nat) (off : Bool) (s u : State), (s.tunSt n).lull = .waking off t0 → t0 ≤ s.time → u = s.updTun n (fun x => { x with lull := .awake }) →
    exec (.wakeComplete (.tun n)) s = .next (if off then u.event 0x0A04 pgMemory else u)) ∧
  (∀ (k t0 : Nat) (off : Bool) (s u : State), (s.core k).lull = .waking off t0 → t0 ≤ s.time → u = s.updCore k (fun c => { c with lull := .awake }) →
    exec (.wakeComplete (.core k)) s = .next (if off then u.event 0x0A04 pgMemory else u)) ∧
  (∀ (n t0 : Nat) (off : Bool) (s : State), 1 ≤ n → n ≤ 3 → (s.engLull (engineAt n)).lull = .waking off t0 → t0 ≤ s.time →
    exec (.wakeComplete (.engine n)) s = .next (s.setEngLull (engineAt n) { s.engLull (engineAt n) with lull := .awake }))

/-- RGN_APPLY, RGN_REVERT and RGN_BAD_OP (R754 to R758): a write of RGN_CMD arrives, and takes effect as the next cycle begins. -/
def Obligations.RegionCommandsComplete : Prop :=
  (∀ (p : Path) (v : Word) (s u : State), u = s.turn p →
    (fld v.toNat 31 28 = 1 → exec (.rgnApply p v) s = .next { u with mem := { u.mem with rgnAsks := u.mem.rgnAsks ++ [v] } }) ∧
    (fld v.toNat 31 28 = 2 → exec (.rgnRevert p v) s = .next { u with mem := { u.mem with rgnAsks := u.mem.rgnAsks ++ [v] } }) ∧
    (fld v.toNat 31 28 ≠ 1 → fld v.toNat 31 28 ≠ 2 →
      exec (.rgnBadOp p v) s = .next { u with mem := { u.mem with rgnAsks := u.mem.rgnAsks ++ [v] } })) ∧
  (∀ (v : Word) (s : State), s.mem.rgnAsks = [v] → s.rgnStep = { s with mem := { s.mem with rgnAsks := [] } }.rgnCommand v) ∧
  (∀ (v : Word) (r : Nat) (s : State), fld v.toNat 31 28 = 1 → r = fld v.toNat 3 0 → s.ready = true → s.pageFailed pgFabric = false →
    s.rf Reg.FAB_FAB_STATE 0 0 = 0 → (s.staged r).rect = (s.rgn r).rect → (s.staged r).commons = (s.rgn r).commons →
    (s.staged r).hbm = (s.rgn r).hbm → s.rgnCommand v = (s.setRgn r (s.staged r)).rgnResult r 0) ∧
  (∀ (v : Word) (r : Nat) (s : State), fld v.toNat 31 28 = 1 → r = fld v.toNat 3 0 → s.ready = true → s.pageFailed pgFabric = false →
    s.rf Reg.FAB_FAB_STATE 0 0 = 0 → (s.staged r).rect ≠ (s.rgn r).rect → s.quiet r (s.staged r).rect.toNat = true →
    s.rgnCommand v = if s.applyCheck r (s.staged r) = 0 then (s.reconfigure r (s.staged r)).rgnResult r 0
      else s.rgnResult r (s.applyCheck r (s.staged r))) ∧
  (∀ (v : Word) (s : State), fld v.toNat 31 28 = 1 → s.ready = false → s.rgnCommand v = s.rgnResult (fld v.toNat 3 0) 7) ∧
  (∀ (v : Word) (s : State) (r : Nat), fld v.toNat 31 28 = 2 → r = fld v.toNat 3 0 → ∃ t, s.rgnCommand v = t ∧
    t.reg (fabRg r Reg.FRG_RG_RECT) = (s.rgn r).rect ∧ t.reg (fabRg r Reg.FRG_RG_QUOTA) = (s.rgn r).quota ∧
    t.reg (fabRg r Reg.FRG_RG_COMMONS) = (s.rgn r).commons ∧ t.reg (fabRg r Reg.FRG_RG_HBM) = (s.rgn r).hbm ∧ t = { s with regs := t.regs }) ∧
  (∀ (v : Word) (s : State), fld v.toNat 31 28 = 0 ∨ 2 < fld v.toNat 31 28 → s.rgnCommand v = s.rgnResult (fld v.toNat 3 0) 6)

/-- PACKET_HOP, MULTICAST_COPY and PACKET_STUCK_TIMEOUT (R725 to R737, R764): the offered packet steps, or the one named; a head at its own
exit leaves in the cycle in which that output serves it. -/
def Obligations.PacketsMove : Prop :=
  (∀ (q : Packet) (s : State), s.packet q.id = some q → q.cls ≠ .mc → q.loc < 128 →
    exec (.packetHop none q.id) s = .next (s.meshStep q)) ∧
  (∀ (q : Packet) (s : State), s.packet q.id = some q → q.cls ≠ .mc → 128 ≤ q.loc → q.loc < 256 →
    exec (.packetHop none q.id) s = .next (s.ringStep q)) ∧
  (∀ (q : Packet) (s : State), s.packet q.id = some q → q.cls ≠ .mc → 256 ≤ q.loc →
    exec (.packetHop none q.id) s = .next (s.enterStep q)) ∧
  (∀ (o : PacketOffer) (n : Nat) (q : Packet) (s u : State), o.cls ≠ .mc → o.flits ≠ 0 → o.flits ≤ 9 → placeGood o.src = true → placeGood o.dst = true →
    s.offer o = (u, s.mem.nextPacket) → u.packet s.mem.nextPacket = some q → q.cls = o.cls → 256 ≤ q.loc →
    exec (.packetHop (some o) n) s = .next (u.enterStep q)) ∧
  (∀ (q : Packet) (t : Nat) (s : State), q.loc = q.target → s.front q = true → s.packetNow q < s.cycleLimit → s.routerBad q.loc = false →
    (q.dst < 128 → s.tunOfRegion q q.loc = true) → s.grant q q.exit = some t →
    s.meshStep q = ((s.takePort q q.loc q.exit t).dropPacket q.id).rtrCount q.loc q.exit 0 q.flits) ∧
  (∀ (q : Packet) (port : Nat) (s : State), s.packet q.id = some q → q.cls = .mc → q.loc < 256 →
    exec (.multicastCopy none q.id port) s = .next (s.mcStep q port)) ∧
  (∀ (q : Packet) (port : Nat) (s : State), s.packet q.id = some q → q.cls = .mc → 256 ≤ q.loc →
    exec (.multicastCopy none q.id port) s = .next (s.mcEnter q)) ∧
  (∀ (q : Packet) (s : State), (∃ t, t < 128 ∧ Nat.testBit q.mask t = true ∧ s.tunOfRegion q t = false) →
    s.mcEnter q = s.containDrop q 2 q.src portTun) ∧
  (∀ (q : Packet) (s : State), s.packet q.id = some q → q.since + 65536 ≤ s.gov.ccycles →
    exec (.packetStuckTimeout q.id) s = .next (((s.dropPacket q.id).raiseErr pgFabric 0x0204 q.place).packetJobEnds q.job)) ∧
  (∀ (q : Packet) (s : State), s.packet q.id = some q → s.gov.ccycles < q.since + 65536 → exec (.packetStuckTimeout q.id) s = .next s)

/-- COMMONS_ACCESS and HBM_ACCESS (R770, R797): a request that may be served takes effect and its reply stands; a reading atomic leaves the
sum in memory. ECC_WRITE_BACK, PATROL_SCRUB_READ, HBM_OCCUPANCY_WINDOW and HBM_CATASTROPHIC_TEMP (R774, R798, R799, R807). -/
def Obligations.MemoryAccessesComplete : Prop :=
  (∀ (r : MemReq) (s u : State), comBank r.addr < 32 → inSpace spCom r = true → r.addr % 64 + opSize r.op ≤ 64 → s.contained spCom r = true →
    Tab.get (fun _ => []) s.mem.comWait (comBank r.addr) = [] →
    u = { s with mem := { s.mem with replies := [], comWait := Tab.put (fun _ => []) (comBank r.addr) [] s.mem.comWait } } →
    u.accessHeld spCom r = false → exec (.commonsAccess (comBank r.addr) [r]) s = .next (u.serve u spCom r)) ∧
  (∀ (r : MemReq) (port : Nat) (s u v : State), port = 4 * hbmStack r.addr + hbmPort r.addr → port < 16 → inSpace spHbm r = true →
    r.addr % 256 + opSize r.op ≤ 256 → s.contained spHbm r = true → Tab.get (fun _ => []) s.mem.hbmWait port = [] →
    u = { s with mem := { s.mem with replies := [], hbmWait := Tab.put (fun _ => []) port [] s.mem.hbmWait } } → u.accessHeld spHbm r = false →
    v = ({ u with mem := { u.mem with busyCycles := u.mem.busyCycles + 1 } }.bump64 (hbmReg (port / 4) Reg.HBM_BUSY_CYC_LO) 1).event 0x0B40
      (pgHbm (port / 4)) { inst := some (port / 4) } →
    exec (.hbmAccess port [r]) s = .next (v.serve v spHbm r)) ∧
  (∀ (k : Nat) (ks : List Nat) (s : State), s.mem.writeBacks = k :: ks → s.mark k = 1 →
    exec .eccWriteBack s = .next ({ s with mem := { s.mem with writeBacks := ks } }.setMark k 0)) ∧
  (∀ (k : Nat) (ks : List Nat) (s : State), s.mem.writeBacks = k :: ks → s.mark k ≠ 1 →
    exec .eccWriteBack s = .next { s with mem := { s.mem with writeBacks := ks } }) ∧
  (∀ (stack upset a : Nat) (s u : State), stack < 4 → s.rf (hbmReg stack Reg.HBM_SCRUB) 15 0 ≠ 0 →
    s.rf (hbmReg stack Reg.HBM_HBM_STATE) 2 0 = 3 → a = stackAddr stack (Tab.get (fun _ => 0) s.mem.patrol stack) →
    u = { s with mem := { s.mem with patrol := (Tab.put (fun _ => 0) stack
      ((Tab.get (fun _ => 0) s.mem.patrol stack + 1) % stackWords) s.mem.patrol) } } →
    (upset = 0 → exec (.patrolScrubRead stack upset) s = .next (u.noteWord spHbm a)) ∧
    (upset ≠ 0 → exec (.patrolScrubRead stack upset) s = .next
      ((u.setMark (spaceMark spHbm a) (u.mark (spaceMark spHbm a) + upset)).noteWord spHbm a))) ∧
  (∀ (occ : Nat) (s : State), occ = Nat.min 256 (256 * s.mem.busyCycles / 16384) → occ ≤ s.rf Reg.PRD_FETCH_CTRL 7 0 →
    exec .hbmOccupancyWindow s = .next ({ s with mem := { s.mem with busyCycles := 0 } }.wr Reg.MEM_HBM_BUSY occ)) ∧
  (∀ (occ : Nat) (s u : State), occ = Nat.min 256 (256 * s.mem.busyCycles / 16384) → s.rf Reg.PRD_FETCH_CTRL 7 0 < occ →
    u = { s with mem := { s.mem with busyCycles := 0 } }.wr Reg.MEM_HBM_BUSY occ →
    u.rf Reg.PRD_FETCH_CTRL 7 0 = s.rf Reg.PRD_FETCH_CTRL 7 0 →
    exec .hbmOccupancyWindow s = .next ((u.bump Reg.MEM_HBM_HOT 1).event 0x0B05 pgMemory)) ∧
  (∀ (stack : Nat) (s : State), stack < 4 → exec (.hbmCatastrophicTemp stack) s = .next (s.raiseErr (pgHbm stack) 0x0B05 0))

/-- The march commands and steps (R163, R776 to R785, R801, R805): a write of MARCH_CMD is held with its arguments and takes effect at
the end of its cycle. -/
def Obligations.MarchesComplete : Prop :=
  (∀ (p : Path) (v : Word) (fails : List (Nat × Nat)) (s u : State), u = s.turn p →
    (fld v.toNat 31 28 = 1 → exec (.marchDestructive p v fails) s = .next (u.askMarch 1 fails)) ∧
    (fld v.toNat 31 28 = 2 → exec (.marchPreserving p v) s = .next (u.askMarch 2 [])) ∧
    (fld v.toNat 31 28 = 3 → exec (.marchAbort p v) s = .next (u.askMarch 3 [])) ∧
    (fld v.toNat 31 28 = 0 ∨ 3 < fld v.toNat 31 28 → exec (.marchBadOp p v) s = .next (u.askMarch (fld v.toNat 31 28) []))) ∧
  (∀ (a : MemAsk) (s : State), s.mem.asks = [a] → s.memStep = { s with mem := { s.mem with asks := [] } }.memCommand a) ∧
  (∀ (a : MemAsk) (s t : State), a.op = some 1 → a.kind = 2 → a.fails = [] → s.marchCheck true a.kind a.inst a.start a.count = 0 →
    Tab.wf (fun _ => 0) s.commons = true → t = s.memCommand a →
    t.mem.marches.length = s.mem.marches.length + 1 ∧ t.rg Reg.MEM_MARCH_DONE = 0 ∧ t.rg Reg.MEM_MARCH_FIRST = 0 ∧
    t.rg Reg.MEM_MARCH_STATUS = 0x10000000 ∧ t.hbm = s.hbm ∧ t.hostMem = s.hostMem ∧ (∀ x,
      Tab.get (fun _ => (0 : Byte)) t.commons x = if comBank x = a.inst ∧ a.start ≤ comBankWord x ∧ comBankWord x < a.start + a.count then 0
        else Tab.get (fun _ => 0) s.commons x)) ∧
  (∀ (a : MemAsk) (s : State), a.op = some 2 → s.marchCheck false a.kind a.inst a.start a.count = 0 →
    s.memCommand a = s.marchBegin false a.kind a.inst a.start a.count) ∧
  (∀ (a : MemAsk) (c : Nat) (s : State), c ≠ 0 → (a.op = some 1 ∧ s.marchCheck true a.kind a.inst a.start a.count = c ∨
    a.op = some 2 ∧ s.marchCheck false a.kind a.inst a.start a.count = c) → s.memCommand a = s.marchCode c) ∧
  (∀ (a : MemAsk) (m : March) (s : State), a.op = some 3 → s.ready = true → s.mem.marches.getLast? = some m → m.destructive = false →
    s.memCommand a = ({ s with mem := { s.mem with marches := s.mem.marches.dropLast } }.marchState 0).marchCode 5) ∧
  (∀ (a : MemAsk) (m : March) (s : State), a.op = some 3 → s.ready = true → s.mem.marches.getLast? = some m → m.destructive = true →
    s.memCommand a = (({ s with mem := { s.mem with marches := s.mem.marches.dropLast } }.marchSpoil m).marchState 0).marchCode 5) ∧
  (∀ (a : MemAsk) (n : Nat) (s : State), a.op = some n → n = 0 ∨ 3 < n → s.ready = true → s.memCommand a = s.marchCode 3) ∧
  (∀ (r : Run) (m : March) (tun : Nat) (fails : List (Nat × Nat)) (s u v : State), s.run r.cmd = some r →
    s.mem.marches.find? (fun m => m.kind == 0 && m.inst == tun && !m.destructive) = some m → r.tuns = [tun] → s.ssramFree tun .march = true →
    r.phase = .sweeping → m.done < m.count → m.sliceEnd = none → r.runFrom + 3840 ≤ s.gov.ccycles →
    u = s.marchCover m (Nat.min 2048 (m.count - m.done)) fails →
    v = (u.wr (tunReg tun Reg.TUN_SWEEP_LAST_CYC) (satAdd 32 (u.rg (tunReg tun Reg.TUN_SWEEP_LAST_CYC))
      (u.gov.ccycles - r.sweepFrom))).event 0x0109 (pageIdx .tun tun) { inst := some tun } →
    exec (.marchSlice r.cmd tun fails) s = .next (v.updRun r.cmd (fun r => { r with sweepFrom := v.gov.ccycles }))) ∧
  (∀ (m : March) (s : State), s.mem.marches = [m] → m.paused = true → s.engineInUse m.kind = false →
    exec .marchResume s = .next ({ s with mem := { s.mem with marches := [{ m with paused := false }] } }.marchState 1)) ∧
  (∀ (m : March) (fails : List (Nat × Nat)) (s : State), s.mem.marches = [m] → m.destructive = true → s.marchHeld m = false →
    exec (.marchDone fails) s = .next ((s.wr Reg.MEM_MARCH_DONE m.count).marchEnd m m.failed)) ∧
  (∀ (m : March) (fails : List (Nat × Nat)) (s u : State), s.mem.marches = [m] → m.destructive = false → m.kind = 1 ∨ m.kind = 2 →
    m.paused = false → u = s.marchCover m (m.count - m.done) fails →
    exec (.marchDone fails) s = .next (u.marchEnd m ((u.mem.marches.find? (fun x => x.kind == m.kind && x.inst == m.inst)).any (·.failed))))

/-- SPARGE_COMMAND and SPARGE_DONE (R787 to R791, R801, R805): a write of SPARGE_CMD with GO is held with its arguments; a commons sparge
leaves every byte of its range 0 and every other byte as it was, and a tun's takes 4,096 cycles. -/
def Obligations.SpargesComplete : Prop :=
  (∀ (p : Path) (v : Word) (a : MemAsk) (s u : State), u = s.turn p → bit v.toNat 0 = true → a = ⟨none, u.rf Reg.MEM_SPARGE_TARGET 31 28,
    u.rf Reg.MEM_SPARGE_TARGET 7 0, u.rg64 Reg.MEM_SPARGE_BASE_LO, u.rg64 Reg.MEM_SPARGE_BYTES_LO, []⟩ →
    exec (.spargeCommand p v) s = .next { u with mem := { u.mem with asks := u.mem.asks ++ [a] } }) ∧
  (∀ (p : Path) (v : Word) (s u : State), u = s.turn p → bit v.toNat 0 = false → exec (.spargeCommand p v) s = .next u) ∧
  (∀ (a : MemAsk) (s t : State), a.op = none → s.ready = true → a.kind = 1 → a.start % 64 = 0 → a.count ≠ 0 → a.count % 64 = 0 →
    a.start + a.count ≤ spaceSize spCom → s.rangeOwned spCom a.start a.count = false → s.rangeMarched spCom a.start a.count = false →
    s.sparging spCom a.start a.count = false → Tab.wf (fun _ => 0) s.commons = true → t = s.memCommand a →
      (∀ x, a.start ≤ x → x < a.start + a.count → Tab.get (fun _ => (0 : Byte)) t.commons x = 0) ∧
      (∀ x, (x < a.start ∨ a.start + a.count ≤ x) → Tab.get (fun _ => (0 : Byte)) t.commons x = Tab.get (fun _ => 0) s.commons x) ∧
      t.rg Reg.MEM_SPARGE_STATUS = 0x10000000 ∧ t.hbm = s.hbm ∧ t.hostMem = s.hostMem) ∧
  (∀ (a : MemAsk) (s : State), a.op = none → s.ready = true → a.kind = 0 → a.inst < 128 → s.tunInUse a.inst = false → s.gwClaims a.inst = false →
    s.targetBusy 0 a.inst = false → ((s.memCommand a).tunSt a.inst).load = none ∧ (s.memCommand a).rg Reg.MEM_SPARGE_STATUS = 0x10000000) ∧
  (∀ (g : Sparge) (gs : List Sparge) (s : State), s.mem.sparges = g :: gs → g.tun = none →
    exec .spargeDone s = .next (({ s with mem := { s.mem with sparges := gs } }.spargeStatus 2 0).event 0x0A04 pgMemory)) ∧
  (∀ (g : Sparge) (gs : List Sparge) (n : Nat) (s u : State), s.mem.sparges = g :: gs → g.tun = some n → g.from_ + 4096 ≤ s.gov.ccycles →
    u = s.updTun n (fun x => { x with idleSince := s.time }) →
    exec .spargeDone s = .next (({ u with mem := { u.mem with sparges := gs } }.spargeStatus 2 0).event 0x0A04 pgMemory))

/-- NOISE_SAMPLE, NOISE_WORD, RESTART_TEST_START and the commands of the noise sources (R815 to R823, R841, R847 to R849). -/
def Obligations.NoiseSourcesComplete : Prop :=
  (∀ (bits : Nat) (s u : State), s.ent.lastSample + 40 ≤ s.time → s.ent.samples < 128 →
    u = (List.range 3).foldl (State.sampleSource bits) { s with ent := { s.ent with lastSample := s.time } } →
    exec (.noiseSample bits) s = .next { u with ent := { u.ent with samples := u.ent.samples + 1 } }.entStartKats) ∧
  (∀ (bits n : Nat) (b : Bool) (x y : NoiseSource) (s u : State), n < 3 → s.src n = x → x.st = 2 → x.testLeft = none → 0 < x.aptPos →
    Nat.testBit (s.rg Reg.ENT_TP_CTRL) n = false → b = bit bits n → x.test (s.sourceFigures n) b = (y, true, false) →
    s.ent.sources.length = 3 → u = State.sampleSource bits s n →
    (u.src n).st = 3 ∧ (u.src n).testLeft = some 1024 ∧ (u.src n).startUp = false ∧ (u.src n).healthy = false ∧
    (∀ k, k ≠ n → u.src k = s.src k)) ∧
  (∀ s u v : State, 128 ≤ s.ent.samples → s.ent.kat = none → u = { s with ent := { s.ent with policy := s.rf Reg.ENT_CHAN_CTRL 1 0 } } →
    v = (List.range 3).foldl State.offerWord u → exec .noiseWord s = .next { v with ent := { v.ent with
      samples := 0, sources := v.ent.sources.map (fun x => { x with word := 0, healthy := true }) } }) ∧
  (∀ (src t0 : Nat) (s : State), (s.src src).nextTest = some t0 → t0 ≤ s.time →
    exec (.restartTestStart src) s = .next (s.updSrc src (fun x => { x with
      testLeft := some 1024, startUp := false, testBad := false, nextTest := none, rctBit := none, rctRun := 0, aptPos := 0, aptEq := 0 }))) ∧
  (∀ (p : Path) (v : Word) (s u : State), u = s.turn p → exec (.sourceRestart p v) s = .next (u.srcCtrlWrite v.toNat) ∧
    exec (.sourceDisable p v) s = .next (u.srcCtrlWrite v.toNat) ∧ exec (.sourceEnable p v) s = .next (u.srcCtrlWrite v.toNat)) ∧
  (∀ (v n : Nat) (s t : State), n < 3 → s.ent.sources.length = 3 → t = s.srcCtrlWrite v →
    (Nat.testBit v n = true → t.src n = { s.src n with st := 0, testLeft := none, nextTest := none }) ∧
    (Nat.testBit v n = false → Nat.testBit (s.rg Reg.ENT_SRC_CTRL) n = false → Nat.testBit v (8 + n) = true → (s.src n).st = 3 ∨ (s.src n).st = 4 →
      t.src n = { (s.src n).beginTest false with st := 3, failsRow := 0 }) ∧
    (Nat.testBit v n = false → Nat.testBit (s.rg Reg.ENT_SRC_CTRL) n = false →
      Nat.testBit v (8 + n) = false ∨ ((s.src n).st ≠ 3 ∧ (s.src n).st ≠ 4) → t.src n = s.src n) ∧
    (Nat.testBit v n = false → Nat.testBit (s.rg Reg.ENT_SRC_CTRL) n = true →
      (t.src n).startUp = true ∧ (t.src n).testLeft = some 1024 ∧ ((t.src n).st = 1 ∨ (t.src n).st = 0))) ∧
  (∀ (p : Path) (v : Word) (s u : State), u = s.turn p → u.lcState = 1 → exec (.testPatternWrite p false v) s = .next (u.wr Reg.ENT_TP_DATA v.toNat)) ∧
  (∀ (p : Path) (v : Word) (s u : State), u = s.turn p → u.lcState = 1 → u.rg Reg.ENT_TP_CTRL = 0 → v.toNat = 2 →
    exec (.testPatternWrite p true v) s = .next ((u.wr Reg.ENT_TP_CTRL 2).updSrc 1 (fun x => { x with tpPos := 0 }))) ∧
  (∀ (p : Path) (ctrl : Bool) (v : Word) (s u : State), u = s.turn p → u.lcState ≠ 1 →
    exec (.testPatternWrite p ctrl v) s = .next (u.wr Reg.ENT_ENT_CFG_ERR 1))

/-- The channels' steps and SOFT_DATA_READ (R827, R832 to R835, R839, R850, R853). The known-answer tests (R842 to R846, R849, R857). -/
def Obligations.ChannelsAndKnownAnswers : Prop :=
  (∀ (chan t0 : Nat) (b : List Nat) (rest : List (Nat × List Nat)) (s : State), (s.chan chan).coming = (t0, b) :: rest → t0 ≤ s.time →
    exec (.conditionedBlockReady chan) s = .next (s.updChan chan (fun c => { c with coming := rest, blocks := c.blocks ++ [b], readyAt := t0 }))) ∧
  (∀ (chan : Nat) (s : State), chan < 4 → (s.chan chan).instantiated = true → (s.chan chan).gen = none → (s.chan chan).need = none →
    (s.chan chan).st = 2 → (s.chan chan).reserve.length ≤ 4032 → s.reseedDue chan = false →
    exec (.drbgGenerateStart chan) s = .next (s.updChan chan (fun c => { c with gen := some s.time }))) ∧
  (∀ (chan : Nat) (s : State), chan < 4 → (s.chan chan).instantiated = true → (s.chan chan).gen = none → (s.chan chan).need = none →
    (s.chan chan).st = 2 → (s.chan chan).reserve.length ≤ 4032 → s.reseedDue chan = true →
    exec (.drbgGenerateStart chan) s = .next (s.updChan chan (fun c => { c with need := some true, st := 3 }))) ∧
  (∀ (t0 : Nat) (c : Channel) (s : State), s.chan 0 = c → c.gen = some t0 → t0 + 560 ≤ s.time →
    exec (.drbgGenerateDone 0) s = .next (s.updChan 0 (fun x => { x with
      key := (drbgGenerate c.key c.v).2.1, v := (drbgGenerate c.key c.v).2.2, gen := none, since := x.since + 1, freshReseed := false
      reserve := x.reserve ++ (drbgGenerate c.key c.v).1.map (BitVec.ofNat 8) }))) ∧
  (∀ (chan : Nat) (c : Channel) (s : State), s.chan chan = c → c.need = some false → 3 ≤ c.blocks.length → c.readyAt + 60 ≤ s.time → c.st = 1 →
    exec (.drbgReseedDone chan) s = .next (s.updChan chan (fun x => { x with
      key := (drbgInstantiate ((c.blocks.take 3).flatten) chan).1, v := (drbgInstantiate ((c.blocks.take 3).flatten) chan).2
      need := none, blocks := [], since := 0, instantiated := true, freshReseed := false, st := (if x.st = 5 then 5 else 2) }))) ∧
  (∀ (p : Path) (s u v : State) (b : List Byte), u = s.turn p → u.ent.softRead = none → u.draw 3 4 = (v, some b) → ∃ t,
    exec (.softDataRead p) s = .next t ∧ (if p = .host then t.hostPath else t.mgrPath).lastRead = [BitVec.ofNat 32 (leNat b)] ∧ t.ent.chans = v.ent.chans ∧
    (p = .host → t.ent.softHost = true) ∧ (p = .manager → t.ent.softMgr = true) ∧ t.regs = v.regs ∧ t.events = v.events) ∧
  (∀ (p : Path) (s u v : State), u = s.turn p → u.ent.softRead = none → u.draw 3 4 = (v, none) → ∃ t,
    exec (.softDataRead p) s = .next t ∧ (if p = .host then t.hostPath else t.mgrPath).lastRead = [0] ∧ (p = .host → t.ent.softHost = false) ∧
    (p = .manager → t.ent.softMgr = false) ∧ t.regs = (v.notReady 3).regs ∧ t.events = (v.notReady 3).events) ∧
  (∀ (p : Path) (v : Word) (s u : State), u = s.turn p → bit v.toNat 31 = true → fld v.toNat 2 0 = 0 → u.ent.kat = none → u.ent.katEnded = false →
    exec (.katConditioner p v) s = .next ({ u with ent := { u.ent with
      kat := some { target := 0, asked := u.time, started := some u.time, boot := false } } }.katStatus 2 0 0)) ∧
  (∀ (p : Path) (v : Word) (n : Nat) (s u : State), u = s.turn p → bit v.toNat 31 = true → n = fld v.toNat 2 0 → 1 ≤ n → n ≤ 4 → u.ent.kat = none →
    u.ent.katEnded = false → (u.chan (n - 1)).st ≠ 5 → (u.chan (n - 1)).st ≠ 6 → exec (.katChannel p v) s = .next ({ u with ent := { u.ent with
      kat := some { target := n, asked := u.time, started := none, boot := false } } }.katStatus 1 0 n)) ∧
  (∀ (n : Nat) (s : State), s.ent.kat.isSome = true ∨ s.ent.katEnded = true →
    s.katAsk n = { s with ent := { s.ent with katBusy := true } }.katCode 2) ∧
  (∀ (k : Kat) (s : State), s.ent.kat = some k → k.started = none → k.target ≠ 0 →
    4096 ≤ (s.chan (k.target - 1)).reserve.length ∨ k.asked + 100000 ≤ s.time →
    exec .katStart s = .next (({ s with ent := { s.ent with kat := some { k with started := some s.time } } }.updChan (k.target - 1)
      (fun c => { c with st := 4, gen := none, need := none, blocks := [], coming := [] })).katStatus 2 0 k.target)) ∧
  (∀ (k : Kat) (t0 : Nat) (s : State), s.ent.kat = some k → k.boot = false → k.started = some t0 → k.target = 0 → t0 + 1000 ≤ s.time →
    s.ent.katBusy = false →
    exec (.katDone true) s = .next ({ s with ent := { s.ent with kat := none, katEnded := true } }.katStatus 3 0 0)) ∧
  (∀ (k : Kat) (t0 : Nat) (s : State), s.ent.kat = some k → k.boot = false → k.started = some t0 → k.target ≠ 0 → t0 + 2000 ≤ s.time →
    s.ent.katBusy = false → exec (.katDone true) s = .next (({ s with ent := { s.ent with kat := none, katEnded := true } }.katStatus 3 0 k.target).updChan
      (k.target - 1) (fun c => { c with st := 3, need := some false, instantiated := false }))) ∧
  (∀ (k : Kat) (t0 : Nat) (s : State), s.ent.kat = some k → k.boot = false → k.started = some t0 → t0 + 2000 ≤ s.time → s.ent.katBusy = false →
    exec (.katDone false) s = .next (({ s with ent := { s.ent with kat := none, katEnded := true } }.katStatus 3 1 k.target).katFailed k.target)) ∧
  (∀ (p : Path) (v : Word) (s u : State), u = s.turn p → bit v.toNat 31 = true → 4 < fld v.toNat 2 0 →
    exec (.katBadTarget p v) s = .next (u.katCode 3))

/-- LC_TRANSITION, LC_BAD_OP and LC_TRANSITION_DONE (R862, R864, R867 to R869): a transition of the manager path passes its checks or gives the
code of the first that fails; the intent and the commit word are programmed, and a reset is pending. -/
def Obligations.LifecycleCommandsComplete : Prop :=
  (∀ (v : Word) (n : Nat) (s u : State), u = s.turn .manager → fld v.toNat 31 28 = 1 → u.lcCheck (fld v.toNat 2 0) = 0 →
    u.lcRecord (fld v.toNat 2 0) = some n → ¬(u.lcState = 3 ∧ fld v.toNat 2 0 = 4) → exec (.lcTransition .manager v) s = .next (u.lcBegin n)) ∧
  (∀ (v : Word) (n : Nat) (s u : State), u = s.turn .manager → fld v.toNat 31 28 = 1 → u.lcCheck (fld v.toNat 2 0) = 0 →
    u.lcRecord (fld v.toNat 2 0) = some n → u.lcState = 3 → fld v.toNat 2 0 = 4 →
    exec (.lcTransition .manager v) s = .next (u.lcBegin n).renewNonce) ∧
  (∀ (v : Word) (c : Nat) (s u : State), u = s.turn .manager → fld v.toNat 31 28 = 1 → c = u.lcCheck (fld v.toNat 2 0) → c ≠ 0 → u.key.lc = none →
    ¬(u.lcState = 3 ∧ fld v.toNat 2 0 = 4) → exec (.lcTransition .manager v) s = .next (u.lcResult 2 c)) ∧
  (∀ (v : Word) (s u : State), u = s.turn .host → fld v.toNat 31 28 = 1 →
    (u.key.lc = none → exec (.lcTransition .host v) s = .next (u.lcResult 2 8)) ∧
    (u.key.lc.isSome = true → exec (.lcTransition .host v) s = .next (u.wf Reg.KEY_LC_RESULT 7 0 8))) ∧
  (∀ (p : Path) (v : Word) (c : Nat) (s u : State), u = s.turn p → fld v.toNat 31 28 ≠ 1 → c = (if p = .host then 8 else 1) →
    (u.key.lc = none → exec (.lcBadOp p v) s = .next (u.lcResult 2 c)) ∧
    (u.key.lc.isSome = true → exec (.lcBadOp p v) s = .next (u.wf Reg.KEY_LC_RESULT 7 0 c))) ∧
  (∀ (r : LcRun) (s u : State), s.key.lc = some r → r.seedDue = false → r.start + 100000 ≤ s.time →
    u = (s.program (16 * r.record) 8 (lcIntent r.record)).program (16 * r.record + 8) 4 lcCommit →
    exec .lcTransitionDone s = .next (({ u with key := { u.key with lc := none } }.wf Reg.KEY_LC_STATE 5 5 1).lcResult 2 0)) ∧
  (∀ (r : LcRun) (s : State), s.key.lc = some r → r.seedDue = true ∨ s.time < r.start + 100000 → exec .lcTransitionDone s = .next s)

/-- MCTP_CONTROL, SPDM_REQUEST, GET_MEASUREMENTS, KEY_EXCHANGE and CT_EXPIRY (R876 to R878, R907): each answer is sent,
or waits for the KEY channel. -/
def Obligations.ResponderAnswers : Prop :=
  (∀ (e : Endpoint) (data : List Byte) (s : State), s.mctpUp = true → exec (.mctpControl e 4 data) s = .next
    (s.reply e none (.mctp 4 0 [0x01, 0xF1, 0xF3, 0xF1, 0x00]))) ∧
  (∀ (data : List Byte) (s : State), s.mctpUp = true → exec (.mctpControl .i3c 1 data) s = .next
    ({ s with key := { s.key with eidI3c := leAt data 1 1 } }.reply .i3c none (.mctp 1 0 (natLE 1 0 ++ natLE 1 (leAt data 1 1) ++ natLE 1 0)))) ∧
  (∀ (e : Endpoint) (s : State), s.mctpUp = true → exec (.spdmRequest e none .version) s = .next (s.reply e none (.version 0x12))) ∧
  (∀ (e : Endpoint) (s : State), s.mctpUp = true →
    exec (.spdmRequest e none .capabilities) s = .next (s.reply e none (.capabilities 0x62D6 14 4096 4096))) ∧
  (∀ (e : Endpoint) (s : State), s.mctpUp = true → s.key.chain ≠ [] →
    exec (.spdmRequest e none .digests) s = .next (s.reply e none (.digests 1 (sha384 s.key.chain)))) ∧
  (∀ (e : Endpoint) (i : Nat) (x : Session) (s : State), s.mctpUp = true → s.key.sessions.find? (fun x => x.id == i) = some x →
    x.done = false → exec (.spdmRequest e (some i) (.finish true)) s = .next
      ((s.setSessions (s.key.sessions.map (fun y => if y.id == x.id then { y with done := true } else y))).reply e (some i) .finished)) ∧
  (∀ (e : Endpoint) (n : Nat) (s : State), s.mctpUp = true →
    exec (.spdmRequest e none (.other n)) s = .next (s.reply e none (.error 7))) ∧
  (∀ (e : Endpoint) (index : Nat) (sign : Bool) (m : List Byte) (s : State), s.mctpUp = true →
    (index = 0xFF ∨ (1 ≤ index ∧ index ≤ 4)) → (sign = false ∨ s.signer.isSome = true) →
    exec (.getMeasurements e none index sign m) s = .next (s.ask e none (.measure index sign m))) ∧
  (∀ (e : Endpoint) (i : Nat) (sign : Bool) (m : List Byte) (index : Nat) (s : State), s.mctpUp = true →
    s.key.sessions.find? (fun x => x.id == i) = none →
    exec (.getMeasurements e (some i) index sign m) s = .next (s.reply e (some i) (.error 2))) ∧
  (∀ (e : Endpoint) (x y : Nat) (m : List Byte) (s : State), s.mctpUp = true → s.key.lc = none → s.pendingReset = false →
    s.key.sessions.length < 4 → s.signer.isSome = true → onCurve (x, y) = true →
    exec (.keyExchange e x y m) s = .next (s.ask e none (.exchange x y m))) ∧
  (∀ (e : Endpoint) (x y : Nat) (m : List Byte) (s : State), s.mctpUp = true → s.key.lc = none → s.pendingReset = false →
    4 ≤ s.key.sessions.length → exec (.keyExchange e x y m) s = .next (s.reply e none (.error 0x0A))) ∧
  (∀ (e : Endpoint) (x y : Nat) (m : List Byte) (s : State), s.mctpUp = true → s.key.lc.isSome = true ∨ s.pendingReset = true →
    exec (.keyExchange e x y m) s = .next (s.reply e none (.error 3))) ∧
  (∀ (t : KeyTask) (m : List Byte) (s : State), s.key.tasks = [t] → t.work = .challenge m → t.since + 16384000 ≤ s.time →
    exec (.ctExpiry t.id) s = .next ({ s with key := { s.key with tasks := [] } }.reply t.e t.session (.error 3)))

/-- The IDE_KM messages in a secure session (R879). The tenant key commands in a secure session, and the end of a bank write (R880 to R888,
KEY_STORE_FAIL). -/
def Obligations.SessionKeysAreManaged : Prop :=
  (∀ (session : Option Nat) (stream : Nat) (s : State), s.mctpUp = true → s.ideSession session = true →
    exec (.ideKmQuery session stream) s = .next (s.reply .pcie session (.ideInfo stream 2 (b2n s.hif.ideSecure)))) ∧
  (∀ (session : Option Nat) (stream : Nat) (s : State), s.mctpUp = true → s.ideSession session = false →
    exec (.ideKmQuery session stream) s = .next (s.reply .pcie session (.error 4))) ∧
  (∀ (session : Option Nat) (stream set dir sub : Nat) (key : List Byte) (s : State), s.mctpUp = true → s.ideSession session = true →
    key.length = 40 → ideFits stream set dir sub = true →
    exec (.ideKmKeyProg session stream set dir sub key) s = .next ({ s with key := { s.key with ideKeys :=
      (Tab.put (fun _ => []) (6 * set + 3 * dir + sub) key s.key.ideKeys) } }.reply .pcie session (.ideAck 2 set dir sub 0))) ∧
  (∀ (session : Option Nat) (stream set dir sub : Nat) (s : State), s.mctpUp = true → s.ideSession session = true →
    ideFits stream set dir sub = true → Tab.get (fun _ => []) s.key.ideKeys (6 * set + 3 * dir + sub) ≠ [] →
    exec (.ideKmKSetGo session stream set dir sub) s = .next ({ s with key := { s.key with ideActive :=
      (Tab.put (fun _ => 0) (3 * dir + sub) (set + 1) s.key.ideActive) } }.ideUpdate.reply .pcie session (.ideAck 4 set dir sub 0))) ∧
  (∀ (session : Option Nat) (stream set dir sub : Nat) (s : State), s.mctpUp = true → s.ideSession session = true →
    ideFits stream set dir sub = true → Tab.get (fun _ => 0) s.key.ideActive (3 * dir + sub) ≠ set + 1 →
    exec (.ideKmKSetStop session stream set dir sub) s = .next ({ s with key := { s.key with ideKeys :=
      (Tab.put (fun _ => []) (6 * set + 3 * dir + sub) [] s.key.ideKeys) } }.ideUpdate.reply .pcie session (.ideAck 5 set dir sub 0))) ∧
  (∀ (e : Endpoint) (session : Option Nat) (b nonce : List Byte) (t : TenantCmd) (x : Session) (s u v : State), leAt b 0 1 = 1 →
    s.secure session = some x → s.key.tenants = [] → s.key.write = none → s.key.tasks = [] → s.slotBusy b = false → s.pendingReset = false →
    s.key.lc = none → s.tenantCheck b = 0 → t = ⟨e, session, b, false⟩ → u = { s with key := { s.key with tenants := [t] } } →
    u.drawKey 8 = (v, some nonce) → exec (.setTenantKey e session b) s = .next (v.bankBegin t nonce)) ∧
  (∀ (e : Endpoint) (session : Option Nat) (b : List Byte) (fail : Bool) (t : TenantCmd) (x : Session) (s u : State), leAt b 0 1 = 2 →
    s.secure session = some x → s.key.tenants = [] → s.key.write = none → s.key.tasks = [] → s.slotBusy b = false → s.pendingReset = false →
    s.key.lc = none → s.tenantCheck b = 0 → t = ⟨e, session, b, fail⟩ → u = { s with key := { s.key with tenants := [t] } } →
    exec (.eraseTenantKey e session b fail) s = .next (u.bankErase t).tenantPop) ∧
  (∀ (e : Endpoint) (session : Option Nat) (b : List Byte) (t : TenantCmd) (x : Session) (s u : State), leAt b 0 1 = 3 →
    s.secure session = some x → s.key.tenants = [] → s.key.write = none → s.key.tasks = [] → s.pendingReset = false →
    s.key.lc = none → s.tenantCheck b = 0 → t = ⟨e, session, b, false⟩ → u = { s with key := { s.key with tenants := [t] } } →
    exec (.querySlot e session b) s = .next (u.tenantAnswer t 0).tenantPop) ∧
  (∀ (e : Endpoint) (session : Option Nat) (b : List Byte) (s : State), leAt b 0 1 = 3 → s.secure session = none →
    exec (.querySlot e session b) s = .next (s.reply e session (.error 4))) ∧
  (∀ (b gen slot : Nat) (t : TenantCmd) (s u : State), s.key.write = some (b, gen) → s.key.tenants = [t] → slot = leAt t.payload 1 1 →
    u = (s.bumpSat Reg.KEY_STORE_WRITES 1).event 0x0D01 pgKey →
    exec (.keyBankWriteDone false) s = .next
      (((u.setBank slot b ((u.bank slot b).take 0x3C ++ natLE 4 gen)).setSeals slot b 0).tenantAnswer t 0).tenantPop) ∧
  (∀ (b gen slot : Nat) (t : TenantCmd) (s u : State), s.key.write = some (b, gen) → s.key.tenants = [t] → slot = leAt t.payload 1 1 →
    u = (s.bumpSat Reg.KEY_STORE_WRITES 1).event 0x0D01 pgKey →
    exec (.keyBankWriteDone true) s = .next ((u.raiseErr pgKey 0x0D05 (2 * slot + b)).tenantAnswer t 7).tenantPop)

/-- SEAL, UNSEAL, CIPHER_BAD_OP, CIPHER_DONE and CIPHER_ENTROPY_TIMEOUT (R889 to R895, R899, R902, R905). -/
def Obligations.CipherCommandsComplete : Prop :=
  (∀ (p : Path) (v : Word) (c : CipherCmd) (b : Nat) (s u w : State), u = (s.turn p).ciphGo → bit v.toNat 0 = true →
    (s.turn p).rf Reg.CIPH_CIPH_CTRL 31 28 = 1 → c = u.cipherCmd → u.cipherCheck false c = 0 → b = (u.activeBank c.slot).getD 0 →
    w = u.wr Reg.CIPH_CIPH_GEN_USED (bankGen (u.bank c.slot b)) → w.sealCount c.slot b < 0x100000000 - 65536 →
    exec (.seal p v) s = .next ({ w with cipher := some ⟨false, c.slot, b, bankGen (u.bank c.slot b), bankRegion (u.bank c.slot b), c.srcSpace,
      c.src, c.dstSpace, c.dst, c.bytes, w.time, [], none⟩ }.ciphStatus 1 0).cipherServe) ∧
  (∀ (c : CipherRun) (iv : List Byte) (s v w : State), s.cipher = some c → c.ends = none → s.draw 1 12 = (v, some iv) →
    w = v.setSeals c.slot c.bank (v.sealCount c.slot c.bank + 1) →
    s.cipherServe = { w with cipher := some { c with iv := iv, ends := some (w.time + cipherNs c) } }.ciphStatus 2 0) ∧
  (∀ (p : Path) (v : Word) (k : Nat) (s u : State), u = (s.turn p).ciphGo → bit v.toNat 0 = true → u.cipher = none → k ≠ 0 →
    ((s.turn p).rf Reg.CIPH_CIPH_CTRL 31 28 = 1 → k = u.cipherCheck false u.cipherCmd → exec (.seal p v) s = .next (u.ciphStatus 3 k)) ∧
    ((s.turn p).rf Reg.CIPH_CIPH_CTRL 31 28 = 2 → k = u.cipherCheck true u.cipherCmd → exec (.unseal p v) s = .next (u.ciphStatus 3 k))) ∧
  (∀ (p : Path) (v : Word) (c : CipherCmd) (e : List Byte) (region b : Nat) (s u w : State) (run : CipherRun), u = (s.turn p).ciphGo →
    bit v.toNat 0 = true → (s.turn p).rf Reg.CIPH_CIPH_CTRL 31 28 = 2 → c = u.cipherCmd → u.cipherCheck true c = 0 →
    u.areaBad c.srcSpace c.src 64 = false → c.srcSpace ≠ spHost → e = u.spaceBytes c.srcSpace 0 c.src 64 →
    u.unsealBank c.slot (leAt e 8 4) = some b → region = bankRegion (u.bank c.slot ((u.activeBank c.slot).getD 0)) →
    envelopeBad e c.slot region c.bytes = false → w = u.wr Reg.CIPH_CIPH_GEN_USED (leAt e 8 4) →
    run = ⟨true, c.slot, b, leAt e 8 4, region, c.srcSpace, c.src, c.dstSpace, c.dst, leAt e 0x10 8, u.time, [], none⟩ →
    exec (.unseal p v) s = .next ({ w with cipher := some { run with ends := some (w.time + cipherNs run) } }.ciphStatus 2 0)) ∧
  (∀ (p : Path) (v : Word) (op : Nat) (s u : State), u = s.turn p → op = u.rf Reg.CIPH_CIPH_CTRL 31 28 → bit v.toNat 0 = true → op = 0 ∨ 2 < op →
    u.cipher = none → exec (.cipherBadOp p v) s = .next (u.ciphStatus 3 1)) ∧
  (∀ (c : CipherRun) (t0 : Nat) (out : List Byte) (s u : State), s.cipher = some c → c.ends = some t0 → t0 ≤ s.time → c.openIt = false →
    c.srcSpace ≠ spHost → c.dstSpace ≠ spHost → s.areaBad c.srcSpace c.src c.bytes = false →
    u = s.noteRead none c.srcSpace c.src c.bytes → u.cipherOut c = some out →
    exec (.cipherDone false) s = .next (((u.writeSpace none c.dstSpace 0 c.dst out).event 0x1400 pgCipher { region := some c.region }).ciphEnd 0)) ∧
  (∀ (c : CipherRun) (t0 : Nat) (s u : State), s.cipher = some c → c.ends = some t0 → t0 ≤ s.time → c.openIt = true →
    c.srcSpace ≠ spHost → c.dstSpace ≠ spHost → s.areaBad c.srcSpace c.src (64 + c.bytes) = false →
    u = s.noteRead none c.srcSpace c.src (64 + c.bytes) → u.cipherOut c = none →
    exec (.cipherDone false) s = .next ((((u.writeSpace none c.dstSpace 0 c.dst (List.replicate c.bytes 0)).bump
      Reg.CIPH_CIPH_AUTH_FAILS 1).event 0x1402 pgCipher { region := some c.region }).ciphEnd 7)) ∧
  (∀ (c : CipherRun) (s : State), s.cipher = some c → c.ends = none → c.asked + 10000000 < s.time →
    exec .cipherEntropyTimeout s = .next (s.ciphEnd 8))

/-- R896: the TAP executes BYPASS, IDCODE, SAMPLE/PRELOAD and EXTEST in every state, and a private instruction only in
FACTORY with PENDING_RESET clear and the debug instructions not locked; locked, it acts as BYPASS. Nothing else changes. -/
def Obligations.JtagInstructionsExecute : Prop :=
  (∀ s : State, exec .bypass s = .next { s with jtag := { s.jtag with instr := .bypass, drive := none } }) ∧
  (∀ s : State, exec .idcode s = .next { s with jtag := { s.jtag with instr := .idcode, drive := none, captured := idcode } }) ∧
  (∀ (pads shift : Nat) (s : State), exec (.samplePreload pads shift) s = .next
    { s with jtag := { instr := .sample, preload := shift, captured := pads, drive := none } }) ∧
  (∀ (pads : Nat) (s : State), exec (.extest pads) s = .next
    { s with jtag := { s.jtag with instr := .extest, captured := pads, drive := some s.jtag.preload } }) ∧
  (∀ (code : Nat) (s : State), s.lcState = 1 → s.rf Reg.KEY_LC_STATE 4 4 = 1 → s.pendingReset = false →
    exec (.jtagPrivate code) s = .next { s with jtag := { s.jtag with instr := .privateCode code, drive := none } }) ∧
  (∀ (code : Nat) (s : State), (s.lcState ≠ 1 ∨ s.rf Reg.KEY_LC_STATE 4 4 ≠ 1 ∨ s.pendingReset = true) →
    exec (.jtagPrivate code) s = .next { s with jtag := { s.jtag with instr := .bypass, drive := none } })

/-- LINK_ENABLE, LINK_DISABLE and the link commands (R913, R946, R952, R957, R964, R966). -/
def Obligations.LinkCommandsComplete : Prop :=
  (∀ (p : Path) (l : Nat) (v : Word) (s u : State), u = s.turn p → l < 8 → bit v.toNat 0 = true →
    exec (.linkEnable p l v) s = .next ((u.wf (linkReg l Reg.LINK_LINK_CTRL) 0 0 1).linkTry l)) ∧
  (∀ (p : Path) (l : Nat) (v : Word) (s u w : State), u = s.turn p → l < 8 → bit v.toNat 0 = false → u.linkEn l = true →
    w = u.wf (linkReg l Reg.LINK_LINK_CTRL) 0 0 0 → w.linkSt l ≠ lsDisabled →
    exec (.linkDisable p l v) s = .next ((w.linkDown l lsDisabled 1).linkEvent l 8)) ∧
  (∀ (p : Path) (l : Nat) (v : Word) (s u w : State), u = s.turn p → l < 8 → fld v.toNat 31 28 = 1 → u.linkSt l = lsActive →
    w = (u.linkCode l 0).setLinkSt l lsLeaving →
    exec (.linkCmdLeave p l v) s = .next ((w.updLink l (fun x => { x with leaveSent := none })).leaveStep l)) ∧
  (∀ (p : Path) (l : Nat) (v : Word) (s u : State), u = s.turn p → l < 8 → u.linkSt l ≠ lsActive →
    (fld v.toNat 31 28 = 1 → exec (.linkCmdLeave p l v) s = .next (u.linkCode l 2)) ∧
    (fld v.toNat 31 28 = 2 → exec (.linkCmdRotate p l v) s = .next (u.linkCode l 2))) ∧
  (∀ (p : Path) (l : Nat) (v : Word) (s u : State), u = s.turn p → l < 8 → fld v.toNat 31 28 = 2 → u.linkSt l = lsActive →
    exec (.linkCmdRotate p l v) s = .next ((u.linkCode l 0).rotate l)) ∧
  (∀ (l : Nat) (v : Word) (s u : State), u = s.turn .manager → l < 8 → fld v.toNat 31 28 = 3 → u.linkSt l = lsDisabled →
    u.rf (linkReg l Reg.LINK_LINK_STATE) 11 8 = 2 →
    exec (.linkCmdReenable .manager l v) s = .next (((u.linkCode l 0).setLinkSt l lsDown).wf (linkReg l Reg.LINK_LINK_STATE) 17 16 0)) ∧
  (∀ (l : Nat) (v : Word) (s u : State), u = s.turn .host → l < 8 → fld v.toNat 31 28 = 3 →
    exec (.linkCmdReenable .host l v) s = .next (u.linkCode l 3)) ∧
  (∀ (p : Path) (l : Nat) (v : Word) (s u : State), u = s.turn p → l < 8 → fld v.toNat 31 28 = 0 ∨ 3 < fld v.toNat 31 28 →
    exec (.linkCmdBadOp p l v) s = .next (u.linkCode l 1))

/-- SIGNAL_DETECT, TRAINING_PHASE_DONE, TRAINING_TIMEOUT, TRAINING_RETRY and TRAIN (R913 to R915). -/
def Obligations.TrainingCompletes : Prop :=
  (∀ (l : Nat) (s : State), l < 8 → s.linkSt l = lsTraining → (s.link l).phase = 1 →
    exec (.signalDetect l) s = .next (s.updLink l (fun x => { x with phase := 2, since := s.time }))) ∧
  (∀ (l : Nat) (s : State), l < 8 → s.linkSt l = lsTraining → (s.link l).phase = 2 →
    exec (.trainingPhaseDone l) s = .next (s.updLink l (fun x => { x with phase := 3, since := s.time }))) ∧
  (∀ (l : Nat) (s : State), l < 8 → s.linkSt l = lsTraining → (s.link l).phase = 3 →
    exec (.trainingPhaseDone l) s = .next ((s.updLink l (fun x => { x with
      phase := 4, since := s.time, trains := 0, gotTrain := false, echoed := false })).sendTrain l)) ∧
  (∀ (l n : Nat) (s : State), l < 8 → s.linkSt l = lsTraining → phaseLimit (s.link l).phase = some n → (s.link l).since + n < s.time →
    exec (.trainingTimeout l) s = .next (s.trainFail l)) ∧
  (∀ (l n : Nat) (s : State), l < 8 → s.linkSt l = lsTraining → phaseLimit (s.link l).phase = some n → s.time ≤ (s.link l).since + n →
    exec (.trainingTimeout l) s = .next s) ∧
  (∀ (l t0 : Nat) (s : State), l < 8 → (s.link l).retryAt = some t0 → t0 ≤ s.time →
    exec (.trainingRetry l) s = .next ((s.updLink l (fun x => { x with retryAt := none })).linkTry l)) ∧
  (∀ (l : Nat) (a : Arrival) (corr : Nat) (pkt : List Byte) (s u v : State), l < 8 → pkt = packetOf a → s.rxPacket l pkt corr = (u, true) → pktKind pkt = 4 →
    u.linkSt l = lsTraining → (u.link l).phase = 4 → leAt pkt 0x10 1 = 1 → leAt pkt 0x11 1 ≤ 7 → leAt pkt 0x12 1 = 33 →
    leAt pkt 0x13 1 ≤ 1 → (trainBufs pkt).getD 3 0 = 0 → ((trainBufs pkt).take 3).any (fun b => decide (b < 33) || decide (32768 < b)) = false →
    v = (u.updLink l (fun x => { x with
      trains := x.trains + 1, gotTrain := true, echoed := x.echoed || leAt pkt 0x13 1 == 1 })).sendTrain l →
    (2 ≤ (v.link l).trains ∧ (v.link l).echoed = true → exec (.train l a corr) s = .next (v.linkDiscover l (trainBufs pkt))) ∧
    ((v.link l).trains < 2 ∨ (v.link l).echoed = false → exec (.train l a corr) s = .next v))

/-- PACKET_TRANSMIT, ACK_SEND, CREDIT_RETURN, REPLAY_TIMEOUT and KEY_ROTATE (R922 to R939, R952). DATA, ACK and NAK
packets, and the link messages that DATA packets complete (R931 to R941, R952, R957, R958). UNCORRECTABLE_CODEWORD (R918). -/
def Obligations.LinkPackets : Prop :=
  (∀ (l vc : Nat) (s : State), l < 8 → vc < 3 → (s.link l).resend ≠ [] → exec (.packetTransmit l vc) s = .next (s.resendOne l)) ∧
  (∀ (l vc : Nat) (s : State), l < 8 → vc < 3 → (s.link l).resend = [] → s.carries l vc = true →
    exec (.packetTransmit l vc) s = .next (((s.sendNew l vc).leaveStep l).confirmStep l)) ∧
  (∀ (l t0 : Nat) (s : State), l < 8 → (s.link l).ackDue = some t0 → exec (.ackSend l) s = .next (s.linkSend l 2 0 0 [])) ∧
  (∀ (l vc : Nat) (s : State), l < 8 → s.credDue l = some vc → exec (.creditReturn l) s = .next (s.linkSend l 2 0 0 [])) ∧
  (∀ (l : Nat) (p : SentPkt) (ps : List SentPkt) (s : State), l < 8 → (s.link l).buf = p :: ps →
    p.time + 1000 * s.rf (linkReg l Reg.LINK_REPLAY_CFG) 15 0 ≤ s.time → exec (.replayTimeout l) s = .next (s.startReplay l)) ∧
  (∀ (l : Nat) (s : State), l < 8 → s.linkUp l = true → 1 <<< s.rf (linkReg l Reg.LINK_KEY_CFG) 4 0 ≤ (s.link l).countTx →
    exec (.keyRotate l) s = .next (s.rotate l)) ∧
  (∀ (l : Nat) (a : Arrival) (corr : Nat) (pkt : List Byte) (s u v w x : State), l < 8 → pkt = packetOf a → s.rxPacket l pkt corr = (u, true) →
    pktKind pkt = 1 → u.linkOpen l = true → fld (pktFlags pkt) 1 0 ≠ 3 → v = u.rxHeader l pkt → v.linkOpen l = true →
    (pktSeq pkt + 4096 - v.expected l) % 4096 = 0 →
    x = (v.wf (linkReg l Reg.LINK_SEQ_STATE) 11 0 ((v.expected l + 1) % 4096)).updLink l (fun x => { x with
      nakSent := false, accepted := x.accepted + 1, ackDue := some (x.ackDue.getD v.time) }) →
    w = (if 64 ≤ (x.link l).accepted then x.linkSend l 2 0 0 [] else x) → exec (.dataMsg l a corr) s = .next (w.deliver l pkt).1) ∧
  (∀ (l : Nat) (a : Arrival) (corr : Nat) (pkt : List Byte) (s u v : State), l < 8 → pkt = packetOf a → s.rxPacket l pkt corr = (u, true) →
    pktKind pkt = 1 → u.linkOpen l = true → fld (pktFlags pkt) 1 0 ≠ 3 → v = u.rxHeader l pkt → v.linkOpen l = true →
    2048 ≤ (pktSeq pkt + 4096 - v.expected l) % 4096 →
    exec (.dataMsg l a corr) s = .next ((v.linkCount l Reg.LINK_STALE_DROPS 0x0E04 1).linkSend l 2 0 0 [])) ∧
  (∀ (l : Nat) (a : Arrival) (corr : Nat) (s u : State), l < 8 → s.rxPacket l (packetOf a) corr = (u, false) →
    exec (.dataMsg l a corr) s = .next u ∧ exec (.ack l a corr) s = .next u ∧ exec (.nak l a corr) s = .next u) ∧
  (∀ (l : Nat) (a : Arrival) (corr : Nat) (pkt : List Byte) (s u : State), l < 8 → pkt = packetOf a → s.rxPacket l pkt corr = (u, true) →
    u.linkOpen l = true →
    (pktKind pkt = 2 → exec (.ack l a corr) s = .next (u.rxHeader l pkt)) ∧
    (pktKind pkt = 3 → (u.rxHeader l pkt).linkOpen l = true → exec (.nak l a corr) s = .next ((u.rxHeader l pkt).startReplay l))) ∧
  (∀ (l : Nat) (a : Arrival) (corr : Nat) (s u : State), l < 8 →
    (s.rxData l (packetOf a) corr = (u, some 1) → exec (.hello l a corr) s = .next u) ∧
    (s.rxData l (packetOf a) corr = (u, some 2) → exec (.response l a corr) s = .next u) ∧
    (s.rxData l (packetOf a) corr = (u, some 3) → exec (.confirm l a corr) s = .next u) ∧
    (s.rxData l (packetOf a) corr = (u, some 4) → exec (.keyUpd l a corr) s = .next u) ∧
    (s.rxData l (packetOf a) corr = (u, some 5) → exec (.leave l a corr) s = .next u) ∧
    (s.rxData l (packetOf a) corr = (u, some 6) → exec (.leaveAck l a corr) s = .next u)) ∧
  (∀ (l : Nat) (s : State), l < 8 → exec (.uncorrectableCodeword l) s = .next
    ((s.linkCount l Reg.LINK_FEC_UNCORR 0x0E06 1).raiseErr (pgLink l) 0x0E02 0))

/-- HANDSHAKE_START, CHALLENGE_WINDOW_CLOSE, CONFIRM_TIMEOUT and BACKOFF_END (R941 to R945, R973): a window classifies its outcome once the
cycle's RESPONSEs have counted. LEAVE_TIMEOUT, LINK_SIGNAL_LOSS and LINK_REFCLK_LOSS (R957, R974). -/
def Obligations.HandshakesAndLosses : Prop :=
  (∀ (l : Nat) (s : State), l < 8 → s.linkSt l = lsDiscover → (s.link l).inHandshake = false →
    s.key.tasks.any (fun t => t.work == .hello l) = false → s.linkIdentity.isSome = true →
    exec (.handshakeStart l) s = .next (s.ask .i3c none (.hello l))) ∧
  (∀ (l : Nat) (s : State), l < 8 → s.linkSt l = lsDiscover → (s.link l).inHandshake = false →
    s.key.tasks.any (fun t => t.work == .hello l) = false → s.linkIdentity = none → exec (.handshakeStart l) s = .next (s.linkReason l 3)) ∧
  (∀ (l t0 : Nat) (s : State), l < 8 → s.linkSt l = lsDiscover → (s.link l).opened = some t0 → (s.link l).closed = none →
    t0 + chalWindow ≤ s.time → exec (.challengeWindowClose l) s = .next (s.updLink l (fun x => { x with closing := true }))) ∧
  (∀ (l t0 o : Nat) (s u : State), (s.link l).opened = some t0 → (s.link l).closed = none → (s.link l).closing = true →
    o = s.outcome l (s.link l) → u = (s.updLink l (fun x => { x with closing := false })).queueMsg l 3 (natLE 1 o ++ natLE 7 0) →
    (o ≠ 1 → s.windowClose l = u.linkFail l o) ∧
    (o = 1 → s.windowClose l = ((u.linkOutcome l 1).updLink l (fun x => { x with closed := some (t0 + chalWindow) })).confirmStep l)) ∧
  (∀ (l t0 : Nat) (s : State), l < 8 → s.linkSt l = lsDiscover → (s.link l).closed = some t0 → t0 + chalWindow < s.time →
    exec (.confirmTimeout l) s = .next (s.linkFail l 5)) ∧
  (∀ (l t0 : Nat) (s u : State), l < 8 → s.linkSt l = lsBackoff → (s.link l).backoffEnd = some t0 → t0 ≤ s.time →
    u = (s.setLinkSt l lsDiscover).updLink l (fun x => { x with backoffEnd := none }) → u.linkIdentity.isSome = true →
    exec (.backoffEnd l) s = .next (u.ask .i3c none (.hello l))) ∧
  (∀ (l t0 : Nat) (s : State), l < 8 → s.linkSt l = lsLeaving → (s.link l).leaveSent = some t0 → t0 + 1000000 ≤ s.time →
    (s.link l).out = [] → exec (.leaveTimeout l) s = .next ((s.linkDown l lsDown 8).wf (linkReg l Reg.LINK_LINK_CTRL) 0 0 0)) ∧
  (∀ (l lanes : Nat) (s : State), l < 8 → s.linkUp l = true →
    exec (.linkSignalLoss l lanes) s = .next ((s.raiseErr (pgLink l) 0x0E08 lanes).linkDown l lsDown 4)) ∧
  (∀ (l lanes : Nat) (s : State), s.linkUp l = false → exec (.linkSignalLoss l lanes) s = .next s) ∧
  (∀ (lanes : Nat) (s : State), exec (.linkRefclkLoss lanes) s = .next ((List.range 8).foldl (fun s l =>
    if s.linkUp l then (s.raiseErr (pgLink l) 0x0E08 lanes).linkDown l lsDown 4 else s) s))

/-- ERROR_RECORD and AGGREGATOR_RECORD (R1024 to R1037, R1057, R1058): what a cycle raises is recorded at its end. The end of squall (R1045).
The error injections and their refusals (R1050 to R1052). -/
def Obligations.ErrorsAndInjections : Prop :=
  (∀ s : State, exec (.errorRecord none) s = .next { s with agg := { s.agg with pagesDue := true } }) ∧
  (∀ (d : Detected) (s u : State), u = s.detect d.page d.code (some (d.info % allOnes32)) d.region →
    exec (.errorRecord (some d)) s = .next { u with agg := { u.agg with pagesDue := true } }) ∧
  (∀ s : State, exec .aggregatorRecord s = .next { s with agg := { s.agg with aggDue := true } }) ∧
  (∀ s u : State, s.agg.pagesDue = true → u = { s with agg := { s.agg with pagesDue := false, aggDue := false } } →
    (s.agg.aggDue = false → s.recordStep = u.recordAll) ∧
    (s.agg.aggDue = true → s.recordStep = (sortBy recordBefore u.recordAll.agg.recorded).foldl State.aggregate
      { u.recordAll with agg := { u.recordAll.agg with recorded := [] } })) ∧
  (∀ s : State, s.agg.pagesDue = false → s.agg.aggDue = false → s.recordStep = s) ∧
  (∀ (e : Nat) (s : State), s.agg.squallEntry = some e → s.squall = true → e + s.agg.squallTests * 1000000 ≤ s.time →
    (recentErrors (e + s.agg.squallTests * 1000000)
      (s.agg.counted.filter (fun x => decide (x ≤ e + s.agg.squallTests * 1000000)))).length < 16 →
    exec .squallEndTest s = .next { s.wf Reg.ERRP_AGG_STATE 0 0 0 with agg := { s.agg with squallEntry := none, squallTests := 0 } }) ∧
  (∀ (e : Nat) (s : State), s.agg.squallEntry = some e → s.squall = true → e + s.agg.squallTests * 1000000 ≤ s.time →
    16 ≤ (recentErrors (e + s.agg.squallTests * 1000000)
      (s.agg.counted.filter (fun x => decide (x ≤ e + s.agg.squallTests * 1000000)))).length →
    exec .squallEndTest s = .next { s with agg := { s.agg with squallTests := s.agg.squallTests + 1 } }) ∧
  (∀ (p : Path) (page i code : Nat) (k : PageKind) (v : Word) (s u : State), u = s.turn p → pageOf page = some (k, i) →
    injBadMode v.toNat = false → fld v.toNat 31 30 = 1 → code = k.block * 256 + fld v.toNat 7 0 →
    (errClass code none = 0 → exec (.injectSignal p page v) s = .next (u.injResult page 2)) ∧
    (errClass code none = 6 → u.lcState ≠ 1 → exec (.injectSignal p page v) s = .next (u.injResult page 1)) ∧
    (errClass code none ≠ 0 → (errClass code none ≠ 6 ∨ u.lcState = 1) →
      exec (.injectSignal p page v) s = .next ((u.injResult page 0).detect page code none none))) ∧
  (∀ (p : Path) (page i : Nat) (k : PageKind) (v : Word) (s u : State), u = s.turn p → pageOf page = some (k, i) → injBadMode v.toNat = false →
    k.hasMemory = true →
    (fld v.toNat 31 30 = 2 → exec (.injectCorrupt1 p page v) s = .next
      { u.injResult page 0 with mem := { u.mem with inject := Tab.put (fun _ => 0) page 1 u.mem.inject } }) ∧
    (fld v.toNat 31 30 = 3 → exec (.injectCorrupt2 p page v) s = .next
      { u.injResult page 0 with mem := { u.mem with inject := Tab.put (fun _ => 0) page 2 u.mem.inject } })) ∧
  (∀ (p : Path) (page : Nat) (v : Word) (s u : State), u = s.turn p → (pageOf page).isSome = true → injBadMode v.toNat = true →
    exec (.injectBadMode p page v) s = .next (u.injResult page 4))

/-- ERR_FIRST_CLEAR, DEV_FIRST_CLEAR and FENCE_CLEAR (R1029, R1034, R1040): the records read 0, and only the fences
written with 1 lift. -/
def Obligations.ErrorRecordsClear : Prop :=
  (∀ (p : Path) (page : Nat) (s u : State), u = s.turn p → (pageOf page).isSome = true → ∃ t, exec (.errFirstClear p page) s = .next t ∧
    t.rg (pgReg page Reg.H_ERR_FIRST) = 0 ∧ t.rg (pgReg page Reg.H_ERR_FIRST_INFO) = 0 ∧ t.rg (pgReg page Reg.H_ERR_NEXT) = 0 ∧
    t.rg (pgReg page Reg.H_ERR_NEXT_INFO) = 0 ∧ t.rg (pgReg page Reg.H_ERR_COUNT) = 0 ∧ t.rf (pgReg page Reg.H_STATUS) 2 2 = 0 ∧
    (∀ a, a / 0x1000 ≠ page → t.reg a = u.reg a) ∧ t = { u with regs := t.regs }) ∧
  (∀ (p : Path) (s u : State), u = s.turn p → u.fatal = false → ∃ t, exec (.devFirstClear p) s = .next t ∧ t.rg Reg.ERRP_DEV_FIRST = 0 ∧
    t.rg Reg.ERRP_DEV_FIRST_INFO = 0 ∧ t.rg64 Reg.ERRP_DEV_FIRST_TIME_LO = 0 ∧ t = { u with regs := t.regs }) ∧
  (∀ (p : Path) (s u : State), u = s.turn p → u.fatal = true → exec (.devFirstClear p) s = .next u) ∧
  (∀ (p : Path) (v : Word) (s u : State), u = s.turn p → ∃ t, exec (.fenceClear p v) s = .next t ∧
    (∀ i, i < 32 → bit (t.rg Reg.ERRP_RG_FENCE) i = (bit (u.rg Reg.ERRP_RG_FENCE) i && !bit v.toNat i)) ∧
    (∀ a, a ≠ Reg.ERRP_RG_FENCE → t.reg a = u.reg a) ∧ t = { u with regs := t.regs })

/-- R1048, R1049: the key written to RETIRE_CMD from the manager path after a fatal error asserts TRAY_RETIRE_N and sets
RETIRED, any other write has no effect, and the timeout does the same and sets UNSAVED. -/
def Obligations.RetirementAsserts : Prop :=
  (∀ (v : Word) (s u : State), u = s.turn .manager → v.toNat = 0xA5C3 → u.fatal = true → ∃ t, exec (.retireCmd .manager v) s = .next t ∧
    t.rf Reg.ERRP_AGG_STATE 2 2 = 1 ∧ t.rf Reg.PINS_PIN_STATE 2 2 = 1 ∧
    (∀ a, a ≠ Reg.ERRP_AGG_STATE → a ≠ Reg.PINS_PIN_STATE → t.reg a = u.reg a) ∧ t = { u with regs := t.regs }) ∧
  (∀ (p : Path) (v : Word) (s u : State), u = s.turn p → (p = .host ∨ v.toNat ≠ 0xA5C3 ∨ u.fatal = false) →
    exec (.retireCmd p v) s = .next u) ∧
  (∀ (t0 : Nat) (s : State), s.agg.fatalAt = some t0 → s.rf Reg.ERRP_AGG_STATE 2 2 = 0 →
    t0 + s.rf Reg.ERRP_RETIRE_TIMEOUT 15 0 * 1000000 ≤ s.time → ∃ t, exec .retireTimeoutExpiry s = .next t ∧
    t.rf Reg.ERRP_AGG_STATE 2 2 = 1 ∧ t.rf Reg.ERRP_AGG_STATE 3 3 = 1 ∧ t.rf Reg.PINS_PIN_STATE 2 2 = 1 ∧
    (∀ a, a ≠ Reg.ERRP_AGG_STATE → a ≠ Reg.PINS_PIN_STATE → t.reg a = s.reg a) ∧ t = { s with regs := t.regs })

/-- COLD_RESET, RESET_N_RISE, WARM_RESET and PCIE_RESET (R1067, R1068, R1075, R1080, R1101). -/
def Obligations.ResetsComplete : Prop :=
  (∀ (cause : Nat) (s : State), cause ≤ 1 → ∃ t, exec (.coldReset cause) s = .next t ∧ t.time = 0 ∧ t.commons = [] ∧ t.hbm = [] ∧
    t.jobs = [] ∧ t.cmds = [] ∧ t.queues = [] ∧ t.tun = TunArray.reset ∧ t.gnm = CoreArray.reset ∧ t.hostMem = s.hostMem ∧
    t.pending = s.pending ∧ t.rg Reg.BOOT_RESET_CAUSE = cause ∧
    (∀ a, a ≠ Reg.BOOT_RESET_CAUSE → a ≠ Reg.PINS_PIN_STATE → t.reg a = regReset a)) ∧
  (∀ (pos : Nat) (recovery : Bool) (s : State), s.bootPhase = 0 → exec (.resetNRise pos recovery) s = .next
    ((({ s with boot := { s.boot with padsOff := false } }.wf Reg.PINS_PIN_STATE 5 5 1).wr Reg.BOOT_BOOT_STRAPS
      ((b2n recovery <<< 2) ||| pos % 4)).setPhase 1)) ∧
  (∀ (v : Word) (s u : State), u = s.turn .manager → v.toNat = 0x3C5A →
    (u.fatal = true → exec (.warmReset .manager v) s = .next u) ∧
    (u.fatal = false → u.boot.commit.isSome = true →
      exec (.warmReset .manager v) s = .next { u with boot := { u.boot with warmWaits := some 2 } }) ∧
    (u.fatal = false → u.boot.commit = none → exec (.warmReset .manager v) s = .next (u.doWarm 2))) ∧
  (∀ (p : Path) (v : Word) (s u : State), u = s.turn p → (p = .host ∨ v.toNat ≠ 0x3C5A) → exec (.warmReset p v) s = .next u) ∧
  (∀ (cause : Nat) (s : State), 3 ≤ cause → cause ≤ 5 → exec (.pcieReset cause) s = .next
    (({ s with hif := { HostIf.reset with noRecords := s.hif.noRecords, held := s.hif.held } }.wr Reg.HOST_LINK_STATE 0).askWarm cause))

/-- BOOT_PHASE_END and BLOCK_RESET (R1077 to R1086, R1104): a block reset is evaluated after the cycle's job start. -/
def Obligations.BootStepsComplete : Prop :=
  (∀ (n : Nat) (q a : Bool) (f : List (Nat × Nat × Nat)) (s : State), s.bootPhase = 1 → s.gov.refclk = true →
    exec (.bootPhaseEnd 1 n q a f) s = .next
      ({ s with time := 0, gov := { s.gov with locked := true, everLocked := true, lastSample := 0 } }.setPhase 2)) ∧
  (∀ (n : Nat) (q a : Bool) (f : List (Nat × Nat × Nat)) (s u : State), s.bootPhase = 2 →
    u = ((s.keyStart.bootFails f).setReady pgKey).setReady pgCipher →
    (u.lcState = 0 → exec (.bootPhaseEnd 2 n q a f) s = .next (u.bootHalt 1)) ∧
    (u.lcState = 5 → exec (.bootPhaseEnd 2 n q a f) s = .next (u.bootHalt 2)) ∧
    (u.lcState ≠ 0 → u.lcState ≠ 5 → exec (.bootPhaseEnd 2 n q a f) s = .next (u.setPhase 3))) ∧
  (∀ (n : Nat) (q a : Bool) (f : List (Nat × Nat × Nat)) (s : State), s.bootPhase = 3 →
    exec (.bootPhaseEnd 3 n q a f) s = .next s.bootCal.startImage) ∧
  (∀ (n : Nat) (q a : Bool) (f : List (Nat × Nat × Nat)) (s : State), s.boot.imageOn = true →
    exec (.bootPhaseEnd 4 n q a f) s = .next (s.imageEnd n q a)) ∧
  (∀ (n : Nat) (q a : Bool) (f : List (Nat × Nat × Nat)) (s : State), s.boot.memoryOn = true →
    exec (.bootPhaseEnd 5 n q a f) s = .next (s.memoryEnd f)) ∧
  (∀ (n : Nat) (q a : Bool) (f : List (Nat × Nat × Nat)) (s : State), s.bootPhase = 6 → s.entSettled = true → s.coresSettled = true →
    exec (.bootPhaseEnd 6 n q a f) s = .next (s.blocksEnd f)) ∧
  (∀ (n : Nat) (q a : Bool) (f : List (Nat × Nat × Nat)) (s : State), s.bootPhase = 7 → s.boot.spiDrive = true → s.boot.flashRetry = false →
    exec (.bootPhaseEnd 7 n q a f) s = .next s.finishBoot) ∧
  (∀ (p : Path) (v : Word) (f : List (Nat × Nat × Nat)) (s u : State), u = s.turn p →
    exec (.blockReset p v f) s = .next { u with boot := { u.boot with resets := u.boot.resets ++ [(v, f)] } }) ∧
  (∀ (v : Word) (f : List (Nat × Nat × Nat)) (s : State), s.boot.resets = [(v, f)] →
    s.resetStep = { s with boot := { s.boot with resets := [] } }.blockReset v.toNat f) ∧
  (∀ (v page : Nat) (f : List (Nat × Nat × Nat)) (k : PageKind) (s u : State), blockPage (fld v 31 24) (fld v 15 0) = some k → s.ready = true →
    s.blockBusy k (fld v 15 0) = false → k ≠ .entropy → page = pageIdx k (fld v 15 0) → u = (s.resetBlock k (fld v 15 0)).resetPage page →
    s.blockReset v f = ((u.bootFails (f.filter (fun x => x.1 == page))).setReady page).wr Reg.BOOT_BLOCK_RESET_RESULT ((fld v 31 24 <<< 24) ||| 0)) ∧
  (∀ (v : Nat) (f : List (Nat × Nat × Nat)) (k : PageKind) (s : State), blockPage (fld v 31 24) (fld v 15 0) = some k → s.ready = true →
    s.blockBusy k (fld v 15 0) = true → s.blockReset v f = s.wr Reg.BOOT_BLOCK_RESET_RESULT ((fld v 31 24 <<< 24) ||| 1)) ∧
  (∀ (v : Nat) (f : List (Nat × Nat × Nat)) (s : State), blockPage (fld v 31 24) (fld v 15 0) = none →
    s.blockReset v f = s.wr Reg.BOOT_BLOCK_RESET_RESULT ((fld v 31 24 <<< 24) ||| 2))

/-- The calibration commands (R1088 to R1091, R1100). -/
def Obligations.CalibrationCommandsComplete : Prop :=
  (∀ (p : Path) (v : Word) (s u : State), u = s.turn p → exec (.calLoad p v) s = .next
    ({ u with boot := { u.boot with calStage := if u.calInvalid then calTab builtInCal else u.boot.calStored } }.calCode 0)) ∧
  (∀ (p : Path) (v : Word) (s u : State), u = s.turn p →
    exec (.calClear p v) s = .next ({ u with boot := { u.boot with calStage := [] } }.calCode 0)) ∧
  (∀ (p : Path) (v : Word) (body full : Tab Byte) (s u : State), u = s.turn p → u.lcState ≠ 5 → u.poolUsed = 0 → u.boot.commit = none →
    calReserved u.boot.calStage = false → calInRange u.boot.calStage = true → body = Tab.putList (fun _ => 0) 0x008
      (natLE 4 (if u.calInvalid = true then 1 else calAt u.boot.calStored 0x008 4 + 1)) u.boot.calStage →
    full = Tab.putList (fun _ => 0) 0xFFC (natLE 4 (crc32c (calBytes body 0 0xFFC))) body →
    exec (.calCommit p v) s = .next ({ u with boot := { u.boot with commit := some (u.time, full) } }.wf Reg.BOOT_CAL_STATE 30 30 1)) ∧
  (∀ (p : Path) (v : Word) (s u : State), u = s.turn p →
    (u.lcState = 5 → exec (.calCommit p v) s = .next (u.calCode 5)) ∧
    (u.lcState ≠ 5 → 0 < u.poolUsed ∨ u.boot.commit.isSome = true → exec (.calCommit p v) s = .next (u.calCode 1)) ∧
    (u.lcState ≠ 5 → u.poolUsed = 0 → u.boot.commit = none → calReserved u.boot.calStage = true →
      exec (.calCommit p v) s = .next (u.calCode 3)) ∧
    (u.lcState ≠ 5 → u.poolUsed = 0 → u.boot.commit = none → calReserved u.boot.calStage = false → calInRange u.boot.calStage = false →
      exec (.calCommit p v) s = .next (u.calCode 2))) ∧
  (∀ (t0 : Nat) (c : Tab Byte) (s : State), s.boot.commit = some (t0, c) → s.boot.warmWaits = none → exec .calCommitDone s = .next
    ((({ s with boot := { s.boot with commit := none, warmWaits := none, calStored := c, calNow := c } }.wf Reg.BOOT_CAL_STATE 31 30 0).calCode
      0).wr Reg.BOOT_CAL_WRITES (calAt c 8 4))) ∧
  (∀ (p : Path) (v : Word) (s u : State), u = s.turn p → fld v.toNat 31 28 = 0 ∨ 3 < fld v.toNat 31 28 →
    exec (.calBadOp p v) s = .next (u.calCode 6)) ∧
  (∀ (p : Path) (d : Word) (w : Nat) (s u : State), u = s.turn p → w = u.rf Reg.BOOT_CAL_PTR 9 0 → ∃ t,
    exec (.calDataAccess p (some d)) s = .next t ∧ t.rg Reg.BOOT_CAL_PTR = (w + 1) % 1024 ∧
    t.boot = { u.boot with calStage := Tab.putList (fun _ => 0) (4 * w) (natLE 4 d.toNat) u.boot.calStage } ∧
    (∀ a, a ≠ Reg.BOOT_CAL_PTR → t.reg a = u.reg a) ∧ t = { u with regs := t.regs, boot := t.boot }) ∧
  (∀ (p : Path) (w : Nat) (s u : State), u = s.turn p → w = u.rf Reg.BOOT_CAL_PTR 9 0 → ∃ t, exec (.calDataAccess p none) s = .next t ∧
    t.rg Reg.BOOT_CAL_PTR = (w + 1) % 1024 ∧ t.boot = u.boot ∧
    (if p = .host then t.hostPath else t.mgrPath).lastRead = [BitVec.ofNat 32 (calAt u.boot.calStage (4 * w) 4)] ∧
    (∀ a, a ≠ Reg.BOOT_CAL_PTR → t.reg a = u.reg a))

/-- The PLDM base, monitoring and control commands (R1092), from boot phase 3 on. -/
def Obligations.PldmMonitoringAnswers : Prop :=
  ∀ s : State, 3 ≤ s.bootPhase →
    exec .getTid s = .next { s with boot := { s.boot with pldmOut := (
      { cmd := 0x002, code := 0, vals := [((1 + s.rf Reg.BOOT_BOOT_STRAPS 1 0 : Nat) : Int)] } : PldmReply) :: s.boot.pldmOut } } ∧
    (∀ ty, pldmTypes.contains ty = true → exec (.getPldmVersion ty) s = .next (s.pldm 0x003 0 [(Config.pldmVersion ty : Int)])) ∧
    exec .getPldmTypes s = .next (s.pldm 0x004 0 [0, 2, 5]) ∧
    (∀ ty, pldmTypes.contains ty = true →
      exec (.getPldmCommands ty) s = .next (s.pldm 0x005 0 ((pldmCommands ty).map (fun (n : Nat) => (n : Int))))) ∧
    (∀ n, sensorIs n = true → Tab.get (fun _ => false) s.boot.sensorOff n = false → n ≠ 1 →
      exec (.getSensorReading n) s = .next (s.pldm 0x211 0 [0, 0, s.sensorValue n])) ∧
    (∀ n, sensorIs n = true → Tab.get (fun _ => false) s.boot.sensorOff n = true →
      exec (.getSensorReading n) s = .next (s.pldm 0x211 0 [1])) ∧
    exec .getPdrRepositoryInfo s = .next (s.pldm 0x250 0 [8]) ∧
    (∀ h, sensorIs h = true → h < 8 → exec (.getPdr h) s = .next (s.pldm 0x251 0 (((h + 1 : Nat) : Int) :: sensorPdr h))) ∧
    (∀ addr, exec (.setEventReceiver true addr) s = .next
      ({ s with boot := { s.boot with receiver := some addr } }.pldm 0x204 0 [])) ∧
    (∀ n on, sensorIs n = true → exec (.setNumericSensorEnable n on) s = .next
      ({ s with boot := { s.boot with sensorOff := Tab.put (fun _ => false) n (!on) s.boot.sensorOff } }.pldm 0x210 0 []))

/-- The PLDM firmware update commands (R1093 to R1096). -/
def Obligations.FirmwareUpdateCompletes : Prop :=
  (∀ s : State, s.boot.update = none → 8 ≤ s.bootPhase → exec .requestUpdate s = .next
    (({ s with boot := { s.boot with update := some { slot := s.updateSlot, got := 0, verified := false } } }.flashReq true).pldm 0x510 0 [4096])) ∧
  (∀ (u : FwUpdate) (off : Nat) (bs : List Byte) (s : State), s.boot.update = some u → bs.length ≤ 4096 → off + bs.length ≤ 0x1000000 →
    s.boot.spiDrive = true → s.boot.flashRetry = false → ∃ t, exec (.firmwareTransfer off bs) s = .next t ∧
      t.boot.flash = Tab.putList (fun _ => 0xFF) (u.slot * 0x1000000 + off) bs s.boot.flash ∧
      t.boot.update = some { u with got := u.got + bs.length, verified := false } ∧ t = { s with boot := t.boot }) ∧
  (∀ (u : FwUpdate) (s : State), s.boot.update = some u → s.boot.spiDrive = true → s.boot.flashRetry = false →
    ∃ t ok, exec .firmwareVerify s = .next t ∧ t.boot.update = some { u with verified := ok } ∧ t.boot.flash = s.boot.flash ∧
      (ok = true ↔ (imageHeader (s.slotHeader u.slot) = 0 ∧ s.digestOk u.slot = true ∧
        (s.imageLoaded = true → s.rg Reg.BOOT_IMAGE_SEQ < s.slotSeq u.slot))) ∧ t = { s with boot := t.boot }) ∧
  (∀ (u : FwUpdate) (s : State), s.boot.update = some u → u.verified = true → exec .activateFirmware s = .next (s.updateOver.pldm 0x51A 0 [1])) ∧
  (∀ (u : FwUpdate) (s : State), s.boot.update = some u → u.verified = false → exec .activateFirmware s = .next (s.pldm 0x51A 0x85 [])) ∧
  (∀ (u : FwUpdate) (s : State), s.boot.update = some u → exec .cancelUpdate s = .next (s.updateOver.pldm 0x51D 0 []))

/-- The pins: GPIO_FUNC, TACH, UART and the flash grant (R1121 to R1127, R1144, R1145). -/
def Obligations.PinCommandsComplete : Prop :=
  (∀ (p : Path) (v : Word) (s u : State), u = s.turn p →
    (List.range 8).find? (fun g => !gpioAllowed g (fld v.toNat (4 * g + 3) (4 * g))) = none →
    ∃ t, exec (.gpioFuncWrite p v) s = .next t ∧ t.rg Reg.PINS_GPIO_FUNC = v.toNat ∧ (∀ a, a ≠ Reg.PINS_GPIO_FUNC → t.reg a = u.reg a) ∧
      (∀ g, g < 8 → Tab.get (fun _ => 0) t.boot.gpioSwitch g =
        if fld v.toNat (4 * g + 3) (4 * g) = u.gpioFunc g then Tab.get (fun _ => 0) u.boot.gpioSwitch g else sclkEdge u.time)) ∧
  (∀ (p : Path) (v : Word) (g : Nat) (s u : State), u = s.turn p →
    (List.range 8).find? (fun g => !gpioAllowed g (fld v.toNat (4 * g + 3) (4 * g))) = some g →
    exec (.gpioFuncWrite p v) s = .next (u.wr Reg.PINS_GPIO_ERR ((g <<< 8) ||| 1))) ∧
  (∀ (n : Nat) (s u : State), n ≤ 3 → s.gpioCarries (n + 1) 2 6 = true → u = s.tachRoll → exec (.tachRisingEdge n) s = .next
    { u with boot := { u.boot with tach := Tab.upd (fun _ => 0) n (· + 1) u.boot.tach } }) ∧
  (∀ s : State, s.time / 1000000000 ≠ s.boot.tachWindow → ∃ t, exec .tachWindow s = .next t ∧
    (∀ n, n < 4 → t.rg (Reg.PINS_TACH_0 + 4 * n) = Nat.min (Tab.get (fun _ => 0) s.boot.tach n) 0xFFFF) ∧ t.boot.tach = [] ∧
    t.boot.tachWindow = s.time / 1000000000) ∧
  (∀ (b : Byte) (s : State), s.lcState = 1 → s.gpioCarries 7 4 5 = true →
    exec (.uartRxByte b) s = .next (s.wr Reg.PINS_UART_RXDATA (0x100 ||| b.toNat))) ∧
  (∀ (b : Byte) (s : State), s.lcState ≠ 1 → exec (.uartRxByte b) s = .next s) ∧
  (∀ (p : Path) (s u : State), u = s.turn p → ∃ t, exec (.uartRxdataRead p) s = .next t ∧ t.rf Reg.PINS_UART_RXDATA 8 8 = 0 ∧
    (if p = .host then t.hostPath else t.mgrPath).lastRead = [BitVec.ofNat 32 (u.rg Reg.PINS_UART_RXDATA)] ∧
    t.rf Reg.PINS_UART_RXDATA 7 0 = u.rf Reg.PINS_UART_RXDATA 7 0 ∧ (∀ a, a ≠ Reg.PINS_UART_RXDATA → t.reg a = u.reg a)) ∧
  (∀ s : State, s.rf Reg.PINS_PIN_STATE 3 3 = 1 → ∃ t, exec .flashGrant s = .next t ∧ t.rf Reg.PINS_PIN_STATE 4 4 = 1 ∧
    t.boot.spiDrive = true ∧ t.boot.flashRetry = false ∧ (∀ a, a ≠ Reg.PINS_PIN_STATE → t.reg a = s.reg a)) ∧
  (∀ s : State, ∃ t, exec .flashGrantLoss s = .next t ∧ t.rf Reg.PINS_PIN_STATE 4 4 = 0 ∧ t.boot.spiDrive = false ∧
    t.boot.flashRetry = (s.boot.spiDrive || s.boot.flashRetry) ∧ (∀ a, a ≠ Reg.PINS_PIN_STATE → t.reg a = s.reg a))

/-- R916, R917: packets sent one after another on a quiet link fill the slots of their codewords in order, and each reads back, byte for byte,
from the slot of its first unit. -/
def Obligations.FramesReadBack : Prop :=
  ∀ (before after : List (List Byte)) (p : List Byte) (line : List Codeword),
    (∀ x, x ∈ before ++ p :: after → ∃ n, 1 ≤ n ∧ x.length = 64 * n ∧ leAt x 6 1 = n) →
    line = (((before ++ p :: after).flatMap packetUnits).foldl putUnit (false, [])).2.reverse →
    packetOf ⟨line, (before.map List.length).sum / 64⟩ = p
end

