-- ==== Sys2Proof/Laws/Tab.lean ====
section
/-! SUPPORT. The laws of the sparse tables: a read after a write, and the canonical form that every write keeps. -/

namespace Sys2Proof.Machine

theorem Tab.get_erase_same {α : Type} (d : Nat → α) (k : Nat) (t : Tab α) : Tab.get d (Tab.erase k t) k = d k := by
  induction t with
  | nil => rfl
  | cons e t ih =>
    obtain ⟨j, v⟩ := e
    by_cases h : j = k
    · simp [Tab.erase, h, ih]
    · simp [Tab.erase, Tab.get, h, ih]

theorem Tab.get_erase_ne {α : Type} (d : Nat → α) {i k : Nat} (h : i ≠ k) (t : Tab α) :
    Tab.get d (Tab.erase k t) i = Tab.get d t i := by
  induction t with
  | nil => rfl
  | cons e t ih =>
    obtain ⟨j, v⟩ := e
    by_cases hj : j = k
    · subst hj
      simp [Tab.erase, Tab.get, ih, Ne.symm h]
    · simp only [Tab.erase, if_neg hj, Tab.get, ih]

theorem Tab.get_insert_ne {α : Type} (d : Nat → α) {i k : Nat} (h : i ≠ k) (v : α) (t : Tab α) :
    Tab.get d (Tab.insert k v t) i = Tab.get d t i := by
  induction t with
  | nil => simp [Tab.insert, Tab.get, Ne.symm h]
  | cons e t ih =>
    obtain ⟨j, w⟩ := e
    by_cases hj : k < j
    · simp [Tab.insert, Tab.get, hj, Ne.symm h]
    · simp only [Tab.insert, if_neg hj, Tab.get, ih]

theorem Tab.get_insert_erase {α : Type} (d : Nat → α) (k : Nat) (v : α) (t : Tab α) :
    Tab.get d (Tab.insert k v (Tab.erase k t)) k = v := by
  induction t with
  | nil => simp [Tab.erase, Tab.insert, Tab.get]
  | cons e t ih =>
    obtain ⟨j, w⟩ := e
    by_cases hj : j = k
    · simp [Tab.erase, hj, ih]
    · by_cases hk : k < j <;> simp [Tab.erase, Tab.insert, Tab.get, hj, hk, ih]

/-- A read of the key just written gives the value written. -/
@[simp] theorem Tab.get_put_same {α : Type} [DecidableEq α] (d : Nat → α) (k : Nat) (v : α) (t : Tab α) :
    Tab.get d (Tab.put d k v t) k = v := by
  unfold Tab.put
  split
  · rename_i h
    rw [Tab.get_erase_same, h]
  · exact Tab.get_insert_erase d k v t

/-- A write leaves every other key as it was. -/
theorem Tab.get_put_ne {α : Type} [DecidableEq α] (d : Nat → α) {i k : Nat} (h : i ≠ k) (v : α) (t : Tab α) :
    Tab.get d (Tab.put d k v t) i = Tab.get d t i := by
  unfold Tab.put
  split
  · exact Tab.get_erase_ne d h t
  · rw [Tab.get_insert_ne d h, Tab.get_erase_ne d h]

/-- One read after one write. -/
theorem Tab.get_put {α : Type} [DecidableEq α] (d : Nat → α) (k i : Nat) (v : α) (t : Tab α) :
    Tab.get d (Tab.put d k v t) i = if i = k then v else Tab.get d t i := by
  split
  · rename_i h
    rw [h, Tab.get_put_same]
  · rename_i h
    exact Tab.get_put_ne d h v t

theorem Tab.get_keep {α : Type} (d : Nat → α) (p : Nat → Bool) (t : Tab α) (k : Nat) :
    Tab.get d (Tab.keep (fun a _ => p a) t) k = if p k then Tab.get d t k else d k := by
  induction t with
  | nil => simp [Tab.keep, Tab.get]
  | cons e t ih =>
    obtain ⟨j, v⟩ := e
    simp only [Tab.keep] at ih ⊢
    by_cases hp : p j
    · by_cases hj : j = k
      · subst hj; simp [Tab.get, hp]
      · simp [Tab.get, hp, hj, ih]
    · by_cases hj : j = k
      · subst hj; simp [hp, ih]
      · simp [Tab.get, hp, hj, ih]

/-- A table with every key above k; the form that Tab.wf asks of a tail. -/
theorem Tab.above_iff {α : Type} {k j : Nat} {v : α} {t : Tab α} : Tab.above k ((j, v) :: t) = true ↔ k < j := by
  simp [Tab.above]

theorem Tab.wf_cons {α : Type} [DecidableEq α] (d : Nat → α) {k : Nat} {v : α} {t : Tab α} :
    Tab.wf d ((k, v) :: t) = true ↔ Tab.above k t = true ∧ v ≠ d k ∧ Tab.wf d t = true := by
  simp [Tab.wf, and_assoc]

theorem Tab.above_of_le {α : Type} {i k : Nat} (h : i ≤ k) {t : Tab α} (ht : Tab.above k t = true) : Tab.above i t = true := by
  cases t with
  | nil => rfl
  | cons e t =>
    obtain ⟨j, v⟩ := e
    rw [Tab.above_iff] at *
    omega

theorem Tab.above_filter {α : Type} [DecidableEq α] (d : Nat → α) (p : Nat × α → Bool) {k : Nat} {t : Tab α}
    (ha : Tab.above k t = true) (hw : Tab.wf d t = true) : Tab.above k (t.filter p) = true := by
  induction t with
  | nil => rfl
  | cons e t ih =>
    obtain ⟨j, v⟩ := e
    rw [Tab.wf_cons] at hw
    rw [Tab.above_iff] at ha
    rw [List.filter_cons]
    split
    · exact Tab.above_iff.2 ha
    · exact ih (Tab.above_of_le (by omega) hw.1) hw.2.2

theorem Tab.wf_filter {α : Type} [DecidableEq α] (d : Nat → α) (p : Nat × α → Bool) {t : Tab α} (hw : Tab.wf d t = true) :
    Tab.wf d (t.filter p) = true := by
  induction t with
  | nil => rfl
  | cons e t ih =>
    obtain ⟨j, v⟩ := e
    rw [Tab.wf_cons] at hw
    rw [List.filter_cons]
    split
    · exact (Tab.wf_cons d).2 ⟨Tab.above_filter d p hw.1 hw.2.2, hw.2.1, ih hw.2.2⟩
    · exact ih hw.2.2

theorem Tab.erase_eq_filter {α : Type} (k : Nat) (t : Tab α) : Tab.erase k t = t.filter (fun e => decide (e.1 ≠ k)) := by
  induction t with
  | nil => rfl
  | cons e t ih =>
    obtain ⟨j, v⟩ := e
    by_cases h : j = k <;> simp [Tab.erase, h, ih]

theorem Tab.above_insert {α : Type} {i k : Nat} (h : i < k) (v : α) {t : Tab α} (ha : Tab.above i t = true) :
    Tab.above i (Tab.insert k v t) = true := by
  cases t with
  | nil => simpa [Tab.insert, Tab.above] using h
  | cons e t =>
    obtain ⟨j, w⟩ := e
    rw [Tab.above_iff] at ha
    unfold Tab.insert
    split <;> simp [Tab.above, h, ha]

theorem Tab.wf_insert {α : Type} [DecidableEq α] (d : Nat → α) {k : Nat} {v : α} (hv : v ≠ d k) {t : Tab α}
    (hw : Tab.wf d t = true) (hk : ∀ e ∈ t, e.1 ≠ k) : Tab.wf d (Tab.insert k v t) = true := by
  induction t with
  | nil => simp [Tab.insert, Tab.wf, Tab.above, hv]
  | cons e t ih =>
    obtain ⟨j, w⟩ := e
    have hj : j ≠ k := hk (j, w) (by simp)
    have hw' := (Tab.wf_cons d).1 hw
    unfold Tab.insert
    split
    · rename_i h
      exact (Tab.wf_cons d).2 ⟨Tab.above_iff.2 h, hv, hw⟩
    · rename_i h
      exact (Tab.wf_cons d).2 ⟨Tab.above_insert (by omega) v hw'.1, hw'.2.1,
        ih hw'.2.2 (fun e he => hk e (by simp [he]))⟩

/-- A write keeps the canonical form. -/
theorem Tab.wf_put {α : Type} [DecidableEq α] (d : Nat → α) (k : Nat) (v : α) {t : Tab α} (hw : Tab.wf d t = true) :
    Tab.wf d (Tab.put d k v t) = true := by
  unfold Tab.put
  rw [Tab.erase_eq_filter]
  split
  · exact Tab.wf_filter d _ hw
  · rename_i hv
    exact Tab.wf_insert d hv (Tab.wf_filter d _ hw) (by simp)

/-- An update of one key keeps the canonical form. -/
theorem Tab.wf_upd {α : Type} [DecidableEq α] (d : Nat → α) (k : Nat) (f : α → α) {t : Tab α} (hw : Tab.wf d t = true) :
    Tab.wf d (Tab.upd d k f t) = true := Tab.wf_put d k _ hw

/-- Dropping entries keeps the canonical form. -/
theorem Tab.wf_keep {α : Type} [DecidableEq α] (d : Nat → α) (p : Nat → α → Bool) {t : Tab α} (hw : Tab.wf d t = true) :
    Tab.wf d (Tab.keep p t) = true := Tab.wf_filter d _ hw

theorem Tab.from_spec {α : Type} [DecidableEq α] (d : Nat → α) (k : Nat) {t : Tab α} (hw : Tab.wf d t = true) :
    Tab.wf d (Tab.from_ k t) = true ∧ (∀ i, i < k → Tab.above i (Tab.from_ k t) = true) := by
  induction t with
  | nil => exact ⟨rfl, fun _ _ => rfl⟩
  | cons e t ih =>
    obtain ⟨j, v⟩ := e
    have hw' := (Tab.wf_cons d).1 hw
    unfold Tab.from_
    split
    · exact ih hw'.2.2
    · rename_i h
      exact ⟨hw, fun i hi => Tab.above_iff.2 (by omega)⟩

theorem Tab.ahead_spec {α : Type} [DecidableEq α] (d : Nat → α) (vs : List α) : ∀ (k : Nat) (t : Tab α), Tab.wf d t = true →
    (∀ i, i < k + vs.length → Tab.above i t = true) →
    Tab.wf d (Tab.ahead d k vs t) = true ∧ (∀ i, i < k → Tab.above i (Tab.ahead d k vs t) = true) := by
  induction vs with
  | nil => exact fun k t hw ha => ⟨hw, fun i hi => ha i (by simpa using hi)⟩
  | cons v vs ih =>
    intro k t hw ha
    have := ih (k + 1) t hw (fun i hi => ha i (by simp only [List.length_cons]; omega))
    unfold Tab.ahead
    split
    · exact ⟨this.1, fun i hi => this.2 i (by omega)⟩
    · rename_i hv
      exact ⟨(Tab.wf_cons d).2 ⟨this.2 k (by omega), hv, this.1⟩, fun i hi => Tab.above_iff.2 hi⟩

theorem Tab.putList_spec {α : Type} [DecidableEq α] (d : Nat → α) (k : Nat) (vs : List α) {t : Tab α} (hw : Tab.wf d t = true) :
    Tab.wf d (Tab.putList d k vs t) = true ∧ (∀ i, i < k → Tab.above i t = true → Tab.above i (Tab.putList d k vs t) = true) := by
  induction t with
  | nil =>
    have := Tab.ahead_spec d vs k [] rfl (fun _ _ => rfl)
    exact ⟨this.1, fun i hi _ => this.2 i hi⟩
  | cons e t ih =>
    obtain ⟨j, w⟩ := e
    have hw' := (Tab.wf_cons d).1 hw
    unfold Tab.putList
    split
    · rename_i hj
      have := ih hw'.2.2
      exact ⟨(Tab.wf_cons d).2 ⟨this.2 j hj hw'.1, hw'.2.1, this.1⟩, fun i _ ha => Tab.above_iff.2 (Tab.above_iff.1 ha)⟩
    · have hf := Tab.from_spec d (k + vs.length) hw
      have := Tab.ahead_spec d vs k _ hf.1 hf.2
      exact ⟨this.1, fun i hi _ => this.2 i hi⟩

/-- A write of consecutive values keeps the canonical form. -/
theorem Tab.wf_putList {α : Type} [DecidableEq α] (d : Nat → α) (k : Nat) (vs : List α) {t : Tab α} (hw : Tab.wf d t = true) :
    Tab.wf d (Tab.putList d k vs t) = true := (Tab.putList_spec d k vs hw).1

theorem Tab.get_of_above {α : Type} [DecidableEq α] (d : Nat → α) {k : Nat} {t : Tab α} (hw : Tab.wf d t = true)
    (ha : Tab.above k t = true) : Tab.get d t k = d k := by
  induction t with
  | nil => rfl
  | cons e t ih =>
    obtain ⟨j, v⟩ := e
    have hj := Tab.above_iff.1 ha
    have hw' := (Tab.wf_cons d).1 hw
    rw [Tab.get, if_neg (by omega)]
    exact ih hw'.2.2 (Tab.above_of_le (by omega) hw'.1)

theorem Tab.get_from {α : Type} (d : Nat → α) {i k : Nat} (h : k ≤ i) (t : Tab α) : Tab.get d (Tab.from_ k t) i = Tab.get d t i := by
  induction t with
  | nil => rfl
  | cons e t ih =>
    obtain ⟨j, v⟩ := e
    unfold Tab.from_
    split
    · rw [ih, Tab.get, if_neg (by omega)]
    · rfl

theorem Tab.get_ahead {α : Type} [DecidableEq α] (d : Nat → α) (vs : List α) : ∀ (k i : Nat) (t : Tab α), Tab.wf d t = true →
    (∀ i, i < k + vs.length → Tab.above i t = true) →
    Tab.get d (Tab.ahead d k vs t) i = if k ≤ i then (vs[i - k]?).getD (Tab.get d t i) else d i := by
  induction vs with
  | nil =>
    intro k i t hw ha
    split
    · simp [Tab.ahead]
    · rename_i h
      exact Tab.get_of_above d hw (ha i (by simp; omega))
  | cons v vs ih =>
    intro k i t hw ha
    have h1 := ih (k + 1) i t hw (fun i hi => ha i (by simp only [List.length_cons]; omega))
    unfold Tab.ahead
    by_cases hik : i = k
    · subst hik
      simp only [show ¬ (i + 1 ≤ i) by omega, if_false] at h1
      split
      · rename_i hv
        simp [h1, hv]
      · simp [Tab.get]
    · have h2 : Tab.get d (if v = d k then Tab.ahead d (k + 1) vs t else (k, v) :: Tab.ahead d (k + 1) vs t) i =
          Tab.get d (Tab.ahead d (k + 1) vs t) i := by
        split
        · rfl
        · rw [Tab.get, if_neg (by omega)]
      rw [h2, h1]
      by_cases hk : k ≤ i
      · rw [if_pos (by omega), if_pos hk, show i - k = (i - (k + 1)) + 1 by omega, List.getElem?_cons_succ]
      · rw [if_neg (by omega), if_neg hk]

/-- A read after a write of consecutive values: inside the written keys the value written, elsewhere what it was. -/
theorem Tab.get_putList {α : Type} [DecidableEq α] (d : Nat → α) (k i : Nat) (vs : List α) {t : Tab α} (hw : Tab.wf d t = true) :
    Tab.get d (Tab.putList d k vs t) i = if k ≤ i then (vs[i - k]?).getD (Tab.get d t i) else Tab.get d t i := by
  induction t with
  | nil => simpa [Tab.putList, Tab.get] using Tab.get_ahead d vs k i [] rfl (fun _ _ => rfl)
  | cons e t ih =>
    obtain ⟨j, w⟩ := e
    have hw' := (Tab.wf_cons d).1 hw
    unfold Tab.putList
    split
    · rename_i hj
      by_cases hi : j = i
      · subst hi
        simp [Tab.get, show ¬ k ≤ j by omega]
      · simp only [Tab.get, hi, if_false, ih hw'.2.2]
    · rename_i hj
      have hf := Tab.from_spec d (k + vs.length) hw
      rw [Tab.get_ahead d vs k i _ hf.1 hf.2]
      split
      · rename_i hk
        by_cases hl : i < k + vs.length
        · rw [List.getElem?_eq_getElem (by omega)]
          rfl
        · rw [List.getElem?_eq_none (by omega), Option.getD_none, Option.getD_none, Tab.get_from d (by omega)]
      · rename_i hk
        exact (Tab.get_of_above d hw (Tab.above_iff.2 (by omega))).symm

end Sys2Proof.Machine
end

