-- ==== Sys2Proof/Laws/State.lean ====
section
/-! SUPPORT. The fields of State under each of its named updates, and a read of a table after a write of it. -/

namespace Sys2Proof.Machine

/-! setReg changes regs alone. -/

@[simp] theorem State.setReg_pending (s : State) (a : Nat) (w : Word) : (s.setReg a w).pending = s.pending := rfl
@[simp] theorem State.setReg_time (s : State) (a : Nat) (w : Word) : (s.setReg a w).time = s.time := rfl
@[simp] theorem State.setReg_hostPath (s : State) (a : Nat) (w : Word) : (s.setReg a w).hostPath = s.hostPath := rfl
@[simp] theorem State.setReg_mgrPath (s : State) (a : Nat) (w : Word) : (s.setReg a w).mgrPath = s.mgrPath := rfl
@[simp] theorem State.setReg_events (s : State) (a : Nat) (w : Word) : (s.setReg a w).events = s.events := rfl
@[simp] theorem State.setReg_intSet (s : State) (a : Nat) (w : Word) : (s.setReg a w).intSet = s.intSet := rfl
@[simp] theorem State.setReg_records (s : State) (a : Nat) (w : Word) : (s.setReg a w).records = s.records := rfl
@[simp] theorem State.setReg_mgrOut (s : State) (a : Nat) (w : Word) : (s.setReg a w).mgrOut = s.mgrOut := rfl
@[simp] theorem State.setReg_agg (s : State) (a : Nat) (w : Word) : (s.setReg a w).agg = s.agg := rfl
@[simp] theorem State.setReg_ibi (s : State) (a : Nat) (w : Word) : (s.setReg a w).ibi = s.ibi := rfl
@[simp] theorem State.setReg_gov (s : State) (a : Nat) (w : Word) : (s.setReg a w).gov = s.gov := rfl
@[simp] theorem State.setReg_hif (s : State) (a : Nat) (w : Word) : (s.setReg a w).hif = s.hif := rfl
@[simp] theorem State.setReg_queues (s : State) (a : Nat) (w : Word) : (s.setReg a w).queues = s.queues := rfl
@[simp] theorem State.setReg_fetched (s : State) (a : Nat) (w : Word) : (s.setReg a w).fetched = s.fetched := rfl
@[simp] theorem State.setReg_jobs (s : State) (a : Nat) (w : Word) : (s.setReg a w).jobs = s.jobs := rfl
@[simp] theorem State.setReg_cmds (s : State) (a : Nat) (w : Word) : (s.setReg a w).cmds = s.cmds := rfl
@[simp] theorem State.setReg_stops (s : State) (a : Nat) (w : Word) : (s.setReg a w).stops = s.stops := rfl
@[simp] theorem State.setReg_hostMem (s : State) (a : Nat) (w : Word) : (s.setReg a w).hostMem = s.hostMem := rfl
@[simp] theorem State.setReg_commons (s : State) (a : Nat) (w : Word) : (s.setReg a w).commons = s.commons := rfl
@[simp] theorem State.setReg_hbm (s : State) (a : Nat) (w : Word) : (s.setReg a w).hbm = s.hbm := rfl
@[simp] theorem State.setReg_mem (s : State) (a : Nat) (w : Word) : (s.setReg a w).mem = s.mem := rfl
@[simp] theorem State.setReg_tun (s : State) (a : Nat) (w : Word) : (s.setReg a w).tun = s.tun := rfl
@[simp] theorem State.setReg_boot (s : State) (a : Nat) (w : Word) : (s.setReg a w).boot = s.boot := rfl
@[simp] theorem State.setReg_ent (s : State) (a : Nat) (w : Word) : (s.setReg a w).ent = s.ent := rfl
@[simp] theorem State.setReg_solver (s : State) (a : Nat) (w : Word) : (s.setReg a w).solver = s.solver := rfl
@[simp] theorem State.setReg_pred (s : State) (a : Nat) (w : Word) : (s.setReg a w).pred = s.pred := rfl
@[simp] theorem State.setReg_plan (s : State) (a : Nat) (w : Word) : (s.setReg a w).plan = s.plan := rfl
@[simp] theorem State.setReg_gnm (s : State) (a : Nat) (w : Word) : (s.setReg a w).gnm = s.gnm := rfl
@[simp] theorem State.setReg_key (s : State) (a : Nat) (w : Word) : (s.setReg a w).key = s.key := rfl
@[simp] theorem State.setReg_cipher (s : State) (a : Nat) (w : Word) : (s.setReg a w).cipher = s.cipher := rfl
@[simp] theorem State.setReg_jtag (s : State) (a : Nat) (w : Word) : (s.setReg a w).jtag = s.jtag := rfl
@[simp] theorem State.setReg_links (s : State) (a : Nat) (w : Word) : (s.setReg a w).links = s.links := rfl
@[simp] theorem State.setReg_nextId (s : State) (a : Nat) (w : Word) : (s.setReg a w).nextId = s.nextId := rfl
@[simp] theorem State.setReg_fresh (s : State) (a : Nat) (w : Word) : (s.setReg a w).fresh = s.fresh := rfl

/-! wr changes regs alone. -/

@[simp] theorem State.wr_pending (s : State) (a n : Nat) : (s.wr a n).pending = s.pending := rfl
@[simp] theorem State.wr_time (s : State) (a n : Nat) : (s.wr a n).time = s.time := rfl
@[simp] theorem State.wr_hostPath (s : State) (a n : Nat) : (s.wr a n).hostPath = s.hostPath := rfl
@[simp] theorem State.wr_mgrPath (s : State) (a n : Nat) : (s.wr a n).mgrPath = s.mgrPath := rfl
@[simp] theorem State.wr_events (s : State) (a n : Nat) : (s.wr a n).events = s.events := rfl
@[simp] theorem State.wr_intSet (s : State) (a n : Nat) : (s.wr a n).intSet = s.intSet := rfl
@[simp] theorem State.wr_records (s : State) (a n : Nat) : (s.wr a n).records = s.records := rfl
@[simp] theorem State.wr_mgrOut (s : State) (a n : Nat) : (s.wr a n).mgrOut = s.mgrOut := rfl
@[simp] theorem State.wr_agg (s : State) (a n : Nat) : (s.wr a n).agg = s.agg := rfl
@[simp] theorem State.wr_ibi (s : State) (a n : Nat) : (s.wr a n).ibi = s.ibi := rfl
@[simp] theorem State.wr_gov (s : State) (a n : Nat) : (s.wr a n).gov = s.gov := rfl
@[simp] theorem State.wr_hif (s : State) (a n : Nat) : (s.wr a n).hif = s.hif := rfl
@[simp] theorem State.wr_queues (s : State) (a n : Nat) : (s.wr a n).queues = s.queues := rfl
@[simp] theorem State.wr_fetched (s : State) (a n : Nat) : (s.wr a n).fetched = s.fetched := rfl
@[simp] theorem State.wr_jobs (s : State) (a n : Nat) : (s.wr a n).jobs = s.jobs := rfl
@[simp] theorem State.wr_cmds (s : State) (a n : Nat) : (s.wr a n).cmds = s.cmds := rfl
@[simp] theorem State.wr_stops (s : State) (a n : Nat) : (s.wr a n).stops = s.stops := rfl
@[simp] theorem State.wr_hostMem (s : State) (a n : Nat) : (s.wr a n).hostMem = s.hostMem := rfl
@[simp] theorem State.wr_commons (s : State) (a n : Nat) : (s.wr a n).commons = s.commons := rfl
@[simp] theorem State.wr_hbm (s : State) (a n : Nat) : (s.wr a n).hbm = s.hbm := rfl
@[simp] theorem State.wr_mem (s : State) (a n : Nat) : (s.wr a n).mem = s.mem := rfl
@[simp] theorem State.wr_tun (s : State) (a n : Nat) : (s.wr a n).tun = s.tun := rfl
@[simp] theorem State.wr_boot (s : State) (a n : Nat) : (s.wr a n).boot = s.boot := rfl
@[simp] theorem State.wr_ent (s : State) (a n : Nat) : (s.wr a n).ent = s.ent := rfl
@[simp] theorem State.wr_solver (s : State) (a n : Nat) : (s.wr a n).solver = s.solver := rfl
@[simp] theorem State.wr_pred (s : State) (a n : Nat) : (s.wr a n).pred = s.pred := rfl
@[simp] theorem State.wr_plan (s : State) (a n : Nat) : (s.wr a n).plan = s.plan := rfl
@[simp] theorem State.wr_gnm (s : State) (a n : Nat) : (s.wr a n).gnm = s.gnm := rfl
@[simp] theorem State.wr_key (s : State) (a n : Nat) : (s.wr a n).key = s.key := rfl
@[simp] theorem State.wr_cipher (s : State) (a n : Nat) : (s.wr a n).cipher = s.cipher := rfl
@[simp] theorem State.wr_jtag (s : State) (a n : Nat) : (s.wr a n).jtag = s.jtag := rfl
@[simp] theorem State.wr_links (s : State) (a n : Nat) : (s.wr a n).links = s.links := rfl
@[simp] theorem State.wr_nextId (s : State) (a n : Nat) : (s.wr a n).nextId = s.nextId := rfl
@[simp] theorem State.wr_fresh (s : State) (a n : Nat) : (s.wr a n).fresh = s.fresh := rfl

/-! wf changes regs alone. -/

@[simp] theorem State.wf_pending (s : State) (a hi lo v : Nat) : (s.wf a hi lo v).pending = s.pending := rfl
@[simp] theorem State.wf_time (s : State) (a hi lo v : Nat) : (s.wf a hi lo v).time = s.time := rfl
@[simp] theorem State.wf_hostPath (s : State) (a hi lo v : Nat) : (s.wf a hi lo v).hostPath = s.hostPath := rfl
@[simp] theorem State.wf_mgrPath (s : State) (a hi lo v : Nat) : (s.wf a hi lo v).mgrPath = s.mgrPath := rfl
@[simp] theorem State.wf_events (s : State) (a hi lo v : Nat) : (s.wf a hi lo v).events = s.events := rfl
@[simp] theorem State.wf_intSet (s : State) (a hi lo v : Nat) : (s.wf a hi lo v).intSet = s.intSet := rfl
@[simp] theorem State.wf_records (s : State) (a hi lo v : Nat) : (s.wf a hi lo v).records = s.records := rfl
@[simp] theorem State.wf_mgrOut (s : State) (a hi lo v : Nat) : (s.wf a hi lo v).mgrOut = s.mgrOut := rfl
@[simp] theorem State.wf_agg (s : State) (a hi lo v : Nat) : (s.wf a hi lo v).agg = s.agg := rfl
@[simp] theorem State.wf_ibi (s : State) (a hi lo v : Nat) : (s.wf a hi lo v).ibi = s.ibi := rfl
@[simp] theorem State.wf_gov (s : State) (a hi lo v : Nat) : (s.wf a hi lo v).gov = s.gov := rfl
@[simp] theorem State.wf_hif (s : State) (a hi lo v : Nat) : (s.wf a hi lo v).hif = s.hif := rfl
@[simp] theorem State.wf_queues (s : State) (a hi lo v : Nat) : (s.wf a hi lo v).queues = s.queues := rfl
@[simp] theorem State.wf_fetched (s : State) (a hi lo v : Nat) : (s.wf a hi lo v).fetched = s.fetched := rfl
@[simp] theorem State.wf_jobs (s : State) (a hi lo v : Nat) : (s.wf a hi lo v).jobs = s.jobs := rfl
@[simp] theorem State.wf_cmds (s : State) (a hi lo v : Nat) : (s.wf a hi lo v).cmds = s.cmds := rfl
@[simp] theorem State.wf_stops (s : State) (a hi lo v : Nat) : (s.wf a hi lo v).stops = s.stops := rfl
@[simp] theorem State.wf_hostMem (s : State) (a hi lo v : Nat) : (s.wf a hi lo v).hostMem = s.hostMem := rfl
@[simp] theorem State.wf_commons (s : State) (a hi lo v : Nat) : (s.wf a hi lo v).commons = s.commons := rfl
@[simp] theorem State.wf_hbm (s : State) (a hi lo v : Nat) : (s.wf a hi lo v).hbm = s.hbm := rfl
@[simp] theorem State.wf_mem (s : State) (a hi lo v : Nat) : (s.wf a hi lo v).mem = s.mem := rfl
@[simp] theorem State.wf_tun (s : State) (a hi lo v : Nat) : (s.wf a hi lo v).tun = s.tun := rfl
@[simp] theorem State.wf_boot (s : State) (a hi lo v : Nat) : (s.wf a hi lo v).boot = s.boot := rfl
@[simp] theorem State.wf_ent (s : State) (a hi lo v : Nat) : (s.wf a hi lo v).ent = s.ent := rfl
@[simp] theorem State.wf_solver (s : State) (a hi lo v : Nat) : (s.wf a hi lo v).solver = s.solver := rfl
@[simp] theorem State.wf_pred (s : State) (a hi lo v : Nat) : (s.wf a hi lo v).pred = s.pred := rfl
@[simp] theorem State.wf_plan (s : State) (a hi lo v : Nat) : (s.wf a hi lo v).plan = s.plan := rfl
@[simp] theorem State.wf_gnm (s : State) (a hi lo v : Nat) : (s.wf a hi lo v).gnm = s.gnm := rfl
@[simp] theorem State.wf_key (s : State) (a hi lo v : Nat) : (s.wf a hi lo v).key = s.key := rfl
@[simp] theorem State.wf_cipher (s : State) (a hi lo v : Nat) : (s.wf a hi lo v).cipher = s.cipher := rfl
@[simp] theorem State.wf_jtag (s : State) (a hi lo v : Nat) : (s.wf a hi lo v).jtag = s.jtag := rfl
@[simp] theorem State.wf_links (s : State) (a hi lo v : Nat) : (s.wf a hi lo v).links = s.links := rfl
@[simp] theorem State.wf_nextId (s : State) (a hi lo v : Nat) : (s.wf a hi lo v).nextId = s.nextId := rfl
@[simp] theorem State.wf_fresh (s : State) (a hi lo v : Nat) : (s.wf a hi lo v).fresh = s.fresh := rfl

/-! wr64 changes regs alone. -/

@[simp] theorem State.wr64_pending (s : State) (lo n : Nat) : (s.wr64 lo n).pending = s.pending := rfl
@[simp] theorem State.wr64_time (s : State) (lo n : Nat) : (s.wr64 lo n).time = s.time := rfl
@[simp] theorem State.wr64_hostPath (s : State) (lo n : Nat) : (s.wr64 lo n).hostPath = s.hostPath := rfl
@[simp] theorem State.wr64_mgrPath (s : State) (lo n : Nat) : (s.wr64 lo n).mgrPath = s.mgrPath := rfl
@[simp] theorem State.wr64_events (s : State) (lo n : Nat) : (s.wr64 lo n).events = s.events := rfl
@[simp] theorem State.wr64_intSet (s : State) (lo n : Nat) : (s.wr64 lo n).intSet = s.intSet := rfl
@[simp] theorem State.wr64_records (s : State) (lo n : Nat) : (s.wr64 lo n).records = s.records := rfl
@[simp] theorem State.wr64_mgrOut (s : State) (lo n : Nat) : (s.wr64 lo n).mgrOut = s.mgrOut := rfl
@[simp] theorem State.wr64_agg (s : State) (lo n : Nat) : (s.wr64 lo n).agg = s.agg := rfl
@[simp] theorem State.wr64_ibi (s : State) (lo n : Nat) : (s.wr64 lo n).ibi = s.ibi := rfl
@[simp] theorem State.wr64_gov (s : State) (lo n : Nat) : (s.wr64 lo n).gov = s.gov := rfl
@[simp] theorem State.wr64_hif (s : State) (lo n : Nat) : (s.wr64 lo n).hif = s.hif := rfl
@[simp] theorem State.wr64_queues (s : State) (lo n : Nat) : (s.wr64 lo n).queues = s.queues := rfl
@[simp] theorem State.wr64_fetched (s : State) (lo n : Nat) : (s.wr64 lo n).fetched = s.fetched := rfl
@[simp] theorem State.wr64_jobs (s : State) (lo n : Nat) : (s.wr64 lo n).jobs = s.jobs := rfl
@[simp] theorem State.wr64_cmds (s : State) (lo n : Nat) : (s.wr64 lo n).cmds = s.cmds := rfl
@[simp] theorem State.wr64_stops (s : State) (lo n : Nat) : (s.wr64 lo n).stops = s.stops := rfl
@[simp] theorem State.wr64_hostMem (s : State) (lo n : Nat) : (s.wr64 lo n).hostMem = s.hostMem := rfl
@[simp] theorem State.wr64_commons (s : State) (lo n : Nat) : (s.wr64 lo n).commons = s.commons := rfl
@[simp] theorem State.wr64_hbm (s : State) (lo n : Nat) : (s.wr64 lo n).hbm = s.hbm := rfl
@[simp] theorem State.wr64_mem (s : State) (lo n : Nat) : (s.wr64 lo n).mem = s.mem := rfl
@[simp] theorem State.wr64_tun (s : State) (lo n : Nat) : (s.wr64 lo n).tun = s.tun := rfl
@[simp] theorem State.wr64_boot (s : State) (lo n : Nat) : (s.wr64 lo n).boot = s.boot := rfl
@[simp] theorem State.wr64_ent (s : State) (lo n : Nat) : (s.wr64 lo n).ent = s.ent := rfl
@[simp] theorem State.wr64_solver (s : State) (lo n : Nat) : (s.wr64 lo n).solver = s.solver := rfl
@[simp] theorem State.wr64_pred (s : State) (lo n : Nat) : (s.wr64 lo n).pred = s.pred := rfl
@[simp] theorem State.wr64_plan (s : State) (lo n : Nat) : (s.wr64 lo n).plan = s.plan := rfl
@[simp] theorem State.wr64_gnm (s : State) (lo n : Nat) : (s.wr64 lo n).gnm = s.gnm := rfl
@[simp] theorem State.wr64_key (s : State) (lo n : Nat) : (s.wr64 lo n).key = s.key := rfl
@[simp] theorem State.wr64_cipher (s : State) (lo n : Nat) : (s.wr64 lo n).cipher = s.cipher := rfl
@[simp] theorem State.wr64_jtag (s : State) (lo n : Nat) : (s.wr64 lo n).jtag = s.jtag := rfl
@[simp] theorem State.wr64_links (s : State) (lo n : Nat) : (s.wr64 lo n).links = s.links := rfl
@[simp] theorem State.wr64_nextId (s : State) (lo n : Nat) : (s.wr64 lo n).nextId = s.nextId := rfl
@[simp] theorem State.wr64_fresh (s : State) (lo n : Nat) : (s.wr64 lo n).fresh = s.fresh := rfl

/-! bump changes regs alone. -/

@[simp] theorem State.bump_pending (s : State) (a n : Nat) : (s.bump a n).pending = s.pending := rfl
@[simp] theorem State.bump_time (s : State) (a n : Nat) : (s.bump a n).time = s.time := rfl
@[simp] theorem State.bump_hostPath (s : State) (a n : Nat) : (s.bump a n).hostPath = s.hostPath := rfl
@[simp] theorem State.bump_mgrPath (s : State) (a n : Nat) : (s.bump a n).mgrPath = s.mgrPath := rfl
@[simp] theorem State.bump_events (s : State) (a n : Nat) : (s.bump a n).events = s.events := rfl
@[simp] theorem State.bump_intSet (s : State) (a n : Nat) : (s.bump a n).intSet = s.intSet := rfl
@[simp] theorem State.bump_records (s : State) (a n : Nat) : (s.bump a n).records = s.records := rfl
@[simp] theorem State.bump_mgrOut (s : State) (a n : Nat) : (s.bump a n).mgrOut = s.mgrOut := rfl
@[simp] theorem State.bump_agg (s : State) (a n : Nat) : (s.bump a n).agg = s.agg := rfl
@[simp] theorem State.bump_ibi (s : State) (a n : Nat) : (s.bump a n).ibi = s.ibi := rfl
@[simp] theorem State.bump_gov (s : State) (a n : Nat) : (s.bump a n).gov = s.gov := rfl
@[simp] theorem State.bump_hif (s : State) (a n : Nat) : (s.bump a n).hif = s.hif := rfl
@[simp] theorem State.bump_queues (s : State) (a n : Nat) : (s.bump a n).queues = s.queues := rfl
@[simp] theorem State.bump_fetched (s : State) (a n : Nat) : (s.bump a n).fetched = s.fetched := rfl
@[simp] theorem State.bump_jobs (s : State) (a n : Nat) : (s.bump a n).jobs = s.jobs := rfl
@[simp] theorem State.bump_cmds (s : State) (a n : Nat) : (s.bump a n).cmds = s.cmds := rfl
@[simp] theorem State.bump_stops (s : State) (a n : Nat) : (s.bump a n).stops = s.stops := rfl
@[simp] theorem State.bump_hostMem (s : State) (a n : Nat) : (s.bump a n).hostMem = s.hostMem := rfl
@[simp] theorem State.bump_commons (s : State) (a n : Nat) : (s.bump a n).commons = s.commons := rfl
@[simp] theorem State.bump_hbm (s : State) (a n : Nat) : (s.bump a n).hbm = s.hbm := rfl
@[simp] theorem State.bump_mem (s : State) (a n : Nat) : (s.bump a n).mem = s.mem := rfl
@[simp] theorem State.bump_tun (s : State) (a n : Nat) : (s.bump a n).tun = s.tun := rfl
@[simp] theorem State.bump_boot (s : State) (a n : Nat) : (s.bump a n).boot = s.boot := rfl
@[simp] theorem State.bump_ent (s : State) (a n : Nat) : (s.bump a n).ent = s.ent := rfl
@[simp] theorem State.bump_solver (s : State) (a n : Nat) : (s.bump a n).solver = s.solver := rfl
@[simp] theorem State.bump_pred (s : State) (a n : Nat) : (s.bump a n).pred = s.pred := rfl
@[simp] theorem State.bump_plan (s : State) (a n : Nat) : (s.bump a n).plan = s.plan := rfl
@[simp] theorem State.bump_gnm (s : State) (a n : Nat) : (s.bump a n).gnm = s.gnm := rfl
@[simp] theorem State.bump_key (s : State) (a n : Nat) : (s.bump a n).key = s.key := rfl
@[simp] theorem State.bump_cipher (s : State) (a n : Nat) : (s.bump a n).cipher = s.cipher := rfl
@[simp] theorem State.bump_jtag (s : State) (a n : Nat) : (s.bump a n).jtag = s.jtag := rfl
@[simp] theorem State.bump_links (s : State) (a n : Nat) : (s.bump a n).links = s.links := rfl
@[simp] theorem State.bump_nextId (s : State) (a n : Nat) : (s.bump a n).nextId = s.nextId := rfl
@[simp] theorem State.bump_fresh (s : State) (a n : Nat) : (s.bump a n).fresh = s.fresh := rfl

/-! bumpSat changes regs alone. -/

@[simp] theorem State.bumpSat_pending (s : State) (a n : Nat) : (s.bumpSat a n).pending = s.pending := rfl
@[simp] theorem State.bumpSat_time (s : State) (a n : Nat) : (s.bumpSat a n).time = s.time := rfl
@[simp] theorem State.bumpSat_hostPath (s : State) (a n : Nat) : (s.bumpSat a n).hostPath = s.hostPath := rfl
@[simp] theorem State.bumpSat_mgrPath (s : State) (a n : Nat) : (s.bumpSat a n).mgrPath = s.mgrPath := rfl
@[simp] theorem State.bumpSat_events (s : State) (a n : Nat) : (s.bumpSat a n).events = s.events := rfl
@[simp] theorem State.bumpSat_intSet (s : State) (a n : Nat) : (s.bumpSat a n).intSet = s.intSet := rfl
@[simp] theorem State.bumpSat_records (s : State) (a n : Nat) : (s.bumpSat a n).records = s.records := rfl
@[simp] theorem State.bumpSat_mgrOut (s : State) (a n : Nat) : (s.bumpSat a n).mgrOut = s.mgrOut := rfl
@[simp] theorem State.bumpSat_agg (s : State) (a n : Nat) : (s.bumpSat a n).agg = s.agg := rfl
@[simp] theorem State.bumpSat_ibi (s : State) (a n : Nat) : (s.bumpSat a n).ibi = s.ibi := rfl
@[simp] theorem State.bumpSat_gov (s : State) (a n : Nat) : (s.bumpSat a n).gov = s.gov := rfl
@[simp] theorem State.bumpSat_hif (s : State) (a n : Nat) : (s.bumpSat a n).hif = s.hif := rfl
@[simp] theorem State.bumpSat_queues (s : State) (a n : Nat) : (s.bumpSat a n).queues = s.queues := rfl
@[simp] theorem State.bumpSat_fetched (s : State) (a n : Nat) : (s.bumpSat a n).fetched = s.fetched := rfl
@[simp] theorem State.bumpSat_jobs (s : State) (a n : Nat) : (s.bumpSat a n).jobs = s.jobs := rfl
@[simp] theorem State.bumpSat_cmds (s : State) (a n : Nat) : (s.bumpSat a n).cmds = s.cmds := rfl
@[simp] theorem State.bumpSat_stops (s : State) (a n : Nat) : (s.bumpSat a n).stops = s.stops := rfl
@[simp] theorem State.bumpSat_hostMem (s : State) (a n : Nat) : (s.bumpSat a n).hostMem = s.hostMem := rfl
@[simp] theorem State.bumpSat_commons (s : State) (a n : Nat) : (s.bumpSat a n).commons = s.commons := rfl
@[simp] theorem State.bumpSat_hbm (s : State) (a n : Nat) : (s.bumpSat a n).hbm = s.hbm := rfl
@[simp] theorem State.bumpSat_mem (s : State) (a n : Nat) : (s.bumpSat a n).mem = s.mem := rfl
@[simp] theorem State.bumpSat_tun (s : State) (a n : Nat) : (s.bumpSat a n).tun = s.tun := rfl
@[simp] theorem State.bumpSat_boot (s : State) (a n : Nat) : (s.bumpSat a n).boot = s.boot := rfl
@[simp] theorem State.bumpSat_ent (s : State) (a n : Nat) : (s.bumpSat a n).ent = s.ent := rfl
@[simp] theorem State.bumpSat_solver (s : State) (a n : Nat) : (s.bumpSat a n).solver = s.solver := rfl
@[simp] theorem State.bumpSat_pred (s : State) (a n : Nat) : (s.bumpSat a n).pred = s.pred := rfl
@[simp] theorem State.bumpSat_plan (s : State) (a n : Nat) : (s.bumpSat a n).plan = s.plan := rfl
@[simp] theorem State.bumpSat_gnm (s : State) (a n : Nat) : (s.bumpSat a n).gnm = s.gnm := rfl
@[simp] theorem State.bumpSat_key (s : State) (a n : Nat) : (s.bumpSat a n).key = s.key := rfl
@[simp] theorem State.bumpSat_cipher (s : State) (a n : Nat) : (s.bumpSat a n).cipher = s.cipher := rfl
@[simp] theorem State.bumpSat_jtag (s : State) (a n : Nat) : (s.bumpSat a n).jtag = s.jtag := rfl
@[simp] theorem State.bumpSat_links (s : State) (a n : Nat) : (s.bumpSat a n).links = s.links := rfl
@[simp] theorem State.bumpSat_nextId (s : State) (a n : Nat) : (s.bumpSat a n).nextId = s.nextId := rfl
@[simp] theorem State.bumpSat_fresh (s : State) (a n : Nat) : (s.bumpSat a n).fresh = s.fresh := rfl

/-! bump64 changes regs alone. -/

@[simp] theorem State.bump64_pending (s : State) (lo n : Nat) : (s.bump64 lo n).pending = s.pending := rfl
@[simp] theorem State.bump64_time (s : State) (lo n : Nat) : (s.bump64 lo n).time = s.time := rfl
@[simp] theorem State.bump64_hostPath (s : State) (lo n : Nat) : (s.bump64 lo n).hostPath = s.hostPath := rfl
@[simp] theorem State.bump64_mgrPath (s : State) (lo n : Nat) : (s.bump64 lo n).mgrPath = s.mgrPath := rfl
@[simp] theorem State.bump64_events (s : State) (lo n : Nat) : (s.bump64 lo n).events = s.events := rfl
@[simp] theorem State.bump64_intSet (s : State) (lo n : Nat) : (s.bump64 lo n).intSet = s.intSet := rfl
@[simp] theorem State.bump64_records (s : State) (lo n : Nat) : (s.bump64 lo n).records = s.records := rfl
@[simp] theorem State.bump64_mgrOut (s : State) (lo n : Nat) : (s.bump64 lo n).mgrOut = s.mgrOut := rfl
@[simp] theorem State.bump64_agg (s : State) (lo n : Nat) : (s.bump64 lo n).agg = s.agg := rfl
@[simp] theorem State.bump64_ibi (s : State) (lo n : Nat) : (s.bump64 lo n).ibi = s.ibi := rfl
@[simp] theorem State.bump64_gov (s : State) (lo n : Nat) : (s.bump64 lo n).gov = s.gov := rfl
@[simp] theorem State.bump64_hif (s : State) (lo n : Nat) : (s.bump64 lo n).hif = s.hif := rfl
@[simp] theorem State.bump64_queues (s : State) (lo n : Nat) : (s.bump64 lo n).queues = s.queues := rfl
@[simp] theorem State.bump64_fetched (s : State) (lo n : Nat) : (s.bump64 lo n).fetched = s.fetched := rfl
@[simp] theorem State.bump64_jobs (s : State) (lo n : Nat) : (s.bump64 lo n).jobs = s.jobs := rfl
@[simp] theorem State.bump64_cmds (s : State) (lo n : Nat) : (s.bump64 lo n).cmds = s.cmds := rfl
@[simp] theorem State.bump64_stops (s : State) (lo n : Nat) : (s.bump64 lo n).stops = s.stops := rfl
@[simp] theorem State.bump64_hostMem (s : State) (lo n : Nat) : (s.bump64 lo n).hostMem = s.hostMem := rfl
@[simp] theorem State.bump64_commons (s : State) (lo n : Nat) : (s.bump64 lo n).commons = s.commons := rfl
@[simp] theorem State.bump64_hbm (s : State) (lo n : Nat) : (s.bump64 lo n).hbm = s.hbm := rfl
@[simp] theorem State.bump64_mem (s : State) (lo n : Nat) : (s.bump64 lo n).mem = s.mem := rfl
@[simp] theorem State.bump64_tun (s : State) (lo n : Nat) : (s.bump64 lo n).tun = s.tun := rfl
@[simp] theorem State.bump64_boot (s : State) (lo n : Nat) : (s.bump64 lo n).boot = s.boot := rfl
@[simp] theorem State.bump64_ent (s : State) (lo n : Nat) : (s.bump64 lo n).ent = s.ent := rfl
@[simp] theorem State.bump64_solver (s : State) (lo n : Nat) : (s.bump64 lo n).solver = s.solver := rfl
@[simp] theorem State.bump64_pred (s : State) (lo n : Nat) : (s.bump64 lo n).pred = s.pred := rfl
@[simp] theorem State.bump64_plan (s : State) (lo n : Nat) : (s.bump64 lo n).plan = s.plan := rfl
@[simp] theorem State.bump64_gnm (s : State) (lo n : Nat) : (s.bump64 lo n).gnm = s.gnm := rfl
@[simp] theorem State.bump64_key (s : State) (lo n : Nat) : (s.bump64 lo n).key = s.key := rfl
@[simp] theorem State.bump64_cipher (s : State) (lo n : Nat) : (s.bump64 lo n).cipher = s.cipher := rfl
@[simp] theorem State.bump64_jtag (s : State) (lo n : Nat) : (s.bump64 lo n).jtag = s.jtag := rfl
@[simp] theorem State.bump64_links (s : State) (lo n : Nat) : (s.bump64 lo n).links = s.links := rfl
@[simp] theorem State.bump64_nextId (s : State) (lo n : Nat) : (s.bump64 lo n).nextId = s.nextId := rfl
@[simp] theorem State.bump64_fresh (s : State) (lo n : Nat) : (s.bump64 lo n).fresh = s.fresh := rfl

/-! raiseErr changes agg alone. -/

@[simp] theorem State.raiseErr_pending (s : State) (page code info : Nat) (r : Option Nat) : (s.raiseErr page code info r).pending = s.pending := rfl
@[simp] theorem State.raiseErr_time (s : State) (page code info : Nat) (r : Option Nat) : (s.raiseErr page code info r).time = s.time := rfl
@[simp] theorem State.raiseErr_regs (s : State) (page code info : Nat) (r : Option Nat) : (s.raiseErr page code info r).regs = s.regs := rfl
@[simp] theorem State.raiseErr_hostPath (s : State) (page code info : Nat) (r : Option Nat) : (s.raiseErr page code info r).hostPath = s.hostPath := rfl
@[simp] theorem State.raiseErr_mgrPath (s : State) (page code info : Nat) (r : Option Nat) : (s.raiseErr page code info r).mgrPath = s.mgrPath := rfl
@[simp] theorem State.raiseErr_events (s : State) (page code info : Nat) (r : Option Nat) : (s.raiseErr page code info r).events = s.events := rfl
@[simp] theorem State.raiseErr_intSet (s : State) (page code info : Nat) (r : Option Nat) : (s.raiseErr page code info r).intSet = s.intSet := rfl
@[simp] theorem State.raiseErr_records (s : State) (page code info : Nat) (r : Option Nat) : (s.raiseErr page code info r).records = s.records := rfl
@[simp] theorem State.raiseErr_mgrOut (s : State) (page code info : Nat) (r : Option Nat) : (s.raiseErr page code info r).mgrOut = s.mgrOut := rfl
@[simp] theorem State.raiseErr_ibi (s : State) (page code info : Nat) (r : Option Nat) : (s.raiseErr page code info r).ibi = s.ibi := rfl
@[simp] theorem State.raiseErr_gov (s : State) (page code info : Nat) (r : Option Nat) : (s.raiseErr page code info r).gov = s.gov := rfl
@[simp] theorem State.raiseErr_hif (s : State) (page code info : Nat) (r : Option Nat) : (s.raiseErr page code info r).hif = s.hif := rfl
@[simp] theorem State.raiseErr_queues (s : State) (page code info : Nat) (r : Option Nat) : (s.raiseErr page code info r).queues = s.queues := rfl
@[simp] theorem State.raiseErr_fetched (s : State) (page code info : Nat) (r : Option Nat) : (s.raiseErr page code info r).fetched = s.fetched := rfl
@[simp] theorem State.raiseErr_jobs (s : State) (page code info : Nat) (r : Option Nat) : (s.raiseErr page code info r).jobs = s.jobs := rfl
@[simp] theorem State.raiseErr_cmds (s : State) (page code info : Nat) (r : Option Nat) : (s.raiseErr page code info r).cmds = s.cmds := rfl
@[simp] theorem State.raiseErr_stops (s : State) (page code info : Nat) (r : Option Nat) : (s.raiseErr page code info r).stops = s.stops := rfl
@[simp] theorem State.raiseErr_hostMem (s : State) (page code info : Nat) (r : Option Nat) : (s.raiseErr page code info r).hostMem = s.hostMem := rfl
@[simp] theorem State.raiseErr_commons (s : State) (page code info : Nat) (r : Option Nat) : (s.raiseErr page code info r).commons = s.commons := rfl
@[simp] theorem State.raiseErr_hbm (s : State) (page code info : Nat) (r : Option Nat) : (s.raiseErr page code info r).hbm = s.hbm := rfl
@[simp] theorem State.raiseErr_mem (s : State) (page code info : Nat) (r : Option Nat) : (s.raiseErr page code info r).mem = s.mem := rfl
@[simp] theorem State.raiseErr_tun (s : State) (page code info : Nat) (r : Option Nat) : (s.raiseErr page code info r).tun = s.tun := rfl
@[simp] theorem State.raiseErr_boot (s : State) (page code info : Nat) (r : Option Nat) : (s.raiseErr page code info r).boot = s.boot := rfl
@[simp] theorem State.raiseErr_ent (s : State) (page code info : Nat) (r : Option Nat) : (s.raiseErr page code info r).ent = s.ent := rfl
@[simp] theorem State.raiseErr_solver (s : State) (page code info : Nat) (r : Option Nat) : (s.raiseErr page code info r).solver = s.solver := rfl
@[simp] theorem State.raiseErr_pred (s : State) (page code info : Nat) (r : Option Nat) : (s.raiseErr page code info r).pred = s.pred := rfl
@[simp] theorem State.raiseErr_plan (s : State) (page code info : Nat) (r : Option Nat) : (s.raiseErr page code info r).plan = s.plan := rfl
@[simp] theorem State.raiseErr_gnm (s : State) (page code info : Nat) (r : Option Nat) : (s.raiseErr page code info r).gnm = s.gnm := rfl
@[simp] theorem State.raiseErr_key (s : State) (page code info : Nat) (r : Option Nat) : (s.raiseErr page code info r).key = s.key := rfl
@[simp] theorem State.raiseErr_cipher (s : State) (page code info : Nat) (r : Option Nat) : (s.raiseErr page code info r).cipher = s.cipher := rfl
@[simp] theorem State.raiseErr_jtag (s : State) (page code info : Nat) (r : Option Nat) : (s.raiseErr page code info r).jtag = s.jtag := rfl
@[simp] theorem State.raiseErr_links (s : State) (page code info : Nat) (r : Option Nat) : (s.raiseErr page code info r).links = s.links := rfl
@[simp] theorem State.raiseErr_nextId (s : State) (page code info : Nat) (r : Option Nat) : (s.raiseErr page code info r).nextId = s.nextId := rfl
@[simp] theorem State.raiseErr_fresh (s : State) (page code info : Nat) (r : Option Nat) : (s.raiseErr page code info r).fresh = s.fresh := rfl

/-! setQueue changes queues alone. -/

@[simp] theorem State.setQueue_pending (s : State) (q : Nat) (v : Queue) : (s.setQueue q v).pending = s.pending := rfl
@[simp] theorem State.setQueue_time (s : State) (q : Nat) (v : Queue) : (s.setQueue q v).time = s.time := rfl
@[simp] theorem State.setQueue_regs (s : State) (q : Nat) (v : Queue) : (s.setQueue q v).regs = s.regs := rfl
@[simp] theorem State.setQueue_hostPath (s : State) (q : Nat) (v : Queue) : (s.setQueue q v).hostPath = s.hostPath := rfl
@[simp] theorem State.setQueue_mgrPath (s : State) (q : Nat) (v : Queue) : (s.setQueue q v).mgrPath = s.mgrPath := rfl
@[simp] theorem State.setQueue_events (s : State) (q : Nat) (v : Queue) : (s.setQueue q v).events = s.events := rfl
@[simp] theorem State.setQueue_intSet (s : State) (q : Nat) (v : Queue) : (s.setQueue q v).intSet = s.intSet := rfl
@[simp] theorem State.setQueue_records (s : State) (q : Nat) (v : Queue) : (s.setQueue q v).records = s.records := rfl
@[simp] theorem State.setQueue_mgrOut (s : State) (q : Nat) (v : Queue) : (s.setQueue q v).mgrOut = s.mgrOut := rfl
@[simp] theorem State.setQueue_agg (s : State) (q : Nat) (v : Queue) : (s.setQueue q v).agg = s.agg := rfl
@[simp] theorem State.setQueue_ibi (s : State) (q : Nat) (v : Queue) : (s.setQueue q v).ibi = s.ibi := rfl
@[simp] theorem State.setQueue_gov (s : State) (q : Nat) (v : Queue) : (s.setQueue q v).gov = s.gov := rfl
@[simp] theorem State.setQueue_hif (s : State) (q : Nat) (v : Queue) : (s.setQueue q v).hif = s.hif := rfl
@[simp] theorem State.setQueue_fetched (s : State) (q : Nat) (v : Queue) : (s.setQueue q v).fetched = s.fetched := rfl
@[simp] theorem State.setQueue_jobs (s : State) (q : Nat) (v : Queue) : (s.setQueue q v).jobs = s.jobs := rfl
@[simp] theorem State.setQueue_cmds (s : State) (q : Nat) (v : Queue) : (s.setQueue q v).cmds = s.cmds := rfl
@[simp] theorem State.setQueue_stops (s : State) (q : Nat) (v : Queue) : (s.setQueue q v).stops = s.stops := rfl
@[simp] theorem State.setQueue_hostMem (s : State) (q : Nat) (v : Queue) : (s.setQueue q v).hostMem = s.hostMem := rfl
@[simp] theorem State.setQueue_commons (s : State) (q : Nat) (v : Queue) : (s.setQueue q v).commons = s.commons := rfl
@[simp] theorem State.setQueue_hbm (s : State) (q : Nat) (v : Queue) : (s.setQueue q v).hbm = s.hbm := rfl
@[simp] theorem State.setQueue_mem (s : State) (q : Nat) (v : Queue) : (s.setQueue q v).mem = s.mem := rfl
@[simp] theorem State.setQueue_tun (s : State) (q : Nat) (v : Queue) : (s.setQueue q v).tun = s.tun := rfl
@[simp] theorem State.setQueue_boot (s : State) (q : Nat) (v : Queue) : (s.setQueue q v).boot = s.boot := rfl
@[simp] theorem State.setQueue_ent (s : State) (q : Nat) (v : Queue) : (s.setQueue q v).ent = s.ent := rfl
@[simp] theorem State.setQueue_solver (s : State) (q : Nat) (v : Queue) : (s.setQueue q v).solver = s.solver := rfl
@[simp] theorem State.setQueue_pred (s : State) (q : Nat) (v : Queue) : (s.setQueue q v).pred = s.pred := rfl
@[simp] theorem State.setQueue_plan (s : State) (q : Nat) (v : Queue) : (s.setQueue q v).plan = s.plan := rfl
@[simp] theorem State.setQueue_gnm (s : State) (q : Nat) (v : Queue) : (s.setQueue q v).gnm = s.gnm := rfl
@[simp] theorem State.setQueue_key (s : State) (q : Nat) (v : Queue) : (s.setQueue q v).key = s.key := rfl
@[simp] theorem State.setQueue_cipher (s : State) (q : Nat) (v : Queue) : (s.setQueue q v).cipher = s.cipher := rfl
@[simp] theorem State.setQueue_jtag (s : State) (q : Nat) (v : Queue) : (s.setQueue q v).jtag = s.jtag := rfl
@[simp] theorem State.setQueue_links (s : State) (q : Nat) (v : Queue) : (s.setQueue q v).links = s.links := rfl
@[simp] theorem State.setQueue_nextId (s : State) (q : Nat) (v : Queue) : (s.setQueue q v).nextId = s.nextId := rfl
@[simp] theorem State.setQueue_fresh (s : State) (q : Nat) (v : Queue) : (s.setQueue q v).fresh = s.fresh := rfl

/-! updQueue changes queues alone. -/

@[simp] theorem State.updQueue_pending (s : State) (q : Nat) (f : Queue → Queue) : (s.updQueue q f).pending = s.pending := rfl
@[simp] theorem State.updQueue_time (s : State) (q : Nat) (f : Queue → Queue) : (s.updQueue q f).time = s.time := rfl
@[simp] theorem State.updQueue_regs (s : State) (q : Nat) (f : Queue → Queue) : (s.updQueue q f).regs = s.regs := rfl
@[simp] theorem State.updQueue_hostPath (s : State) (q : Nat) (f : Queue → Queue) : (s.updQueue q f).hostPath = s.hostPath := rfl
@[simp] theorem State.updQueue_mgrPath (s : State) (q : Nat) (f : Queue → Queue) : (s.updQueue q f).mgrPath = s.mgrPath := rfl
@[simp] theorem State.updQueue_events (s : State) (q : Nat) (f : Queue → Queue) : (s.updQueue q f).events = s.events := rfl
@[simp] theorem State.updQueue_intSet (s : State) (q : Nat) (f : Queue → Queue) : (s.updQueue q f).intSet = s.intSet := rfl
@[simp] theorem State.updQueue_records (s : State) (q : Nat) (f : Queue → Queue) : (s.updQueue q f).records = s.records := rfl
@[simp] theorem State.updQueue_mgrOut (s : State) (q : Nat) (f : Queue → Queue) : (s.updQueue q f).mgrOut = s.mgrOut := rfl
@[simp] theorem State.updQueue_agg (s : State) (q : Nat) (f : Queue → Queue) : (s.updQueue q f).agg = s.agg := rfl
@[simp] theorem State.updQueue_ibi (s : State) (q : Nat) (f : Queue → Queue) : (s.updQueue q f).ibi = s.ibi := rfl
@[simp] theorem State.updQueue_gov (s : State) (q : Nat) (f : Queue → Queue) : (s.updQueue q f).gov = s.gov := rfl
@[simp] theorem State.updQueue_hif (s : State) (q : Nat) (f : Queue → Queue) : (s.updQueue q f).hif = s.hif := rfl
@[simp] theorem State.updQueue_fetched (s : State) (q : Nat) (f : Queue → Queue) : (s.updQueue q f).fetched = s.fetched := rfl
@[simp] theorem State.updQueue_jobs (s : State) (q : Nat) (f : Queue → Queue) : (s.updQueue q f).jobs = s.jobs := rfl
@[simp] theorem State.updQueue_cmds (s : State) (q : Nat) (f : Queue → Queue) : (s.updQueue q f).cmds = s.cmds := rfl
@[simp] theorem State.updQueue_stops (s : State) (q : Nat) (f : Queue → Queue) : (s.updQueue q f).stops = s.stops := rfl
@[simp] theorem State.updQueue_hostMem (s : State) (q : Nat) (f : Queue → Queue) : (s.updQueue q f).hostMem = s.hostMem := rfl
@[simp] theorem State.updQueue_commons (s : State) (q : Nat) (f : Queue → Queue) : (s.updQueue q f).commons = s.commons := rfl
@[simp] theorem State.updQueue_hbm (s : State) (q : Nat) (f : Queue → Queue) : (s.updQueue q f).hbm = s.hbm := rfl
@[simp] theorem State.updQueue_mem (s : State) (q : Nat) (f : Queue → Queue) : (s.updQueue q f).mem = s.mem := rfl
@[simp] theorem State.updQueue_tun (s : State) (q : Nat) (f : Queue → Queue) : (s.updQueue q f).tun = s.tun := rfl
@[simp] theorem State.updQueue_boot (s : State) (q : Nat) (f : Queue → Queue) : (s.updQueue q f).boot = s.boot := rfl
@[simp] theorem State.updQueue_ent (s : State) (q : Nat) (f : Queue → Queue) : (s.updQueue q f).ent = s.ent := rfl
@[simp] theorem State.updQueue_solver (s : State) (q : Nat) (f : Queue → Queue) : (s.updQueue q f).solver = s.solver := rfl
@[simp] theorem State.updQueue_pred (s : State) (q : Nat) (f : Queue → Queue) : (s.updQueue q f).pred = s.pred := rfl
@[simp] theorem State.updQueue_plan (s : State) (q : Nat) (f : Queue → Queue) : (s.updQueue q f).plan = s.plan := rfl
@[simp] theorem State.updQueue_gnm (s : State) (q : Nat) (f : Queue → Queue) : (s.updQueue q f).gnm = s.gnm := rfl
@[simp] theorem State.updQueue_key (s : State) (q : Nat) (f : Queue → Queue) : (s.updQueue q f).key = s.key := rfl
@[simp] theorem State.updQueue_cipher (s : State) (q : Nat) (f : Queue → Queue) : (s.updQueue q f).cipher = s.cipher := rfl
@[simp] theorem State.updQueue_jtag (s : State) (q : Nat) (f : Queue → Queue) : (s.updQueue q f).jtag = s.jtag := rfl
@[simp] theorem State.updQueue_links (s : State) (q : Nat) (f : Queue → Queue) : (s.updQueue q f).links = s.links := rfl
@[simp] theorem State.updQueue_nextId (s : State) (q : Nat) (f : Queue → Queue) : (s.updQueue q f).nextId = s.nextId := rfl
@[simp] theorem State.updQueue_fresh (s : State) (q : Nat) (f : Queue → Queue) : (s.updQueue q f).fresh = s.fresh := rfl

/-! updJob changes jobs alone. -/

@[simp] theorem State.updJob_pending (s : State) (e : Nat) (f : Job → Job) : (s.updJob e f).pending = s.pending := rfl
@[simp] theorem State.updJob_time (s : State) (e : Nat) (f : Job → Job) : (s.updJob e f).time = s.time := rfl
@[simp] theorem State.updJob_regs (s : State) (e : Nat) (f : Job → Job) : (s.updJob e f).regs = s.regs := rfl
@[simp] theorem State.updJob_hostPath (s : State) (e : Nat) (f : Job → Job) : (s.updJob e f).hostPath = s.hostPath := rfl
@[simp] theorem State.updJob_mgrPath (s : State) (e : Nat) (f : Job → Job) : (s.updJob e f).mgrPath = s.mgrPath := rfl
@[simp] theorem State.updJob_events (s : State) (e : Nat) (f : Job → Job) : (s.updJob e f).events = s.events := rfl
@[simp] theorem State.updJob_intSet (s : State) (e : Nat) (f : Job → Job) : (s.updJob e f).intSet = s.intSet := rfl
@[simp] theorem State.updJob_records (s : State) (e : Nat) (f : Job → Job) : (s.updJob e f).records = s.records := rfl
@[simp] theorem State.updJob_mgrOut (s : State) (e : Nat) (f : Job → Job) : (s.updJob e f).mgrOut = s.mgrOut := rfl
@[simp] theorem State.updJob_agg (s : State) (e : Nat) (f : Job → Job) : (s.updJob e f).agg = s.agg := rfl
@[simp] theorem State.updJob_ibi (s : State) (e : Nat) (f : Job → Job) : (s.updJob e f).ibi = s.ibi := rfl
@[simp] theorem State.updJob_gov (s : State) (e : Nat) (f : Job → Job) : (s.updJob e f).gov = s.gov := rfl
@[simp] theorem State.updJob_hif (s : State) (e : Nat) (f : Job → Job) : (s.updJob e f).hif = s.hif := rfl
@[simp] theorem State.updJob_queues (s : State) (e : Nat) (f : Job → Job) : (s.updJob e f).queues = s.queues := rfl
@[simp] theorem State.updJob_fetched (s : State) (e : Nat) (f : Job → Job) : (s.updJob e f).fetched = s.fetched := rfl
@[simp] theorem State.updJob_cmds (s : State) (e : Nat) (f : Job → Job) : (s.updJob e f).cmds = s.cmds := rfl
@[simp] theorem State.updJob_stops (s : State) (e : Nat) (f : Job → Job) : (s.updJob e f).stops = s.stops := rfl
@[simp] theorem State.updJob_hostMem (s : State) (e : Nat) (f : Job → Job) : (s.updJob e f).hostMem = s.hostMem := rfl
@[simp] theorem State.updJob_commons (s : State) (e : Nat) (f : Job → Job) : (s.updJob e f).commons = s.commons := rfl
@[simp] theorem State.updJob_hbm (s : State) (e : Nat) (f : Job → Job) : (s.updJob e f).hbm = s.hbm := rfl
@[simp] theorem State.updJob_mem (s : State) (e : Nat) (f : Job → Job) : (s.updJob e f).mem = s.mem := rfl
@[simp] theorem State.updJob_tun (s : State) (e : Nat) (f : Job → Job) : (s.updJob e f).tun = s.tun := rfl
@[simp] theorem State.updJob_boot (s : State) (e : Nat) (f : Job → Job) : (s.updJob e f).boot = s.boot := rfl
@[simp] theorem State.updJob_ent (s : State) (e : Nat) (f : Job → Job) : (s.updJob e f).ent = s.ent := rfl
@[simp] theorem State.updJob_solver (s : State) (e : Nat) (f : Job → Job) : (s.updJob e f).solver = s.solver := rfl
@[simp] theorem State.updJob_pred (s : State) (e : Nat) (f : Job → Job) : (s.updJob e f).pred = s.pred := rfl
@[simp] theorem State.updJob_plan (s : State) (e : Nat) (f : Job → Job) : (s.updJob e f).plan = s.plan := rfl
@[simp] theorem State.updJob_gnm (s : State) (e : Nat) (f : Job → Job) : (s.updJob e f).gnm = s.gnm := rfl
@[simp] theorem State.updJob_key (s : State) (e : Nat) (f : Job → Job) : (s.updJob e f).key = s.key := rfl
@[simp] theorem State.updJob_cipher (s : State) (e : Nat) (f : Job → Job) : (s.updJob e f).cipher = s.cipher := rfl
@[simp] theorem State.updJob_jtag (s : State) (e : Nat) (f : Job → Job) : (s.updJob e f).jtag = s.jtag := rfl
@[simp] theorem State.updJob_links (s : State) (e : Nat) (f : Job → Job) : (s.updJob e f).links = s.links := rfl
@[simp] theorem State.updJob_nextId (s : State) (e : Nat) (f : Job → Job) : (s.updJob e f).nextId = s.nextId := rfl
@[simp] theorem State.updJob_fresh (s : State) (e : Nat) (f : Job → Job) : (s.updJob e f).fresh = s.fresh := rfl

/-! updCmd changes cmds alone. -/

@[simp] theorem State.updCmd_pending (s : State) (i : Nat) (f : Command → Command) : (s.updCmd i f).pending = s.pending := rfl
@[simp] theorem State.updCmd_time (s : State) (i : Nat) (f : Command → Command) : (s.updCmd i f).time = s.time := rfl
@[simp] theorem State.updCmd_regs (s : State) (i : Nat) (f : Command → Command) : (s.updCmd i f).regs = s.regs := rfl
@[simp] theorem State.updCmd_hostPath (s : State) (i : Nat) (f : Command → Command) : (s.updCmd i f).hostPath = s.hostPath := rfl
@[simp] theorem State.updCmd_mgrPath (s : State) (i : Nat) (f : Command → Command) : (s.updCmd i f).mgrPath = s.mgrPath := rfl
@[simp] theorem State.updCmd_events (s : State) (i : Nat) (f : Command → Command) : (s.updCmd i f).events = s.events := rfl
@[simp] theorem State.updCmd_intSet (s : State) (i : Nat) (f : Command → Command) : (s.updCmd i f).intSet = s.intSet := rfl
@[simp] theorem State.updCmd_records (s : State) (i : Nat) (f : Command → Command) : (s.updCmd i f).records = s.records := rfl
@[simp] theorem State.updCmd_mgrOut (s : State) (i : Nat) (f : Command → Command) : (s.updCmd i f).mgrOut = s.mgrOut := rfl
@[simp] theorem State.updCmd_agg (s : State) (i : Nat) (f : Command → Command) : (s.updCmd i f).agg = s.agg := rfl
@[simp] theorem State.updCmd_ibi (s : State) (i : Nat) (f : Command → Command) : (s.updCmd i f).ibi = s.ibi := rfl
@[simp] theorem State.updCmd_gov (s : State) (i : Nat) (f : Command → Command) : (s.updCmd i f).gov = s.gov := rfl
@[simp] theorem State.updCmd_hif (s : State) (i : Nat) (f : Command → Command) : (s.updCmd i f).hif = s.hif := rfl
@[simp] theorem State.updCmd_queues (s : State) (i : Nat) (f : Command → Command) : (s.updCmd i f).queues = s.queues := rfl
@[simp] theorem State.updCmd_fetched (s : State) (i : Nat) (f : Command → Command) : (s.updCmd i f).fetched = s.fetched := rfl
@[simp] theorem State.updCmd_jobs (s : State) (i : Nat) (f : Command → Command) : (s.updCmd i f).jobs = s.jobs := rfl
@[simp] theorem State.updCmd_stops (s : State) (i : Nat) (f : Command → Command) : (s.updCmd i f).stops = s.stops := rfl
@[simp] theorem State.updCmd_hostMem (s : State) (i : Nat) (f : Command → Command) : (s.updCmd i f).hostMem = s.hostMem := rfl
@[simp] theorem State.updCmd_commons (s : State) (i : Nat) (f : Command → Command) : (s.updCmd i f).commons = s.commons := rfl
@[simp] theorem State.updCmd_hbm (s : State) (i : Nat) (f : Command → Command) : (s.updCmd i f).hbm = s.hbm := rfl
@[simp] theorem State.updCmd_mem (s : State) (i : Nat) (f : Command → Command) : (s.updCmd i f).mem = s.mem := rfl
@[simp] theorem State.updCmd_tun (s : State) (i : Nat) (f : Command → Command) : (s.updCmd i f).tun = s.tun := rfl
@[simp] theorem State.updCmd_boot (s : State) (i : Nat) (f : Command → Command) : (s.updCmd i f).boot = s.boot := rfl
@[simp] theorem State.updCmd_ent (s : State) (i : Nat) (f : Command → Command) : (s.updCmd i f).ent = s.ent := rfl
@[simp] theorem State.updCmd_solver (s : State) (i : Nat) (f : Command → Command) : (s.updCmd i f).solver = s.solver := rfl
@[simp] theorem State.updCmd_pred (s : State) (i : Nat) (f : Command → Command) : (s.updCmd i f).pred = s.pred := rfl
@[simp] theorem State.updCmd_plan (s : State) (i : Nat) (f : Command → Command) : (s.updCmd i f).plan = s.plan := rfl
@[simp] theorem State.updCmd_gnm (s : State) (i : Nat) (f : Command → Command) : (s.updCmd i f).gnm = s.gnm := rfl
@[simp] theorem State.updCmd_key (s : State) (i : Nat) (f : Command → Command) : (s.updCmd i f).key = s.key := rfl
@[simp] theorem State.updCmd_cipher (s : State) (i : Nat) (f : Command → Command) : (s.updCmd i f).cipher = s.cipher := rfl
@[simp] theorem State.updCmd_jtag (s : State) (i : Nat) (f : Command → Command) : (s.updCmd i f).jtag = s.jtag := rfl
@[simp] theorem State.updCmd_links (s : State) (i : Nat) (f : Command → Command) : (s.updCmd i f).links = s.links := rfl
@[simp] theorem State.updCmd_nextId (s : State) (i : Nat) (f : Command → Command) : (s.updCmd i f).nextId = s.nextId := rfl
@[simp] theorem State.updCmd_fresh (s : State) (i : Nat) (f : Command → Command) : (s.updCmd i f).fresh = s.fresh := rfl

/-! setCore changes gnm alone. -/

@[simp] theorem State.setCore_pending (s : State) (k : Nat) (c : Core) : (s.setCore k c).pending = s.pending := rfl
@[simp] theorem State.setCore_time (s : State) (k : Nat) (c : Core) : (s.setCore k c).time = s.time := rfl
@[simp] theorem State.setCore_regs (s : State) (k : Nat) (c : Core) : (s.setCore k c).regs = s.regs := rfl
@[simp] theorem State.setCore_hostPath (s : State) (k : Nat) (c : Core) : (s.setCore k c).hostPath = s.hostPath := rfl
@[simp] theorem State.setCore_mgrPath (s : State) (k : Nat) (c : Core) : (s.setCore k c).mgrPath = s.mgrPath := rfl
@[simp] theorem State.setCore_events (s : State) (k : Nat) (c : Core) : (s.setCore k c).events = s.events := rfl
@[simp] theorem State.setCore_intSet (s : State) (k : Nat) (c : Core) : (s.setCore k c).intSet = s.intSet := rfl
@[simp] theorem State.setCore_records (s : State) (k : Nat) (c : Core) : (s.setCore k c).records = s.records := rfl
@[simp] theorem State.setCore_mgrOut (s : State) (k : Nat) (c : Core) : (s.setCore k c).mgrOut = s.mgrOut := rfl
@[simp] theorem State.setCore_agg (s : State) (k : Nat) (c : Core) : (s.setCore k c).agg = s.agg := rfl
@[simp] theorem State.setCore_ibi (s : State) (k : Nat) (c : Core) : (s.setCore k c).ibi = s.ibi := rfl
@[simp] theorem State.setCore_gov (s : State) (k : Nat) (c : Core) : (s.setCore k c).gov = s.gov := rfl
@[simp] theorem State.setCore_hif (s : State) (k : Nat) (c : Core) : (s.setCore k c).hif = s.hif := rfl
@[simp] theorem State.setCore_queues (s : State) (k : Nat) (c : Core) : (s.setCore k c).queues = s.queues := rfl
@[simp] theorem State.setCore_fetched (s : State) (k : Nat) (c : Core) : (s.setCore k c).fetched = s.fetched := rfl
@[simp] theorem State.setCore_jobs (s : State) (k : Nat) (c : Core) : (s.setCore k c).jobs = s.jobs := rfl
@[simp] theorem State.setCore_cmds (s : State) (k : Nat) (c : Core) : (s.setCore k c).cmds = s.cmds := rfl
@[simp] theorem State.setCore_stops (s : State) (k : Nat) (c : Core) : (s.setCore k c).stops = s.stops := rfl
@[simp] theorem State.setCore_hostMem (s : State) (k : Nat) (c : Core) : (s.setCore k c).hostMem = s.hostMem := rfl
@[simp] theorem State.setCore_commons (s : State) (k : Nat) (c : Core) : (s.setCore k c).commons = s.commons := rfl
@[simp] theorem State.setCore_hbm (s : State) (k : Nat) (c : Core) : (s.setCore k c).hbm = s.hbm := rfl
@[simp] theorem State.setCore_mem (s : State) (k : Nat) (c : Core) : (s.setCore k c).mem = s.mem := rfl
@[simp] theorem State.setCore_tun (s : State) (k : Nat) (c : Core) : (s.setCore k c).tun = s.tun := rfl
@[simp] theorem State.setCore_boot (s : State) (k : Nat) (c : Core) : (s.setCore k c).boot = s.boot := rfl
@[simp] theorem State.setCore_ent (s : State) (k : Nat) (c : Core) : (s.setCore k c).ent = s.ent := rfl
@[simp] theorem State.setCore_solver (s : State) (k : Nat) (c : Core) : (s.setCore k c).solver = s.solver := rfl
@[simp] theorem State.setCore_pred (s : State) (k : Nat) (c : Core) : (s.setCore k c).pred = s.pred := rfl
@[simp] theorem State.setCore_plan (s : State) (k : Nat) (c : Core) : (s.setCore k c).plan = s.plan := rfl
@[simp] theorem State.setCore_key (s : State) (k : Nat) (c : Core) : (s.setCore k c).key = s.key := rfl
@[simp] theorem State.setCore_cipher (s : State) (k : Nat) (c : Core) : (s.setCore k c).cipher = s.cipher := rfl
@[simp] theorem State.setCore_jtag (s : State) (k : Nat) (c : Core) : (s.setCore k c).jtag = s.jtag := rfl
@[simp] theorem State.setCore_links (s : State) (k : Nat) (c : Core) : (s.setCore k c).links = s.links := rfl
@[simp] theorem State.setCore_nextId (s : State) (k : Nat) (c : Core) : (s.setCore k c).nextId = s.nextId := rfl
@[simp] theorem State.setCore_fresh (s : State) (k : Nat) (c : Core) : (s.setCore k c).fresh = s.fresh := rfl

/-! updCore changes gnm alone. -/

@[simp] theorem State.updCore_pending (s : State) (k : Nat) (f : Core → Core) : (s.updCore k f).pending = s.pending := rfl
@[simp] theorem State.updCore_time (s : State) (k : Nat) (f : Core → Core) : (s.updCore k f).time = s.time := rfl
@[simp] theorem State.updCore_regs (s : State) (k : Nat) (f : Core → Core) : (s.updCore k f).regs = s.regs := rfl
@[simp] theorem State.updCore_hostPath (s : State) (k : Nat) (f : Core → Core) : (s.updCore k f).hostPath = s.hostPath := rfl
@[simp] theorem State.updCore_mgrPath (s : State) (k : Nat) (f : Core → Core) : (s.updCore k f).mgrPath = s.mgrPath := rfl
@[simp] theorem State.updCore_events (s : State) (k : Nat) (f : Core → Core) : (s.updCore k f).events = s.events := rfl
@[simp] theorem State.updCore_intSet (s : State) (k : Nat) (f : Core → Core) : (s.updCore k f).intSet = s.intSet := rfl
@[simp] theorem State.updCore_records (s : State) (k : Nat) (f : Core → Core) : (s.updCore k f).records = s.records := rfl
@[simp] theorem State.updCore_mgrOut (s : State) (k : Nat) (f : Core → Core) : (s.updCore k f).mgrOut = s.mgrOut := rfl
@[simp] theorem State.updCore_agg (s : State) (k : Nat) (f : Core → Core) : (s.updCore k f).agg = s.agg := rfl
@[simp] theorem State.updCore_ibi (s : State) (k : Nat) (f : Core → Core) : (s.updCore k f).ibi = s.ibi := rfl
@[simp] theorem State.updCore_gov (s : State) (k : Nat) (f : Core → Core) : (s.updCore k f).gov = s.gov := rfl
@[simp] theorem State.updCore_hif (s : State) (k : Nat) (f : Core → Core) : (s.updCore k f).hif = s.hif := rfl
@[simp] theorem State.updCore_queues (s : State) (k : Nat) (f : Core → Core) : (s.updCore k f).queues = s.queues := rfl
@[simp] theorem State.updCore_fetched (s : State) (k : Nat) (f : Core → Core) : (s.updCore k f).fetched = s.fetched := rfl
@[simp] theorem State.updCore_jobs (s : State) (k : Nat) (f : Core → Core) : (s.updCore k f).jobs = s.jobs := rfl
@[simp] theorem State.updCore_cmds (s : State) (k : Nat) (f : Core → Core) : (s.updCore k f).cmds = s.cmds := rfl
@[simp] theorem State.updCore_stops (s : State) (k : Nat) (f : Core → Core) : (s.updCore k f).stops = s.stops := rfl
@[simp] theorem State.updCore_hostMem (s : State) (k : Nat) (f : Core → Core) : (s.updCore k f).hostMem = s.hostMem := rfl
@[simp] theorem State.updCore_commons (s : State) (k : Nat) (f : Core → Core) : (s.updCore k f).commons = s.commons := rfl
@[simp] theorem State.updCore_hbm (s : State) (k : Nat) (f : Core → Core) : (s.updCore k f).hbm = s.hbm := rfl
@[simp] theorem State.updCore_mem (s : State) (k : Nat) (f : Core → Core) : (s.updCore k f).mem = s.mem := rfl
@[simp] theorem State.updCore_tun (s : State) (k : Nat) (f : Core → Core) : (s.updCore k f).tun = s.tun := rfl
@[simp] theorem State.updCore_boot (s : State) (k : Nat) (f : Core → Core) : (s.updCore k f).boot = s.boot := rfl
@[simp] theorem State.updCore_ent (s : State) (k : Nat) (f : Core → Core) : (s.updCore k f).ent = s.ent := rfl
@[simp] theorem State.updCore_solver (s : State) (k : Nat) (f : Core → Core) : (s.updCore k f).solver = s.solver := rfl
@[simp] theorem State.updCore_pred (s : State) (k : Nat) (f : Core → Core) : (s.updCore k f).pred = s.pred := rfl
@[simp] theorem State.updCore_plan (s : State) (k : Nat) (f : Core → Core) : (s.updCore k f).plan = s.plan := rfl
@[simp] theorem State.updCore_key (s : State) (k : Nat) (f : Core → Core) : (s.updCore k f).key = s.key := rfl
@[simp] theorem State.updCore_cipher (s : State) (k : Nat) (f : Core → Core) : (s.updCore k f).cipher = s.cipher := rfl
@[simp] theorem State.updCore_jtag (s : State) (k : Nat) (f : Core → Core) : (s.updCore k f).jtag = s.jtag := rfl
@[simp] theorem State.updCore_links (s : State) (k : Nat) (f : Core → Core) : (s.updCore k f).links = s.links := rfl
@[simp] theorem State.updCore_nextId (s : State) (k : Nat) (f : Core → Core) : (s.updCore k f).nextId = s.nextId := rfl
@[simp] theorem State.updCore_fresh (s : State) (k : Nat) (f : Core → Core) : (s.updCore k f).fresh = s.fresh := rfl

/-! updTun changes tun alone. -/

@[simp] theorem State.updTun_pending (s : State) (t : Nat) (f : TunSt → TunSt) : (s.updTun t f).pending = s.pending := rfl
@[simp] theorem State.updTun_time (s : State) (t : Nat) (f : TunSt → TunSt) : (s.updTun t f).time = s.time := rfl
@[simp] theorem State.updTun_regs (s : State) (t : Nat) (f : TunSt → TunSt) : (s.updTun t f).regs = s.regs := rfl
@[simp] theorem State.updTun_hostPath (s : State) (t : Nat) (f : TunSt → TunSt) : (s.updTun t f).hostPath = s.hostPath := rfl
@[simp] theorem State.updTun_mgrPath (s : State) (t : Nat) (f : TunSt → TunSt) : (s.updTun t f).mgrPath = s.mgrPath := rfl
@[simp] theorem State.updTun_events (s : State) (t : Nat) (f : TunSt → TunSt) : (s.updTun t f).events = s.events := rfl
@[simp] theorem State.updTun_intSet (s : State) (t : Nat) (f : TunSt → TunSt) : (s.updTun t f).intSet = s.intSet := rfl
@[simp] theorem State.updTun_records (s : State) (t : Nat) (f : TunSt → TunSt) : (s.updTun t f).records = s.records := rfl
@[simp] theorem State.updTun_mgrOut (s : State) (t : Nat) (f : TunSt → TunSt) : (s.updTun t f).mgrOut = s.mgrOut := rfl
@[simp] theorem State.updTun_agg (s : State) (t : Nat) (f : TunSt → TunSt) : (s.updTun t f).agg = s.agg := rfl
@[simp] theorem State.updTun_ibi (s : State) (t : Nat) (f : TunSt → TunSt) : (s.updTun t f).ibi = s.ibi := rfl
@[simp] theorem State.updTun_gov (s : State) (t : Nat) (f : TunSt → TunSt) : (s.updTun t f).gov = s.gov := rfl
@[simp] theorem State.updTun_hif (s : State) (t : Nat) (f : TunSt → TunSt) : (s.updTun t f).hif = s.hif := rfl
@[simp] theorem State.updTun_queues (s : State) (t : Nat) (f : TunSt → TunSt) : (s.updTun t f).queues = s.queues := rfl
@[simp] theorem State.updTun_fetched (s : State) (t : Nat) (f : TunSt → TunSt) : (s.updTun t f).fetched = s.fetched := rfl
@[simp] theorem State.updTun_jobs (s : State) (t : Nat) (f : TunSt → TunSt) : (s.updTun t f).jobs = s.jobs := rfl
@[simp] theorem State.updTun_cmds (s : State) (t : Nat) (f : TunSt → TunSt) : (s.updTun t f).cmds = s.cmds := rfl
@[simp] theorem State.updTun_stops (s : State) (t : Nat) (f : TunSt → TunSt) : (s.updTun t f).stops = s.stops := rfl
@[simp] theorem State.updTun_hostMem (s : State) (t : Nat) (f : TunSt → TunSt) : (s.updTun t f).hostMem = s.hostMem := rfl
@[simp] theorem State.updTun_commons (s : State) (t : Nat) (f : TunSt → TunSt) : (s.updTun t f).commons = s.commons := rfl
@[simp] theorem State.updTun_hbm (s : State) (t : Nat) (f : TunSt → TunSt) : (s.updTun t f).hbm = s.hbm := rfl
@[simp] theorem State.updTun_mem (s : State) (t : Nat) (f : TunSt → TunSt) : (s.updTun t f).mem = s.mem := rfl
@[simp] theorem State.updTun_boot (s : State) (t : Nat) (f : TunSt → TunSt) : (s.updTun t f).boot = s.boot := rfl
@[simp] theorem State.updTun_ent (s : State) (t : Nat) (f : TunSt → TunSt) : (s.updTun t f).ent = s.ent := rfl
@[simp] theorem State.updTun_solver (s : State) (t : Nat) (f : TunSt → TunSt) : (s.updTun t f).solver = s.solver := rfl
@[simp] theorem State.updTun_pred (s : State) (t : Nat) (f : TunSt → TunSt) : (s.updTun t f).pred = s.pred := rfl
@[simp] theorem State.updTun_plan (s : State) (t : Nat) (f : TunSt → TunSt) : (s.updTun t f).plan = s.plan := rfl
@[simp] theorem State.updTun_gnm (s : State) (t : Nat) (f : TunSt → TunSt) : (s.updTun t f).gnm = s.gnm := rfl
@[simp] theorem State.updTun_key (s : State) (t : Nat) (f : TunSt → TunSt) : (s.updTun t f).key = s.key := rfl
@[simp] theorem State.updTun_cipher (s : State) (t : Nat) (f : TunSt → TunSt) : (s.updTun t f).cipher = s.cipher := rfl
@[simp] theorem State.updTun_jtag (s : State) (t : Nat) (f : TunSt → TunSt) : (s.updTun t f).jtag = s.jtag := rfl
@[simp] theorem State.updTun_links (s : State) (t : Nat) (f : TunSt → TunSt) : (s.updTun t f).links = s.links := rfl
@[simp] theorem State.updTun_nextId (s : State) (t : Nat) (f : TunSt → TunSt) : (s.updTun t f).nextId = s.nextId := rfl
@[simp] theorem State.updTun_fresh (s : State) (t : Nat) (f : TunSt → TunSt) : (s.updTun t f).fresh = s.fresh := rfl

/-! updGrist changes tun alone. -/

@[simp] theorem State.updGrist_pending (s : State) (i : Nat) (f : Grist → Grist) : (s.updGrist i f).pending = s.pending := rfl
@[simp] theorem State.updGrist_time (s : State) (i : Nat) (f : Grist → Grist) : (s.updGrist i f).time = s.time := rfl
@[simp] theorem State.updGrist_regs (s : State) (i : Nat) (f : Grist → Grist) : (s.updGrist i f).regs = s.regs := rfl
@[simp] theorem State.updGrist_hostPath (s : State) (i : Nat) (f : Grist → Grist) : (s.updGrist i f).hostPath = s.hostPath := rfl
@[simp] theorem State.updGrist_mgrPath (s : State) (i : Nat) (f : Grist → Grist) : (s.updGrist i f).mgrPath = s.mgrPath := rfl
@[simp] theorem State.updGrist_events (s : State) (i : Nat) (f : Grist → Grist) : (s.updGrist i f).events = s.events := rfl
@[simp] theorem State.updGrist_intSet (s : State) (i : Nat) (f : Grist → Grist) : (s.updGrist i f).intSet = s.intSet := rfl
@[simp] theorem State.updGrist_records (s : State) (i : Nat) (f : Grist → Grist) : (s.updGrist i f).records = s.records := rfl
@[simp] theorem State.updGrist_mgrOut (s : State) (i : Nat) (f : Grist → Grist) : (s.updGrist i f).mgrOut = s.mgrOut := rfl
@[simp] theorem State.updGrist_agg (s : State) (i : Nat) (f : Grist → Grist) : (s.updGrist i f).agg = s.agg := rfl
@[simp] theorem State.updGrist_ibi (s : State) (i : Nat) (f : Grist → Grist) : (s.updGrist i f).ibi = s.ibi := rfl
@[simp] theorem State.updGrist_gov (s : State) (i : Nat) (f : Grist → Grist) : (s.updGrist i f).gov = s.gov := rfl
@[simp] theorem State.updGrist_hif (s : State) (i : Nat) (f : Grist → Grist) : (s.updGrist i f).hif = s.hif := rfl
@[simp] theorem State.updGrist_queues (s : State) (i : Nat) (f : Grist → Grist) : (s.updGrist i f).queues = s.queues := rfl
@[simp] theorem State.updGrist_fetched (s : State) (i : Nat) (f : Grist → Grist) : (s.updGrist i f).fetched = s.fetched := rfl
@[simp] theorem State.updGrist_jobs (s : State) (i : Nat) (f : Grist → Grist) : (s.updGrist i f).jobs = s.jobs := rfl
@[simp] theorem State.updGrist_cmds (s : State) (i : Nat) (f : Grist → Grist) : (s.updGrist i f).cmds = s.cmds := rfl
@[simp] theorem State.updGrist_stops (s : State) (i : Nat) (f : Grist → Grist) : (s.updGrist i f).stops = s.stops := rfl
@[simp] theorem State.updGrist_hostMem (s : State) (i : Nat) (f : Grist → Grist) : (s.updGrist i f).hostMem = s.hostMem := rfl
@[simp] theorem State.updGrist_commons (s : State) (i : Nat) (f : Grist → Grist) : (s.updGrist i f).commons = s.commons := rfl
@[simp] theorem State.updGrist_hbm (s : State) (i : Nat) (f : Grist → Grist) : (s.updGrist i f).hbm = s.hbm := rfl
@[simp] theorem State.updGrist_mem (s : State) (i : Nat) (f : Grist → Grist) : (s.updGrist i f).mem = s.mem := rfl
@[simp] theorem State.updGrist_boot (s : State) (i : Nat) (f : Grist → Grist) : (s.updGrist i f).boot = s.boot := rfl
@[simp] theorem State.updGrist_ent (s : State) (i : Nat) (f : Grist → Grist) : (s.updGrist i f).ent = s.ent := rfl
@[simp] theorem State.updGrist_solver (s : State) (i : Nat) (f : Grist → Grist) : (s.updGrist i f).solver = s.solver := rfl
@[simp] theorem State.updGrist_pred (s : State) (i : Nat) (f : Grist → Grist) : (s.updGrist i f).pred = s.pred := rfl
@[simp] theorem State.updGrist_plan (s : State) (i : Nat) (f : Grist → Grist) : (s.updGrist i f).plan = s.plan := rfl
@[simp] theorem State.updGrist_gnm (s : State) (i : Nat) (f : Grist → Grist) : (s.updGrist i f).gnm = s.gnm := rfl
@[simp] theorem State.updGrist_key (s : State) (i : Nat) (f : Grist → Grist) : (s.updGrist i f).key = s.key := rfl
@[simp] theorem State.updGrist_cipher (s : State) (i : Nat) (f : Grist → Grist) : (s.updGrist i f).cipher = s.cipher := rfl
@[simp] theorem State.updGrist_jtag (s : State) (i : Nat) (f : Grist → Grist) : (s.updGrist i f).jtag = s.jtag := rfl
@[simp] theorem State.updGrist_links (s : State) (i : Nat) (f : Grist → Grist) : (s.updGrist i f).links = s.links := rfl
@[simp] theorem State.updGrist_nextId (s : State) (i : Nat) (f : Grist → Grist) : (s.updGrist i f).nextId = s.nextId := rfl
@[simp] theorem State.updGrist_fresh (s : State) (i : Nat) (f : Grist → Grist) : (s.updGrist i f).fresh = s.fresh := rfl

/-! updRun changes tun alone. -/

@[simp] theorem State.updRun_pending (s : State) (c : Nat) (f : Run → Run) : (s.updRun c f).pending = s.pending := rfl
@[simp] theorem State.updRun_time (s : State) (c : Nat) (f : Run → Run) : (s.updRun c f).time = s.time := rfl
@[simp] theorem State.updRun_regs (s : State) (c : Nat) (f : Run → Run) : (s.updRun c f).regs = s.regs := rfl
@[simp] theorem State.updRun_hostPath (s : State) (c : Nat) (f : Run → Run) : (s.updRun c f).hostPath = s.hostPath := rfl
@[simp] theorem State.updRun_mgrPath (s : State) (c : Nat) (f : Run → Run) : (s.updRun c f).mgrPath = s.mgrPath := rfl
@[simp] theorem State.updRun_events (s : State) (c : Nat) (f : Run → Run) : (s.updRun c f).events = s.events := rfl
@[simp] theorem State.updRun_intSet (s : State) (c : Nat) (f : Run → Run) : (s.updRun c f).intSet = s.intSet := rfl
@[simp] theorem State.updRun_records (s : State) (c : Nat) (f : Run → Run) : (s.updRun c f).records = s.records := rfl
@[simp] theorem State.updRun_mgrOut (s : State) (c : Nat) (f : Run → Run) : (s.updRun c f).mgrOut = s.mgrOut := rfl
@[simp] theorem State.updRun_agg (s : State) (c : Nat) (f : Run → Run) : (s.updRun c f).agg = s.agg := rfl
@[simp] theorem State.updRun_ibi (s : State) (c : Nat) (f : Run → Run) : (s.updRun c f).ibi = s.ibi := rfl
@[simp] theorem State.updRun_gov (s : State) (c : Nat) (f : Run → Run) : (s.updRun c f).gov = s.gov := rfl
@[simp] theorem State.updRun_hif (s : State) (c : Nat) (f : Run → Run) : (s.updRun c f).hif = s.hif := rfl
@[simp] theorem State.updRun_queues (s : State) (c : Nat) (f : Run → Run) : (s.updRun c f).queues = s.queues := rfl
@[simp] theorem State.updRun_fetched (s : State) (c : Nat) (f : Run → Run) : (s.updRun c f).fetched = s.fetched := rfl
@[simp] theorem State.updRun_jobs (s : State) (c : Nat) (f : Run → Run) : (s.updRun c f).jobs = s.jobs := rfl
@[simp] theorem State.updRun_cmds (s : State) (c : Nat) (f : Run → Run) : (s.updRun c f).cmds = s.cmds := rfl
@[simp] theorem State.updRun_stops (s : State) (c : Nat) (f : Run → Run) : (s.updRun c f).stops = s.stops := rfl
@[simp] theorem State.updRun_hostMem (s : State) (c : Nat) (f : Run → Run) : (s.updRun c f).hostMem = s.hostMem := rfl
@[simp] theorem State.updRun_commons (s : State) (c : Nat) (f : Run → Run) : (s.updRun c f).commons = s.commons := rfl
@[simp] theorem State.updRun_hbm (s : State) (c : Nat) (f : Run → Run) : (s.updRun c f).hbm = s.hbm := rfl
@[simp] theorem State.updRun_mem (s : State) (c : Nat) (f : Run → Run) : (s.updRun c f).mem = s.mem := rfl
@[simp] theorem State.updRun_boot (s : State) (c : Nat) (f : Run → Run) : (s.updRun c f).boot = s.boot := rfl
@[simp] theorem State.updRun_ent (s : State) (c : Nat) (f : Run → Run) : (s.updRun c f).ent = s.ent := rfl
@[simp] theorem State.updRun_solver (s : State) (c : Nat) (f : Run → Run) : (s.updRun c f).solver = s.solver := rfl
@[simp] theorem State.updRun_pred (s : State) (c : Nat) (f : Run → Run) : (s.updRun c f).pred = s.pred := rfl
@[simp] theorem State.updRun_plan (s : State) (c : Nat) (f : Run → Run) : (s.updRun c f).plan = s.plan := rfl
@[simp] theorem State.updRun_gnm (s : State) (c : Nat) (f : Run → Run) : (s.updRun c f).gnm = s.gnm := rfl
@[simp] theorem State.updRun_key (s : State) (c : Nat) (f : Run → Run) : (s.updRun c f).key = s.key := rfl
@[simp] theorem State.updRun_cipher (s : State) (c : Nat) (f : Run → Run) : (s.updRun c f).cipher = s.cipher := rfl
@[simp] theorem State.updRun_jtag (s : State) (c : Nat) (f : Run → Run) : (s.updRun c f).jtag = s.jtag := rfl
@[simp] theorem State.updRun_links (s : State) (c : Nat) (f : Run → Run) : (s.updRun c f).links = s.links := rfl
@[simp] theorem State.updRun_nextId (s : State) (c : Nat) (f : Run → Run) : (s.updRun c f).nextId = s.nextId := rfl
@[simp] theorem State.updRun_fresh (s : State) (c : Nat) (f : Run → Run) : (s.updRun c f).fresh = s.fresh := rfl

/-! setLink changes links alone. -/

@[simp] theorem State.setLink_pending (s : State) (l : Nat) (x : Link) : (s.setLink l x).pending = s.pending := rfl
@[simp] theorem State.setLink_time (s : State) (l : Nat) (x : Link) : (s.setLink l x).time = s.time := rfl
@[simp] theorem State.setLink_regs (s : State) (l : Nat) (x : Link) : (s.setLink l x).regs = s.regs := rfl
@[simp] theorem State.setLink_hostPath (s : State) (l : Nat) (x : Link) : (s.setLink l x).hostPath = s.hostPath := rfl
@[simp] theorem State.setLink_mgrPath (s : State) (l : Nat) (x : Link) : (s.setLink l x).mgrPath = s.mgrPath := rfl
@[simp] theorem State.setLink_events (s : State) (l : Nat) (x : Link) : (s.setLink l x).events = s.events := rfl
@[simp] theorem State.setLink_intSet (s : State) (l : Nat) (x : Link) : (s.setLink l x).intSet = s.intSet := rfl
@[simp] theorem State.setLink_records (s : State) (l : Nat) (x : Link) : (s.setLink l x).records = s.records := rfl
@[simp] theorem State.setLink_mgrOut (s : State) (l : Nat) (x : Link) : (s.setLink l x).mgrOut = s.mgrOut := rfl
@[simp] theorem State.setLink_agg (s : State) (l : Nat) (x : Link) : (s.setLink l x).agg = s.agg := rfl
@[simp] theorem State.setLink_ibi (s : State) (l : Nat) (x : Link) : (s.setLink l x).ibi = s.ibi := rfl
@[simp] theorem State.setLink_gov (s : State) (l : Nat) (x : Link) : (s.setLink l x).gov = s.gov := rfl
@[simp] theorem State.setLink_hif (s : State) (l : Nat) (x : Link) : (s.setLink l x).hif = s.hif := rfl
@[simp] theorem State.setLink_queues (s : State) (l : Nat) (x : Link) : (s.setLink l x).queues = s.queues := rfl
@[simp] theorem State.setLink_fetched (s : State) (l : Nat) (x : Link) : (s.setLink l x).fetched = s.fetched := rfl
@[simp] theorem State.setLink_jobs (s : State) (l : Nat) (x : Link) : (s.setLink l x).jobs = s.jobs := rfl
@[simp] theorem State.setLink_cmds (s : State) (l : Nat) (x : Link) : (s.setLink l x).cmds = s.cmds := rfl
@[simp] theorem State.setLink_stops (s : State) (l : Nat) (x : Link) : (s.setLink l x).stops = s.stops := rfl
@[simp] theorem State.setLink_hostMem (s : State) (l : Nat) (x : Link) : (s.setLink l x).hostMem = s.hostMem := rfl
@[simp] theorem State.setLink_commons (s : State) (l : Nat) (x : Link) : (s.setLink l x).commons = s.commons := rfl
@[simp] theorem State.setLink_hbm (s : State) (l : Nat) (x : Link) : (s.setLink l x).hbm = s.hbm := rfl
@[simp] theorem State.setLink_mem (s : State) (l : Nat) (x : Link) : (s.setLink l x).mem = s.mem := rfl
@[simp] theorem State.setLink_tun (s : State) (l : Nat) (x : Link) : (s.setLink l x).tun = s.tun := rfl
@[simp] theorem State.setLink_boot (s : State) (l : Nat) (x : Link) : (s.setLink l x).boot = s.boot := rfl
@[simp] theorem State.setLink_ent (s : State) (l : Nat) (x : Link) : (s.setLink l x).ent = s.ent := rfl
@[simp] theorem State.setLink_solver (s : State) (l : Nat) (x : Link) : (s.setLink l x).solver = s.solver := rfl
@[simp] theorem State.setLink_pred (s : State) (l : Nat) (x : Link) : (s.setLink l x).pred = s.pred := rfl
@[simp] theorem State.setLink_plan (s : State) (l : Nat) (x : Link) : (s.setLink l x).plan = s.plan := rfl
@[simp] theorem State.setLink_gnm (s : State) (l : Nat) (x : Link) : (s.setLink l x).gnm = s.gnm := rfl
@[simp] theorem State.setLink_key (s : State) (l : Nat) (x : Link) : (s.setLink l x).key = s.key := rfl
@[simp] theorem State.setLink_cipher (s : State) (l : Nat) (x : Link) : (s.setLink l x).cipher = s.cipher := rfl
@[simp] theorem State.setLink_jtag (s : State) (l : Nat) (x : Link) : (s.setLink l x).jtag = s.jtag := rfl
@[simp] theorem State.setLink_nextId (s : State) (l : Nat) (x : Link) : (s.setLink l x).nextId = s.nextId := rfl
@[simp] theorem State.setLink_fresh (s : State) (l : Nat) (x : Link) : (s.setLink l x).fresh = s.fresh := rfl

/-! updPath changes hostPath and mgrPath alone. -/

@[simp] theorem State.updPath_pending (s : State) (p : Path) (f : PathState → PathState) : (s.updPath p f).pending = s.pending := by cases p <;> rfl
@[simp] theorem State.updPath_time (s : State) (p : Path) (f : PathState → PathState) : (s.updPath p f).time = s.time := by cases p <;> rfl
@[simp] theorem State.updPath_regs (s : State) (p : Path) (f : PathState → PathState) : (s.updPath p f).regs = s.regs := by cases p <;> rfl
@[simp] theorem State.updPath_events (s : State) (p : Path) (f : PathState → PathState) : (s.updPath p f).events = s.events := by cases p <;> rfl
@[simp] theorem State.updPath_intSet (s : State) (p : Path) (f : PathState → PathState) : (s.updPath p f).intSet = s.intSet := by cases p <;> rfl
@[simp] theorem State.updPath_records (s : State) (p : Path) (f : PathState → PathState) : (s.updPath p f).records = s.records := by cases p <;> rfl
@[simp] theorem State.updPath_mgrOut (s : State) (p : Path) (f : PathState → PathState) : (s.updPath p f).mgrOut = s.mgrOut := by cases p <;> rfl
@[simp] theorem State.updPath_agg (s : State) (p : Path) (f : PathState → PathState) : (s.updPath p f).agg = s.agg := by cases p <;> rfl
@[simp] theorem State.updPath_ibi (s : State) (p : Path) (f : PathState → PathState) : (s.updPath p f).ibi = s.ibi := by cases p <;> rfl
@[simp] theorem State.updPath_gov (s : State) (p : Path) (f : PathState → PathState) : (s.updPath p f).gov = s.gov := by cases p <;> rfl
@[simp] theorem State.updPath_hif (s : State) (p : Path) (f : PathState → PathState) : (s.updPath p f).hif = s.hif := by cases p <;> rfl
@[simp] theorem State.updPath_queues (s : State) (p : Path) (f : PathState → PathState) : (s.updPath p f).queues = s.queues := by cases p <;> rfl
@[simp] theorem State.updPath_fetched (s : State) (p : Path) (f : PathState → PathState) : (s.updPath p f).fetched = s.fetched := by cases p <;> rfl
@[simp] theorem State.updPath_jobs (s : State) (p : Path) (f : PathState → PathState) : (s.updPath p f).jobs = s.jobs := by cases p <;> rfl
@[simp] theorem State.updPath_cmds (s : State) (p : Path) (f : PathState → PathState) : (s.updPath p f).cmds = s.cmds := by cases p <;> rfl
@[simp] theorem State.updPath_stops (s : State) (p : Path) (f : PathState → PathState) : (s.updPath p f).stops = s.stops := by cases p <;> rfl
@[simp] theorem State.updPath_hostMem (s : State) (p : Path) (f : PathState → PathState) : (s.updPath p f).hostMem = s.hostMem := by cases p <;> rfl
@[simp] theorem State.updPath_commons (s : State) (p : Path) (f : PathState → PathState) : (s.updPath p f).commons = s.commons := by cases p <;> rfl
@[simp] theorem State.updPath_hbm (s : State) (p : Path) (f : PathState → PathState) : (s.updPath p f).hbm = s.hbm := by cases p <;> rfl
@[simp] theorem State.updPath_mem (s : State) (p : Path) (f : PathState → PathState) : (s.updPath p f).mem = s.mem := by cases p <;> rfl
@[simp] theorem State.updPath_tun (s : State) (p : Path) (f : PathState → PathState) : (s.updPath p f).tun = s.tun := by cases p <;> rfl
@[simp] theorem State.updPath_boot (s : State) (p : Path) (f : PathState → PathState) : (s.updPath p f).boot = s.boot := by cases p <;> rfl
@[simp] theorem State.updPath_ent (s : State) (p : Path) (f : PathState → PathState) : (s.updPath p f).ent = s.ent := by cases p <;> rfl
@[simp] theorem State.updPath_solver (s : State) (p : Path) (f : PathState → PathState) : (s.updPath p f).solver = s.solver := by cases p <;> rfl
@[simp] theorem State.updPath_pred (s : State) (p : Path) (f : PathState → PathState) : (s.updPath p f).pred = s.pred := by cases p <;> rfl
@[simp] theorem State.updPath_plan (s : State) (p : Path) (f : PathState → PathState) : (s.updPath p f).plan = s.plan := by cases p <;> rfl
@[simp] theorem State.updPath_gnm (s : State) (p : Path) (f : PathState → PathState) : (s.updPath p f).gnm = s.gnm := by cases p <;> rfl
@[simp] theorem State.updPath_key (s : State) (p : Path) (f : PathState → PathState) : (s.updPath p f).key = s.key := by cases p <;> rfl
@[simp] theorem State.updPath_cipher (s : State) (p : Path) (f : PathState → PathState) : (s.updPath p f).cipher = s.cipher := by cases p <;> rfl
@[simp] theorem State.updPath_jtag (s : State) (p : Path) (f : PathState → PathState) : (s.updPath p f).jtag = s.jtag := by cases p <;> rfl
@[simp] theorem State.updPath_links (s : State) (p : Path) (f : PathState → PathState) : (s.updPath p f).links = s.links := by cases p <;> rfl
@[simp] theorem State.updPath_nextId (s : State) (p : Path) (f : PathState → PathState) : (s.updPath p f).nextId = s.nextId := by cases p <;> rfl
@[simp] theorem State.updPath_fresh (s : State) (p : Path) (f : PathState → PathState) : (s.updPath p f).fresh = s.fresh := by cases p <;> rfl

/-! mgrSend changes mgrOut alone. -/

@[simp] theorem State.mgrSend_pending (s : State) (b : List Byte) : (s.mgrSend b).pending = s.pending := rfl
@[simp] theorem State.mgrSend_time (s : State) (b : List Byte) : (s.mgrSend b).time = s.time := rfl
@[simp] theorem State.mgrSend_regs (s : State) (b : List Byte) : (s.mgrSend b).regs = s.regs := rfl
@[simp] theorem State.mgrSend_hostPath (s : State) (b : List Byte) : (s.mgrSend b).hostPath = s.hostPath := rfl
@[simp] theorem State.mgrSend_mgrPath (s : State) (b : List Byte) : (s.mgrSend b).mgrPath = s.mgrPath := rfl
@[simp] theorem State.mgrSend_events (s : State) (b : List Byte) : (s.mgrSend b).events = s.events := rfl
@[simp] theorem State.mgrSend_intSet (s : State) (b : List Byte) : (s.mgrSend b).intSet = s.intSet := rfl
@[simp] theorem State.mgrSend_records (s : State) (b : List Byte) : (s.mgrSend b).records = s.records := rfl
@[simp] theorem State.mgrSend_agg (s : State) (b : List Byte) : (s.mgrSend b).agg = s.agg := rfl
@[simp] theorem State.mgrSend_ibi (s : State) (b : List Byte) : (s.mgrSend b).ibi = s.ibi := rfl
@[simp] theorem State.mgrSend_gov (s : State) (b : List Byte) : (s.mgrSend b).gov = s.gov := rfl
@[simp] theorem State.mgrSend_hif (s : State) (b : List Byte) : (s.mgrSend b).hif = s.hif := rfl
@[simp] theorem State.mgrSend_queues (s : State) (b : List Byte) : (s.mgrSend b).queues = s.queues := rfl
@[simp] theorem State.mgrSend_fetched (s : State) (b : List Byte) : (s.mgrSend b).fetched = s.fetched := rfl
@[simp] theorem State.mgrSend_jobs (s : State) (b : List Byte) : (s.mgrSend b).jobs = s.jobs := rfl
@[simp] theorem State.mgrSend_cmds (s : State) (b : List Byte) : (s.mgrSend b).cmds = s.cmds := rfl
@[simp] theorem State.mgrSend_stops (s : State) (b : List Byte) : (s.mgrSend b).stops = s.stops := rfl
@[simp] theorem State.mgrSend_hostMem (s : State) (b : List Byte) : (s.mgrSend b).hostMem = s.hostMem := rfl
@[simp] theorem State.mgrSend_commons (s : State) (b : List Byte) : (s.mgrSend b).commons = s.commons := rfl
@[simp] theorem State.mgrSend_hbm (s : State) (b : List Byte) : (s.mgrSend b).hbm = s.hbm := rfl
@[simp] theorem State.mgrSend_mem (s : State) (b : List Byte) : (s.mgrSend b).mem = s.mem := rfl
@[simp] theorem State.mgrSend_tun (s : State) (b : List Byte) : (s.mgrSend b).tun = s.tun := rfl
@[simp] theorem State.mgrSend_boot (s : State) (b : List Byte) : (s.mgrSend b).boot = s.boot := rfl
@[simp] theorem State.mgrSend_ent (s : State) (b : List Byte) : (s.mgrSend b).ent = s.ent := rfl
@[simp] theorem State.mgrSend_solver (s : State) (b : List Byte) : (s.mgrSend b).solver = s.solver := rfl
@[simp] theorem State.mgrSend_pred (s : State) (b : List Byte) : (s.mgrSend b).pred = s.pred := rfl
@[simp] theorem State.mgrSend_plan (s : State) (b : List Byte) : (s.mgrSend b).plan = s.plan := rfl
@[simp] theorem State.mgrSend_gnm (s : State) (b : List Byte) : (s.mgrSend b).gnm = s.gnm := rfl
@[simp] theorem State.mgrSend_key (s : State) (b : List Byte) : (s.mgrSend b).key = s.key := rfl
@[simp] theorem State.mgrSend_cipher (s : State) (b : List Byte) : (s.mgrSend b).cipher = s.cipher := rfl
@[simp] theorem State.mgrSend_jtag (s : State) (b : List Byte) : (s.mgrSend b).jtag = s.jtag := rfl
@[simp] theorem State.mgrSend_links (s : State) (b : List Byte) : (s.mgrSend b).links = s.links := rfl
@[simp] theorem State.mgrSend_nextId (s : State) (b : List Byte) : (s.mgrSend b).nextId = s.nextId := rfl
@[simp] theorem State.mgrSend_fresh (s : State) (b : List Byte) : (s.mgrSend b).fresh = s.fresh := rfl

/-! Reads after writes. -/

@[simp] theorem State.reg_setReg (s : State) (a b : Nat) (w : Word) : (s.setReg a w).reg b = if b = a then w else s.reg b :=
  Tab.get_put regReset a b w s.regs

theorem State.rg_setReg (s : State) (a b : Nat) (w : Word) : (s.setReg a w).rg b = if b = a then w.toNat else s.rg b := by
  unfold State.rg
  rw [State.reg_setReg]
  split <;> rfl

theorem State.reg_wr (s : State) (a b n : Nat) : (s.wr a n).reg b = if b = a then BitVec.ofNat 32 n else s.reg b :=
  State.reg_setReg s a b _

theorem State.rg_wr (s : State) (a b n : Nat) : (s.wr a n).rg b = if b = a then n % 4294967296 else s.rg b := by
  unfold State.wr
  rw [State.rg_setReg, BitVec.toNat_ofNat]

/-- A write of one register leaves every other. -/
theorem State.rg_wr_ne (s : State) {a b : Nat} (h : b ≠ a) (n : Nat) : (s.wr a n).rg b = s.rg b := by
  rw [State.rg_wr, if_neg h]

theorem State.rg_lt (s : State) (a : Nat) : s.rg a < 4294967296 := (s.reg a).isLt

@[simp] theorem State.queue_setQueue (s : State) (q x : Nat) (v : Queue) :
    (s.setQueue q v).queue x = if x = q then v else s.queue x := Tab.get_put _ q x v s.queues

@[simp] theorem State.queue_updQueue (s : State) (q x : Nat) (f : Queue → Queue) :
    (s.updQueue q f).queue x = if x = q then f (s.queue q) else s.queue x := Tab.get_put _ q x _ s.queues

@[simp] theorem State.core_setCore (s : State) (k i : Nat) (c : Core) :
    (s.setCore k c).core i = if i = k then c else s.core i := Tab.get_put _ k i c s.gnm.cores

@[simp] theorem State.core_updCore (s : State) (k i : Nat) (f : Core → Core) :
    (s.updCore k f).core i = if i = k then f (s.core k) else s.core i := Tab.get_put _ k i _ s.gnm.cores

@[simp] theorem State.tunSt_updTun (s : State) (t i : Nat) (f : TunSt → TunSt) :
    (s.updTun t f).tunSt i = if i = t then f (s.tunSt t) else s.tunSt i := Tab.get_put _ t i _ s.tun.tuns

@[simp] theorem State.link_setLink (s : State) (l i : Nat) (x : Link) :
    (s.setLink l x).link i = if i = l then x else s.link i := Tab.get_put _ l i x s.links

@[simp] theorem State.path_updPath_same (s : State) (p : Path) (f : PathState → PathState) : (s.updPath p f).path p = f (s.path p) := by
  cases p <;> rfl

theorem State.path_updPath_ne (s : State) {p q : Path} (h : q ≠ p) (f : PathState → PathState) : (s.updPath p f).path q = s.path q := by
  cases p <;> cases q <;> first | rfl | exact absurd rfl h

theorem State.capture_setCapture (s : State) (p : Path) (k i : Nat) (w : Option Word) :
    (s.setCapture p k w).capture p i = if i = k then w else s.capture p i := by
  unfold State.capture State.setCapture
  rw [State.path_updPath_same]
  simp only [Tab.get_put]
  split
  · cases w <;> rfl
  · rfl

end Sys2Proof.Machine
end

