-- ==== Sys2Proof/Laws/Ops.lean ====
section
/-! SUPPORT. What the shared operations of Machine/Ops.lean can do: raising an event notes it and changes nothing else; setting
interrupts and counting events change the registers, the in-band interrupts and the interrupt bits of the cycle alone. -/

namespace Sys2Proof.Machine

/-- t is s but for its registers, its in-band interrupts, and its cycle's interrupt bits. -/
def State.CountsOnly (s t : State) : Prop := t = { s with regs := t.regs, ibi := t.ibi, intSet := t.intSet }

theorem State.CountsOnly.refl (s : State) : s.CountsOnly s := rfl

theorem State.CountsOnly.trans {s t u : State} (h : s.CountsOnly t) (k : t.CountsOnly u) : s.CountsOnly u := by
  unfold State.CountsOnly at *
  rw [k, h]

theorem State.CountsOnly.foldl {α : Type} (f : State → α → State) (h : ∀ (s : State) (a : α), s.CountsOnly (f s a)) (l : List α) :
    ∀ s : State, s.CountsOnly (l.foldl f s) := by
  induction l with
  | nil => exact fun s => State.CountsOnly.refl s
  | cons a l ih => exact fun s => (h s a).trans (ih (f s a))

theorem State.setReg_counts (s : State) (a : Nat) (w : Word) : s.CountsOnly (s.setReg a w) := rfl
theorem State.wr_counts (s : State) (a n : Nat) : s.CountsOnly (s.wr a n) := rfl
theorem State.wr64_counts (s : State) (a n : Nat) : s.CountsOnly (s.wr64 a n) := rfl

theorem State.askIbi_counts (s : State) (b : Nat) : s.CountsOnly (s.askIbi b) := by
  unfold State.askIbi; split <;> rfl

theorem State.pendCheck_counts (s : State) (p : Nat) (b : Bool) : s.CountsOnly (s.pendCheck p b) := by
  unfold State.pendCheck
  split
  · exact s.askIbi_counts 1
  · rfl

/-- A note of the cycle's interrupt bits. -/
theorem State.intSet_counts (s : State) (x : Tab Nat) : s.CountsOnly { s with intSet := x } := rfl

theorem State.setInt_counts (s : State) (p m : Nat) : s.CountsOnly (s.setInt p m) := by
  unfold State.setInt
  exact ((s.intSet_counts _).trans (State.wr_counts _ _ _)).trans (State.pendCheck_counts _ _ _)

theorem State.addCtr_counts (s : State) (p k n : Nat) : s.CountsOnly (s.addCtr p k n) := by
  unfold State.addCtr
  dsimp only
  split
  · exact s.wr_counts _ _
  · exact (s.wr_counts _ _).trans (State.setInt_counts _ _ _)

theorem State.countPage_counts (s : State) (p c n : Nat) : s.CountsOnly (s.countPage p c n) := by
  unfold State.countPage
  split
  · rfl
  · refine State.CountsOnly.foldl _ (fun s k => ?_) _ s
    dsimp only
    split
    · exact s.addCtr_counts _ _ _
    · rfl

theorem State.countGlobal_counts (s : State) (c n : Nat) (e : EvSource) : s.CountsOnly (s.countGlobal c n e) := by
  unfold State.countGlobal
  split
  · rfl
  · refine State.CountsOnly.foldl _ (fun s k => ?_) _ s
    dsimp only
    split
    · split
      · exact s.wr64_counts _ _
      · exact (s.wr64_counts _ _).trans (State.wr_counts _ _ _)
    · rfl

/-- Counting one event changes registers, in-band interrupts and interrupt bits alone. -/
theorem State.countEvent_counts (s : State) (e : CycleEvent) : s.CountsOnly (s.countEvent e) := by
  unfold State.countEvent
  dsimp only
  split
  · exact ((s.countPage_counts _ _ _).trans (State.countPage_counts _ _ _ _)).trans (State.countGlobal_counts _ _ _ _)
  · exact (s.countPage_counts _ _ _).trans (State.countGlobal_counts _ _ _ _)

/-- The end of a cycle's counting changes those, and no event is left. -/
theorem State.counted_counts (s : State) : { s with events := [] }.CountsOnly s.counted :=
  State.CountsOnly.foldl _ State.countEvent_counts _ _

/-- An event is noted for the end of the cycle, and nothing else changes. -/
theorem State.event_notes (s : State) (c p : Nat) (e : EvSource) (n : Nat) :
    s.event c p e n = { s with events := (s.event c p e n).events } := by
  unfold State.event; split <;> rfl

/-! The fields that an event leaves, and those that an interrupt bit leaves, for rewriting. -/

@[simp] theorem State.event_pending (s : State) (c p : Nat) (e : EvSource) (n : Nat) : (s.event c p e n).pending = s.pending := by
  rw [s.event_notes]
@[simp] theorem State.event_time (s : State) (c p : Nat) (e : EvSource) (n : Nat) : (s.event c p e n).time = s.time := by
  rw [s.event_notes]
@[simp] theorem State.event_hostPath (s : State) (c p : Nat) (e : EvSource) (n : Nat) : (s.event c p e n).hostPath = s.hostPath := by
  rw [s.event_notes]
@[simp] theorem State.event_mgrPath (s : State) (c p : Nat) (e : EvSource) (n : Nat) : (s.event c p e n).mgrPath = s.mgrPath := by
  rw [s.event_notes]
@[simp] theorem State.event_intSet (s : State) (c p : Nat) (e : EvSource) (n : Nat) : (s.event c p e n).intSet = s.intSet := by
  rw [s.event_notes]
@[simp] theorem State.event_records (s : State) (c p : Nat) (e : EvSource) (n : Nat) : (s.event c p e n).records = s.records := by
  rw [s.event_notes]
@[simp] theorem State.event_mgrOut (s : State) (c p : Nat) (e : EvSource) (n : Nat) : (s.event c p e n).mgrOut = s.mgrOut := by
  rw [s.event_notes]
@[simp] theorem State.event_agg (s : State) (c p : Nat) (e : EvSource) (n : Nat) : (s.event c p e n).agg = s.agg := by
  rw [s.event_notes]
@[simp] theorem State.event_ibi (s : State) (c p : Nat) (e : EvSource) (n : Nat) : (s.event c p e n).ibi = s.ibi := by
  rw [s.event_notes]
@[simp] theorem State.event_gov (s : State) (c p : Nat) (e : EvSource) (n : Nat) : (s.event c p e n).gov = s.gov := by
  rw [s.event_notes]
@[simp] theorem State.event_hif (s : State) (c p : Nat) (e : EvSource) (n : Nat) : (s.event c p e n).hif = s.hif := by
  rw [s.event_notes]
@[simp] theorem State.event_queues (s : State) (c p : Nat) (e : EvSource) (n : Nat) : (s.event c p e n).queues = s.queues := by
  rw [s.event_notes]
@[simp] theorem State.event_fetched (s : State) (c p : Nat) (e : EvSource) (n : Nat) : (s.event c p e n).fetched = s.fetched := by
  rw [s.event_notes]
@[simp] theorem State.event_jobs (s : State) (c p : Nat) (e : EvSource) (n : Nat) : (s.event c p e n).jobs = s.jobs := by
  rw [s.event_notes]
@[simp] theorem State.event_cmds (s : State) (c p : Nat) (e : EvSource) (n : Nat) : (s.event c p e n).cmds = s.cmds := by
  rw [s.event_notes]
@[simp] theorem State.event_stops (s : State) (c p : Nat) (e : EvSource) (n : Nat) : (s.event c p e n).stops = s.stops := by
  rw [s.event_notes]
@[simp] theorem State.event_hostMem (s : State) (c p : Nat) (e : EvSource) (n : Nat) : (s.event c p e n).hostMem = s.hostMem := by
  rw [s.event_notes]
@[simp] theorem State.event_commons (s : State) (c p : Nat) (e : EvSource) (n : Nat) : (s.event c p e n).commons = s.commons := by
  rw [s.event_notes]
@[simp] theorem State.event_hbm (s : State) (c p : Nat) (e : EvSource) (n : Nat) : (s.event c p e n).hbm = s.hbm := by
  rw [s.event_notes]
@[simp] theorem State.event_mem (s : State) (c p : Nat) (e : EvSource) (n : Nat) : (s.event c p e n).mem = s.mem := by
  rw [s.event_notes]
@[simp] theorem State.event_tun (s : State) (c p : Nat) (e : EvSource) (n : Nat) : (s.event c p e n).tun = s.tun := by
  rw [s.event_notes]
@[simp] theorem State.event_boot (s : State) (c p : Nat) (e : EvSource) (n : Nat) : (s.event c p e n).boot = s.boot := by
  rw [s.event_notes]
@[simp] theorem State.event_ent (s : State) (c p : Nat) (e : EvSource) (n : Nat) : (s.event c p e n).ent = s.ent := by
  rw [s.event_notes]
@[simp] theorem State.event_solver (s : State) (c p : Nat) (e : EvSource) (n : Nat) : (s.event c p e n).solver = s.solver := by
  rw [s.event_notes]
@[simp] theorem State.event_pred (s : State) (c p : Nat) (e : EvSource) (n : Nat) : (s.event c p e n).pred = s.pred := by
  rw [s.event_notes]
@[simp] theorem State.event_plan (s : State) (c p : Nat) (e : EvSource) (n : Nat) : (s.event c p e n).plan = s.plan := by
  rw [s.event_notes]
@[simp] theorem State.event_gnm (s : State) (c p : Nat) (e : EvSource) (n : Nat) : (s.event c p e n).gnm = s.gnm := by
  rw [s.event_notes]
@[simp] theorem State.event_key (s : State) (c p : Nat) (e : EvSource) (n : Nat) : (s.event c p e n).key = s.key := by
  rw [s.event_notes]
@[simp] theorem State.event_cipher (s : State) (c p : Nat) (e : EvSource) (n : Nat) : (s.event c p e n).cipher = s.cipher := by
  rw [s.event_notes]
@[simp] theorem State.event_jtag (s : State) (c p : Nat) (e : EvSource) (n : Nat) : (s.event c p e n).jtag = s.jtag := by
  rw [s.event_notes]
@[simp] theorem State.event_links (s : State) (c p : Nat) (e : EvSource) (n : Nat) : (s.event c p e n).links = s.links := by
  rw [s.event_notes]
@[simp] theorem State.event_nextId (s : State) (c p : Nat) (e : EvSource) (n : Nat) : (s.event c p e n).nextId = s.nextId := by
  rw [s.event_notes]
@[simp] theorem State.event_fresh (s : State) (c p : Nat) (e : EvSource) (n : Nat) : (s.event c p e n).fresh = s.fresh := by
  rw [s.event_notes]
@[simp] theorem State.event_regs (s : State) (c p : Nat) (e : EvSource) (n : Nat) : (s.event c p e n).regs = s.regs := by
  rw [s.event_notes]
@[simp] theorem State.setInt_pending (s : State) (p m : Nat) : (s.setInt p m).pending = s.pending := by
  rw [show s.setInt p m = _ from s.setInt_counts p m]
@[simp] theorem State.setInt_time (s : State) (p m : Nat) : (s.setInt p m).time = s.time := by
  rw [show s.setInt p m = _ from s.setInt_counts p m]
@[simp] theorem State.setInt_hostPath (s : State) (p m : Nat) : (s.setInt p m).hostPath = s.hostPath := by
  rw [show s.setInt p m = _ from s.setInt_counts p m]
@[simp] theorem State.setInt_mgrPath (s : State) (p m : Nat) : (s.setInt p m).mgrPath = s.mgrPath := by
  rw [show s.setInt p m = _ from s.setInt_counts p m]
@[simp] theorem State.setInt_events (s : State) (p m : Nat) : (s.setInt p m).events = s.events := by
  rw [show s.setInt p m = _ from s.setInt_counts p m]
@[simp] theorem State.setInt_records (s : State) (p m : Nat) : (s.setInt p m).records = s.records := by
  rw [show s.setInt p m = _ from s.setInt_counts p m]
@[simp] theorem State.setInt_mgrOut (s : State) (p m : Nat) : (s.setInt p m).mgrOut = s.mgrOut := by
  rw [show s.setInt p m = _ from s.setInt_counts p m]
@[simp] theorem State.setInt_agg (s : State) (p m : Nat) : (s.setInt p m).agg = s.agg := by
  rw [show s.setInt p m = _ from s.setInt_counts p m]
@[simp] theorem State.setInt_gov (s : State) (p m : Nat) : (s.setInt p m).gov = s.gov := by
  rw [show s.setInt p m = _ from s.setInt_counts p m]
@[simp] theorem State.setInt_hif (s : State) (p m : Nat) : (s.setInt p m).hif = s.hif := by
  rw [show s.setInt p m = _ from s.setInt_counts p m]
@[simp] theorem State.setInt_queues (s : State) (p m : Nat) : (s.setInt p m).queues = s.queues := by
  rw [show s.setInt p m = _ from s.setInt_counts p m]
@[simp] theorem State.setInt_fetched (s : State) (p m : Nat) : (s.setInt p m).fetched = s.fetched := by
  rw [show s.setInt p m = _ from s.setInt_counts p m]
@[simp] theorem State.setInt_jobs (s : State) (p m : Nat) : (s.setInt p m).jobs = s.jobs := by
  rw [show s.setInt p m = _ from s.setInt_counts p m]
@[simp] theorem State.setInt_cmds (s : State) (p m : Nat) : (s.setInt p m).cmds = s.cmds := by
  rw [show s.setInt p m = _ from s.setInt_counts p m]
@[simp] theorem State.setInt_stops (s : State) (p m : Nat) : (s.setInt p m).stops = s.stops := by
  rw [show s.setInt p m = _ from s.setInt_counts p m]
@[simp] theorem State.setInt_hostMem (s : State) (p m : Nat) : (s.setInt p m).hostMem = s.hostMem := by
  rw [show s.setInt p m = _ from s.setInt_counts p m]
@[simp] theorem State.setInt_commons (s : State) (p m : Nat) : (s.setInt p m).commons = s.commons := by
  rw [show s.setInt p m = _ from s.setInt_counts p m]
@[simp] theorem State.setInt_hbm (s : State) (p m : Nat) : (s.setInt p m).hbm = s.hbm := by
  rw [show s.setInt p m = _ from s.setInt_counts p m]
@[simp] theorem State.setInt_mem (s : State) (p m : Nat) : (s.setInt p m).mem = s.mem := by
  rw [show s.setInt p m = _ from s.setInt_counts p m]
@[simp] theorem State.setInt_tun (s : State) (p m : Nat) : (s.setInt p m).tun = s.tun := by
  rw [show s.setInt p m = _ from s.setInt_counts p m]
@[simp] theorem State.setInt_boot (s : State) (p m : Nat) : (s.setInt p m).boot = s.boot := by
  rw [show s.setInt p m = _ from s.setInt_counts p m]
@[simp] theorem State.setInt_ent (s : State) (p m : Nat) : (s.setInt p m).ent = s.ent := by
  rw [show s.setInt p m = _ from s.setInt_counts p m]
@[simp] theorem State.setInt_solver (s : State) (p m : Nat) : (s.setInt p m).solver = s.solver := by
  rw [show s.setInt p m = _ from s.setInt_counts p m]
@[simp] theorem State.setInt_pred (s : State) (p m : Nat) : (s.setInt p m).pred = s.pred := by
  rw [show s.setInt p m = _ from s.setInt_counts p m]
@[simp] theorem State.setInt_plan (s : State) (p m : Nat) : (s.setInt p m).plan = s.plan := by
  rw [show s.setInt p m = _ from s.setInt_counts p m]
@[simp] theorem State.setInt_gnm (s : State) (p m : Nat) : (s.setInt p m).gnm = s.gnm := by
  rw [show s.setInt p m = _ from s.setInt_counts p m]
@[simp] theorem State.setInt_key (s : State) (p m : Nat) : (s.setInt p m).key = s.key := by
  rw [show s.setInt p m = _ from s.setInt_counts p m]
@[simp] theorem State.setInt_cipher (s : State) (p m : Nat) : (s.setInt p m).cipher = s.cipher := by
  rw [show s.setInt p m = _ from s.setInt_counts p m]
@[simp] theorem State.setInt_jtag (s : State) (p m : Nat) : (s.setInt p m).jtag = s.jtag := by
  rw [show s.setInt p m = _ from s.setInt_counts p m]
@[simp] theorem State.setInt_links (s : State) (p m : Nat) : (s.setInt p m).links = s.links := by
  rw [show s.setInt p m = _ from s.setInt_counts p m]
@[simp] theorem State.setInt_nextId (s : State) (p m : Nat) : (s.setInt p m).nextId = s.nextId := by
  rw [show s.setInt p m = _ from s.setInt_counts p m]
@[simp] theorem State.setInt_fresh (s : State) (p m : Nat) : (s.setInt p m).fresh = s.fresh := by
  rw [show s.setInt p m = _ from s.setInt_counts p m]

end Sys2Proof.Machine
end

