-- ==== Sys2Proof/WellFormed.lean ====
section
/-! DEFINITION. Which commands are well formed: each number lies in the range that the spec gives what it names. exec has
a meaning for every command; what an ill-formed one names does not exist. -/

namespace Sys2Proof

/-! The ranges: Olzen links 0 to 7, cores 0 to 7, tuns 16 · y + x, queues 0 to 1,023, PCIe functions 0 to 63, HBM stacks
0 to 3, DRBG channels 0 to 3, commons banks 0 to 31, virtual channels 0 to 2, partner directions 0 to 5, register pages. -/

/-- The truth value of a decidable condition. -/
def okIf (p : Prop) [Decidable p] : Bool := Decidable.decide p

def linkNo (n : Nat) : Bool := decide (n < 8)
def coreNo (n : Nat) : Bool := decide (n < 8)
def tunNo (n : Nat) : Bool := decide (n < 128)
def queueNo (n : Nat) : Bool := decide (n < 1024)
def funcNo (n : Nat) : Bool := decide (n < 64)
def vfNo (n : Nat) : Bool := decide (1 ≤ n ∧ n < 64)
def stackNo (n : Nat) : Bool := decide (n < 4)
def chanNo (n : Nat) : Bool := decide (n < 4)
def bankNo (n : Nat) : Bool := decide (n < 32)
def vcNo (n : Nat) : Bool := decide (n < 3)
def dirNo (n : Nat) : Bool := decide (n < 6)
def pageNo (n : Nat) : Bool := decide (n < 0x180)
def regionOpt (r : Option Nat) : Bool := match r with | some n => decide (n < 16) | none => true
def resOk (r : LullRes) : Bool :=
  match r with
  | .tun n => tunNo n
  | .core n => coreNo n
  | .engine n => decide (1 ≤ n ∧ n ≤ 3)

/-- A codeword (R916): 10 slots of 64 bytes, and START only where VALID. -/
def codewordOk (c : Codeword) : Bool :=
  decide (c.slots.length = 10) && c.slots.all (fun u => u.length == 64) &&
    (List.range 10).all (fun j => c.header.getLsbD (10 + j) || !c.header.getLsbD j)
def arrivalOk (a : Arrival) : Bool := a.codewords.all codewordOk && okIf (a.slot < 10 * a.codewords.length)

/-- The check of each command. -/
def Instr.wellFormed : Instr → Bool
  | .loReadCapture _ _ => true
  | .hiWriteHold _ _ _ => true
  | .loWriteCommit _ _ _ => true
  | .registerWrite _ _ _ => true
  | .badAccess data _ len => okIf (data.all (fun d => d.length = len))
  | .mgrRegisterRead _ _ => true
  | .mgrRegisterWrite _ _ => true
  | .ibiRaise => true
  | .gbankSnap _ _ => true
  | .gbankClear _ _ => true
  | .ctrClear _ page _ => pageNo page
  | .sqTailDb func q _ _ => funcNo func && queueNo q
  | .cqHeadDb func q _ _ => funcNo func && queueNo q
  | .inlineWrite func q off bytes => funcNo func && queueNo q && okIf (off + bytes.length ≤ 4096)
  | .fetch => true
  | .engineCmd => true
  | .enginePayloadRead _ => true
  | .programCmd => true
  | .chainCmd => true
  | .armCmd _ => true
  | .fireCmd => true
  | .gustLaneEntry _ => true
  | .ringEnable func q _ => funcNo func && queueNo q
  | .ringDisable func q _ => funcNo func && queueNo q
  | .qOwnerWrite _ q _ => queueNo q
  | .flr vf => vfNo vf
  | .flrPf => true
  | .flrComplete func => funcNo func
  | .hostIdeFail => true
  | .completionRecord _ _ => true
  | .guardUpdate q => queueNo q
  | .jobStart => true
  | .lateBeforeStart _ => true
  | .cancel _ q => queueNo q
  | .cancelQueue _ q => queueNo q
  | .reprio _ q => queueNo q
  | .drain _ q => queueNo q
  | .undrain _ q => queueNo q
  | .dispatchCmdBadOp _ _ => true
  | .contractWrite _ q _ _ => queueNo q
  | .stopTimeReached _ => true
  | .haltTimeReached core => coreNo core
  | .energyCeilingStop _ => true
  | .engineQueueEntry _ => true
  | .engineCommandEnd _ => true
  | .loadCmd _ => true
  | .runCmd _ => true
  | .loadRun _ => true
  | .loadComplete _ => true
  | .latticePhase _ tun => tunNo tun
  | .denseClassStep _ tun replica => tunNo tun && okIf (replica < 64)
  | .endMarker _ dst src => tunNo dst && tunNo src
  | .flipApply _ tun => tunNo tun
  | .sweepBoundary _ => true
  | .phxGo _ tun _ => tunNo tun
  | .windowSwitch _ => true
  | .rowStaging _ => true
  | .join => true
  | .startMsg => true
  | .abortMsg => true
  | .joinTimeout _ => true
  | .coef => true
  | .halo => true
  | .haloWaitTimeout _ dir => dirNo dir
  | .rendezvous _ => true
  | .report => true
  | .reportTimeout _ _ => true
  | .decide => true
  | .decideTimeout _ => true
  | .partReq => true
  | .part => true
  | .grant => true
  | .return => true
  | .leaseEnd _ _ => true
  | .updateMsg => true
  | .linsolve _ => true
  | .assign _ => true
  | .boxqp _ => true
  | .solverIterate _ => true
  | .assignStop _ => true
  | .predictorCommand _ => true
  | .inputScanDone _ => true
  | .layerPassDone _ => true
  | .rowBlockDone _ => true
  | .gristWriterWrite _ => true
  | .resFlushAll _ _ => true
  | .resFlushRegion _ _ => true
  | .planCmd _ _ => true
  | .repairCmd _ _ => true
  | .plnFlushAll _ _ => true
  | .plnFlushRegion _ _ => true
  | .bundleIssue k => coreNo k
  | .engWaitReturn k => coreNo k
  | .waitIWake k => coreNo k
  | .interruptTake k => coreNo k
  | .timerExpiry k => coreNo k
  | .storeVisible k => coreNo k
  | .transferStart k => coreNo k
  | .transferEnd k => coreNo k
  | .coreSpargeDone k => coreNo k
  | .governorTick => true
  | .avsAck _ _ => true
  | .avsTimeout => true
  | .cclkGapEnd => true
  | .thermalSample readings => okIf (readings.length = 16)
  | .epochBoundary => true
  | .syncPulse src => okIf (src < 2)
  | .syncOutPulseEnd => true
  | .timeLoad _ _ => true
  | .budgetWrite _ region _ => regionOpt region
  | .epochLenWrite _ _ => true
  | .clkCtrlWrite _ _ => true
  | .lullEntry r => resOk r
  | .lullOffEntry tun => tunNo tun
  | .wakeComplete r => resOk r
  | .refclkLoss => true
  | .refclkReturn => true
  | .rgnApply _ _ => true
  | .rgnRevert _ _ => true
  | .rgnBadOp _ _ => true
  | .packetHop _ _ => true
  | .multicastCopy _ _ port => okIf (port < 7)
  | .packetStuckTimeout _ => true
  | .commonsAccess bank _ => bankNo bank
  | .hbmAccess port _ => okIf (port < 16)
  | .eccWriteBack => true
  | .patrolScrubRead stack _ => stackNo stack
  | .hbmOccupancyWindow => true
  | .marchDestructive _ _ _ => true
  | .marchPreserving _ _ => true
  | .marchAbort _ _ => true
  | .marchBadOp _ _ => true
  | .marchSlice _ tun _ => tunNo tun
  | .marchResume => true
  | .marchDone _ => true
  | .spargeCommand _ _ => true
  | .spargeDone => true
  | .noiseWord => true
  | .restartTestStart src => okIf (src < 3)
  | .conditionedBlockReady chan => chanNo chan
  | .drbgGenerateStart chan => chanNo chan
  | .drbgGenerateDone chan => chanNo chan
  | .drbgReseedDone chan => chanNo chan
  | .katConditioner _ _ => true
  | .katChannel _ _ => true
  | .katStart => true
  | .katDone _ => true
  | .katBadTarget _ _ => true
  | .softDataRead _ => true
  | .sourceRestart _ _ => true
  | .sourceDisable _ _ => true
  | .sourceEnable _ _ => true
  | .testPatternWrite _ _ _ => true
  | .lcTransition _ _ => true
  | .lcBadOp _ _ => true
  | .mctpControl _ _ _ => true
  | .spdmRequest _ _ _ => true
  | .getMeasurements _ _ _ _ _ => true
  | .keyExchange _ _ _ _ => true
  | .ideKmQuery _ _ => true
  | .ideKmKeyProg _ _ set dir sub _ => okIf (set < 2) && okIf (dir < 2) && okIf (sub < 3)
  | .ideKmKSetGo _ _ set dir sub => okIf (set < 2) && okIf (dir < 2) && okIf (sub < 3)
  | .ideKmKSetStop _ _ set dir sub => okIf (set < 2) && okIf (dir < 2) && okIf (sub < 3)
  | .setTenantKey _ _ _ => true
  | .eraseTenantKey _ _ _ _ => true
  | .querySlot _ _ _ => true
  | .seal _ _ => true
  | .unseal _ _ => true
  | .cipherBadOp _ _ => true
  | .cipherDone _ => true
  | .cipherEntropyTimeout => true
  | .bypass => true
  | .idcode => true
  | .samplePreload _ _ => true
  | .extest _ => true
  | .jtagPrivate _ => true
  | .linkEnable _ link _ => linkNo link
  | .linkDisable _ link _ => linkNo link
  | .linkCmdLeave _ link _ => linkNo link
  | .linkCmdRotate _ link _ => linkNo link
  | .linkCmdReenable _ link _ => linkNo link
  | .linkCmdBadOp _ link _ => linkNo link
  | .signalDetect link => linkNo link
  | .trainingPhaseDone link => linkNo link
  | .trainingTimeout link => linkNo link
  | .trainingRetry link => linkNo link
  | .train link a _ => linkNo link && arrivalOk a
  | .dataMsg link a _ => linkNo link && arrivalOk a
  | .ack link a _ => linkNo link && arrivalOk a
  | .nak link a _ => linkNo link && arrivalOk a
  | .packetTransmit link vc => linkNo link && vcNo vc
  | .ackSend link => linkNo link
  | .creditReturn link => linkNo link
  | .replayTimeout link => linkNo link
  | .handshakeStart link => linkNo link
  | .hello link a _ => linkNo link && arrivalOk a
  | .response link a _ => linkNo link && arrivalOk a
  | .challengeWindowClose link => linkNo link
  | .confirm link a _ => linkNo link && arrivalOk a
  | .confirmTimeout link => linkNo link
  | .backoffEnd link => linkNo link
  | .keyRotate link => linkNo link
  | .keyUpd link a _ => linkNo link && arrivalOk a
  | .leave link a _ => linkNo link && arrivalOk a
  | .leaveAck link a _ => linkNo link && arrivalOk a
  | .leaveTimeout link => linkNo link
  | .linkSignalLoss link _ => linkNo link
  | .linkRefclkLoss _ => true
  | .errorRecord _ => true
  | .aggregatorRecord => true
  | .squallEndTest => true
  | .errFirstClear _ page => pageNo page
  | .devFirstClear _ => true
  | .fenceClear _ _ => true
  | .injectSignal _ page _ => pageNo page
  | .injectCorrupt1 _ page _ => pageNo page
  | .injectCorrupt2 _ page _ => pageNo page
  | .injectBadMode _ page _ => pageNo page
  | .retireCmd _ _ => true
  | .retireTimeoutExpiry => true
  | .coldReset cause => okIf (cause < 2)
  | .resetNRise pos _ => okIf (pos < 4)
  | .warmReset _ _ => true
  | .pcieReset cause => okIf (3 ≤ cause ∧ cause ≤ 5)
  | .bootPhaseEnd phase _ _ _ _ => okIf (1 ≤ phase ∧ phase < 9)
  | .blockReset _ _ _ => true
  | .calLoad _ _ => true
  | .calClear _ _ => true
  | .calCommit _ _ => true
  | .calCommitDone => true
  | .calBadOp _ _ => true
  | .calDataAccess _ _ => true
  | .getTid => true
  | .getPldmVersion _ => true
  | .getPldmTypes => true
  | .getPldmCommands _ => true
  | .getSensorReading _ => true
  | .getPdrRepositoryInfo => true
  | .getPdr _ => true
  | .setEventReceiver _ _ => true
  | .setNumericSensorEnable _ _ => true
  | .requestUpdate => true
  | .firmwareTransfer _ _ => true
  | .firmwareVerify => true
  | .activateFirmware => true
  | .cancelUpdate => true
  | .gpioFuncWrite _ _ => true
  | .tachWindow => true
  | .uartRxByte _ => true
  | .uartRxdataRead _ => true
  | .flashGrant => true
  | .flashGrantLoss => true
  | .hiRead _ _ => true
  | .noiseSample bits => okIf (bits < 8)
  | .programLoadDone k => coreNo k
  | .hostReadFailure _ _ => true
  | .postedCreditReturn => true
  | .pcieLinkTraining _ _ _ => true
  | .uncorrectableCodeword link => linkNo link
  | .ctExpiry _ => true
  | .lcTransitionDone => true
  | .keyBankWriteDone _ => true
  | .hbmCatastrophicTemp stack => stackNo stack
  | .shortSyncPulse src => okIf (src < 2)
  | .tachRisingEdge n => okIf (n < 4)

end Sys2Proof
end

