-- ==== Sys2Proof/Tests/Slice0.lean ====
section
/-! SUPPORT. The model's own tests: what WellFormed refuses, and, for each statement with hypotheses, states and operands that meet
them. -/

open Sys2Proof Sys2Proof.Machine

/-! Ill-formed commands, one for each check of each command. -/

theorem test_refuses_page_no :
    (Instr.ctrClear .host 0x180 0).wellFormed = false ∧
    (Instr.errFirstClear .host 0x180).wellFormed = false ∧
    (Instr.injectSignal .host 0x180 0).wellFormed = false ∧
    (Instr.injectCorrupt1 .host 0x180 0).wellFormed = false ∧
    (Instr.injectCorrupt2 .host 0x180 0).wellFormed = false ∧
    (Instr.injectBadMode .host 0x180 0).wellFormed = false := by decide

theorem test_refuses_func_no :
    (Instr.sqTailDb 64 0 0 0).wellFormed = false ∧
    (Instr.cqHeadDb 64 0 0 0).wellFormed = false ∧
    (Instr.inlineWrite 64 0 0 []).wellFormed = false ∧
    (Instr.ringEnable 64 0 0).wellFormed = false ∧
    (Instr.ringDisable 64 0 0).wellFormed = false ∧
    (Instr.flrComplete 64).wellFormed = false := by decide

theorem test_refuses_queue_no_0 :
    (Instr.sqTailDb 0 1024 0 0).wellFormed = false ∧
    (Instr.cqHeadDb 0 1024 0 0).wellFormed = false ∧
    (Instr.inlineWrite 0 1024 0 []).wellFormed = false ∧
    (Instr.ringEnable 0 1024 0).wellFormed = false ∧
    (Instr.ringDisable 0 1024 0).wellFormed = false ∧
    (Instr.qOwnerWrite .host 1024 0).wellFormed = false ∧
    (Instr.guardUpdate 1024).wellFormed = false ∧
    (Instr.cancel .host 1024).wellFormed = false ∧
    (Instr.cancelQueue .host 1024).wellFormed = false ∧
    (Instr.reprio .host 1024).wellFormed = false ∧
    (Instr.drain .host 1024).wellFormed = false ∧
    (Instr.undrain .host 1024).wellFormed = false := by decide

theorem test_refuses_queue_no_1 :
    (Instr.contractWrite .host 1024 true 0).wellFormed = false := by decide

theorem test_refuses_staging_length :
    (Instr.inlineWrite 0 0 4097 []).wellFormed = false := by decide

theorem test_refuses_vf_no :
    (Instr.flr 0).wellFormed = false := by decide

theorem test_refuses_core_no :
    (Instr.haltTimeReached 8).wellFormed = false ∧
    (Instr.bundleIssue 8).wellFormed = false ∧
    (Instr.engWaitReturn 8).wellFormed = false ∧
    (Instr.waitIWake 8).wellFormed = false ∧
    (Instr.interruptTake 8).wellFormed = false ∧
    (Instr.timerExpiry 8).wellFormed = false ∧
    (Instr.storeVisible 8).wellFormed = false ∧
    (Instr.transferStart 8).wellFormed = false ∧
    (Instr.transferEnd 8).wellFormed = false ∧
    (Instr.coreSpargeDone 8).wellFormed = false ∧
    (Instr.programLoadDone 8).wellFormed = false := by decide

theorem test_refuses_tun_no :
    (Instr.latticePhase 0 128).wellFormed = false ∧
    (Instr.denseClassStep 0 128 0).wellFormed = false ∧
    (Instr.endMarker 0 128 0).wellFormed = false ∧
    (Instr.endMarker 0 0 128).wellFormed = false ∧
    (Instr.flipApply 0 128).wellFormed = false ∧
    (Instr.phxGo .host 128 0).wellFormed = false ∧
    (Instr.lullOffEntry 128).wellFormed = false ∧
    (Instr.marchSlice 0 128 []).wellFormed = false := by decide

theorem test_refuses_replica :
    (Instr.denseClassStep 0 0 64).wellFormed = false := by decide

theorem test_refuses_dir_no :
    (Instr.haloWaitTimeout 0 6).wellFormed = false := by decide

theorem test_refuses_readings :
    (Instr.thermalSample []).wellFormed = false := by decide

theorem test_refuses_src :
    (Instr.syncPulse 2).wellFormed = false ∧
    (Instr.restartTestStart 3).wellFormed = false ∧
    (Instr.shortSyncPulse 2).wellFormed = false := by decide

theorem test_refuses_region_opt :
    (Instr.budgetWrite .host (some 16) 0).wellFormed = false := by decide

theorem test_refuses_res_ok :
    (Instr.lullEntry (.engine 4)).wellFormed = false ∧
    (Instr.wakeComplete (.engine 4)).wellFormed = false := by decide

theorem test_refuses_port :
    (Instr.multicastCopy none 0 7).wellFormed = false ∧
    (Instr.hbmAccess 16 []).wellFormed = false := by decide

theorem test_refuses_bank_no :
    (Instr.commonsAccess 32 []).wellFormed = false := by decide

theorem test_refuses_stack_no :
    (Instr.patrolScrubRead 4 0).wellFormed = false ∧
    (Instr.hbmCatastrophicTemp 4).wellFormed = false := by decide

theorem test_refuses_chan_no :
    (Instr.conditionedBlockReady 4).wellFormed = false ∧
    (Instr.drbgGenerateStart 4).wellFormed = false ∧
    (Instr.drbgGenerateDone 4).wellFormed = false ∧
    (Instr.drbgReseedDone 4).wellFormed = false := by decide

theorem test_refuses_set :
    (Instr.ideKmKeyProg none 0 2 0 0 []).wellFormed = false ∧
    (Instr.ideKmKSetGo none 0 2 0 0).wellFormed = false ∧
    (Instr.ideKmKSetStop none 0 2 0 0).wellFormed = false := by decide

theorem test_refuses_dir :
    (Instr.ideKmKeyProg none 0 0 2 0 []).wellFormed = false ∧
    (Instr.ideKmKSetGo none 0 0 2 0).wellFormed = false ∧
    (Instr.ideKmKSetStop none 0 0 2 0).wellFormed = false := by decide

theorem test_refuses_sub :
    (Instr.ideKmKeyProg none 0 0 0 3 []).wellFormed = false ∧
    (Instr.ideKmKSetGo none 0 0 0 3).wellFormed = false ∧
    (Instr.ideKmKSetStop none 0 0 0 3).wellFormed = false := by decide

/-- An arrival with no codeword, which names no slot. -/
def noArrival : Arrival := ⟨[], 0⟩

theorem test_refuses_link_no_0 :
    (Instr.linkEnable .host 8 0).wellFormed = false ∧
    (Instr.linkDisable .host 8 0).wellFormed = false ∧
    (Instr.linkCmdLeave .host 8 0).wellFormed = false ∧
    (Instr.linkCmdRotate .host 8 0).wellFormed = false ∧
    (Instr.linkCmdReenable .host 8 0).wellFormed = false ∧
    (Instr.linkCmdBadOp .host 8 0).wellFormed = false ∧
    (Instr.signalDetect 8).wellFormed = false ∧
    (Instr.trainingPhaseDone 8).wellFormed = false ∧
    (Instr.trainingTimeout 8).wellFormed = false ∧
    (Instr.trainingRetry 8).wellFormed = false ∧
    (Instr.train 8 noArrival 0).wellFormed = false ∧
    (Instr.dataMsg 8 noArrival 0).wellFormed = false := by decide

theorem test_refuses_link_no_1 :
    (Instr.ack 8 noArrival 0).wellFormed = false ∧
    (Instr.nak 8 noArrival 0).wellFormed = false ∧
    (Instr.packetTransmit 8 0).wellFormed = false ∧
    (Instr.ackSend 8).wellFormed = false ∧
    (Instr.creditReturn 8).wellFormed = false ∧
    (Instr.replayTimeout 8).wellFormed = false ∧
    (Instr.handshakeStart 8).wellFormed = false ∧
    (Instr.hello 8 noArrival 0).wellFormed = false ∧
    (Instr.response 8 noArrival 0).wellFormed = false ∧
    (Instr.challengeWindowClose 8).wellFormed = false ∧
    (Instr.confirm 8 noArrival 0).wellFormed = false ∧
    (Instr.confirmTimeout 8).wellFormed = false := by decide

theorem test_refuses_link_no_2 :
    (Instr.backoffEnd 8).wellFormed = false ∧
    (Instr.keyRotate 8).wellFormed = false ∧
    (Instr.keyUpd 8 noArrival 0).wellFormed = false ∧
    (Instr.leave 8 noArrival 0).wellFormed = false ∧
    (Instr.leaveAck 8 noArrival 0).wellFormed = false ∧
    (Instr.leaveTimeout 8).wellFormed = false ∧
    (Instr.linkSignalLoss 8 0).wellFormed = false ∧
    (Instr.uncorrectableCodeword 8).wellFormed = false := by decide

/-- Arrivals whose one codeword is short of a slot, holds a short slot, or marks a start in an idle slot (R916). -/
def badArrivals : List Arrival :=
  [⟨[⟨0, List.replicate 9 (List.replicate 64 0)⟩], 0⟩, ⟨[⟨0, List.replicate 10 (List.replicate 63 0)⟩], 0⟩,
   ⟨[⟨1, List.replicate 10 (List.replicate 64 0)⟩], 0⟩, ⟨[⟨0x401, List.replicate 10 (List.replicate 64 0)⟩], 10⟩]

theorem test_refuses_arrival_train_data :
    (badArrivals.all fun a => !(Instr.train 0 a 0).wellFormed && !(Instr.dataMsg 0 a 0).wellFormed && !(Instr.ack 0 a 0).wellFormed &&
      !(Instr.nak 0 a 0).wellFormed) = true := by decide

theorem test_refuses_arrival_messages :
    (badArrivals.all fun a => !(Instr.hello 0 a 0).wellFormed && !(Instr.response 0 a 0).wellFormed && !(Instr.confirm 0 a 0).wellFormed &&
      !(Instr.keyUpd 0 a 0).wellFormed && !(Instr.leave 0 a 0).wellFormed && !(Instr.leaveAck 0 a 0).wellFormed) = true := by decide

/-- A unit that starts in slot 0, with the other slots idle, is well formed (R916). -/
theorem test_takes_arrival :
    (Instr.ack 0 ⟨[⟨0x401, List.replicate 10 (List.replicate 64 0)⟩], 0⟩ 0).wellFormed = true := by decide

theorem test_refuses_access_data :
    (Instr.badAccess (some []) 0 2).wellFormed = false := by decide

theorem test_refuses_vc_no :
    (Instr.packetTransmit 0 3).wellFormed = false := by decide

theorem test_refuses_cause :
    (Instr.coldReset 2).wellFormed = false := by decide

theorem test_refuses_pos :
    (Instr.resetNRise 4 true).wellFormed = false := by decide

theorem test_refuses_pcie_cause :
    (Instr.pcieReset 2).wellFormed = false := by decide

theorem test_refuses_boot_phase :
    (Instr.bootPhaseEnd 9 0 true true []).wellFormed = false := by decide

theorem test_refuses_noise_bits :
    (Instr.noiseSample 8).wellFormed = false := by decide

theorem test_refuses_n :
    (Instr.tachRisingEdge 4).wellFormed = false := by decide

/-! The witnesses are elaborated one after another: each is evaluated by the kernel. -/

section

set_option Elab.async false

/-! Bases of the witnesses: records with every field zero, empty or at its first constructor, and the lemmas and states that the
witnesses share. -/

def zArrival : Arrival :=
  { codewords := [], slot := 0 }
def zBad : Bad :=
  { status := 0, reason := 0, ext := 0 }
def zCipherRun : CipherRun :=
  { openIt := false, slot := 0, bank := 0, gen := 0, region := 0, srcSpace := 0, src := 0, dstSpace := 0, dst := 0, bytes := 0, asked := 0, iv := [], ends := none }
def zCmdEnd : CmdEnd :=
  { status := 0, valid := false, reason := 0, stopCause := 0, writes := [], at_ := 0 }
def zCommand : Command :=
  { id := 0, engine := .tun, job := 0, region := 0, func := 0, phase := .issued, issued := 0, began := 0, block := [], kiln := [], armed := false, core := none, deadline := 0, stop := 0, awaits := 0, ending := none }
def zFetched : Fetched :=
  { queue := 0, slot := 0, arrival := 0, inline := false, head := [], chain := [], joined := [], badChain := false }
def zFwUpdate : FwUpdate :=
  { slot := 0, got := 0, verified := false }
def zGrist : Grist :=
  { id := 0, x0 := 0, y0 := 0, x1 := 0, y1 := 0, mode := 0, prec := 0, scale := 0, coloured := false, n := 0, offset := 0, tx := 0, ty := 0, wl := 0, ncol := 0, bodyBytes := 0, bodyCrc := 0, body := #[], nnz := 0, rowptr := 0, col := 0, val := 0, h := 0 }
def zJob : Job :=
  { entry := 0, order := 0, queue := 0, func := 0, region := 0, cls := 0, kind := (.engine .tun), phase := .payload, inline := false, gust := false, slot := 0, tag := 0, arrival := 0, start := 0, deadline := 0, stop := 0, allowance := 0, tFirst := 0, hostBytes := false, desc := [], chain := [], payload := [], kiln := [], ceiling := none, fit := 0, res := 0, energy := 0, boost := 0, core := none, stopping := none, faulted := none, status := 0, resultValid := false, reason := 0, stopCause := 0, appCode := 0 }
def zKeyTask : KeyTask :=
  { id := 0, since := 0, e := .i3c, session := none, work := .lcNonce }
def zLcRun : LcRun :=
  { record := 0, seedDue := false, start := 0 }
def zMarch : March :=
  { kind := 0, inst := 0, start := 0, count := 0, destructive := false, done := 0, sliceEnd := none, paused := false, failed := false }
def zMemAsk : MemAsk :=
  { op := none, kind := 0, inst := 0, start := 0, count := 0, fails := [] }
def zMemReq : MemReq :=
  { rank := 0, region := none, job := none, addr := 0, op := (.read 0), upset := 0 }
def zPacket : Packet :=
  { id := 0, cls := .req, region := none, src := 0, dst := 0, mask := 0, flits := 0, job := none, item := none, loc := 0, escape := false, port := 0, since := 0 }
def zPacketOffer : PacketOffer :=
  { cls := .req, region := none, src := 0, dst := 0, mask := 0, flits := 0, job := none }
def zPartner : Partner :=
  { dir := 0, chip := 0, link := 0, frozen := false, haloA := none, haloB := none, nextA := none, nextB := none, coef := none, waitSince := none }
def zPendMark : PendMark :=
  { dst := 0, src := 0, cls := 0, replica := 0, arrived := false }
def zPlanGrid : PlanGrid :=
  { region := 0, id := 0, sx := 0, sy := 0, nt := 0, cells := [], mark := 0 }
def zPlanTable : PlanTable :=
  { region := 0, addr := 0, data := [], mark := 0 }
def zPlanInput : PlanInput :=
  { grid := zPlanGrid, table := zPlanTable, reqs := [], prev := [], upds := [] }
def zPlanRun : PlanRun :=
  { cmd := 0, loaded := false, due := 0, grid := 0, table := zPlanTable, reqs := [], base := [], todo := [], search := none, results := [], replaced := 0, gridLoaded := false, primFetched := false, lookups := 0, cuts := 0, start := 0, flush := false }
def zResident : Resident :=
  { region := 0, addr := 0, bytes := 0, crc := 0, data := [], mark := 0 }
def zPredTally : PredTally :=
  { clamps := 0, wideClamps := 0, misfit := 0, noRerun := 0, wideBlocks := 0, writes := 0, saturated := 0, skipped := 0, amax := [], out := [] }
def zPredRun : PredRun :=
  { cmd := 0, phase := .fetch, due := 0, want := none, next := none, from_ := 0, aMark := 0, image := zResident, fetched := false, rings := [], invocations := 0, gw := [], claimed := false, s0 := 0, block := 0, layer := 0, wide := false, tensor := [], zero := [], scale := 0, aCur := 0, cur := zPredTally, total := zPredTally, rowsDone := 0, start := 0, flush := false }
def zRegRow : RegRow :=
  { off := 0, n := 0, rw := 0, w1c := 0, w1s := 0, wo := 0, rd := 0, reset := 0 }
def zRun : Run :=
  { cmd := 0, phase := .loading, x0 := 0, y0 := 0, x1 := 0, y1 := 0, load := 0, block := [], stages := [], kilnCrc := 0, nr := 0, nRungs := 0, seed := 0, seedDrawn := false, stop := 0, startTime := 0, sweep := 0, bits := [], energies := [], rungs := [], best := none, lastMin := 0, lastBoundary := 0, lastEnergies := [], exchAtt := 0, exchAcc := 0, rungAtt := [], rungAcc := [], flips := 0, phases := [], steps := [], pendFlips := [], pendMarks := [], seen := [], applying := [], sweepFrom := 0, runFrom := 0, stopAsked := none, atGap := false, visit := none, span := none, haloStale := 0 }
def zRunHead : RunHead :=
  { mode := 0, prec := 0, scale := 0, n := 0, nr := 0, rungs := 0, seed := 0, drawn := false, timing := false, start := 0, fin := 0 }
def zRunMsg : RunMsg :=
  { link := 0, span := 0, kind := 0, src := 0, dst := 0, flags := 0, tag := 0, offset := 0, payload := [], units := 0, arrival := 0 }
def zSentPkt : SentPkt :=
  { seq := 0, flags := 0, pay := [], job := none, upd := false, time := 0 }
def zSession : Session :=
  { id := 0, e := .i3c, done := false, secret := 0 }
def zSolverRun : SolverRun :=
  { cmd := 0, op := 0, loaded := false, from_ := 0, mark := 0, done := 0, x := [], g := [], mat := [], vec := [], lo := [], up := [], rho0 := 0, rho := 0, best := none, inner := 0, start := 0 }
def zSpan : Span :=
  { kind := 0, chip := 0, cx := 0, cy := 0, maxLag := 0, spanId := 0, aux := 0, joinUs := 0, rdvUs := 0, partners := [], joined := [], lost := [], found := [], reports := [], reportTime := 0, gather := none, parts := [], pending := none, pendingCap := none, sending := none, gathers := 0, complete := none, leases := [], granted := [], nextVisit := 0, requeue := [], idle := [], applied := 0, staleSum := 0 }
def zSparge : Sparge :=
  { tun := none, space := 0, base := 0, bytes := 0, from_ := 0 }
def zStopAsk : StopAsk :=
  { target := (.job 0), status := 0 }
def zStoreEntry : StoreEntry :=
  { n := 0, space := 0, addr := 0, op := (.read 0), dest := none }
def zTenantCmd : TenantCmd :=
  { e := .i3c, session := none, payload := [], fail := false }
def zTransfer : Transfer :=
  { tag := 0, srcSpace := 0, src := 0, dstSpace := 0, dst := 0, len := 0, after := 0, start := none }
def zVisit : Visit :=
  { number := 0, entry := 0, dwell := 0, swept := 0, spins := [], colours := [], j := [], fields := [], start := [], rungs := [], staged := false }
def zWinCmd : WinCmd :=
  { manager := false, op := 0, queue := 0, tag := 0, boost := 0 }

theorem zPair {α β : Type} {x : α × β} {b : β} (h : x.2 = b) : x = (x.1, b) := by cases x; cases h; rfl
def zDef (α : Type) (o : Option α) (h : o.isSome = true) : α := o.get h
theorem zSome (α β : Type) (o : Option (α × β)) (h : o.isSome = true) : o = some ((zDef _ o h).1, (zDef _ o h).2) := (Option.some_get h).symm
/-- The state after reset at a later time. -/
def zState : State := { State.reset with time := 1000000000000, gov := { State.reset.gov with ccycles := 1000000000000, locked := true, everLocked := true } }

/-- The same once ready. -/
def zReady : State := zState.wf Reg.BOOT_BOOT_STATE 0 0 1

/-- Queue 0, of function 0 and region 0, in a state, with 16 slots each way; the region takes the whole mesh and both device memories. -/
def zQueue (q : QState) : State :=
  ((zReady.wr (qReg 0 Reg.QR_Q_OWNER) 0x80000000).setQueue 0 { Queue.reset with state := q, sqLog := 4, cqLog := 4 }).setRgn 0
    { RegionRec.zero with rect := 0x80007F00, commons := 0xFFFF0000, hbm := 0xFFFF0000, quota := 0xFFFFFFFF }
def zFull : State := zQueue .enabled

/-- n bytes with fields placed over zeros. -/
def zBytes (n : Nat) (fs : List (Nat × List Byte)) : List Byte :=
  fs.foldl (fun b f => b.take f.1 ++ f.2 ++ b.drop (f.1 + f.2.length)) (List.replicate n 0)

/-- A block or header of 128 bytes with its CRC. -/
def zBlock (fs : List (Nat × List Byte)) : List Byte := let b := zBytes 124 fs; b ++ natLE 4 (crc32c b)

/-- A run block of tun 0 with a seed and the default kiln, eight replicas, and results in host memory. -/
def zRunBlock (op : Nat) (fs : List (Nat × List Byte)) : List Byte :=
  zBytes 128 ([(0, natLE 4 0x424E5552), (4, [1]), (5, natLE 1 op), (7, [0x11]), (0x0C, [8]), (0x28, natLE 8 0x1000), (0x30, natLE 4 4096),
    (0x34, natLE 4 8)] ++ fs)

/-- A dense grist of one spin on tun 0, and the state in which tun 0 holds it. -/
def zDense : Grist := { parseGrist 1 (zRunBlock 2 []) (zBytes 128 [(5, [2]), (0x0C, [1]), (0x20, natLE 8 (denseBytes 1 0 false))]) with
  body := Array.replicate (denseBytes 1 0 false) 0 }
def zLoaded : State := { zFull with tun := { zFull.tun with
  grists := [zDense], tuns := Tab.put (fun _ => TunSt.reset) 0 { TunSt.reset with load := some 1 } [] } }

/-- A run of tun 0 on zDense, past boundary 0, with its command, and a state that holds them. -/
def zCmdT : Command :=
  { zCommand with id := 3, engine := .tun, phase := .running, block := zRunBlock 2 [], armed := true, deadline := allOnes64, stop := allOnes64 }
def zRunD : Run :=
  { zRun with cmd := 3, phase := .sweeping, load := 1, block := zRunBlock 2 [], nr := 1, nRungs := 1, bits := [0], energies := [0], rungs := [0], lastEnergies := [0], stop := allOnes64 }
def zDense1 : Grist := { zDense with body := #[0, 0, 0, 0] }
def zLattice : Grist := { zDense with body := #[], mode := 1, tx := 1, ty := 1, wl := 0 }
def zRunSt (r : Run) (g : Grist) (c : Command) : State :=
  { zLoaded with cmds := [c], tun := { zLoaded.tun with grists := [g], runs := [r] } }
/-- A split run of two chips, of a kind, on a chip, with its partner on link 0. -/
def zSpanBlock (kind chip : Nat) : List Byte :=
  zRunBlock (if kind = 2 then 2 else 3) [(0x60, natLE 1 kind), (0x61, natLE 1 chip), (0x62, [2]), (0x63, [1]), (0x67, [1]), (0x68, natLE 2 1),
    (0x6C, natLE 4 5), (0x78, natLE 2 1000), (0x7A, natLE 2 1000)]
def zSpanOf (kind chip : Nat) : Span := ((newSpan (zSpanBlock kind chip)).getD zSpan)
theorem zOk {α β : Type} (o : Except α β) (d : β) (h : o.toOption.isSome = true) : o = .ok (o.toOption.getD d) := by
  cases o <;> first | rfl | cases h
def zErrOf {α β : Type} (o : Except α β) (d : α) : α := match o with | .error e => e | .ok _ => d
theorem zErr {α β : Type} (o : Except α β) (d : α) (h : o.toOption = none) : o = .error (zErrOf o d) := by
  cases o <;> first | rfl | cases h
/-- A window run at a switch, and a state whose HBM holds its window list of one entry of one spin. -/
def zWinRun : Run := { zRunD with phase := .switching, block := zRunBlock 3 [(0x70, natLE 8 0x1000)] }
def zWinGrist : Grist := { zLattice with mode := 3, n := 1, nnz := 0, rowptr := 0, h := 0x100 }
def zWinSt : State :=
  (zRunSt zWinRun zWinGrist zCmdT).writeSpace none spHbm 0 0x1000 (zBytes 96 [(6, [1]), (64, natLE 8 0x800), (80, [1]), (84, [1])])
/-- A packet of a kind with a sequence number and a payload, as it arrives. -/
def zPkt (kind seq : Nat) (pay : List Byte) : Arrival :=
  { codewords := ((packetUnits (mkPacket kind 0 seq 0 none pay)).foldl putUnit (false, [])).2, slot := 0 }
/-- A core of region 0 that runs at the start of one bundle of 64 zero bytes. -/
def zCore : Core := { Core.reset with phase := .running, text := 64 }
def zCoreSt (c : Core) : State := zState.updCore 0 (fun _ => c)
/-- A state with a PCIe session 1 in which FINISH has been answered. -/
def zSesBase : State :=
  (zState.wf Reg.BOOT_BOOT_STATE 31 28 3).wf Reg.KEY_LC_STATE 2 0 3
def zSess : Session := { id := 1, e := .pcie, done := true, secret := 0 }
def zSessSt : State := { zSesBase with key := { zSesBase.key with sessions := [zSess] } }
/-- The run, its command and state of a split run, and the state in which a message waits for it. -/
def zSplitRun (kind chip : Nat) (ph : RunPhase) (sp : Span) : Run := { zRunD with block := zSpanBlock kind chip, span := some sp, phase := ph }
def zSplitCmd (kind chip : Nat) : Command := { zCmdT with block := zSpanBlock kind chip }
def zMsgSt (r : Run) (c : Command) (m : RunMsg) : State :=
  { zRunSt r zLattice c with tun := { (zRunSt r zLattice c).tun with inbox := [m] } }
def zMsg (kind src dst tag : Nat) (pay : List Byte) : RunMsg :=
  { zRunMsg with span := 5, kind := kind, src := src, dst := dst, tag := tag, payload := pay }
theorem zTake {α β : Type} (o : Option (α × β)) (a : α) (d : α × β) (h : o.map Prod.fst = some a) : o = some (a, (o.getD d).2) := by
  cases o with
  | none => cases h
  | some x => cases h; rfl
/-- Operand blocks of the three engines: a BOXQP of one variable, a batch of one row, and a plan with no request. -/
def zSolveBlock : List Byte :=
  zBytes 128 [(0x00, natLE 4 0x564C4F53), (0x04, natLE 1 0x1), (0x05, natLE 1 0x3), (0x0C, natLE 4 0x1), (0x30, natLE 8 0x1000), (0x38, natLE 8 0x2000), (0x48, natLE 8 0x3000), (0x50, natLE 8 0x4000), (0x60, natLE 8 0x8000), (0x68, natLE 4 0xC0), (0x7C, natLE 4 0x9FC73AE0)]
def zPredBlock : List Byte :=
  zBytes 128 [(0x00, natLE 4 0x44455250), (0x04, natLE 1 0x1), (0x06, natLE 1 0x1), (0x0A, natLE 1 0x1), (0x0C, natLE 4 0x1), (0x20, natLE 8 0x1000), (0x28, natLE 8 0x2000), (0x38, natLE 8 0x8000), (0x40, natLE 4 0xC0), (0x7C, natLE 4 0x1C139ED2)]
def zPlanBlock : List Byte :=
  zBytes 128 [(0x00, natLE 4 0x4E414C50), (0x04, natLE 1 0x1), (0x05, natLE 1 0x1), (0x0C, natLE 4 0x1), (0x10, natLE 2 0x1), (0x18, natLE 8 0x1000), (0x20, natLE 8 0x2000), (0x28, natLE 8 0x3000), (0x38, natLE 8 0x8000), (0x40, natLE 4 0xC0), (0x7C, natLE 4 0x1265FFD7)]
/-- An engine command at the head of its queue, with every page ready, or running. -/
def zEngCmd (e : Engine) (ph : CmdPhase) (b : List Byte) : Command :=
  { zCommand with id := 3, engine := e, phase := ph, block := b, deadline := allOnes64, stop := allOnes64 }
def zEngSt (c : Command) : State := { ([pgSolver, pgPred, pgPlan].foldl State.setReady zFull) with cmds := [c] }
/-- A CRC in steps of 16 bytes, so that each is evaluated by itself. -/
def zStep (c : Nat) (b : Byte) : Nat := crc32cBits 8 (Nat.xor c b.toNat)
def zSteps : List Nat → List Byte → Nat → Bool
  | [], l, _ => l.isEmpty
  | c :: r, l, d => (l.take 16).foldl zStep d == c && zSteps r (l.drop 16) c
theorem foldl_zSteps (cs : List Nat) (l : List Byte) (d : Nat) (h : zSteps cs l d = true) : l.foldl zStep d = cs.getLastD d := by
  induction cs generalizing l d with
  | nil => simp only [zSteps, List.isEmpty_iff] at h; subst h; rfl
  | cons c r ih =>
    simp only [zSteps, Bool.and_eq_true, beq_iff_eq] at h
    conv_lhs => rw [← List.take_append_drop 16 l]
    rw [List.foldl_append, h.1, ih _ _ h.2]
    cases r <;> rfl
theorem crc32c_zSteps (cs : List Nat) (l : List Byte) (h : zSteps cs l 0xFFFFFFFF = true) :
    crc32c l = Nat.xor (cs.getLastD 0xFFFFFFFF) 0xFFFFFFFF := by
  show Nat.xor (l.foldl zStep 0xFFFFFFFF) 0xFFFFFFFF = _
  rw [foldl_zSteps cs l _ h]
/-- A run block with its CRC. -/
def zGoodBlock : List Byte :=
  zBytes 128 [(0x00, natLE 4 0x424E5552), (0x04, natLE 1 0x1), (0x05, natLE 1 0x2), (0x07, natLE 1 0x11), (0x0C, natLE 1 0x1), (0x28, natLE 8 0x1000), (0x30, natLE 4 0x1000), (0x34, natLE 4 0x8), (0x7C, natLE 4 0xAE8FA67A)]
theorem zSolveBlock_crc : crc32c (zSolveBlock.take 0x7C) = 0x9FC73AE0 :=
  crc32c_zSteps [0x388889D4, 0xF17CB56D, 0xD6C2FE68, 0x18DBD178, 0xA6928F84, 0x17056E27, 0x551E81ED, 0x6038C51F] _ (by decide +kernel)
theorem zPredBlock_crc : crc32c (zPredBlock.take 0x7C) = 0x1C139ED2 :=
  crc32c_zSteps [0x84A202ED, 0xFA25B6AA, 0x295032EE, 0x56EE5BDD, 0x4A51AB69, 0xD3064C25, 0x9D5DAC31, 0xE3EC612D] _ (by decide +kernel)
theorem zPlanBlock_crc : crc32c (zPlanBlock.take 0x7C) = 0x1265FFD7 :=
  crc32c_zSteps [0x8292EEB0, 0xEED9A62A, 0xD2D26620, 0x88B31093, 0x32EA8038, 0x8D7C0051, 0x91C8FDEC, 0xED9A0028] _ (by decide +kernel)
theorem zGoodBlock_crc : crc32c (zGoodBlock.take 0x7C) = 0xAE8FA67A :=
  crc32c_zSteps [0x2D490F08, 0x4C810E55, 0x02958951, 0x817D4A39, 0x12624772, 0x04167BE5, 0x3DDE36A0, 0x51705985] _ (by decide +kernel)
theorem zOkOf {α β : Type} (o : Except α β) (b : β) (h : o.toOption = some b) : o = .ok b := by
  cases o with
  | error e => cases h
  | ok x => cases h; rfl
/-- A RUN command that passes steps 1 and 2 of R176. -/
def zGoodCmd : Command := { zCmdT with phase := .issued, block := zGoodBlock }
def zGoodSt : State := { zRunSt zRunD zDense1 zGoodCmd with tun := { zLoaded.tun with grists := [zDense1] } }
theorem zGood_block : firstBad (zGoodSt.blockChecks 0 zGoodBlock) = none := by unfold State.blockChecks; rw [zGoodBlock_crc]; decide +kernel
theorem zGood_tuns : zGoodSt.tunChecks 0 zGoodBlock = none := by
  have u1 : rbTuns zGoodBlock = [0] := by decide +kernel
  have u2 : (zGoodSt.tunSt 0).failed = false := by decide +kernel
  have u3 : zGoodSt.tunRunning 0 = false := by decide +kernel
  have u4 : zGoodSt.gwClaims 0 = false := by decide +kernel
  have u5 : zGoodSt.rectGrist zGoodBlock = some zDense1 := by decide +kernel
  have u6 : firstBad (zGoodSt.gristDependent 0 zGoodBlock zDense1) = none := by decide +kernel
  have u7 : (zGoodSt.tunSt 0).load = some 1 := by decide +kernel
  have u8 : rbOp zGoodBlock = 2 := by decide +kernel
  simp only [State.tunChecks, u1, u5, List.any_cons, List.any_nil, u2, u3, u4, u7, u8, firstBad, u6]
  decide +kernel
theorem zGood_ok (s : State) (c : Command) (h1 : firstBad (s.blockChecks c.region c.block) = none)
    (h2 : s.tunChecks c.region c.block = none) (h3 : c.stop = allOnes64) (h4 : c.armed = true) : s.annealSteps c = .ok c.kiln := by
  simp [State.annealSteps, h1, h2, h3, h4]
theorem zGood_steps : zGoodSt.annealSteps zGoodCmd = .ok [] := zGood_ok zGoodSt zGoodCmd zGood_block zGood_tuns rfl rfl
/-- A program image of one bundle. -/
def zImage : List Byte :=
  zBytes 128 [(0x00, natLE 4 0x4D4F4E47), (0x04, natLE 1 0x1), (0x0C, natLE 4 0x40), (0x3C, natLE 4 0x0CC91577)]
theorem zImage_crc : crc32c (zImage.take 0x3C ++ (zImage.drop 64).take (leAt zImage 0x0C 4 + leAt zImage 0x10 4)) = 0xCC91577 :=
  crc32c_zSteps [0x68AC7493, 0x5C9600BA, 0x997C156B, 0x9B33A312, 0x7F9BDA66, 0xF07231ED, 0xB0E86514, 0xF336EA88] _ (by decide +kernel)
/-- The header of a dense image of one spin. -/
def zHeader : List Byte :=
  zBytes 128 [(0x00, natLE 4 0x54535247), (0x04, natLE 1 0x1), (0x05, natLE 1 0x2), (0x0C, natLE 4 0x1), (0x20, natLE 8 0x40), (0x30, natLE 2 0x0), (0x7C, natLE 4 0xE62D70F6)]
theorem zHeader_crc : crc32c (zHeader.take 0x7C) = 0xE62D70F6 :=
  crc32c_zSteps [0xE4D102F6, 0x3B53F9DB, 0x4CE48DD0, 0x718F2D1A, 0xD8127C01, 0x0F4C5C34, 0x0494C7A7, 0x19D28F09] _ (by decide +kernel)
def zLoadBlock : List Byte := zRunBlock 1 [(14, [1])]
def zLoadSt : State := zFull.writeSpace none spHbm 0 0 zHeader
/-- A FIRE job on the lane, and a program job whose image core 0 loads. -/
def zLaneJob : Job := { zJob with kind := .fire, phase := .lane, payload := zRunBlock 2 [], deadline := allOnes64, slot := 0 }
def zLaneSt : State := { zLoaded with jobs := [zLaneJob] }
def zProgJob : Job := { zJob with desc := zBytes 128 [(0x10, natLE 8 0x1000), (0x18, natLE 4 128)] }
def zProgSt : State :=
  ({ zFull with jobs := [zProgJob] }.writeSpace none spHost 0 0x1000 zImage).updCore 0 (fun c => { c with job := some 0, phase := .loading })
def zPayJob : Job :=
  { zJob with kind := .engine .solver, phase := .payload, deadline := allOnes64, desc := zBytes 128 [(0x10, natLE 8 0x1000)] }
def zPaySt : State := { zFull with jobs := [zPayJob] }.writeSpace none spHost 0 0x1000 zSolveBlock
/-- A staged calibration record in range. -/
def zRecord : Tab Byte :=
  [(0, 0x43), (1, 0x41), (2, 0x4C), (3, 0x52), (4, 1), (0x32, 1), (0x36, 1), (0x3A, 1), (0x3E, 1), (0x42, 1), (0x46, 1), (0x4A, 1), (0x4E, 1),
    (0x56, 2), (0x58, 2), (0x5E, 2), (0x60, 2), (0x66, 2), (0x68, 2)]
def zNoise : NoiseSource := { NoiseSource.reset with st := 2, aptPos := 1, rctBit := some false, rctRun := 0, cRct := 1, aptRef := true }

/-! One witness for each clause with hypotheses of each statement. -/

theorem witness_StepTakesFront :
    ∃ (c : Instr) (rest : List Instr) (s : State), s.pending = c :: rest :=
  ⟨(.loReadCapture .host (.bar0 0)), [], { zState with pending := (.loReadCapture .host (.bar0 0)) :: [] }, by decide +kernel⟩

theorem witness_IdleStepIsOneCycle :
    (∃ (s : State), s.pending = []) ∧
    (∃ (s : State), s.hostPath.waiting = [] ∧ s.mgrPath.waiting = []) ∧
    (∃ (s : State), s.gov.everLocked = false) ∧
    (∃ (s : State), s.gov.everLocked = true ∧ s.gov.locked = true) ∧
    (∃ (s : State), s.gov.everLocked = true ∧ s.gov.locked = false) := by
  refine ⟨?_, ?_, ?_, ?_, ?_⟩
  · exact ⟨{ zState with pending := [] }, by decide +kernel⟩
  · exact ⟨{ zState with hostPath := { zState.hostPath with waiting := [] }, mgrPath := { zState.mgrPath with waiting := [] } }, by decide +kernel⟩
  · exact ⟨{ zState with gov := { zState.gov with everLocked := false } }, by decide +kernel⟩
  · exact ⟨{ zState with gov := { zState.gov with everLocked := true, locked := true } }, by decide +kernel⟩
  · exact ⟨{ zState with gov := { zState.gov with everLocked := true, locked := false } }, by decide +kernel⟩

theorem witness_CommandsKeepTheQueue :
    ∃ (c : Instr) (s : State) (t : State), exec c s = .next t :=
  ⟨.gbankClear .host 0, zState, _, rfl⟩

theorem witness_StepKeepsCanonicalForm :
    ∃ (s : State) (t : State), s.wfTabs = true ∧ step s = .next t :=
  ⟨zState, _, by decide +kernel, rfl⟩

theorem witness_PairReadsAreCaptured :
    (∃ (p : Path) (a : Nat) (s : State) (u : State), u = s.turn p ∧ isPairLo a = true ∧ badReason a 4 = none) ∧
    (∃ (p : Path) (a : Nat) (s : State) (u : State), u = s.turn p ∧ isBest0 a = true ∧ badReason a 4 = none) ∧
    (∃ (p : Path) (a : Nat) (w : Word) (s : State) (u : State), u = s.turn p ∧ isCaptured a = true ∧ isPairLo a = false ∧ isBest0 a = false ∧
      badReason a 4 = none ∧ u.capture p a = some w) ∧
    (∃ (p : Path) (a : Nat) (s : State) (u : State), u = s.turn p ∧ isCaptured a = true ∧ isPairLo a = false ∧ isBest0 a = false ∧ badReason a 4 = none ∧
      u.capture p a = none) ∧
    (∃ (func : Nat) (q : Nat) (o : Nat) (s : State), (o = 0x010 ∨ o = 0x018) ∧ s.dbReaches func q = true) ∧
    (∃ (func : Nat) (q : Nat) (o : Nat) (w : Word) (s : State), (o = 0x014 ∨ o = 0x01C) ∧ s.dbReaches func q = true ∧ s.capture .host (dbKey q o) = some w) ∧
    (∃ (func : Nat) (q : Nat) (o : Nat) (s : State), (o = 0x014 ∨ o = 0x01C) ∧ s.dbReaches func q = true ∧ s.capture .host (dbKey q o) = none) := by
  refine ⟨?_, ?_, ?_, ?_, ?_, ?_, ?_⟩
  · exact ⟨.host, Reg.GOV_TIME_LO, zState, _, rfl, by decide +kernel⟩
  · exact ⟨.host, 0x100110, zState, _, rfl, by decide +kernel⟩
  · exact ⟨.host, (Reg.GOV_TIME_LO + 4), 7, zState.setCapture .host (Reg.GOV_TIME_LO + 4) (some 7), _, rfl, by decide +kernel⟩
  · exact ⟨.host, (Reg.GOV_TIME_LO + 4), zState, _, rfl, by decide +kernel⟩
  · exact ⟨0, 0, 0x010, (zQueue .enabled), by decide +kernel⟩
  · exact ⟨0, 0, 0x014, 7, (zQueue .enabled).setCapture .host (dbKey 0 0x014) (some 7), by decide +kernel⟩
  · exact ⟨0, 0, 0x014, (zQueue .enabled), by decide +kernel⟩

theorem witness_PairWritesAreHeld :
    (∃ (p : Path) (s : State), (s.path p).waiting = []) ∧
    (∃ (p : Path) (a : Nat) (s : State) (u : State), u = s.turn p ∧ hiWritable p a = true) ∧
    (∃ (p : Path) (a : Nat) (w : Word) (s : State) (u : State), u = s.turn p ∧ isPairLo a = true ∧ hiWritable p a = false ∧ takesWrite p a = true ∧
      Tab.get (fun _ => none) (u.path p).holds a = some w) ∧
    (∃ (p : Path) (a : Nat) (s : State) (u : State), u = s.turn p ∧ isPairLo a = true ∧ hiWritable p a = false ∧ takesWrite p a = true ∧
      Tab.get (fun _ => none) (u.path p).holds a = none) ∧
    (∃ (p : Path) (a : Nat), isPairLo a = true ∧ takesWrite p a = false) ∧
    (∃ (o : Nat), (o = 0x014 ∨ o = 0x01C)) ∧
    (∃ (o : Nat), (o = 0x010 ∨ o = 0x018)) ∧
    (∃ (a : Nat) (v : Word) (ws : List (Nat × Word)) (s : State), s.hostPath.waiting = (a, v) :: ws ∧ s.mgrPath.waiting = [] ∧ badReason a 4 = none) ∧
    (∃ (a : Nat) (v : Word) (ws : List (Nat × Word)) (s : State), s.mgrPath.waiting = (a, v) :: ws ∧ s.hostPath.waiting = [] ∧ badReason a 4 = none) ∧
    (∃ (p : Path) (k : PageKind) (i : Nat) (a : Nat) (r : RegRow), takesWrite p a = true ∧ hiWritable p a = false ∧ isPairLo a = false ∧
      pageOf (a / 0x1000) = some (k, i) ∧ regRow a = some r) := by
  refine ⟨?_, ?_, ?_, ?_, ?_, ?_, ?_, ?_, ?_, ?_⟩
  · exact ⟨.host, zState, by decide +kernel⟩
  · exact ⟨.host, Reg.GOV_TIME_LOAD_HI, zState, _, rfl, by decide +kernel⟩
  · exact ⟨.host, Reg.GOV_TIME_LOAD_LO, 7, zState.holdHi .host Reg.GOV_TIME_LOAD_HI 7, _, rfl, by decide +kernel⟩
  · exact ⟨.host, Reg.GOV_TIME_LOAD_LO, zState, _, rfl, by decide +kernel⟩
  · exact ⟨.host, 0x60E0, by decide +kernel⟩
  · exact ⟨0x014, by decide +kernel⟩
  · exact ⟨0x010, by decide +kernel⟩
  · exact ⟨0, 0, [], { zState with hostPath := { zState.hostPath with waiting := (0, 0) :: [] }, mgrPath := { zState.mgrPath with waiting := [] } },
      by decide +kernel⟩
  · exact ⟨0, 0, [], { zState with mgrPath := { zState.mgrPath with waiting := (0, 0) :: [] }, hostPath := { zState.hostPath with waiting := [] } },
      by decide +kernel⟩
  · exact ⟨.host, .governor, 0, Reg.GOV_BUDGET, ((regRow Reg.GOV_BUDGET).getD (RegRow.mk 0 0 0 0 0 0 0 0)), by decide +kernel⟩

theorem witness_BadAccessAndManagerPath :
    (∃ (len : Nat) (s : State) (u : State), u = s.turn .host ∧ len ≠ 4 ∧ len ≠ 8) ∧
    (∃ (addr : Nat) (len : Nat) (s : State) (u : State), u = s.turn .host ∧ (len = 4 ∨ len = 8) ∧ addr % len ≠ 0) ∧
    (∃ (addr : Nat) (len : Nat) (s : State) (u : State), u = s.turn .host ∧ (len = 4 ∨ len = 8) ∧ addr % len = 0 ∧ pageOf (addr / 0x1000) = none) ∧
    (∃ (addr : Nat), addr % 8 = 0 ∧ (pageOf (addr / 0x1000)).isSome = true) ∧
    (∃ (addr : Nat) (s : State) (u : State) (v : State), u = (s.turn .host).busRead .host addr ∧ v = u.busRead .host (addr + 4) ∧ addr % 8 = 0 ∧
      (pageOf (addr / 0x1000)).isSome = true) ∧
    (∃ (via : Carrier) (msg : List Byte) (s : State), s.mgrTakes via msg = true ∧ leAt msg 3 1 ≠ 2 ∧ mgrCheck via msg = 0) ∧
    (∃ (via : Carrier) (msg : List Byte) (s : State), s.mgrTakes via msg = true ∧ leAt msg 3 1 ≠ 2 ∧ mgrCheck via msg ≠ 0) ∧
    (∃ (via : Carrier) (msg : List Byte) (s : State), s.mgrTakes via msg = true ∧ leAt msg 3 1 ≠ 1 ∧ mgrCheck via msg ≠ 0) ∧
    (∃ (via : Carrier) (msg : List Byte) (s : State), s.mgrTakes via msg = true ∧ leAt msg 3 1 ≠ 1 ∧ mgrCheck via msg = 0) ∧
    (∃ (s : State), s.ibi.held02 = true ∧ ((∀ t0, s.ibi.lastRaised = some t0 → t0 + s.ibiGap ≤ s.time))) ∧
    (∃ (s : State), s.ibi.held01 = true ∧ s.ibi.held02 = false ∧ ((∀ t0, s.ibi.lastRaised = some t0 → t0 + s.ibiGap ≤ s.time))) ∧
    (∃ (t0 : Nat) (s : State), s.ibi.lastRaised = some t0 ∧ s.time < t0 + s.ibiGap) := by
  refine ⟨?_, ?_, ?_, ?_, ?_, ?_, ?_, ?_, ?_, ?_, ?_, ?_⟩
  · exact ⟨0, zState, _, rfl, by decide +kernel⟩
  · exact ⟨4, 8, zState, _, rfl, by decide +kernel⟩
  · exact ⟨0x00FFFFF8, 8, zState, _, rfl, by decide +kernel⟩
  · exact ⟨0, by decide +kernel⟩
  · exact ⟨0, zState, _, _, rfl, rfl, by decide +kernel⟩
  · exact ⟨.i3c true, [0x7E, 0, 0, 1, 0, 1, 0, 0, 0, 0, 0, 0], (zState.wf Reg.BOOT_BOOT_STATE 31 28 3), by decide +kernel⟩
  · exact ⟨.pcieVdm, [0x7E, 0, 0, 3, 0, 1, 0, 0, 0, 0, 0, 0], (zState.wf Reg.BOOT_BOOT_STATE 31 28 3), by decide +kernel⟩
  · exact ⟨.i3c true, [0x7E, 0, 0, 2, 0, 1, 0, 0, 0, 0, 0, 0], (zState.wf Reg.BOOT_BOOT_STATE 31 28 3), by decide +kernel⟩
  · exact ⟨.i3c true, [0x7E, 0, 0, 2, 0, 1, 0, 0, 0, 0, 0, 0, 0, 0, 0, 0], (zState.wf Reg.BOOT_BOOT_STATE 31 28 3), by decide +kernel⟩
  · exact ⟨{ zState with ibi := { zState.ibi with held02 := true } }, by decide +kernel⟩
  · exact ⟨{ zState with ibi := { zState.ibi with held01 := true, held02 := false } }, by decide +kernel⟩
  · exact ⟨1000000000000, { zState with ibi := { zState.ibi with lastRaised := some 1000000000000 } }, by decide +kernel⟩

theorem witness_CounterCommandsComplete :
    (∃ (p : Path) (v : Word) (s : State) (u : State), u = s.turn p ∧ bit v.toNat 0 = true) ∧
    (∃ (p : Path) (page : Nat) (s : State) (u : State), u = s.turn p ∧ (pageOf page).isSome = true) := by
  refine ⟨?_, ?_⟩
  · exact ⟨.host, 1, zState, _, rfl, by decide +kernel⟩
  · exact ⟨.host, 0, zState, _, rfl, by decide +kernel⟩

theorem witness_DoorbellsMoveTheirIndex :
    (∃ (func : Nat) (q : Nat) (v : Word) (s : State), s.dbOpen func q = true ∧ (((s.queue q).state = .enabled ∨ (s.queue q).state = .draining)) ∧
      fld v.toNat 15 0 < 1 <<< (s.queue q).sqLog ∧
      modDist (fld v.toNat 15 0) (s.queue q).tS (1 <<< (s.queue q).sqLog) ≤ modDist ((s.queue q).hS + (1 <<< (s.queue q).sqLog) - 1) (s.queue q).tS (1 <<< (s.queue q).sqLog)) ∧
    (∃ (func : Nat) (q : Nat) (v : Word) (s : State), s.dbOpen func q = true ∧
      (((s.queue q).state = .enabled ∨ (s.queue q).state = .draining ∨ (s.queue q).state = .quiescing ∨ (s.queue q).state = .error)) ∧
      fld v.toNat 15 0 < 1 <<< (s.queue q).cqLog ∧
      modDist (fld v.toNat 15 0) (s.queue q).hC (1 <<< (s.queue q).cqLog) ≤ modDist (s.queue q).tC (s.queue q).hC (1 <<< (s.queue q).cqLog)) := by
  refine ⟨?_, ?_⟩
  · exact ⟨0, 0, 15, (zQueue .enabled), by decide +kernel⟩
  · exact ⟨0, 0, 3, ((zQueue .enabled).updQueue 0 (fun k => { k with tC := 3 })), by decide +kernel⟩

theorem witness_QueueConfiguration :
    (∃ (func : Nat) (q : Nat) (off : Nat) (bs : List Byte) (s : State) (st : Tab (Option Byte)),
      st = (((List.range bs.length).map (fun i => off + i)).zip bs).foldl (fun m (e : Nat × Byte) => if 0x100 ≤ e.1 ∧ e.1 < 0x180 then Tab.put (fun _ => none) (e.1 - 0x100) (some e.2) m else m) (s.queue q).staging ∧
      s.dbOpen func q = true ∧ (((s.queue q).state = .enabled ∨ (s.queue q).state = .draining)) ∧ s.qClass q = 0) ∧
    (∃ (func : Nat) (q : Nat) (s : State), s.dbOpen func q = true ∧ (((s.queue q).state = .enabled ∨ (s.queue q).state = .draining)) ∧ s.qClass q ≠ 0) ∧
    (∃ (func : Nat) (q : Nat) (v : Word) (s : State), s.dbReaches func q = true ∧ (s.queue q).state = .disabled ∧ s.ready = true ∧
      s.rgnEnabled (s.qRegion q) = true ∧ 4 ≤ fld v.toNat 7 4 ∧ 4 ≤ fld v.toNat 3 0) ∧
    (∃ (func : Nat) (q : Nat) (v : Word) (s : State), s.dbReaches func q = true ∧ (s.queue q).state = .disabled ∧
      ((s.ready = false ∨ s.rgnEnabled (s.qRegion q) = false ∨ fld v.toNat 7 4 < 4 ∨ fld v.toNat 3 0 < 4))) ∧
    (∃ (func : Nat) (q : Nat) (v : Word) (s : State) (u : State),
      u = (if fld v.toNat 7 4 = (s.queue q).sqLog ∧ fld v.toNat 3 0 = (s.queue q).cqLog then s else s.dbDrop q 7) ∧ s.dbReaches func q = true ∧
      (((s.queue q).state = .enabled ∨ (s.queue q).state = .draining ∨ (s.queue q).state = .error))) ∧
    (∃ (func : Nat) (q : Nat) (s : State), s.dbReaches func q = true ∧ (s.queue q).state = .disabled) ∧
    (∃ (p : Path) (q : Nat) (v : Word) (s : State) (u : State), u = s.turn p ∧ q < 1024 ∧
      (((u.queue q).state = .unassigned ∨ (u.queue q).state = .disabled)) ∧
      ((bit (v.toNat &&& 0x833F0F00) 31 = false ∨ fld (v.toNat &&& 0x833F0F00) 25 24 ≠ 0 ∨ (u.qAssigned q = true ∧ u.qClass q = 0) ∨ u.fastCount < 64))) ∧
    (∃ (p : Path) (q : Nat) (s : State) (u : State), u = s.turn p ∧ q < 1024 ∧ (u.queue q).state ≠ .unassigned ∧ (u.queue q).state ≠ .disabled) := by
  refine ⟨?_, ?_, ?_, ?_, ?_, ?_, ?_, ?_⟩
  · exact ⟨0, 0, 0x17F, [1, 2], (zQueue .enabled), _, rfl, by decide +kernel⟩
  · exact ⟨0, 0, ((zQueue .enabled).wr (qReg 0 Reg.QR_Q_OWNER) 0x81000000), by decide +kernel⟩
  · exact ⟨0, 0, 0x44, (zQueue .disabled), by decide +kernel⟩
  · exact ⟨0, 0, 0x43, (zQueue .disabled), by decide +kernel⟩
  · exact ⟨0, 0, 0, (zQueue .enabled), _, rfl, by decide +kernel⟩
  · exact ⟨0, 0, (zQueue .disabled), by decide +kernel⟩
  · exact ⟨.host, 0, 0, zState, _, rfl, by decide +kernel⟩
  · exact ⟨.host, 0, (zQueue .enabled), _, rfl, by decide +kernel⟩

theorem witness_FunctionResetsAndHostLink :
    (∃ (vf : Nat), 1 ≤ vf ∧ vf ≤ 63) ∧
    (∃ (func : Nat) (t0 : Nat) (s : State) (mine : List Job) (u : State) (v : State),
      mine = s.jobs.filter (fun j => (s.funcQueues func).contains j.queue) ∧ u = mine.foldl (fun s j => s.dropJob j.entry) s ∧
      v = (s.funcQueues func).foldl (fun s q => s.updQueue q (fun k => { k with state := .disabled, reserved := 0 })) u ∧
      Tab.get (fun _ => none) s.hif.flr func = some t0 ∧ mine.any (fun j => decide (j.phase ≠ .done) || s.jobBusy j.entry) = false) ∧
    (∃ (func : Nat) (t0 : Nat) (s : State), Tab.get (fun _ => none) s.hif.flr func = some t0 ∧ s.jobs = []) ∧
    (∃ (q : Nat) (s : State), (((s.queue q).state = .enabled ∨ (s.queue q).state = .draining))) ∧
    (∃ (j : Job) (s : State), s.job j.entry = some j ∧ j.phase ≠ .done) ∧
    (∃ (rate : Nat) (width : Nat), rate ≤ 6 ∧ width ≤ 16) := by
  refine ⟨?_, ?_, ?_, ?_, ?_, ?_⟩
  · exact ⟨63, by decide +kernel⟩
  · exact ⟨1, 5, { zState with hif := { zState.hif with flr := Tab.put (fun _ => none) 1 (some 5) zState.hif.flr } }, _, _, _, rfl, rfl, rfl, by decide +kernel⟩
  · exact ⟨1, 5, { zState with hif := { zState.hif with flr := Tab.put (fun _ => none) 1 (some 5) zState.hif.flr } }, by decide +kernel⟩
  · exact ⟨0, (zState).updQueue 0 (fun x => { x with state := .enabled }), by decide +kernel⟩
  · exact ⟨zJob, { zState with jobs := [zJob] }, by decide +kernel⟩
  · exact ⟨0, 0, by decide +kernel⟩

theorem witness_FetchAndTakeUp :
    (∃ (s : State) (u : State),
      u = (s.fetchOrder.filter (fun q => decide ((s.queue q).state = .enabled) || decide ((s.queue q).state = .draining))).foldl State.fetchQueue s ∧
      s.ready = true ∧ s.fatal = false ∧ s.pendingReset = false ∧ s.hif.ideBroken = false) ∧
    (∃ (f : Fetched) (fs : List Fetched) (e : Nat) (s : State), s.fatal = false ∧ s.pendingReset = false ∧ f.chain = [] ∧ s.freeEntry false = some e ∧
      popFetched 1 s.fetched = some (f, fs)) ∧
    (∃ (f : Fetched) (fs : List Fetched) (e : Nat) (s : State), s.fatal = false ∧ s.pendingReset = false ∧ f.chain = [] ∧ s.freeEntry false = some e ∧
      popFetched 2 s.fetched = some (f, fs)) ∧
    (∃ (f : Fetched) (fs : List Fetched) (e : Nat) (s : State), s.fatal = false ∧ s.pendingReset = false ∧ f.chain = [] ∧ s.freeEntry false = some e ∧
      popFetched 4 s.fetched = some (f, fs)) ∧
    (∃ (f : Fetched) (fs : List Fetched) (e : Nat) (s : State), s.fatal = false ∧ s.pendingReset = false ∧ f.chain = [] ∧ s.freeEntry false = some e ∧
      popFetched 5 s.fetched = some (f, fs)) ∧
    (∃ (f : Fetched) (fs : List Fetched) (c : List Byte) (cs : List (List Byte)) (s : State), s.fetched = f :: fs ∧ f.chain = c :: cs) ∧
    (∃ (j : Job) (s : State), s.job j.entry = some j ∧ j.kind = .arm ∧ j.phase = .running) ∧
    (∃ (j : Job) (e : Engine) (b : List Byte) (s : State) (u : State) (v : State),
      u = (if dPaySpace j.desc = spHost then s.backlogLess 128 else s).noteRead (some j.entry) (dPaySpace j.desc) (dPayAddr j.desc) 128 ∧
      v = u.updJob j.entry (fun j => { j with payload := b, tFirst := u.cmdTFirst (j.asCommand e b [] false), hostBytes := u.cmdHostBytes (j.asCommand e b [] false), allowance := allowance (blockResult e b).1 (blockResult e b).2, stop := stopTime j.deadline engineMargin (allowance (blockResult e b).1 (blockResult e b).2), phase := .waiting }) ∧
      s.job j.entry = some j ∧ j.phase = .payload ∧ j.kind = .engine e ∧
      u.readSpace j.region j.func (dPaySpace j.desc) (dPayAddr j.desc) 128 = some b ∧ u.takeUpDefect (j.asCommand e b [] false) = none) ∧
    (∃ (j : Job) (s : State) (u : State),
      u = (if dPaySpace j.desc = spHost then s.backlogLess 128 else s).noteRead (some j.entry) (dPaySpace j.desc) (dPayAddr j.desc) 128 ∧
      s.job j.entry = some j ∧ j.phase = .payload ∧ u.readSpace j.region j.func (dPaySpace j.desc) (dPayAddr j.desc) 128 = none) := by
  refine ⟨?_, ?_, ?_, ?_, ?_, ?_, ?_, ?_, ?_⟩
  · exact ⟨({ zState with hif := { zState.hif with ideBroken := false } }).wf Reg.BOOT_BOOT_STATE 0 0 1, _, rfl, by decide +kernel⟩
  · exact ⟨{ zFetched with head := [1] }, [], 0, { zState with fetched := [{ zFetched with head := [1] }] }, by decide +kernel⟩
  · exact ⟨{ zFetched with head := [2] }, [], 0, { zState with fetched := [{ zFetched with head := [2] }] }, by decide +kernel⟩
  · exact ⟨{ zFetched with head := [4] }, [], 0, { zState with fetched := [{ zFetched with head := [4] }] }, by decide +kernel⟩
  · exact ⟨{ zFetched with head := [5] }, [], 0, { zState with fetched := [{ zFetched with head := [5] }] }, by decide +kernel⟩
  · exact ⟨{ zFetched with chain := [] :: [] }, [], [], [], { zState with fetched := { zFetched with chain := [] :: [] } :: [] }, by decide +kernel⟩
  · exact ⟨{ zJob with kind := .arm, phase := .running }, { zState with jobs := [{ zJob with kind := .arm, phase := .running }] }, by decide +kernel⟩
  · exact ⟨zPayJob, .solver, zSolveBlock, zPaySt, _, _, rfl, rfl, by decide +kernel, by decide +kernel, by decide +kernel, by decide +kernel,
      (by show firstBad (State.svBlockChecks _ _ zSolveBlock) = none; unfold State.svBlockChecks; rw [zSolveBlock_crc]; decide +kernel)⟩
  · exact ⟨{ zJob with phase := .payload, desc := zBytes 128 [(0x04, [0x01]), (0x10, natLE 8 0xFFFFFFFFFFFFFF00)] },
      { zState with jobs := [{ zJob with phase := .payload, desc := zBytes 128 [(0x04, [0x01]), (0x10, natLE 8 0xFFFFFFFFFFFFFF00)] }] }, _, rfl,
      by decide +kernel⟩

theorem witness_GustLaneRecordsAndStarts :
    (∃ (j : Job) (c : Command) (s : State) (u : State),
      u = (((((s.updJob j.entry (fun j => { j with gust := true })).bump Reg.HOST_GUST_STARTS 1).event 0x0902 pgHost j.ev).event 0x0701 pgDispatch j.ev).reserve j.entry).startJob j.entry ∧
      s.job j.entry = some j ∧ j.phase = .lane ∧ j.kind = .fire ∧ s.laneDue j = true ∧ s.laneReady j = true ∧ s.laneFeasible j = true ∧
      s.fits j = true ∧ s.laneOpen j = true ∧ u.cmds.getLast? = some c) ∧
    (∃ (j : Job) (s : State), s.job j.entry = some j ∧ j.phase = .lane ∧ j.kind = .fire ∧ s.laneDue j = true ∧ s.laneReady j = true ∧
      s.laneFeasible j = false) ∧
    (∃ (j : Job) (s : State), s.job j.entry = some j ∧ j.phase = .lane ∧ j.kind = .fire ∧ s.laneDue j = true ∧ s.laneFeasible j = true ∧
      ((s.laneReady j = false ∨ s.fits j = false ∨ s.laneOpen j = false))) ∧
    (∃ (j : Job) (s : State), s.job j.entry = some j ∧ j.phase = .done ∧ s.jobBusy j.entry = false ∧ s.hif.held = [] ∧ (s.queue j.queue).state ≠ .flr ∧
      s.hif.noRecords = false ∧ s.hif.ideBroken = false) ∧
    (∃ (j : Job) (s : State), s.job j.entry = some j ∧ j.phase = .done ∧ s.jobBusy j.entry = false ∧ s.hif.held = [] ∧ (s.queue j.queue).state ≠ .flr ∧
      s.hif.noRecords = false) ∧
    (∃ (j : Job) (s : State), s.hif.ideBroken = false ∧ s.job j.entry = some j ∧ s.hif.held = [j.entry]) ∧
    (∃ (s : State), s.hif.ideBroken = false ∧ s.hif.held = []) ∧
    (∃ (s : State), s.gov.startAsked = true ∧ s.mayStart = true ∧ s.boot.commit = none) ∧
    (∃ (s : State), ((s.gov.startAsked = false ∨ s.mayStart = false)) ∧ s.boot.commit = none) ∧
    (∃ (s : State) (j : Job) (ws : List Job) (u : State), u = s.waitingJobs.foldl State.admitJob s ∧ u.waitingJobs = j :: ws ∧ u.resourceTest j = true ∧
      u.fenced j.region = false ∧ ((u.gov.therm = .alert → j.cls < 2)) ∧ u.fits j = true ∧ u.jobFeasible j = true) ∧
    (∃ (j : Job) (s : State), s.job j.entry = some j ∧ j.phase = .waiting ∧ s.jobFeasible j = false) := by
  refine ⟨?_, ?_, ?_, ?_, ?_, ?_, ?_, ?_, ?_, ?_, ?_⟩
  · exact ⟨zLaneJob,
      (zDef _ (((((((zLaneSt.updJob zLaneJob.entry (fun zLaneJob => { zLaneJob with gust := true })).bump Reg.HOST_GUST_STARTS 1).event 0x0902 pgHost zLaneJob.ev).event 0x0701 pgDispatch zLaneJob.ev).reserve zLaneJob.entry).startJob zLaneJob.entry).cmds.getLast?) (by decide +kernel)),
      zLaneSt, _, rfl, by decide +kernel, by decide +kernel, by decide +kernel, by decide +kernel, by decide +kernel, by decide +kernel,
      by decide +kernel, by decide +kernel, (Option.some_get _).symm⟩
  · exact ⟨{ zJob with kind := .fire, phase := .lane, payload := zRunBlock 2 [], deadline := 0, kiln := builtInKiln, slot := 0 },
      { zLoaded with jobs := [{ zJob with kind := .fire, phase := .lane, payload := zRunBlock 2 [], deadline := 0, kiln := builtInKiln, slot := 0 }] },
      by decide +kernel⟩
  · exact ⟨{ zJob with kind := .fire, phase := .lane, payload := zRunBlock 2 [], deadline := allOnes64, kiln := builtInKiln, slot := 0 },
      { zFull with jobs := [{ zJob with kind := .fire, phase := .lane, payload := zRunBlock 2 [], deadline := allOnes64, kiln := builtInKiln, slot := 0 }] },
      by decide +kernel⟩
  · exact ⟨{ zJob with phase := .done },
      { zState with jobs := [{ zJob with phase := .done }], hif := { zState.hif with held := [], noRecords := false, ideBroken := false } },
      by decide +kernel⟩
  · exact ⟨{ zJob with phase := .done }, { zState with jobs := [{ zJob with phase := .done }], hif := { zState.hif with held := [], noRecords := false } },
      by decide +kernel⟩
  · exact ⟨zJob, { zState with hif := { zState.hif with ideBroken := false, held := [zJob.entry] }, jobs := [zJob] }, by decide +kernel⟩
  · exact ⟨{ zState with hif := { zState.hif with ideBroken := false, held := [] } }, by decide +kernel⟩
  · exact ⟨{ zReady with gov := { zReady.gov with startAsked := true } }, by decide +kernel⟩
  · exact ⟨{ zState with boot := { zState.boot with commit := none } }, by decide +kernel⟩
  · exact ⟨{ zLoaded with jobs := [{ zJob with phase := .waiting, deadline := allOnes64 }] }, { zJob with phase := .waiting, deadline := allOnes64 }, [], _,
      rfl, by decide +kernel⟩
  · exact ⟨{ zJob with phase := .waiting }, { zState with jobs := [{ zJob with phase := .waiting }] }, by decide +kernel⟩

theorem witness_DispatcherCommands :
    (∃ (p : Path) (v : Word) (s : State) (u : State), u = s.turn p ∧ (fld v.toNat 31 28 = 0 ∨ 5 < fld v.toNat 31 28)) ∧
    (∃ (c : WinCmd) (s : State), s.hif.winNext = [c] ∧ c.op ≠ 3) ∧
    (∃ (c : WinCmd) (s : State), s.hif.winNext = [c] ∧ c.op = 3) ∧
    (∃ (c : WinCmd) (m : WinCmd) (s : State), s.hif.winNext = [c, m] ∧ c.manager = false ∧ m.manager = true ∧ c.queue = m.queue ∧ c.op = 4 ∧ m.op = 5) ∧
    (∃ (c : WinCmd) (s : State), s.hif.winNow = [c]) ∧
    (∃ (c : WinCmd) (s : State), (c.op = 1 ∨ c.op = 2) ∧ (s.queue c.queue).state ≠ .unassigned ∧ s.jobs.filter c.cancels ≠ []) ∧
    (∃ (c : WinCmd) (s : State), (c.op = 1 ∨ c.op = 2) ∧ (s.queue c.queue).state ≠ .unassigned ∧ s.jobs.filter c.cancels = []) ∧
    (∃ (c : WinCmd) (s : State), c.op = 3 ∧ (s.queue c.queue).state ≠ .unassigned ∧ countWhere c.boosts s.jobs ≠ 0) ∧
    (∃ (c : WinCmd) (s : State), c.op = 4 ∧ (s.queue c.queue).state = .enabled) ∧
    (∃ (c : WinCmd) (s : State), c.op = 4 ∧ (s.queue c.queue).state ≠ .enabled) ∧
    (∃ (c : WinCmd) (s : State), c.op = 5 ∧ (s.queue c.queue).state = .draining) ∧
    (∃ (c : WinCmd) (s : State), c.op = 5 ∧ (s.queue c.queue).state ≠ .draining) ∧
    (∃ (c : WinCmd), (c.op = 0 ∨ 5 < c.op)) ∧
    (∃ (p : Path) (q : Nat) (s : State) (u : State), u = s.turn p ∧ q < 1024) := by
  refine ⟨?_, ?_, ?_, ?_, ?_, ?_, ?_, ?_, ?_, ?_, ?_, ?_, ?_, ?_⟩
  · exact ⟨.host, 0, zState, _, rfl, by decide +kernel⟩
  · exact ⟨zWinCmd, { zState with hif := { zState.hif with winNext := [zWinCmd] } }, by decide +kernel⟩
  · exact ⟨{ zWinCmd with op := 3 }, { zState with hif := { zState.hif with winNext := [{ zWinCmd with op := 3 }] } }, by decide +kernel⟩
  · exact ⟨{ zWinCmd with manager := false, queue := { zWinCmd with manager := true, op := 5 }.queue, op := 4 }, { zWinCmd with manager := true, op := 5 },
      { zState with hif := { zState.hif with winNext := [{ zWinCmd with manager := false, queue := { zWinCmd with manager := true, op := 5 }.queue, op := 4 }, { zWinCmd with manager := true, op := 5 }] } },
      by decide +kernel⟩
  · exact ⟨zWinCmd, { zState with hif := { zState.hif with winNow := [zWinCmd] } }, by decide +kernel⟩
  · exact ⟨{ zWinCmd with op := 1 }, { zFull with jobs := [{ zJob with phase := .waiting }] }, by decide +kernel⟩
  · exact ⟨{ zWinCmd with op := 1 }, zFull, by decide +kernel⟩
  · exact ⟨{ zWinCmd with op := 3 }, { zFull with jobs := [{ zJob with phase := .waiting }] }, by decide +kernel⟩
  · exact ⟨{ zWinCmd with op := 4 }, (zState).updQueue { zWinCmd with op := 4 }.queue (fun x => { x with state := .enabled }), by decide +kernel⟩
  · exact ⟨{ zWinCmd with op := 4 }, zState, by decide +kernel⟩
  · exact ⟨{ zWinCmd with op := 5 }, (zState).updQueue { zWinCmd with op := 5 }.queue (fun x => { x with state := .draining }), by decide +kernel⟩
  · exact ⟨{ zWinCmd with op := 5 }, zState, by decide +kernel⟩
  · exact ⟨zWinCmd, by decide +kernel⟩
  · exact ⟨.host, 0, zState, _, rfl, by decide +kernel⟩

theorem witness_StopsAndEngineQueues :
    (∃ (c : Command) (s : State), s.cmd c.id = some c ∧ c.stop ≠ allOnes64 ∧ c.stop ≤ s.time ∧ c.phase = .running) ∧
    (∃ (j : Job) (s : State), s.job j.entry = some j ∧ j.stop ≠ allOnes64 ∧ j.stop ≤ s.time ∧ j.phase = .running) ∧
    (∃ (k : Nat) (s : State), k < 8 ∧ (s.core k).job.isSome = true ∧ (s.core k).ending = none ∧ (s.core k).haltTime ≠ allOnes64 ∧
      (s.core k).haltTime ≤ s.time) ∧
    (∃ (j : Job) (c : Nat) (s : State), s.job j.entry = some j ∧ j.ceiling = some c ∧ j.phase = .running ∧ c * 1000000 ≤ j.energy ∧ j.stopping = none ∧
      s.stops = []) ∧
    (∃ (a : StopAsk) (s : State), s.stops = [a]) ∧
    (∃ (c : Command) (s : State), s.cmd c.id = some c ∧ c.engine ≠ .tun ∧ c.phase = .issued ∧ c.block ≠ [] ∧
      ((∀ x ∈ s.cmds, x.engine = c.engine → x.phase = .issued → x.block ≠ [] → x.id = c.id ∨ c.issued < x.issued ∨ (c.issued = x.issued ∧ c.issueRank < x.issueRank))) ∧
      countWhere (fun (x : Command) => decide (x.engine = c.engine) && decide (x.phase = .queued)) s.cmds < 16) ∧
    (∃ (c : Command) (e : CmdEnd) (e' : CmdEnd) (j : Job) (en : Engine) (s : State) (u : State) (v : State), v = u.releaseEngine c ∧ s.cmd c.id = some c ∧
      c.phase = .ended ∧ c.ending = some e ∧ s.repairing c = false ∧ c.core = none ∧ s.showResult c e = (u, e') ∧
      { v with cmds := v.cmds.filter (fun (x : Command) => x.id != c.id) }.job c.job = some j ∧ j.kind = .engine en) := by
  refine ⟨?_, ?_, ?_, ?_, ?_, ?_, ?_⟩
  · exact ⟨{ zCommand with phase := .running }, { zState with cmds := [{ zCommand with phase := .running }] }, by decide +kernel⟩
  · exact ⟨{ zJob with phase := .running }, { zState with jobs := [{ zJob with phase := .running }] }, by decide +kernel⟩
  · exact ⟨7, zState.updCore 7 (fun y0 => { y0 with job := some 0, haltTime := 1000000000000 }), by decide +kernel⟩
  · exact ⟨{ zJob with ceiling := some 0, phase := .running, stopping := none }, 0,
      { zState with jobs := [{ zJob with ceiling := some 0, phase := .running, stopping := none }], stops := [] }, by decide +kernel⟩
  · exact ⟨zStopAsk, { zState with stops := [zStopAsk] }, by decide +kernel⟩
  · exact ⟨{ zCommand with phase := .issued, engine := .solver, block := [0] },
      { zState with cmds := [{ zCommand with phase := .issued, engine := .solver, block := [0] }] }, by decide +kernel⟩
  · exact ⟨{ zCommand with id := 3, engine := .solver, phase := .ended, ending := some { status := 0, valid := true, reason := 0, stopCause := 0, writes := [] } },
      { status := 0, valid := true, reason := 0, stopCause := 0, writes := [] },
      { status := 0, valid := true, reason := 0, stopCause := 0, writes := [] }, { zJob with kind := .engine .solver }, .solver,
      { zState with cmds := [{ zCommand with id := 3, engine := .solver, phase := .ended, ending := some { status := 0, valid := true, reason := 0, stopCause := 0, writes := [] } }], jobs := [{ zJob with kind := .engine .solver }] },
      ({ zState with cmds := [{ zCommand with id := 3, engine := .solver, phase := .ended, ending := some { status := 0, valid := true, reason := 0, stopCause := 0, writes := [] } }], jobs := [{ zJob with kind := .engine .solver }] }.showResult { zCommand with id := 3, engine := .solver, phase := .ended, ending := some { status := 0, valid := true, reason := 0, stopCause := 0, writes := [] } } { status := 0, valid := true, reason := 0, stopCause := 0, writes := [] }).1,
      _, rfl, by decide +kernel, by decide +kernel, by decide +kernel, by decide +kernel, by decide +kernel, zPair (by decide +kernel),
      by decide +kernel, by decide +kernel⟩

theorem witness_AnnealCommandsBeginAndLoad :
    (∃ (c : Command) (kiln : List Byte) (s : State), s.issuedTun c.id = some c ∧ (rbTuns c.block).any (fun t => (s.tunSt t).loading) = false ∧
      s.annealSteps c = .ok kiln ∧ (rbTuns c.block).any (fun t => (s.tunSt t).gw.isSome) = false) ∧
    (∃ (c : Command) (h : List Byte) (s : State) (g : Grist) (u : State) (v : State), g = parseGrist c.id c.block h ∧
      u = s.noteRead (some c.job) (rbGristSpace c.block) (rbGrist c.block) 128 ∧
      v = (rbTuns c.block).foldl (fun s t => s.updTun t (fun x => { x with loading := true })) { u with tun := { u.tun with grists := u.tun.grists ++ [g] } } ∧
      s.readSpace c.region c.func (rbGristSpace c.block) (rbGrist c.block) 128 = some h ∧ firstBad (s.headerChecks c.region c.block h) = none ∧
      firstBad (s.gristDependent c.region c.block g) = none ∧ rbKind c.block = 0 ∧ s.anyAsleep (rbTuns c.block) = false ∧
      rbGristSpace c.block ≠ spHost) ∧
    (∃ (c : Command) (kiln : List Byte) (g : Grist) (x : List Nat × Nat × Bool) (s : State) (u : State), s.anyAsleep (rbTuns c.block) = false ∧
      s.rectGrist c.block = some g ∧ (s.noteKiln c kiln).statesAndSeed c g = (u, .ok x)) ∧
    (∃ (c : Command) (kiln : List Byte) (g : Grist) (s : State) (u : State), s.anyAsleep (rbTuns c.block) = false ∧ s.rectGrist c.block = some g ∧
      (s.noteKiln c kiln).statesAndSeed c g = (u, .error drawWait)) ∧
    (∃ (id : Nat) (s : State), s.tun.draws = [id]) ∧
    (∃ (c : Command) (s : State) (u : State) (seed : Option Nat), s.cmd c.id = some c ∧ c.engine = .tun ∧ s.run c.id = none ∧ c.phase = .issued ∧
      s.drawSeed = (u, seed)) ∧
    (∃ (c : Command) (e : Bad × RunHead) (s : State), s.issuedTun c.id = some c ∧ s.annealSteps c = .error e ∧
      (((firstBad (s.blockChecks c.region c.block)).isSome = true ∨ (rbTuns c.block).any (fun t => (s.tunSt t).loading) = false))) ∧
    (∃ (c : Command) (g : Grist) (body : List Byte) (s : State) (u : State) (g' : Grist),
      u = (s.noteRead (some c.job) (rbGristSpace c.block) (rbGrist c.block + 128) g.bodyBytes).arrived c.id ∧ g' = { g with body := body.toArray } ∧
      s.cmd c.id = some c ∧ s.grist c.id = some g ∧ c.engine = .tun ∧ c.phase = .running ∧ s.run c.id = none ∧ rbOp c.block ≠ 2 ∧
      u.readSpace c.region c.func (rbGristSpace c.block) (rbGrist c.block + 128) g.bodyBytes = some body) := by
  refine ⟨?_, ?_, ?_, ?_, ?_, ?_, ?_, ?_⟩
  · exact ⟨zGoodCmd, [], zGoodSt, by decide +kernel, by decide +kernel, zGood_steps, by decide +kernel⟩
  · exact ⟨{ zCmdT with block := zLoadBlock }, zHeader, zLoadSt, _, _, _, rfl, rfl, rfl, by decide +kernel,
      (by show firstBad (State.headerChecks _ _ _ zHeader) = none; unfold State.headerChecks; rw [zHeader_crc]; decide +kernel), by decide +kernel,
      by decide +kernel, by decide +kernel, by decide +kernel⟩
  · exact ⟨{ zCmdT with block := zRunBlock 2 [(7, [0x11]), (0x38, [9])] }, [], zDense1,
      (((((zRunSt zRunD zDense1 { zCmdT with block := zRunBlock 2 [(7, [0x11]), (0x38, [9])] }))).noteKiln ({ zCmdT with block := zRunBlock 2 [(7, [0x11]), (0x38, [9])] }) []).statesAndSeed ({ zCmdT with block := zRunBlock 2 [(7, [0x11]), (0x38, [9])] }) (zDense1)).2.toOption.getD ([], 0, false),
      (zRunSt zRunD zDense1 { zCmdT with block := zRunBlock 2 [(7, [0x11]), (0x38, [9])] }),
      ((((zRunSt zRunD zDense1 { zCmdT with block := zRunBlock 2 [(7, [0x11]), (0x38, [9])] })).noteKiln { zCmdT with block := zRunBlock 2 [(7, [0x11]), (0x38, [9])] } []).statesAndSeed { zCmdT with block := zRunBlock 2 [(7, [0x11]), (0x38, [9])] } zDense1).1,
      by decide +kernel, by decide +kernel, zPair (by decide +kernel)⟩
  · exact ⟨{ zCmdT with block := zRunBlock 2 [(7, [0x10])] }, [], zDense1, (zRunSt zRunD zDense1 { zCmdT with block := zRunBlock 2 [(7, [0x10])] }),
      (((zRunSt zRunD zDense1 { zCmdT with block := zRunBlock 2 [(7, [0x10])] }).noteKiln { zCmdT with block := zRunBlock 2 [(7, [0x10])] } []).statesAndSeed { zCmdT with block := zRunBlock 2 [(7, [0x10])] } zDense1).1,
      by decide +kernel, by decide +kernel, zPair (by decide +kernel)⟩
  · exact ⟨0, { zState with tun := { zState.tun with draws := [0] } }, by decide +kernel⟩
  · exact ⟨{ zCommand with engine := .tun, phase := .issued }, { zState with cmds := [{ zCommand with engine := .tun, phase := .issued }] },
      ({ zState with cmds := [{ zCommand with engine := .tun, phase := .issued }] }.drawSeed).1,
      ({ zState with cmds := [{ zCommand with engine := .tun, phase := .issued }] }.drawSeed).2, by decide +kernel, by decide +kernel,
      by decide +kernel, by decide +kernel, rfl⟩
  · exact ⟨{ zCmdT with phase := .issued, block := [0] },
      (zErrOf (({ zLoaded with cmds := [{ zCmdT with phase := .issued, block := [0] }] }).annealSteps ({ zCmdT with phase := .issued, block := [0] })) (badRun 1, {})),
      { zLoaded with cmds := [{ zCmdT with phase := .issued, block := [0] }] }, by decide +kernel, zErr _ _ (by decide +kernel), by decide +kernel⟩
  · exact ⟨{ zCommand with engine := .tun, phase := .running }, { zGrist with id := { zCommand with engine := .tun, phase := .running }.id },
      (zDef _ ((({ zState with cmds := [{ zCommand with engine := .tun, phase := .running }], tun := { zState.tun with grists := [{ zGrist with id := { zCommand with engine := .tun, phase := .running }.id }] } }.noteRead (some { zCommand with engine := .tun, phase := .running }.job) (rbGristSpace { zCommand with engine := .tun, phase := .running }.block) (rbGrist { zCommand with engine := .tun, phase := .running }.block + 128) { zGrist with id := { zCommand with engine := .tun, phase := .running }.id }.bodyBytes).arrived { zCommand with engine := .tun, phase := .running }.id).readSpace { zCommand with engine := .tun, phase := .running }.region { zCommand with engine := .tun, phase := .running }.func (rbGristSpace { zCommand with engine := .tun, phase := .running }.block) (rbGrist { zCommand with engine := .tun, phase := .running }.block + 128) { zGrist with id := { zCommand with engine := .tun, phase := .running }.id }.bodyBytes) (by decide +kernel)),
      { zState with cmds := [{ zCommand with engine := .tun, phase := .running }], tun := { zState.tun with grists := [{ zGrist with id := { zCommand with engine := .tun, phase := .running }.id }] } },
      _, _, rfl, rfl, by decide +kernel, by decide +kernel, by decide +kernel, by decide +kernel, by decide +kernel, by decide +kernel,
      (Option.some_get _).symm⟩

theorem witness_SweepSteps :
    (∃ (r : Run) (g : Grist) (tun : Nat) (s : State) (m : Nat) (ph : Nat) (u : State) (fs : List (Nat × Nat × Int)) (r' : Run) (v : State) (w : State),
      m = r.numberOf tun ∧ ph = r.phaseOf m ∧ u = s.tunReads tun ∧ fs = r.latticeDecisions g m ph ∧
      r' = { r.applyFlips fs with phases := Tab.put (fun _ => 0) m (ph + 1) (r.applyFlips fs).phases, atGap := false } ∧
      v = (u.updRun r.cmd (fun _ => r')).countDecisions r' tun (r'.nr * g.wl * 16384) fs.length ∧
      w = (if fs = [] then v else v.tunStores tun (fun x n => { x with ssMark := n })) ∧ s.run r.cmd = some r ∧ s.grist r.load = some g ∧
      r.phase = .sweeping ∧ g.mode = 1 ∧ r.tuns.contains tun = true ∧
      ((ph = 0 ∨ (ph = 1 ∧ (phaseNeeds g m).all (fun x => decide (1 ≤ r.phaseOf x)) = true))) ∧ r.boundaryDue g = none ∧ r.rdvDue g = none ∧
      r.span = none ∧ u.run r.cmd = some r) ∧
    (∃ (r : Run) (q : Run) (sp : Span) (sq : Span) (g : Grist) (tun : Nat) (s : State) (h : State) (m : Nat) (u : State) (fs : List (Nat × Nat × Int)) (r' : Run) (v : State) (w : State),
      m = r.numberOf tun ∧ u = h.tunReads tun ∧ fs = q.latticeDecisions g m 0 ∧
      r' = { q.applyFlips fs with phases := Tab.put (fun _ => 0) m 1 (q.applyFlips fs).phases, atGap := false } ∧
      v = (u.updRun r.cmd (fun _ => r')).countDecisions r' tun (r'.nr * g.wl * 16384) fs.length ∧
      w = (if fs = [] then v else v.tunStores tun (fun x n => { x with ssMark := n })) ∧ s.run r.cmd = some r ∧ s.grist r.load = some g ∧
      r.phase = .sweeping ∧ g.mode = 1 ∧ r.tuns.contains tun = true ∧ r.phaseOf m = 0 ∧ r.rdvDue g = none ∧ r.span = some sp ∧
      (List.range r.count).all (fun x => decide (r.phaseOf x ≤ 0)) = true ∧ s.haloStart r sp 0 = (h, true) ∧ u.run r.cmd = some q ∧
      q.phase = .sweeping ∧ q.span = some sq) ∧
    (∃ (r : Run) (sp : Span) (g : Grist) (tun : Nat) (s : State) (h : State) (m : Nat), m = r.numberOf tun ∧ s.run r.cmd = some r ∧
      s.grist r.load = some g ∧ r.phase = .sweeping ∧ g.mode = 1 ∧ r.tuns.contains tun = true ∧ r.phaseOf m = 0 ∧ r.rdvDue g = none ∧
      r.span = some sp ∧ (List.range r.count).all (fun x => decide (r.phaseOf x ≤ 0)) = true ∧ s.haloStart r sp 0 = (h, false)) ∧
    (∃ (r : Run) (g : Grist) (c : Command) (tun : Nat) (k : Nat) (cl : Nat) (s : State) (m : Nat) (fs : List (Nat × Nat × Int)), m = r.numberOf tun ∧
      fs = (r.members g m cl).filterMap (fun l => (r.verdict k (r.spinIdx l) (r.bitOf k (r.spinIdx l)) (r.denseField g m k l)).map (fun dE => (l, r.spinIdx l, dE))) ∧
      s.run r.cmd = some r ∧ s.grist r.load = some g ∧ s.runCmd r = some c ∧ r.phase = .sweeping ∧ g.mode ≠ 1 ∧ r.tuns.contains tun = true ∧
      k < r.nr ∧ (r.tunClasses g m)[r.stepsOf m k]? = some cl ∧ r.boundaryDue g = none ∧ r.classReady g m k cl = true ∧ (s.tunSt tun).csMark < 2 ∧
      (s.tunSt tun).ssMark < 2) ∧
    (∃ (r : Run) (p : PendMark) (i : Nat) (dst : Nat) (src : Nat) (s : State), s.run r.cmd = some r ∧
      findIdx (fun (p : PendMark) => p.dst == r.numberOf dst && p.src == r.numberOf src && p.arrived) r.pendMarks = some i ∧ r.pendMarks[i]? = some p) ∧
    (∃ (r : Run) (g : Grist) (tun : Nat) (s : State) (m : Nat) (x : List PendFlip × Option (PendFlip × Nat)) (rest : List PendFlip) (u : State),
      m = r.numberOf tun ∧ x = r.flipCycle g m ∧ rest = r.pendFlips.filter (fun f => !x.1.contains f) ∧
      u = s.updRun r.cmd (fun _ => { r with pendFlips := rest, applying := Tab.put (fun _ => none) m x.2 r.applying }) ∧ s.run r.cmd = some r ∧
      s.grist r.load = some g ∧ r.phase = .sweeping ∧ r.tuns.contains tun = true) ∧
    (∃ (r : Run) (c : Command) (g : Grist) (s : State) (u : State), u = r.tuns.foldl State.tunReads s ∧ s.run r.cmd = some r ∧ s.runCmd r = some c ∧
      s.grist r.load = some g ∧ r.span = none ∧ r.boundaryDue g = some 0 ∧ s.markedTun r = none ∧
      ((g.mode ≠ 3 ∨ (u.arraysFaulty g = false ∧ u.arraysOutside c.region g = false)))) ∧
    (∃ (r : Run) (c : Command) (g : Grist) (k : Nat) (s : State) (u : State), u = r.tuns.foldl State.tunReads s ∧ s.run r.cmd = some r ∧
      s.runCmd r = some c ∧ s.grist r.load = some g ∧ r.span = none ∧ r.boundaryDue g = some (k + 1) ∧ s.markedTun r = none) ∧
    (∃ (r : Run) (sp : Span) (c : Command) (g : Grist) (s : State), s.run r.cmd = some r ∧ s.runCmd r = some c ∧ s.grist r.load = some g ∧
      r.span = some sp ∧ sp.kind ≠ 2 ∧ r.visit = none ∧ r.boundaryDue g = some 0 ∧ s.markedTun r = none ∧ s.arraysFaulty g = false ∧
      s.arraysOutside c.region g = false) ∧
    (∃ (r : Run) (sp : Span) (c : Command) (g : Grist) (v : Visit) (k : Nat) (s : State), s.run r.cmd = some r ∧ s.runCmd r = some c ∧
      s.grist r.load = some g ∧ r.span = some sp ∧ sp.kind ≠ 2 ∧ r.visit = some v ∧ r.boundaryDue g = some k ∧ s.markedTun r = none) ∧
    (∃ (r : Run) (c : Command) (g : Grist) (v : Visit) (s : State) (u : State) (w : State), u = s.countSerial r c g (s.nextVisit r).2 ∧
      w = (if r.visit.any (fun x => x.staged) then u else u.noteRows c g v.spins) ∧ s.run r.cmd = some r ∧ s.runCmd r = some c ∧
      s.grist r.load = some g ∧ r.phase = .switching ∧ s.buildVisit c.region g r (s.nextVisit r).1 (s.nextVisit r).2 (s.storedStates r g.n) = .ok v) ∧
    (∃ (r : Run) (c : Command) (g : Grist) (b : Bad) (s : State), s.run r.cmd = some r ∧ s.runCmd r = some c ∧ s.grist r.load = some g ∧
      r.phase = .switching ∧ s.buildVisit c.region g r (s.nextVisit r).1 (s.nextVisit r).2 (s.storedStates r g.n) = .error b) ∧
    (∃ (r : Run) (c : Command) (g : Grist) (v : Visit) (s : State), s.run r.cmd = some r ∧ s.runCmd r = some c ∧ s.grist r.load = some g ∧
      r.visit = some v ∧ r.phase = .sweeping ∧ r.span = none ∧ v.staged = false ∧
      s.stagingFits c.region g r v ((v.number + 1) % Nat.max (s.nWindows r) 1) = true) := by
  refine ⟨?_, ?_, ?_, ?_, ?_, ?_, ?_, ?_, ?_, ?_, ?_, ?_, ?_⟩
  · exact ⟨zRunD, zLattice, 0, (zRunSt zRunD zLattice zCmdT), _, _, _, _, _, _, _, rfl, rfl, rfl, rfl, rfl, rfl, rfl, by decide +kernel⟩
  · exact ⟨{ zRunD with span := some zSpan }, { zRunD with span := some zSpan }, zSpan, zSpan, zLattice, 0,
      (zRunSt { zRunD with span := some zSpan } zLattice zCmdT),
      ((zRunSt { zRunD with span := some zSpan } zLattice zCmdT).haloStart { zRunD with span := some zSpan } zSpan 0).1, _, _, _, _, _, _, rfl, rfl,
      rfl, rfl, rfl, rfl, by decide +kernel, by decide +kernel, by decide +kernel, by decide +kernel, by decide +kernel, by decide +kernel,
      by decide +kernel, by decide +kernel, by decide +kernel, zPair (by decide +kernel), by decide +kernel, by decide +kernel, by decide +kernel⟩
  · exact ⟨{ zRunD with span := some { zSpan with partners := [{ zPartner with dir := 1 }] } }, { zSpan with partners := [{ zPartner with dir := 1 }] },
      zLattice, 0, (zRunSt { zRunD with span := some { zSpan with partners := [{ zPartner with dir := 1 }] } } zLattice zCmdT),
      ((zRunSt { zRunD with span := some { zSpan with partners := [{ zPartner with dir := 1 }] } } zLattice zCmdT).haloStart { zRunD with span := some { zSpan with partners := [{ zPartner with dir := 1 }] } } { zSpan with partners := [{ zPartner with dir := 1 }] } 0).1,
      _, rfl, by decide +kernel, by decide +kernel, by decide +kernel, by decide +kernel, by decide +kernel, by decide +kernel, by decide +kernel,
      by decide +kernel, by decide +kernel, zPair (by decide +kernel)⟩
  · exact ⟨zRunD, zDense1, zCmdT, 0, 0, 0, (zRunSt zRunD zDense1 zCmdT), _, _, rfl, rfl, by decide +kernel⟩
  · exact ⟨{ zRunD with pendMarks := [{ zPendMark with arrived := true }] }, { zPendMark with arrived := true }, 0, 0, 0,
      (zRunSt { zRunD with pendMarks := [{ zPendMark with arrived := true }] } zDense1 zCmdT), by decide +kernel⟩
  · exact ⟨{ zRun with phase := .sweeping }, { zGrist with id := { zRun with phase := .sweeping }.load }, 0,
      { zState with tun := { zState.tun with runs := [{ zRun with phase := .sweeping }], grists := [{ zGrist with id := { zRun with phase := .sweeping }.load }] } },
      _, _, _, _, rfl, rfl, rfl, rfl, by decide +kernel⟩
  · exact ⟨{ zRunD with lastEnergies := [] }, zCmdT, zDense1, (zRunSt { zRunD with lastEnergies := [] } zDense1 zCmdT), _, rfl, by decide +kernel⟩
  · exact ⟨{ zRunD with phases := [(0, 2)] }, zCmdT, zLattice, 0, (zRunSt { zRunD with phases := [(0, 2)] } zLattice zCmdT), _, rfl, by decide +kernel⟩
  · exact ⟨{ zRunD with lastEnergies := [], span := some { zSpan with kind := 3 } }, { zSpan with kind := 3 }, zCmdT, zDense1,
      (zRunSt { zRunD with lastEnergies := [], span := some { zSpan with kind := 3 } } zDense1 zCmdT), by decide +kernel⟩
  · exact ⟨{ zRunD with phases := [(0, 2)], span := some { zSpan with kind := 3 }, visit := some zVisit }, { zSpan with kind := 3 }, zCmdT, zLattice, zVisit, 1,
      (zRunSt { zRunD with phases := [(0, 2)], span := some { zSpan with kind := 3 }, visit := some zVisit } zLattice zCmdT), by decide +kernel⟩
  · exact ⟨zWinRun, zCmdT, zWinGrist,
      ((zWinSt.buildVisit zCmdT.region zWinGrist zWinRun (zWinSt.nextVisit zWinRun).1 (zWinSt.nextVisit zWinRun).2 (zWinSt.storedStates zWinRun zWinGrist.n)).toOption.getD zVisit),
      zWinSt, _, _, rfl, rfl, by decide +kernel, by decide +kernel, by decide +kernel, by decide +kernel, zOk _ _ (by decide +kernel)⟩
  · exact ⟨{ zRunD with phase := .switching }, zCmdT, zDense1, badExt 9, (zRunSt { zRunD with phase := .switching } zDense1 zCmdT), by decide +kernel⟩
  · exact ⟨{ zRunD with visit := some zVisit }, zCmdT, zDense1, zVisit, (zRunSt { zRunD with visit := some zVisit } zDense1 zCmdT), by decide +kernel⟩

theorem witness_PhiloxGoWritesItsOutput :
    (∃ (p : Path) (tun : Nat) (v : Word) (s : State) (u : State), u = s.turn p ∧ tun < 128 ∧ bit v.toNat 0 = true) ∧
    (∃ (v : Word), bit v.toNat 0 = false) := by
  refine ⟨?_, ?_⟩
  · exact ⟨.host, 0, 1, zState, _, rfl, by decide +kernel⟩
  · exact ⟨0, by decide +kernel⟩

theorem witness_JoiningAndHalos :
    (∃ (kind : Nat) (m : RunMsg) (s : State) (u : State) (r : Run) (sp : Span) (c : Command) (g : Grist), s.takeMsg kind = some (m, u) ∧
      u.linkRun m.link = some (r, sp) ∧ u.runCmd r = some c ∧ u.grist r.load = some g) ∧
    (∃ (m : RunMsg) (s : State) (u : State) (r : Run) (sp : Span) (c : Command) (g : Grist), s.Delivers 1 m u r sp c g ∧ r.phase = .joining ∧
      sp.chip = 0 ∧ m.tag = 0 ∧ m.src ≠ 0 ∧ m.src < sp.cx * sp.cy ∧ m.payload.take 50 = joinPayload r g ∧ sp.joined.contains m.src = false) ∧
    (∃ (m : RunMsg) (s : State) (u : State) (r : Run) (sp : Span) (c : Command) (g : Grist), s.Delivers 1 m u r sp c g ∧ r.phase = .joining ∧
      sp.chip = 0 ∧ m.tag = 0 ∧ m.src ≠ 0 ∧ m.src < sp.cx * sp.cy ∧ m.payload.take 50 ≠ joinPayload r g) ∧
    (∃ (m : RunMsg) (s : State) (u : State) (r : Run) (sp : Span) (c : Command) (g : Grist), s.Delivers 2 m u r sp c g ∧ r.phase = .joining ∧
      sp.chip ≠ 0 ∧ m.src = 0 ∧ m.tag = 0) ∧
    (∃ (m : RunMsg) (s : State) (u : State) (r : Run) (sp : Span) (c : Command) (g : Grist), s.Delivers 3 m u r sp c g ∧ r.phase = .joining ∧
      sp.chip ≠ 0 ∧ m.src = 0 ∧ m.tag = 0) ∧
    (∃ (s : State) (r : Run) (sp : Span) (c : Command) (g : Grist), s.cmd r.cmd = some c ∧ newSpan c.block = some sp ∧ c.phase = .running ∧
      c.began + 1000 * sp.joinUs ≤ s.time ∧ s.run r.cmd = some r ∧ s.grist r.load = some g ∧ r.phase = .joining) ∧
    (∃ (s : State) (id : Nat) (sp : Span) (c : Command), s.cmd id = some c ∧ newSpan c.block = some sp ∧ c.phase = .running ∧
      c.began + 1000 * sp.joinUs ≤ s.time ∧ s.run id = none) ∧
    (∃ (m : RunMsg) (s : State) (u : State) (r : Run) (sp : Span) (c : Command) (g : Grist) (p : Partner) (h : Nat × List Nat),
      h = (lowBits (m.tag + 1) 32, (List.range r.nr).map (fun i => leAt m.payload (i * bitsBytes (edgeCount g p.dir)) (bitsBytes (edgeCount g p.dir)))) ∧
      s.Delivers 5 m u r sp c g ∧ sp.partners.find? (fun p => p.link == m.link) = some p ∧ sp.kind = 2 ∧ m.src = p.chip ∧ m.flags % 2 = p.dir % 2) ∧
    (∃ (m : RunMsg) (s : State) (u : State) (r : Run) (sp : Span) (c : Command) (g : Grist) (p : Partner) (keys : List Nat) (t : Tab Int) (sq : Span),
      keys = (g.crossing (oppDir p.dir)).map (fun x => x.1) ∧
      t = (keys.zip (List.range keys.length)).foldl (fun t e => Tab.put (fun _ => 0) e.1 (sInt (precBits g.prec) (leAt m.payload (precBytes g.prec * e.2) (precBytes g.prec))) t) [] ∧
      sq = { sp with partners := sp.partners.map (fun q => if q.link == m.link then { q with coef := some t } else q) } ∧ s.Delivers 4 m u r sp c g ∧
      sp.partners.find? (fun p => p.link == m.link) = some p ∧ sp.kind = 2 ∧ p.dir % 2 = 1 ∧ m.src = p.chip ∧ m.tag = 0 ∧ p.coef = none) ∧
    (∃ (dir : Nat) (t0 : Nat) (s : State) (r : Run) (sp : Span) (p : Partner), s.run r.cmd = some r ∧ r.span = some sp ∧
      sp.partners.find? (fun p => p.dir == dir) = some p ∧ p.waitSince = some t0 ∧ r.phase ≠ .stopped ∧ t0 + 1000 * sp.rdvUs ≤ s.time) := by
  refine ⟨?_, ?_, ?_, ?_, ?_, ?_, ?_, ?_, ?_, ?_⟩
  · exact ⟨1, (zMsg 1 1 0 0 (List.replicate 64 0)), (zMsgSt (zSplitRun 2 0 .joining (zSpanOf 2 0)) (zSplitCmd 2 0) (zMsg 1 1 0 0 (List.replicate 64 0))),
      (((((zMsgSt (zSplitRun 2 0 .joining (zSpanOf 2 0)) (zSplitCmd 2 0) (zMsg 1 1 0 0 (List.replicate 64 0))))).takeMsg 1).getD (((zMsg 1 1 0 0 (List.replicate 64 0))), (((zMsgSt (zSplitRun 2 0 .joining (zSpanOf 2 0)) (zSplitCmd 2 0) (zMsg 1 1 0 0 (List.replicate 64 0))))))).2,
      (zSplitRun 2 0 .joining (zSpanOf 2 0)), (zSpanOf 2 0), (zSplitCmd 2 0), zLattice, zTake _ _ _ (by decide +kernel), by decide +kernel,
      by decide +kernel, by decide +kernel⟩
  · exact ⟨(zMsg 1 1 0 0 (joinPayload (zSplitRun 2 0 .joining (zSpanOf 2 0)) zLattice)),
      (zMsgSt (zSplitRun 2 0 .joining (zSpanOf 2 0)) (zSplitCmd 2 0) (zMsg 1 1 0 0 (joinPayload (zSplitRun 2 0 .joining (zSpanOf 2 0)) zLattice))),
      (((((zMsgSt (zSplitRun 2 0 .joining (zSpanOf 2 0)) (zSplitCmd 2 0) (zMsg 1 1 0 0 (joinPayload (zSplitRun 2 0 .joining (zSpanOf 2 0)) zLattice))))).takeMsg 1).getD (((zMsg 1 1 0 0 (joinPayload (zSplitRun 2 0 .joining (zSpanOf 2 0)) zLattice))), (((zMsgSt (zSplitRun 2 0 .joining (zSpanOf 2 0)) (zSplitCmd 2 0) (zMsg 1 1 0 0 (joinPayload (zSplitRun 2 0 .joining (zSpanOf 2 0)) zLattice))))))).2,
      (zSplitRun 2 0 .joining (zSpanOf 2 0)), (zSpanOf 2 0), (zSplitCmd 2 0), zLattice,
      ⟨zTake _ _ _ (by decide +kernel), by decide +kernel, by decide +kernel, by decide +kernel, by decide +kernel, by decide +kernel, by decide +kernel⟩,
      by decide +kernel, by decide +kernel, by decide +kernel, by decide +kernel, by decide +kernel, by decide +kernel, by decide +kernel⟩
  · exact ⟨(zMsg 1 1 0 0 (List.replicate 64 0)), (zMsgSt (zSplitRun 2 0 .joining (zSpanOf 2 0)) (zSplitCmd 2 0) (zMsg 1 1 0 0 (List.replicate 64 0))),
      (((((zMsgSt (zSplitRun 2 0 .joining (zSpanOf 2 0)) (zSplitCmd 2 0) (zMsg 1 1 0 0 (List.replicate 64 0))))).takeMsg 1).getD (((zMsg 1 1 0 0 (List.replicate 64 0))), (((zMsgSt (zSplitRun 2 0 .joining (zSpanOf 2 0)) (zSplitCmd 2 0) (zMsg 1 1 0 0 (List.replicate 64 0))))))).2,
      (zSplitRun 2 0 .joining (zSpanOf 2 0)), (zSpanOf 2 0), (zSplitCmd 2 0), zLattice,
      ⟨zTake _ _ _ (by decide +kernel), by decide +kernel, by decide +kernel, by decide +kernel, by decide +kernel, by decide +kernel, by decide +kernel⟩,
      by decide +kernel, by decide +kernel, by decide +kernel, by decide +kernel, by decide +kernel, by decide +kernel⟩
  · exact ⟨(zMsg 2 0 1 0 (List.replicate 64 0)), (zMsgSt (zSplitRun 2 1 .joining (zSpanOf 2 1)) (zSplitCmd 2 1) (zMsg 2 0 1 0 (List.replicate 64 0))),
      (((((zMsgSt (zSplitRun 2 1 .joining (zSpanOf 2 1)) (zSplitCmd 2 1) (zMsg 2 0 1 0 (List.replicate 64 0))))).takeMsg 2).getD (((zMsg 2 0 1 0 (List.replicate 64 0))), (((zMsgSt (zSplitRun 2 1 .joining (zSpanOf 2 1)) (zSplitCmd 2 1) (zMsg 2 0 1 0 (List.replicate 64 0))))))).2,
      (zSplitRun 2 1 .joining (zSpanOf 2 1)), (zSpanOf 2 1), (zSplitCmd 2 1), zLattice,
      ⟨zTake _ _ _ (by decide +kernel), by decide +kernel, by decide +kernel, by decide +kernel, by decide +kernel, by decide +kernel, by decide +kernel⟩,
      by decide +kernel, by decide +kernel, by decide +kernel, by decide +kernel⟩
  · exact ⟨(zMsg 3 0 1 0 (List.replicate 64 0)), (zMsgSt (zSplitRun 2 1 .joining (zSpanOf 2 1)) (zSplitCmd 2 1) (zMsg 3 0 1 0 (List.replicate 64 0))),
      (((((zMsgSt (zSplitRun 2 1 .joining (zSpanOf 2 1)) (zSplitCmd 2 1) (zMsg 3 0 1 0 (List.replicate 64 0))))).takeMsg 3).getD (((zMsg 3 0 1 0 (List.replicate 64 0))), (((zMsgSt (zSplitRun 2 1 .joining (zSpanOf 2 1)) (zSplitCmd 2 1) (zMsg 3 0 1 0 (List.replicate 64 0))))))).2,
      (zSplitRun 2 1 .joining (zSpanOf 2 1)), (zSpanOf 2 1), (zSplitCmd 2 1), zLattice,
      ⟨zTake _ _ _ (by decide +kernel), by decide +kernel, by decide +kernel, by decide +kernel, by decide +kernel, by decide +kernel, by decide +kernel⟩,
      by decide +kernel, by decide +kernel, by decide +kernel, by decide +kernel⟩
  · exact ⟨(zRunSt (zSplitRun 2 0 .joining (zSpanOf 2 0)) zLattice (zSplitCmd 2 0)), (zSplitRun 2 0 .joining (zSpanOf 2 0)), (zSpanOf 2 0), (zSplitCmd 2 0),
      zLattice, by decide +kernel⟩
  · exact ⟨{ zRunSt zRunD zLattice (zSplitCmd 2 0) with tun := zLoaded.tun }, 3, (zSpanOf 2 0), (zSplitCmd 2 0), by decide +kernel⟩
  · exact ⟨(zMsg 5 1 0 0 (List.replicate 64 0)), (zMsgSt (zSplitRun 2 0 .sweeping (zSpanOf 2 0)) (zSplitCmd 2 0) (zMsg 5 1 0 0 (List.replicate 64 0))),
      (((((zMsgSt (zSplitRun 2 0 .sweeping (zSpanOf 2 0)) (zSplitCmd 2 0) (zMsg 5 1 0 0 (List.replicate 64 0))))).takeMsg 5).getD (((zMsg 5 1 0 0 (List.replicate 64 0))), (((zMsgSt (zSplitRun 2 0 .sweeping (zSpanOf 2 0)) (zSplitCmd 2 0) (zMsg 5 1 0 0 (List.replicate 64 0))))))).2,
      (zSplitRun 2 0 .sweeping (zSpanOf 2 0)), (zSpanOf 2 0), (zSplitCmd 2 0), zLattice, ((zSpanOf 2 0).partners.headD zPartner), _, rfl,
      ⟨zTake _ _ _ (by decide +kernel), by decide +kernel, by decide +kernel, by decide +kernel, by decide +kernel, by decide +kernel, by decide +kernel⟩,
      by decide +kernel, by decide +kernel, by decide +kernel, by decide +kernel⟩
  · exact ⟨(zMsg 4 0 1 0 (List.replicate 64 0)), (zMsgSt (zSplitRun 2 1 .joining (zSpanOf 2 1)) (zSplitCmd 2 1) (zMsg 4 0 1 0 (List.replicate 64 0))),
      (((((zMsgSt (zSplitRun 2 1 .joining (zSpanOf 2 1)) (zSplitCmd 2 1) (zMsg 4 0 1 0 (List.replicate 64 0))))).takeMsg 4).getD (((zMsg 4 0 1 0 (List.replicate 64 0))), (((zMsgSt (zSplitRun 2 1 .joining (zSpanOf 2 1)) (zSplitCmd 2 1) (zMsg 4 0 1 0 (List.replicate 64 0))))))).2,
      (zSplitRun 2 1 .joining (zSpanOf 2 1)), (zSpanOf 2 1), (zSplitCmd 2 1), zLattice, ((zSpanOf 2 1).partners.headD zPartner), _, _, _, rfl, rfl,
      rfl,
      ⟨zTake _ _ _ (by decide +kernel), by decide +kernel, by decide +kernel, by decide +kernel, by decide +kernel, by decide +kernel, by decide +kernel⟩,
      by decide +kernel, by decide +kernel, by decide +kernel, by decide +kernel, by decide +kernel, by decide +kernel⟩
  · exact ⟨0, 0, (zRunSt { zRunD with span := some { zSpan with partners := [{ zPartner with waitSince := some 0 }] } } zLattice zCmdT),
      { zRunD with span := some { zSpan with partners := [{ zPartner with waitSince := some 0 }] } },
      { zSpan with partners := [{ zPartner with waitSince := some 0 }] }, { zPartner with waitSince := some 0 }, by decide +kernel⟩

theorem witness_RendezvousAndGathers :
    (∃ (k : Nat) (s : State) (r : Run) (sp : Span) (g : Grist) (ps : List Partner) (u : State) (q : Run) (es : List Int) (sq : Span) (v : State),
      ps = sp.partners.map (fun p => p.take true true) ∧ u = r.tuns.foldl State.tunReads s ∧
      q = { r with span := some { sp with partners := ps.map (fun p => { p with waitSince := none }) } } ∧
      es = (List.range r.nr).map (fun i => q.latEnergy g i) ∧
      sq = { sp with partners := ps.map (fun p => { p with waitSince := none }), reportTime := u.time, reports := sp.reports.filter (fun p => p.1 != sp.chip) ++ [(sp.chip, k, es, r.haloStale)] } ∧
      v = (if k = 0 then u else u.noteSweep q).updRun r.cmd (fun _ => { r with span := some sq, phase := .waitDecide, energies := es, sweep := k }) ∧
      s.run r.cmd = some r ∧ r.span = some sp ∧ s.grist r.load = some g ∧ r.rdvDue g = some k ∧
      ps.all (fun p => p.frozen || p.haloTag.any (fun t => decide (k ≤ t))) = true ∧ s.markedTun r = none) ∧
    (∃ (k : Nat) (s : State) (r : Run) (sp : Span) (g : Grist) (late : Partner → Bool) (ps : List Partner),
      ps = sp.partners.map (fun p => p.take true true) ∧ s.run r.cmd = some r ∧ r.span = some sp ∧ s.grist r.load = some g ∧ r.rdvDue g = some k ∧
      (∀ p, late p = !(p.frozen || p.haloTag.any (fun t => decide (k ≤ t)))) ∧ ps.any late = true) ∧
    (∃ (m : RunMsg) (s : State) (u : State) (r : Run) (sp : Span) (c : Command) (g : Grist), s.Delivers 6 m u r sp c g ∧ sp.chip = 0 ∧ sp.kind = 2 ∧
      m.src ≠ 0 ∧ m.src < sp.cx * sp.cy ∧ m.tag = r.nextRdv ∧ sp.reportSeen m.src m.tag = false ∧ leAt m.payload (16 * r.nr + 8) 2 = 0) ∧
    (∃ (m : RunMsg) (s : State) (u : State) (r : Run) (sp : Span) (c : Command) (g : Grist) (q : Run) (v : State),
      q = { r with rungs := (List.range r.nr).map (fun i => leAt m.payload (8 + i) 1), lastBoundary := m.tag, lastEnergies := r.energies, span := r.span.map (fun sp => { sp with reportTime := allOnes64 }) } ∧
      v = (u.passedOn sp m).updRun r.cmd (fun _ => q) ∧ s.Delivers 7 m u r sp c g ∧ sp.kind = 2 ∧ sp.chip ≠ 0 ∧ m.src = 0 ∧ r.phase = .waitDecide ∧
      m.tag = r.sweep ∧ leAt m.payload 4 2 = 0 ∧ leAt m.payload 0 1 = 0 ∧ (u.passedOn sp m).run r.cmd = some r) ∧
    (∃ (m : RunMsg) (s : State) (u : State) (r : Run) (sp : Span) (c : Command) (g : Grist), s.Delivers 7 m u r sp c g ∧ sp.kind = 3 ∧ sp.chip ≠ 0 ∧
      m.src = 0 ∧ leAt m.payload 1 1 ≠ 0 ∧ leAt m.payload 4 2 = 0 ∧ (u.passedOn sp m).run r.cmd = some r) ∧
    (∃ (chip : Nat) (s : State) (r : Run) (sp : Span), s.run r.cmd = some r ∧ r.span = some sp ∧ sp.chip = 0 ∧ r.phase = .waitDecide ∧ chip ≠ 0 ∧
      chip < sp.cx * sp.cy ∧ sp.lost.contains chip = false ∧ sp.reports.all (fun p => p.1 != chip || decide (p.2.1 < r.sweep)) = true ∧
      sp.reportTime ≠ allOnes64 ∧ sp.reportTime + 1000 * sp.rdvUs ≤ s.time) ∧
    (∃ (s : State) (r : Run) (sp : Span) (c : Command) (g : Grist), s.run r.cmd = some r ∧ r.span = some sp ∧ s.runCmd r = some c ∧
      s.grist r.load = some g ∧ sp.chip ≠ 0 ∧ r.phase ≠ .stopped ∧ r.phase ≠ .joining ∧ sp.reportTime ≠ allOnes64 ∧
      sp.reportTime + 1000 * sp.rdvUs ≤ s.time) ∧
    (∃ (m : RunMsg) (s : State) (u : State) (r : Run) (sp : Span) (c : Command) (g : Grist) (p : Nat × Nat), s.Delivers 8 m u r sp c g ∧ sp.kind = 2 ∧
      sp.chip ≠ 0 ∧ m.src = 0 ∧ m.tag = 0 ∧ sp.pending = some p) ∧
    (∃ (m : RunMsg) (s : State) (u : State) (r : Run) (sp : Span) (c : Command) (g : Grist) (q : Nat × Nat × Int × Nat), s.Delivers 9 m u r sp c g ∧
      sp.gather = some q ∧ sp.chip = 0 ∧ m.tag = q.1 ∧ m.src ≠ 0 ∧ m.src < sp.cx * sp.cy) ∧
    (∃ (m : RunMsg) (s : State) (u : State) (r : Run) (sp : Span) (c : Command) (g : Grist) (rs : List Nat),
      rs = (List.range r.nr).map (fun i => leAt m.payload (16 + i) 1) ∧ s.Delivers 0x0A m u r sp c g ∧ sp.kind = 3 ∧ sp.chip ≠ 0 ∧ m.src = 0 ∧
      r.phase = .waitGrant) ∧
    (∃ (m : RunMsg) (s : State) (u : State) (r : Run) (sp : Span) (c : Command) (g : Grist) (l : Nat × Nat × Nat × Nat) (v : State) (sz : Nat),
      v = u.passedOn sp m ∧ sz = bitsBytes (v.entrySpins c.region r (leAt m.payload 0 2)).length ∧ s.Delivers 0x0B m u r sp c g ∧ sp.kind = 3 ∧
      sp.chip = 0 ∧ sp.leases.find? (fun l => l.1 == m.tag && l.2.2.1 == m.src) = some l ∧ leAt m.payload 0 2 = l.2.1) ∧
    (∃ (m : RunMsg) (s : State) (u : State) (r : Run) (sp : Span) (c : Command) (g : Grist) (v : State) (spins : List Nat) (sz : Nat),
      v = u.passedOn sp m ∧ spins = v.entrySpins c.region r (leAt m.payload 0 2) ∧ sz = bitsBytes spins.length ∧ s.Delivers 0x0C m u r sp c g ∧
      sp.kind = 3 ∧ sp.chip ≠ 0 ∧ m.src = 0) ∧
    (∃ (visit : Nat) (l : Nat × Nat × Nat × Nat) (s : State) (r : Run) (sp : Span) (c : Command), s.run r.cmd = some r ∧ r.span = some sp ∧
      s.runCmd r = some c ∧ sp.leases.find? (fun l => l.1 == visit) = some l ∧ sp.chip = 0 ∧ r.phase ≠ .stopped ∧ l.2.2.2 ≤ s.time ∧
      s.tun.inbox.all (fun m => m.kind != 0x0B) = true) := by
  refine ⟨?_, ?_, ?_, ?_, ?_, ?_, ?_, ?_, ?_, ?_, ?_, ?_, ?_⟩
  · exact ⟨1, (zRunSt { zSplitRun 2 0 .sweeping { zSpanOf 2 0 with partners := [] } with phases := [(0, 2)] } zLattice zCmdT),
      { zSplitRun 2 0 .sweeping { zSpanOf 2 0 with partners := [] } with phases := [(0, 2)] }, { zSpanOf 2 0 with partners := [] }, zLattice, _, _,
      _, _, _, _, rfl, rfl, rfl, rfl, rfl, rfl, by decide +kernel⟩
  · exact ⟨1, (zRunSt { zSplitRun 2 0 .sweeping (zSpanOf 2 0) with phases := [(0, 2)] } zLattice zCmdT),
      { zSplitRun 2 0 .sweeping (zSpanOf 2 0) with phases := [(0, 2)] }, (zSpanOf 2 0), zLattice,
      (fun p => !(p.frozen || p.haloTag.any (fun t => decide (1 ≤ t)))), _, rfl, by decide +kernel, by decide +kernel, by decide +kernel,
      by decide +kernel, (fun _ => rfl), by decide +kernel⟩
  · exact ⟨(zMsg 6 1 0 1 (List.replicate 64 0)), (zMsgSt (zSplitRun 2 0 .waitDecide (zSpanOf 2 0)) (zSplitCmd 2 0) (zMsg 6 1 0 1 (List.replicate 64 0))),
      (((((zMsgSt (zSplitRun 2 0 .waitDecide (zSpanOf 2 0)) (zSplitCmd 2 0) (zMsg 6 1 0 1 (List.replicate 64 0))))).takeMsg 6).getD (((zMsg 6 1 0 1 (List.replicate 64 0))), (((zMsgSt (zSplitRun 2 0 .waitDecide (zSpanOf 2 0)) (zSplitCmd 2 0) (zMsg 6 1 0 1 (List.replicate 64 0))))))).2,
      (zSplitRun 2 0 .waitDecide (zSpanOf 2 0)), (zSpanOf 2 0), (zSplitCmd 2 0), zLattice,
      ⟨zTake _ _ _ (by decide +kernel), by decide +kernel, by decide +kernel, by decide +kernel, by decide +kernel, by decide +kernel, by decide +kernel⟩,
      by decide +kernel, by decide +kernel, by decide +kernel, by decide +kernel, by decide +kernel, by decide +kernel, by decide +kernel⟩
  · exact ⟨(zMsg 7 0 1 0 (List.replicate 64 0)), (zMsgSt (zSplitRun 2 1 .waitDecide (zSpanOf 2 1)) (zSplitCmd 2 1) (zMsg 7 0 1 0 (List.replicate 64 0))),
      (((((zMsgSt (zSplitRun 2 1 .waitDecide (zSpanOf 2 1)) (zSplitCmd 2 1) (zMsg 7 0 1 0 (List.replicate 64 0))))).takeMsg 7).getD (((zMsg 7 0 1 0 (List.replicate 64 0))), (((zMsgSt (zSplitRun 2 1 .waitDecide (zSpanOf 2 1)) (zSplitCmd 2 1) (zMsg 7 0 1 0 (List.replicate 64 0))))))).2,
      (zSplitRun 2 1 .waitDecide (zSpanOf 2 1)), (zSpanOf 2 1), (zSplitCmd 2 1), zLattice, _, _, rfl, rfl,
      ⟨zTake _ _ _ (by decide +kernel), by decide +kernel, by decide +kernel, by decide +kernel, by decide +kernel, by decide +kernel, by decide +kernel⟩,
      by decide +kernel, by decide +kernel, by decide +kernel, by decide +kernel, by decide +kernel, by decide +kernel, by decide +kernel,
      by decide +kernel⟩
  · exact ⟨(zMsg 7 0 1 0 (0 :: 1 :: List.replicate 64 0)),
      (zMsgSt (zSplitRun 3 1 .switching (zSpanOf 3 1)) (zSplitCmd 3 1) (zMsg 7 0 1 0 (0 :: 1 :: List.replicate 64 0))),
      (((((zMsgSt (zSplitRun 3 1 .switching (zSpanOf 3 1)) (zSplitCmd 3 1) (zMsg 7 0 1 0 (0 :: 1 :: List.replicate 64 0))))).takeMsg 7).getD (((zMsg 7 0 1 0 (0 :: 1 :: List.replicate 64 0))), (((zMsgSt (zSplitRun 3 1 .switching (zSpanOf 3 1)) (zSplitCmd 3 1) (zMsg 7 0 1 0 (0 :: 1 :: List.replicate 64 0))))))).2,
      (zSplitRun 3 1 .switching (zSpanOf 3 1)), (zSpanOf 3 1), (zSplitCmd 3 1), zLattice,
      ⟨zTake _ _ _ (by decide +kernel), by decide +kernel, by decide +kernel, by decide +kernel, by decide +kernel, by decide +kernel, by decide +kernel⟩,
      by decide +kernel, by decide +kernel, by decide +kernel, by decide +kernel, by decide +kernel, by decide +kernel⟩
  · exact ⟨1, (zRunSt { zSplitRun 2 0 .waitDecide { zSpanOf 2 0 with reportTime := 0 } with sweep := 1 } zLattice zCmdT),
      { zSplitRun 2 0 .waitDecide { zSpanOf 2 0 with reportTime := 0 } with sweep := 1 }, { zSpanOf 2 0 with reportTime := 0 }, by decide +kernel⟩
  · exact ⟨(zRunSt (zSplitRun 2 1 .waitDecide { zSpanOf 2 1 with reportTime := 0 }) zLattice zCmdT),
      (zSplitRun 2 1 .waitDecide { zSpanOf 2 1 with reportTime := 0 }), { zSpanOf 2 1 with reportTime := 0 }, zCmdT, zLattice, by decide +kernel⟩
  · exact ⟨(zMsg 8 0 1 0 (List.replicate 64 0)),
      (zMsgSt (zSplitRun 2 1 .sweeping { zSpanOf 2 1 with pending := some (0, 0) }) (zSplitCmd 2 1) (zMsg 8 0 1 0 (List.replicate 64 0))),
      (((((zMsgSt (zSplitRun 2 1 .sweeping { zSpanOf 2 1 with pending := some (0, 0) }) (zSplitCmd 2 1) (zMsg 8 0 1 0 (List.replicate 64 0))))).takeMsg 8).getD (((zMsg 8 0 1 0 (List.replicate 64 0))), (((zMsgSt (zSplitRun 2 1 .sweeping { zSpanOf 2 1 with pending := some (0, 0) }) (zSplitCmd 2 1) (zMsg 8 0 1 0 (List.replicate 64 0))))))).2,
      (zSplitRun 2 1 .sweeping { zSpanOf 2 1 with pending := some (0, 0) }), { zSpanOf 2 1 with pending := some (0, 0) }, (zSplitCmd 2 1), zLattice,
      (0, 0),
      ⟨zTake _ _ _ (by decide +kernel), by decide +kernel, by decide +kernel, by decide +kernel, by decide +kernel, by decide +kernel, by decide +kernel⟩,
      by decide +kernel, by decide +kernel, by decide +kernel, by decide +kernel, by decide +kernel⟩
  · exact ⟨(zMsg 9 1 0 0 (List.replicate 64 0)),
      (zMsgSt (zSplitRun 2 0 .sweeping { zSpanOf 2 0 with gather := some (0, 0, 0, 0) }) (zSplitCmd 2 0) (zMsg 9 1 0 0 (List.replicate 64 0))),
      (((((zMsgSt (zSplitRun 2 0 .sweeping { zSpanOf 2 0 with gather := some (0, 0, 0, 0) }) (zSplitCmd 2 0) (zMsg 9 1 0 0 (List.replicate 64 0))))).takeMsg 9).getD (((zMsg 9 1 0 0 (List.replicate 64 0))), (((zMsgSt (zSplitRun 2 0 .sweeping { zSpanOf 2 0 with gather := some (0, 0, 0, 0) }) (zSplitCmd 2 0) (zMsg 9 1 0 0 (List.replicate 64 0))))))).2,
      (zSplitRun 2 0 .sweeping { zSpanOf 2 0 with gather := some (0, 0, 0, 0) }), { zSpanOf 2 0 with gather := some (0, 0, 0, 0) }, (zSplitCmd 2 0),
      zLattice, (0, 0, 0, 0),
      ⟨zTake _ _ _ (by decide +kernel), by decide +kernel, by decide +kernel, by decide +kernel, by decide +kernel, by decide +kernel, by decide +kernel⟩,
      by decide +kernel, by decide +kernel, by decide +kernel, by decide +kernel, by decide +kernel⟩
  · exact ⟨(zMsg 10 0 1 0 (List.replicate 64 0)), (zMsgSt (zSplitRun 3 1 .waitGrant (zSpanOf 3 1)) (zSplitCmd 3 1) (zMsg 10 0 1 0 (List.replicate 64 0))),
      (((((zMsgSt (zSplitRun 3 1 .waitGrant (zSpanOf 3 1)) (zSplitCmd 3 1) (zMsg 10 0 1 0 (List.replicate 64 0))))).takeMsg 10).getD (((zMsg 10 0 1 0 (List.replicate 64 0))), (((zMsgSt (zSplitRun 3 1 .waitGrant (zSpanOf 3 1)) (zSplitCmd 3 1) (zMsg 10 0 1 0 (List.replicate 64 0))))))).2,
      (zSplitRun 3 1 .waitGrant (zSpanOf 3 1)), (zSpanOf 3 1), (zSplitCmd 3 1), zLattice, _, rfl,
      ⟨zTake _ _ _ (by decide +kernel), by decide +kernel, by decide +kernel, by decide +kernel, by decide +kernel, by decide +kernel, by decide +kernel⟩,
      by decide +kernel, by decide +kernel, by decide +kernel, by decide +kernel⟩
  · exact ⟨(zMsg 11 1 0 0 (List.replicate 64 0)),
      (zMsgSt (zSplitRun 3 0 .switching { zSpanOf 3 0 with leases := [(0, 0, 1, 0)] }) (zSplitCmd 3 0) (zMsg 11 1 0 0 (List.replicate 64 0))),
      (((((zMsgSt (zSplitRun 3 0 .switching { zSpanOf 3 0 with leases := [(0, 0, 1, 0)] }) (zSplitCmd 3 0) (zMsg 11 1 0 0 (List.replicate 64 0))))).takeMsg 11).getD (((zMsg 11 1 0 0 (List.replicate 64 0))), (((zMsgSt (zSplitRun 3 0 .switching { zSpanOf 3 0 with leases := [(0, 0, 1, 0)] }) (zSplitCmd 3 0) (zMsg 11 1 0 0 (List.replicate 64 0))))))).2,
      (zSplitRun 3 0 .switching { zSpanOf 3 0 with leases := [(0, 0, 1, 0)] }), { zSpanOf 3 0 with leases := [(0, 0, 1, 0)] }, (zSplitCmd 3 0),
      zLattice, (0, 0, 1, 0), _, _, rfl, rfl,
      ⟨zTake _ _ _ (by decide +kernel), by decide +kernel, by decide +kernel, by decide +kernel, by decide +kernel, by decide +kernel, by decide +kernel⟩,
      by decide +kernel, by decide +kernel, by decide +kernel, by decide +kernel⟩
  · exact ⟨(zMsg 12 0 1 0 (List.replicate 64 0)), (zMsgSt (zSplitRun 3 1 .switching (zSpanOf 3 1)) (zSplitCmd 3 1) (zMsg 12 0 1 0 (List.replicate 64 0))),
      (((((zMsgSt (zSplitRun 3 1 .switching (zSpanOf 3 1)) (zSplitCmd 3 1) (zMsg 12 0 1 0 (List.replicate 64 0))))).takeMsg 12).getD (((zMsg 12 0 1 0 (List.replicate 64 0))), (((zMsgSt (zSplitRun 3 1 .switching (zSpanOf 3 1)) (zSplitCmd 3 1) (zMsg 12 0 1 0 (List.replicate 64 0))))))).2,
      (zSplitRun 3 1 .switching (zSpanOf 3 1)), (zSpanOf 3 1), (zSplitCmd 3 1), zLattice, _, _, _, rfl, rfl, rfl,
      ⟨zTake _ _ _ (by decide +kernel), by decide +kernel, by decide +kernel, by decide +kernel, by decide +kernel, by decide +kernel, by decide +kernel⟩,
      by decide +kernel, by decide +kernel, by decide +kernel⟩
  · exact ⟨0, (0, 0, 1, 0), (zRunSt (zSplitRun 3 0 .switching { zSpanOf 3 0 with leases := [(0, 0, 1, 0)] }) zLattice zCmdT),
      (zSplitRun 3 0 .switching { zSpanOf 3 0 with leases := [(0, 0, 1, 0)] }), { zSpanOf 3 0 with leases := [(0, 0, 1, 0)] }, zCmdT,
      by decide +kernel⟩

theorem witness_SolverCommands :
    (∃ (c : Command) (s : State) (u : State) (v : State),
      u = { s with solver := some (fetchingRun c s.time s.gov.ccycles) }.await c.id (hostLen (svFetched c.block)) ∧
      v = (((u.wr64 Reg.SLV_SLV_STOP_LO c.stop).wr Reg.SLV_SLV_ITER 0).wr64 Reg.SLV_BEST_RES_LO 0).updCmd c.id (fun c => { c with phase := .running }) ∧
      s.engineNext .solver pgSolver s.solver.isSome c.id = some c ∧ s.pageFailed pgSolver = false ∧
      firstBad (s.svBlockChecks c.region c.block) = none ∧ s.stopPassed c = false ∧ svOverlap c.block = false ∧ svN c.block ≠ 0) ∧
    (∃ (c : Command) (e : Bad) (s : State), s.engineNext .solver pgSolver s.solver.isSome c.id = some c ∧ s.pageFailed pgSolver = false ∧
      firstBad (s.svBlockChecks c.region c.block) = some e) ∧
    (∃ (c : Command) (r : SolverRun) (q : SolverRun) (s : State) (u : State), u = (s.noteAreas c (svFetched c.block)).arrived c.id ∧ s.solver = some r ∧
      s.cmd r.cmd = some c ∧ c.phase = .running ∧ r.loaded = false ∧ r.fetchDue c.block ≤ s.time ∧ u.svFetch c r = some q ∧ q.badValue c.block = false) ∧
    (∃ (r : SolverRun) (c : Command) (s : State), s.solver = some r ∧ s.cmd r.cmd = some c ∧ c.phase = .running ∧ r.loaded = true ∧ r.mark = 0 ∧
      r.op = 2 ∧ r.from_ + svStep c.block (r.done == 0) ≤ s.gov.ccycles ∧ svSparse c.block = false) ∧
    (∃ (r : SolverRun) (c : Command) (s : State), s.solver = some r ∧ s.cmd r.cmd = some c ∧ c.phase = .running ∧ r.loaded = true ∧ r.mark = 0 ∧
      r.op = 3 ∧ r.from_ + svStep c.block (r.done == 0) ≤ s.gov.ccycles ∧ svSparse c.block = false) ∧
    (∃ (r : SolverRun) (e : StepEnd) (c : Command) (s : State), s.solver = some r ∧ s.cmd r.cmd = some c ∧ c.phase = .running ∧ r.loaded = true ∧
      r.mark = 0 ∧ s.svNext c r = .ok e ∧ r.from_ + s.svCycles c.block e ≤ s.gov.ccycles) ∧
    (∃ (r : SolverRun) (e : StepEnd) (c : Command) (s : State), s.solver = some r ∧ s.cmd r.cmd = some c ∧ c.phase = .running ∧ r.loaded = true ∧
      s.svNext c r = .ok e ∧ s.gov.ccycles < r.from_ + s.svCycles c.block e) ∧
    (∃ (r : SolverRun) (c : Command) (s : State), s.solver = some r ∧ s.cmd r.cmd = some c ∧ c.phase = .running ∧ r.op = 2 ∧ c.stop ≠ allOnes64 ∧
      c.stop ≤ s.time + svTRep c.block) ∧
    (∃ (i : Nat) (st : Nat) (s : State), s.stops = [{ target := .command i, status := st }]) := by
  refine ⟨?_, ?_, ?_, ?_, ?_, ?_, ?_, ?_, ?_⟩
  · exact ⟨(zEngCmd .solver .queued zSolveBlock), (zEngSt (zEngCmd .solver .queued zSolveBlock)), _, _, rfl, rfl, by decide +kernel, by decide +kernel,
      (by show firstBad (State.svBlockChecks _ _ zSolveBlock) = none; unfold State.svBlockChecks; rw [zSolveBlock_crc]; decide +kernel),
      by decide +kernel, by decide +kernel, by decide +kernel⟩
  · exact ⟨(zEngCmd .solver .queued []), (badSolve 1), (zEngSt (zEngCmd .solver .queued [])), by decide +kernel⟩
  · exact ⟨{ zCommand with id := { zSolverRun with loaded := false }.cmd, phase := .running }, { zSolverRun with loaded := false },
      (zDef _ ((({ zState with solver := some { zSolverRun with loaded := false }, cmds := [{ zCommand with id := { zSolverRun with loaded := false }.cmd, phase := .running }] }.noteAreas { zCommand with id := { zSolverRun with loaded := false }.cmd, phase := .running } (svFetched { zCommand with id := { zSolverRun with loaded := false }.cmd, phase := .running }.block)).arrived { zCommand with id := { zSolverRun with loaded := false }.cmd, phase := .running }.id).svFetch { zCommand with id := { zSolverRun with loaded := false }.cmd, phase := .running } { zSolverRun with loaded := false }) (by decide +kernel)),
      { zState with solver := some { zSolverRun with loaded := false }, cmds := [{ zCommand with id := { zSolverRun with loaded := false }.cmd, phase := .running }] },
      _, rfl, by decide +kernel, by decide +kernel, by decide +kernel, by decide +kernel, by decide +kernel, (Option.some_get _).symm,
      by decide +kernel⟩
  · exact ⟨{ zSolverRun with loaded := true, mark := 0, op := 2 },
      { zCommand with id := { zSolverRun with loaded := true, mark := 0, op := 2 }.cmd, phase := .running },
      { zState with solver := some { zSolverRun with loaded := true, mark := 0, op := 2 }, cmds := [{ zCommand with id := { zSolverRun with loaded := true, mark := 0, op := 2 }.cmd, phase := .running }] },
      by decide +kernel⟩
  · exact ⟨{ zSolverRun with loaded := true, mark := 0, op := 3 },
      { zCommand with id := { zSolverRun with loaded := true, mark := 0, op := 3 }.cmd, phase := .running },
      { zState with solver := some { zSolverRun with loaded := true, mark := 0, op := 3 }, cmds := [{ zCommand with id := { zSolverRun with loaded := true, mark := 0, op := 3 }.cmd, phase := .running }] },
      by decide +kernel⟩
  · exact ⟨{ zSolverRun with cmd := 3, op := 3, loaded := true, from_ := 0 },
      { run := SolverRun.boxStep ({ zSolverRun with cmd := 3, op := 3, loaded := true, from_ := 0 }) zSolveBlock, broke := false, reads := 0, cycles := svStep zSolveBlock true },
      (zEngCmd .solver .running zSolveBlock),
      { zEngSt (zEngCmd .solver .running zSolveBlock) with solver := some { zSolverRun with cmd := 3, op := 3, loaded := true, from_ := 0 } },
      by decide +kernel, by decide +kernel, by decide +kernel, by decide +kernel, by decide +kernel, rfl, by decide +kernel⟩
  · exact ⟨{ zSolverRun with cmd := 3, op := 3, loaded := true, from_ := 1000000000000 },
      { run := SolverRun.boxStep ({ zSolverRun with cmd := 3, op := 3, loaded := true, from_ := 1000000000000 }) zSolveBlock, broke := false, reads := 0, cycles := svStep zSolveBlock true },
      (zEngCmd .solver .running zSolveBlock),
      { zEngSt (zEngCmd .solver .running zSolveBlock) with solver := some { zSolverRun with cmd := 3, op := 3, loaded := true, from_ := 1000000000000 } },
      by decide +kernel, by decide +kernel, by decide +kernel, by decide +kernel, rfl, by decide +kernel⟩
  · exact ⟨{ zSolverRun with op := 2 }, { zCommand with id := { zSolverRun with op := 2 }.cmd, phase := .running },
      { zState with solver := some { zSolverRun with op := 2 }, cmds := [{ zCommand with id := { zSolverRun with op := 2 }.cmd, phase := .running }] },
      by decide +kernel⟩
  · exact ⟨0, 0, { zState with stops := [{ target := .command 0, status := 0 }] }, by decide +kernel⟩

theorem witness_PredictorCommands :
    (∃ (c : Command) (s : State), s.engineNext .predictor pgPred s.pred.run.isSome c.id = some c ∧ s.pageFailed pgPred = true) ∧
    (∃ (c : Command) (e : Bad) (s : State), s.engineNext .predictor pgPred s.pred.run.isSome c.id = some c ∧ s.pageFailed pgPred = false ∧
      firstBad (s.pbChecks c.region c.block (s.pbShape c).1 (s.pbShape c).2) = some e) ∧
    (∃ (c : Command) (s : State) (im : Resident) (r : PredRun) (u : State),
      im = (s.residentFor c.region c.block).getD { region := c.region, addr := pbWeight c.block, bytes := pbWeightBytes c.block, crc := pbWeightCrc c.block, data := [], mark := 0 } ∧
      r = predStart c im (s.time + (if (s.residentFor c.region c.block).isSome then 0 else ceilDiv (pbWeightBytes c.block) 64)) s.time ∧
      u = ((((s.setRun r).wr64 Reg.PRD_PRD_STOP_LO c.stop).prPos 0 0 1).updCmd c.id (fun c => { c with phase := .running })).setRun { r with gw := [] } ∧
      s.engineNext .predictor pgPred s.pred.run.isSome c.id = some c ∧ s.pageFailed pgPred = false ∧
      firstBad (s.pbChecks c.region c.block (s.pbShape c).1 (s.pbShape c).2) = none ∧ s.stopPassed c = false ∧ pbBatch c.block ≠ 0 ∧
      pbGrist c.block = false) ∧
    (∃ (c : Command) (r : PredRun) (s : State), s.pred.run = some r ∧ s.cmd r.cmd = some c ∧ c.phase = .running ∧ r.phase = .fetch ∧ r.due ≤ s.time) ∧
    (∃ (c : Command) (r : PredRun) (bs : List Byte) (s : State) (a : Area) (u : State),
      a = { space := pbInSpace c.block, addr := pbInput c.block, len := 4 * pbBatch c.block * lyKin r.image.data 0 } ∧
      u = (s.noteArea c a).arrived c.id ∧ s.predAt c.id .scan = some (c, r) ∧ r.due ≤ s.time ∧ u.readArea c a = some bs ∧
      (values 4 bs (pbBatch c.block * lyKin r.image.data 0)).any (fun v => !f32.finite v) = false) ∧
    (∃ (c : Command) (r : PredRun) (s : State) (u : State), u = s.passReads r ∧ s.predAt c.id .pass = some (c, r) ∧ r.layer + 1 = pbLayers c.block ∧
      r.passEnd ≤ s.gov.ccycles ∧ s.imageMark r < 2 ∧ r.aMark < 2) ∧
    (∃ (c : Command) (r : PredRun) (s : State) (u : State) (img : List Byte) (cs : List Nat) (accs : List (List Int)), u = s.passReads r ∧
      img = r.image.data ∧ cs = (layerData c.block img r.layer r.wide).c r.scale ∧
      accs = accumulate (pbFp c.block) r.wide (lyRelu img r.layer) (layerData c.block img r.layer r.wide) cs r.zero r.tensor ∧
      s.predAt c.id .pass = some (c, r) ∧ r.layer + 1 ≠ pbLayers c.block ∧ r.passEnd ≤ s.gov.ccycles ∧ s.imageMark r < 2 ∧ r.aMark < 2) ∧
    (∃ (c : Command) (r : PredRun) (s : State), s.predAt c.id .pass = some (c, r) ∧ s.gov.ccycles < r.passEnd) ∧
    (∃ (c : Command) (r : PredRun) (s : State), s.predAt c.id .passed = some (c, r) ∧ pbGrist c.block = false) ∧
    (∃ (c : Command) (r : PredRun) (s : State), s.predAt c.id .passed = some (c, r) ∧ pbGrist c.block = true) ∧
    (∃ (c : Command) (r : PredRun) (g : Grist) (s : State), s.predAt c.id .grist = some (c, r) ∧
      (gwTuns r.gw).any (fun t => s.tun.runs.any (fun x => decide (x.phase ≠ .stopped) && x.tuns.contains t)) = false ∧
      r.from_ + gwCycles r.tensor.length (lyKout r.image.data (pbLayers c.block - 1)) ≤ s.gov.ccycles ∧
      (gwTuns r.gw).find? (fun t => (s.tunSt t).failed) = none ∧ s.gwGrist r.gw = some g ∧ gwModeOk (gwTarget r.gw) g.mode = true) := by
  refine ⟨?_, ?_, ?_, ?_, ?_, ?_, ?_, ?_, ?_, ?_, ?_⟩
  · exact ⟨(zEngCmd .predictor .queued zPredBlock), ((zEngSt (zEngCmd .predictor .queued zPredBlock)).wf (pgReg pgPred Reg.H_STATUS) 1 1 1), by decide +kernel⟩
  · exact ⟨(zEngCmd .predictor .queued []), (badPred 1), (zEngSt (zEngCmd .predictor .queued [])), by decide +kernel⟩
  · exact ⟨(zEngCmd .predictor .queued zPredBlock), (zEngSt (zEngCmd .predictor .queued zPredBlock)), _, _, _, rfl, rfl, rfl, by decide +kernel,
      by decide +kernel, (by show firstBad (State.pbChecks _ _ zPredBlock _ _) = none; unfold State.pbChecks; rw [zPredBlock_crc]; decide +kernel),
      by decide +kernel, by decide +kernel, by decide +kernel⟩
  · exact ⟨{ zCommand with id := { zPredRun with phase := .fetch }.cmd, phase := .running }, { zPredRun with phase := .fetch },
      { zState with pred := { zState.pred with run := some { zPredRun with phase := .fetch } }, cmds := [{ zCommand with id := { zPredRun with phase := .fetch }.cmd, phase := .running }] },
      by decide +kernel⟩
  · exact ⟨(zEngCmd .predictor .running zPredBlock), { zPredRun with cmd := 3, phase := .scan },
      (zDef _ ((({ zEngSt (zEngCmd .predictor .running zPredBlock) with pred := { zState.pred with run := some { zPredRun with cmd := 3, phase := .scan } } }.noteArea (zEngCmd .predictor .running zPredBlock) ({ space := pbInSpace (zEngCmd .predictor .running zPredBlock).block, addr := pbInput (zEngCmd .predictor .running zPredBlock).block, len := 4 * pbBatch (zEngCmd .predictor .running zPredBlock).block * lyKin { zPredRun with cmd := 3, phase := .scan }.image.data 0 })).arrived (zEngCmd .predictor .running zPredBlock).id).readArea (zEngCmd .predictor .running zPredBlock) ({ space := pbInSpace (zEngCmd .predictor .running zPredBlock).block, addr := pbInput (zEngCmd .predictor .running zPredBlock).block, len := 4 * pbBatch (zEngCmd .predictor .running zPredBlock).block * lyKin { zPredRun with cmd := 3, phase := .scan }.image.data 0 })) (by decide +kernel)),
      { zEngSt (zEngCmd .predictor .running zPredBlock) with pred := { zState.pred with run := some { zPredRun with cmd := 3, phase := .scan } } },
      _, _, rfl, rfl, by decide +kernel, by decide +kernel, (Option.some_get _).symm, by decide +kernel⟩
  · exact ⟨(zEngCmd .predictor .running zPredBlock), { zPredRun with cmd := 3, phase := .pass },
      { zEngSt (zEngCmd .predictor .running zPredBlock) with pred := { zState.pred with run := some { zPredRun with cmd := 3, phase := .pass } } },
      _, rfl, by decide +kernel⟩
  · exact ⟨(zEngCmd .predictor .running []), { zPredRun with cmd := 3, phase := .pass },
      { zEngSt (zEngCmd .predictor .running []) with pred := { zState.pred with run := some { zPredRun with cmd := 3, phase := .pass } } }, _, _, _,
      _, rfl, rfl, rfl, rfl, by decide +kernel⟩
  · exact ⟨(zEngCmd .predictor .running zPredBlock), { zPredRun with cmd := 3, phase := .pass, from_ := 1000000000000 },
      { zEngSt (zEngCmd .predictor .running zPredBlock) with pred := { zState.pred with run := some { zPredRun with cmd := 3, phase := .pass, from_ := 1000000000000 } } },
      by decide +kernel⟩
  · exact ⟨(zEngCmd .predictor .running zPredBlock), { zPredRun with cmd := 3, phase := .passed },
      { zEngSt (zEngCmd .predictor .running zPredBlock) with pred := { zState.pred with run := some { zPredRun with cmd := 3, phase := .passed } } },
      by decide +kernel⟩
  · exact ⟨(zEngCmd .predictor .running (zBytes 128 [(7, [2])])), { zPredRun with cmd := 3, phase := .passed },
      { zEngSt (zEngCmd .predictor .running (zBytes 128 [(7, [2])])) with pred := { zState.pred with run := some { zPredRun with cmd := 3, phase := .passed } } },
      by decide +kernel⟩
  · exact ⟨(zEngCmd .predictor .running zPredBlock), { zPredRun with cmd := 3, phase := .grist }, zDense1,
      { zRunSt zRunD zDense1 (zEngCmd .predictor .running zPredBlock) with tun := { (zRunSt zRunD zDense1 (zEngCmd .predictor .running zPredBlock)).tun with runs := [] }, pred := { zState.pred with run := some { zPredRun with cmd := 3, phase := .grist } } },
      by decide +kernel⟩

theorem witness_PlannerCommands :
    (∃ (p : Path) (v : Word) (s : State) (u : State), u = s.turn p ∧ bit v.toNat 4 = true) ∧
    (∃ (p : Path) (v : Word) (s : State) (u : State), u = s.turn p ∧ bit v.toNat 4 = false) ∧
    (∃ (s : State), s.pred.run = none) ∧
    (∃ (s : State), s.plan.run = none) ∧
    (∃ (c : Command) (s : State) (r : PlanRun) (u : State),
      r = planStart c (s.time + ceilDiv (4 * hostLen (s.plFetched c) + devLen (s.plFetched c)) 64) s.time ∧
      u = ((((s.setPlan r).wr64 Reg.PLN_PLN_STOP_LO c.stop).plPos 0 0 1).updCmd c.id (fun c => { c with phase := .running })).await c.id (hostLen (s.plFetched c)) ∧
      s.cmd c.id = some c ∧ s.planRunOf c = none ∧ s.engineNext .planner pgPlan s.plan.run.isSome c.id = some c ∧ s.pageFailed pgPlan = false ∧
      firstBad (s.plChecks c) = none ∧ s.stopPassed c = false ∧ (s.plArrays c).any (fun a => a.meets (plResArea c.block)) = false) ∧
    (∃ (c : Command) (e : Bad) (s : State), s.cmd c.id = some c ∧ s.planRunOf c = none ∧ s.engineNext .planner pgPlan s.plan.run.isSome c.id = some c ∧
      s.pageFailed pgPlan = false ∧ firstBad (s.plChecks c) = some e) ∧
    (∃ (c : Command) (r : PlanRun) (p : PlanInput) (s : State) (u : State), u = (s.noteAreas c (s.plFetched c)).arrived c.id ∧ s.plan.run = some r ∧
      s.cmd r.cmd = some c ∧ c.phase = .running ∧ r.loaded = false ∧ r.due ≤ s.time ∧ u.planFetch c = .ok p) ∧
    (∃ (c : Command) (s : State), s.cmd c.id = some c ∧ (s.planRunOf c).isSome = true ∧ c.phase = .running) ∧
    (∃ (c : Command) (r : PlanRun) (s : State) (u : State), s.planRunOf c = some r ∧ r.loaded = true ∧ s.planReads r = (u, false) ∧ r.todo = []) := by
  refine ⟨?_, ?_, ?_, ?_, ?_, ?_, ?_, ?_, ?_⟩
  · exact ⟨.host, 16, zState, _, rfl, by decide +kernel⟩
  · exact ⟨.host, 0, zState, _, rfl, by decide +kernel⟩
  · exact ⟨{ zState with pred := { zState.pred with run := none } }, by decide +kernel⟩
  · exact ⟨{ zState with plan := { zState.plan with run := none } }, by decide +kernel⟩
  · exact ⟨(zEngCmd .planner .queued zPlanBlock), (zEngSt (zEngCmd .planner .queued zPlanBlock)), _, _, rfl, rfl, by decide +kernel, by decide +kernel,
      by decide +kernel, by decide +kernel,
      (by unfold State.plChecks; dsimp only; rw [show crc32c ((zEngCmd .planner .queued zPlanBlock).block.take 0x7C) = 0x1265FFD7 from zPlanBlock_crc]; decide +kernel),
      by decide +kernel, by decide +kernel⟩
  · exact ⟨(zEngCmd .planner .queued []), (badPlan 1), (zEngSt (zEngCmd .planner .queued [])), by decide +kernel⟩
  · exact ⟨(zEngCmd .planner .running zPlanBlock), { zPlanRun with cmd := 3 },
      { grid := { region := 0, id := 1, sx := 1, sy := 1, nt := 1, cells := [], mark := 0 }, table := { region := 0, addr := 0x2000, data := zBytes 128 [(6, [1])], mark := 0 }, reqs := [], prev := [], upds := [] },
      { zEngSt (zEngCmd .planner .running zPlanBlock) with plan := { zState.plan with run := some { zPlanRun with cmd := 3 }, grids := [{ region := 0, id := 1, sx := 1, sy := 1, nt := 1, cells := [], mark := 0 }], tables := [{ region := 0, addr := 0x2000, data := zBytes 128 [(6, [1])], mark := 0 }] } },
      _, rfl, by decide +kernel, by decide +kernel, by decide +kernel, by decide +kernel, by decide +kernel, zOkOf _ _ (by decide +kernel)⟩
  · exact ⟨{ zCommand with phase := .running, id := 3 },
      { zState with cmds := [{ zCommand with phase := .running, id := 3 }], plan := { zState.plan with run := some { zPlanRun with cmd := 3 } } },
      by decide +kernel⟩
  · exact ⟨{ zCommand with id := 3 }, { zPlanRun with cmd := 3, loaded := true },
      { zState with cmds := [{ zCommand with id := 3 }], plan := { zState.plan with run := some { zPlanRun with cmd := 3, loaded := true } } },
      ({ zState with cmds := [{ zCommand with id := 3 }], plan := { zState.plan with run := some { zPlanRun with cmd := 3, loaded := true } } }.planReads { zPlanRun with cmd := 3, loaded := true }).1,
      by decide +kernel, by decide +kernel, zPair (by decide +kernel), by decide +kernel⟩

theorem witness_BundlesIssue :
    (∃ (k : Nat) (at_ : Nat) (act : List Slot) (s : State) (u : State), k < 8 ∧ (s.core k).phase = .running ∧
      (s.coreTimer k).checkBundle k = (u, .clear act at_) ∧ (u.core k).irq = false ∧ u.bundleStall (u.core k) act = none) ∧
    (∃ (k : Nat) (at_ : Nat) (act : List Slot) (w : Stall) (s : State) (u : State), k < 8 ∧ (s.core k).phase = .running ∧
      (s.coreTimer k).checkBundle k = (u, .clear act at_) ∧ (u.core k).irq = false ∧ u.bundleStall (u.core k) act = some w) ∧
    (∃ (k : Nat) (e : Nat) (v : Nat) (at_ : Nat) (s : State) (u : State), k < 8 ∧ (s.core k).phase = .running ∧
      (s.coreTimer k).checkBundle k = (u, .raises e v at_)) ∧
    (∃ (k : Nat) (at1 : Nat) (at2 : Nat) (bs : List Byte) (s : State) (u : State), Nat.max (s.core k).nextIssue s.gov.ccycles < s.cycleLimit ∧
      (s.core k).pc % 64 = 0 ∧ (s.core k).pc + 64 ≤ (s.core k).text ∧ s.lmRead k (s.core k).pc 64 = (u, some bs) ∧
      (s.core k).readyAt (Nat.max (s.core k).nextIssue s.gov.ccycles) ((bundleSlots bs).map (fun x => 96 + x.pr)) = some at1 ∧
      (s.core k).readyAt at1 (((s.core k).active (bundleSlots bs)).flatMap Slot.reads) = some at2 ∧ at2 < u.cycleLimit ∧
      conflict ((s.core k).active (bundleSlots bs)) = none ∧ ((s.core k).active (bundleSlots bs)).filterMap (u.slotFault (s.core k)) = []) ∧
    (∃ (k : Nat) (s : State), Nat.max (s.core k).nextIssue s.gov.ccycles < s.cycleLimit ∧ (((s.core k).pc % 64 ≠ 0 ∨ (s.core k).text < (s.core k).pc + 64))) ∧
    (∃ (k : Nat) (s : State), s.cycleLimit ≤ Nat.max (s.core k).nextIssue s.gov.ccycles) ∧
    (∃ (k : Nat) (s : State), k < 8 ∧ (s.core k).stall = some .wait) ∧
    (∃ (k : Nat) (s : State), k < 8 ∧ (s.core k).stall = some .waitI) ∧
    (∃ (k : Nat) (at_ : Nat) (act : List Slot) (s : State) (u : State), k < 8 ∧ (s.core k).stall = some .wait ∧ (s.core k).phase = .running ∧
      (s.coreTimer k).checkBundle k = (u, .clear act at_) ∧ (u.core k).irq = false ∧ u.bundleStall (u.core k) act = none) ∧
    (∃ (k : Nat) (at_ : Nat) (act : List Slot) (s : State) (u : State), k < 8 ∧ (s.core k).stall = some .waitI ∧ (s.core k).phase = .running ∧
      (s.coreTimer k).checkBundle k = (u, .clear act at_) ∧ (u.core k).irq = false ∧ u.bundleStall (u.core k) act = none) ∧
    (∃ (k : Nat) (s : State), (s.core k).stall ≠ some .wait) ∧
    (∃ (k : Nat) (s : State), (s.core k).stall ≠ some .waitI) := by
  refine ⟨?_, ?_, ?_, ?_, ?_, ?_, ?_, ?_, ?_, ?_, ?_, ?_⟩
  · exact ⟨0, 1000000000000, (bundleSlots (List.replicate 64 0)), (zCoreSt zCore), (((zCoreSt zCore).coreTimer 0).checkBundle 0).1, by decide +kernel,
      by decide +kernel, zPair (by decide +kernel), by decide +kernel, by decide +kernel⟩
  · exact ⟨0, 1000000000000, (bundleSlots (List.replicate 63 0 ++ [0x11])), .waitI, (zCoreSt { zCore with lmem := [(63, 0x11)] }),
      (((zCoreSt { zCore with lmem := [(63, 0x11)] }).coreTimer 0).checkBundle 0).1, by decide +kernel, by decide +kernel, zPair (by decide +kernel),
      by decide +kernel, by decide +kernel⟩
  · exact ⟨0, 8, 64, 1000000000000, (zCoreSt { zCore with pc := 64 }), (((zCoreSt { zCore with pc := 64 }).coreTimer 0).checkBundle 0).1, by decide +kernel,
      by decide +kernel, zPair (by decide +kernel)⟩
  · exact ⟨0,
      (zDef _ (((zCoreSt zCore).core 0).readyAt (Nat.max ((zCoreSt zCore).core 0).nextIssue (zCoreSt zCore).gov.ccycles) ((bundleSlots (List.replicate 64 0)).map (fun x => 96 + x.pr))) (by decide +kernel)),
      (zDef _ (((zCoreSt zCore).core 0).readyAt ((zDef _ (((zCoreSt zCore).core 0).readyAt (Nat.max ((zCoreSt zCore).core 0).nextIssue (zCoreSt zCore).gov.ccycles) ((bundleSlots (List.replicate 64 0)).map (fun x => 96 + x.pr))) (by decide +kernel))) ((((zCoreSt zCore).core 0).active (bundleSlots (List.replicate 64 0))).flatMap Slot.reads)) (by decide +kernel)),
      (List.replicate 64 0), (zCoreSt zCore), ((zCoreSt zCore).lmRead 0 ((zCoreSt zCore).core 0).pc 64).1, by decide +kernel, by decide +kernel,
      by decide +kernel, zPair (by decide +kernel), (Option.some_get _).symm, (Option.some_get _).symm, by decide +kernel, by decide +kernel,
      by decide +kernel⟩
  · exact ⟨0, (zCoreSt { zCore with pc := 64 }), by decide +kernel⟩
  · exact ⟨0, { zCoreSt { zCore with nextIssue := 2000000000000 } with nextId := 0 }, by decide +kernel⟩
  · exact ⟨0, (zState).updCore 0 (fun x => { x with stall := some .wait }), by decide +kernel⟩
  · exact ⟨0, (zState).updCore 0 (fun x => { x with stall := some .waitI }), by decide +kernel⟩
  · exact ⟨0, 1000000000000, (bundleSlots (List.replicate 64 0)), (zCoreSt { zCore with stall := some .wait }),
      (((zCoreSt { zCore with stall := some .wait }).coreTimer 0).checkBundle 0).1, by decide +kernel, by decide +kernel, by decide +kernel,
      zPair (by decide +kernel), by decide +kernel, by decide +kernel⟩
  · exact ⟨0, 1000000000000, (bundleSlots (List.replicate 64 0)), (zCoreSt { zCore with stall := some .waitI }),
      (((zCoreSt { zCore with stall := some .waitI }).coreTimer 0).checkBundle 0).1, by decide +kernel, by decide +kernel, by decide +kernel,
      zPair (by decide +kernel), by decide +kernel, by decide +kernel⟩
  · exact ⟨0, zState, by decide +kernel⟩
  · exact ⟨0, zState, by decide +kernel⟩

theorem witness_InterruptEntersTheHandler :
    (∃ (k : Nat) (s : State) (v : State) (x : Checked) (u : State), u = s.coreTimer k ∧ k < 8 ∧ (u.core k).irq = true ∧ u.checkBundle k = (v, x) ∧
      (∀ e w at_, x ≠ .raises e w at_)) ∧
    (∃ (k : Nat) (e : Nat) (w : Nat) (at_ : Nat) (s : State) (v : State) (u : State), u = s.coreTimer k ∧ k < 8 ∧ (u.core k).irq = true ∧
      u.checkBundle k = (v, .raises e w at_)) := by
  refine ⟨?_, ?_⟩
  · exact ⟨0, (zCoreSt { zCore with status := 1, ip := 1, ie := 1, tvec := 64 }),
      (((zCoreSt { zCore with status := 1, ip := 1, ie := 1, tvec := 64 }).coreTimer 0).checkBundle 0).1,
      (.clear (bundleSlots (List.replicate 64 0)) 1000000000000), _, rfl, by decide +kernel, by decide +kernel, zPair (by decide +kernel),
      (fun _ _ _ h => nomatch h)⟩
  · exact ⟨0, 8, 64, 1000000000000, (zCoreSt { zCore with status := 1, ip := 1, ie := 1, tvec := 64, pc := 64 }),
      (((zCoreSt { zCore with status := 1, ip := 1, ie := 1, tvec := 64, pc := 64 }).coreTimer 0).checkBundle 0).1, _, rfl, by decide +kernel,
      by decide +kernel, zPair (by decide +kernel)⟩

theorem witness_CoreMemoryAndTimer :
    (∃ (k : Nat) (s : State), k < 8 ∧ (s.core k).timecmp ≤ s.time) ∧
    (∃ (k : Nat) (s : State), k < 8 ∧ s.time < (s.core k).timecmp) ∧
    (∃ (k : Nat) (j : Job) (img : List Byte) (arg : List Byte) (s : State) (sp : Nat) (addr : Nat) (len : Nat) (u : State) (v : State) (at_ : Nat),
      sp = fld (leAt j.desc 4 2) 1 0 ∧ addr = leAt j.desc 0x10 8 ∧ len = leAt j.desc 0x18 4 ∧
      u = (s.backlogLess j.hostImage).noteRead (some j.entry) sp addr len ∧
      v = (argSegments j).foldl (fun s a => s.noteRead (some j.entry) a.space a.addr a.len) u ∧
      at_ = pad64 (leAt img 0x0C 4 + leAt img 0x10 4 + leAt img 0x14 4) ∧ k < 8 ∧ (s.core k).job = some j.entry ∧ s.job j.entry = some j ∧
      (s.core k).phase = .loading ∧ (s.core k).lull = .awake ∧ v.readSpace j.region j.func sp addr len = some img ∧
      v.readArgs j (argSegments j) = some arg ∧ imageDefectOf img arg.length = none) ∧
    (∃ (k : Nat) (s : State), k < 8 ∧ s.gnm.visible.count k < (s.core k).sb.length) ∧
    (∃ (k : Nat) (e : StoreEntry) (es : List StoreEntry) (old : List Byte) (s : State) (v : State) (u : State),
      u = { s with gnm := { s.gnm with visible := [] } } ∧ s.gnm.visible = [k] ∧ (s.core k).sb = e :: es ∧
      s.sparging e.space e.addr (opSize e.op) = false ∧
      (u.updCore k (fun c => { c with sb := es })).access e.space { rank := coreStop k, region := some (s.core k).region, job := (s.core k).job, addr := e.addr, op := e.op, upset := 0 } = (v, some old)) ∧
    (∃ (k : Nat) (t : Transfer) (ts : List Transfer) (s : State), k < 8 ∧ (s.core k).transfers = t :: ts ∧ t.start = none ∧
      (s.core k).storesBelow t.after = false ∧ s.hostShut (s.core k) t = false ∧ s.areaIn (s.core k).region t.srcSpace t.src t.len = true ∧
      s.areaIn (s.core k).region t.dstSpace t.dst t.len = true) ∧
    (∃ (k : Nat) (t0 : Nat) (t : Transfer) (ts : List Transfer) (bs : List Byte) (s : State), k < 8 ∧ (s.core k).transfers = t :: ts ∧ t.start = some t0 ∧
      t0 + ceilDiv t.len t.rate ≤ s.time ∧ s.hostShut (s.core k) t = false ∧ s.sparging t.srcSpace t.src t.len = false ∧
      s.sparging t.dstSpace t.dst t.len = false ∧
      (s.noteRead (s.core k).job t.srcSpace t.src t.len).readSpace (s.core k).region (s.core k).func t.srcSpace t.src t.len = some bs) ∧
    (∃ (k : Nat) (s : State), k < 8 ∧ (s.core k).phase = .sparging ∧ (s.core k).spargeEnd ≤ s.gov.ccycles) := by
  refine ⟨?_, ?_, ?_, ?_, ?_, ?_, ?_, ?_⟩
  · exact ⟨0, (zState.updCore 0 (fun y0 => { y0 with timecmp := 0 })), by decide +kernel⟩
  · exact ⟨0, zState, by decide +kernel⟩
  · exact ⟨0, zProgJob, zImage, [], zProgSt, _, _, _, _, _, _, rfl, rfl, rfl, rfl, rfl, rfl, by decide +kernel, by decide +kernel, by decide +kernel,
      by decide +kernel, by decide +kernel, by decide +kernel, by decide +kernel,
      (by show imageDefectOf zImage 0 = none; unfold imageDefectOf; dsimp only; rw [zImage_crc]; decide +kernel)⟩
  · exact ⟨0, (zState.updCore 0 (fun y0 => { y0 with sb := [zStoreEntry] })), by decide +kernel⟩
  · exact ⟨0, zStoreEntry, [], [], ({ zState with gnm := { zState.gnm with visible := [0] } }).updCore 0 (fun x => { x with sb := zStoreEntry :: [] }),
      ((({ (({ zState with gnm := { zState.gnm with visible := [0] } }).updCore 0 (fun x => { x with sb := zStoreEntry :: [] })) with gnm := { (({ zState with gnm := { zState.gnm with visible := [0] } }).updCore 0 (fun x => { x with sb := zStoreEntry :: [] })).gnm with visible := [] } }).updCore 0 (fun c => { c with sb := [] })).access zStoreEntry.space { rank := coreStop 0, region := some ((({ zState with gnm := { zState.gnm with visible := [0] } }).updCore 0 (fun x => { x with sb := zStoreEntry :: [] })).core 0).region, job := ((({ zState with gnm := { zState.gnm with visible := [0] } }).updCore 0 (fun x => { x with sb := zStoreEntry :: [] })).core 0).job, addr := zStoreEntry.addr, op := zStoreEntry.op, upset := 0 }).1,
      _, rfl, by decide +kernel, by decide +kernel, by decide +kernel, zPair (by decide +kernel)⟩
  · exact ⟨0, { zTransfer with start := none }, [], (zState).updCore 0 (fun x => { x with transfers := { zTransfer with start := none } :: [] }),
      by decide +kernel⟩
  · exact ⟨0, 0, { zTransfer with start := some 0 }, [],
      (zDef _ ((((zState).updCore 0 (fun x => { x with transfers := { zTransfer with start := some 0 } :: [] })).noteRead (((zState).updCore 0 (fun x => { x with transfers := { zTransfer with start := some 0 } :: [] })).core 0).job { zTransfer with start := some 0 }.srcSpace { zTransfer with start := some 0 }.src { zTransfer with start := some 0 }.len).readSpace (((zState).updCore 0 (fun x => { x with transfers := { zTransfer with start := some 0 } :: [] })).core 0).region (((zState).updCore 0 (fun x => { x with transfers := { zTransfer with start := some 0 } :: [] })).core 0).func { zTransfer with start := some 0 }.srcSpace { zTransfer with start := some 0 }.src { zTransfer with start := some 0 }.len) (by decide +kernel)),
      (zState).updCore 0 (fun x => { x with transfers := { zTransfer with start := some 0 } :: [] }), by decide +kernel, by decide +kernel,
      by decide +kernel, by decide +kernel, by decide +kernel, by decide +kernel, by decide +kernel, (Option.some_get _).symm⟩
  · exact ⟨0, (zState).updCore 0 (fun x => { x with phase := .sparging }), by decide +kernel⟩

theorem witness_GovernorSteps :
    (∃ (t0 : Nat) (e : Nat) (short : Bool) (s : State), s.gov.tickDue = some (t0, e, short) ∧ s.ready = false ∧ s.gov.therm = .normal) ∧
    (∃ (t0 : Nat) (e : Nat) (want : Nat) (short : Bool) (s : State) (u : State),
      u = (if s.gov.therm = .normal then s.wr Reg.GOV_TICK_ENERGY (Nat.min (e / 1000) allOnes32) else (s.wr Reg.GOV_TICK_ENERGY (Nat.min (e / 1000) allOnes32)).bump Reg.GOV_THERM_TICKS 1) ∧
      s.gov.tickDue = some (t0, e, short) ∧ s.ready = true ∧ s.rg64 Reg.BOOT_READY_TIME_LO + 20000 ≤ t0 ∧
      (want = (if s.rf Reg.GOV_BUDGET 9 0 * 20000000 < e ∨ short = true then Nat.min 3 (s.ratio + 1) else if e * 256 < s.rf Reg.GOV_BUDGET 9 0 * 20000000 * s.rf Reg.GOV_BUDGET 31 24 then s.ratio - 1 else s.ratio)) ∧
      u.ready = true ∧ u.rg64 Reg.BOOT_READY_TIME_LO = s.rg64 Reg.BOOT_READY_TIME_LO) ∧
    (∃ (s : State), s.gov.tickDue = none) ∧
    (∃ (t0 : Nat) (s : State) (u : State) (v : State) (w : State),
      u = (s.wf Reg.GOV_CLK_STATE 1 0 (s.rf Reg.GOV_CLK_STATE 5 4)).wf Reg.GOV_CLK_STATE 8 8 0 ∧
      v = ({ u with gov := { u.gov with gapEnd := none, gapQuiet := false, rootPhase := cclkDiv (s.rf Reg.GOV_CLK_STATE 5 4) } }.bump Reg.GOV_RATIO_CHANGES 1).event 0x0800 pgGovernor ∧
      w = (if s.ratio < s.rf Reg.GOV_CLK_STATE 5 4 then v.avsRequest false (s.rf Reg.GOV_CLK_STATE 5 4) else v) ∧ s.gov.gapEnd = some t0 ∧
      t0 ≤ s.time ∧ s.gov.slowAfter = none ∧ s.gov.gapQuiet = false ∧ w.gov.slowAfter = none) ∧
    (∃ (mv : Nat) (s : State), s.gov.ackAsked = some mv ∧ ((bit (s.rg Reg.PINS_AVS_TARGET) 16 = false ∨ bit (s.rg Reg.PINS_AVS_TARGET) 17 = false)) ∧
      s.rf Reg.PINS_AVS_TARGET 15 0 = mv) ∧
    (∃ (mv : Nat) (t0 : Nat) (s : State) (u : State),
      u = ({ s with gov := { s.gov with ackAsked := none } }.wf Reg.PINS_AVS_TARGET 16 16 0).wf Reg.GOV_CLK_STATE 9 9 0 ∧ s.gov.ackAsked = some mv ∧
      bit (s.rg Reg.PINS_AVS_TARGET) 16 = true ∧ bit (s.rg Reg.PINS_AVS_TARGET) 17 = true ∧ s.rf Reg.PINS_AVS_TARGET 15 0 ≤ mv ∧
      s.gov.avsSince = some t0) ∧
    (∃ (t0 : Nat) (s : State), s.gov.avsSince = some t0 ∧ t0 + 200000 ≤ s.time) ∧
    (∃ (readings : List (Option Int)) (s : State) (u : State) (ts : List Int) (v : State),
      v = { u with boot := { u.boot with therm := ts } }.wr Reg.GOV_TJ_MAX (toTwos 16 (hottest ts)) ∧ s.gov.lastSample + 10000 ≤ s.time ∧
      (List.range 16).foldl (State.thermOne readings) ({ s with gov := { s.gov with lastSample := s.time } }, []) = (u, ts)) := by
  refine ⟨?_, ?_, ?_, ?_, ?_, ?_, ?_, ?_⟩
  · exact ⟨0, 0, true, { zState with gov := { zState.gov with tickDue := some (0, 0, true), therm := .normal } }, by decide +kernel⟩
  · exact ⟨20000, 0, 1, true, { (zReady.wr Reg.GOV_BUDGET 0).wf Reg.GOV_CLK_STATE 1 0 0 with gov := { zReady.gov with tickDue := some (20000, 0, true) } }, _,
      rfl, by decide +kernel⟩
  · exact ⟨{ zState with gov := { zState.gov with tickDue := none } }, by decide +kernel⟩
  · exact ⟨0, { zState with gov := { zState.gov with gapEnd := some 0, slowAfter := none, gapQuiet := false } }, _, _, _, rfl, rfl, rfl, by decide +kernel⟩
  · exact ⟨0, ({ zState with gov := { zState.gov with ackAsked := some 0 } }).wf Reg.PINS_AVS_TARGET 15 0 0, by decide +kernel⟩
  · exact ⟨5, 1, { (zState.wr Reg.PINS_AVS_TARGET 0x30005) with gov := { zState.gov with ackAsked := some 5, avsSince := some 1 } }, _, rfl, by decide +kernel⟩
  · exact ⟨0, { zState with gov := { zState.gov with avsSince := some 0 } }, by decide +kernel⟩
  · exact ⟨(List.replicate 16 none), zState,
      ((List.range 16).foldl (State.thermOne (List.replicate 16 none)) ({ zState with gov := { zState.gov with lastSample := zState.time } }, [])).1,
      ((List.range 16).foldl (State.thermOne (List.replicate 16 none)) ({ zState with gov := { zState.gov with lastSample := zState.time } }, [])).2,
      _, rfl, by decide +kernel, rfl⟩

theorem witness_EpochStepsComplete :
    (∃ (s : State), s.rf Reg.GOV_SYNC_CTRL 0 0 = 0 ∧ s.epochNext ≤ s.time) ∧
    (∃ (s : State), s.rf Reg.GOV_SYNC_CTRL 0 0 = 0 ∧ s.time < s.epochNext) ∧
    (∃ (s : State), s.rf Reg.GOV_SYNC_CTRL 0 0 = 1 ∧ s.epochNext + s.gov.epochLen / 8 ≤ s.time) ∧
    (∃ (s : State), s.gov.missAsked = true ∧ s.gov.bound = none) ∧
    (∃ (b : Nat) (s : State), s.gov.missAsked = true ∧ s.gov.bound = some b) ∧
    (∃ (src : Nat) (s : State), s.rf Reg.GOV_SYNC_CTRL 0 0 = 1 ∧ s.syncSelected src = true ∧ s.epochNext ≤ s.time - 40 + s.gov.epochLen / 8 ∧
      s.time - 40 + 40 ≤ s.epochNext + s.gov.epochLen / 8) ∧
    (∃ (src : Nat) (s : State), s.rf Reg.GOV_SYNC_CTRL 0 0 = 1 ∧ s.syncSelected src = true) ∧
    (∃ (t0 : Nat) (s : State), s.gov.syncOutEnd = some t0 ∧ t0 ≤ s.time) := by
  refine ⟨?_, ?_, ?_, ?_, ?_, ?_, ?_, ?_⟩
  · exact ⟨(zState).wf Reg.GOV_SYNC_CTRL 0 0 0, by decide +kernel⟩
  · exact ⟨{ zState with time := 0 }, by decide +kernel⟩
  · exact ⟨(zState).wf Reg.GOV_SYNC_CTRL 0 0 1, by decide +kernel⟩
  · exact ⟨{ zState with gov := { zState.gov with missAsked := true, bound := none } }, by decide +kernel⟩
  · exact ⟨0, { zState with gov := { zState.gov with missAsked := true, bound := some 0 } }, by decide +kernel⟩
  · exact ⟨0, ((zState.wr Reg.GOV_SYNC_CTRL 1).wr64 Reg.GOV_EPOCH_NEXT_LO 1000000000000), by decide +kernel⟩
  · exact ⟨0, (zState).wf Reg.GOV_SYNC_CTRL 0 0 1, by decide +kernel⟩
  · exact ⟨0, { zState with gov := { zState.gov with syncOutEnd := some 0 } }, by decide +kernel⟩

theorem witness_GovernorWritesComplete :
    (∃ (p : Path) (v : Word) (s : State) (u : State), u = s.turn p ∧ bit v.toNat 0 = true ∧ u.working = false ∧ u.poolUsed = 0 ∧
      u.rg64 Reg.GOV_TIME_LOAD_LO / 5 * 5 ≠ u.time) ∧
    (∃ (p : Path) (v : Word) (s : State) (u : State), u = s.turn p ∧ bit v.toNat 0 = true ∧ ((u.working = true ∨ 0 < u.poolUsed))) ∧
    (∃ (p : Path) (r : Nat) (s : State) (u : State), u = s.turn p ∧ r < 16) ∧
    (∃ (p : Path) (v : Word) (s : State) (u : State), u = s.turn p ∧ 100000 ≤ v.toNat ∧ v.toNat ≤ 100000000 ∧ v.toNat % 5 = 0 ∧ u.gov.bound = none) ∧
    (∃ (p : Path) (v : Word) (b : Nat) (s : State) (u : State) (w : State), u = s.turn p ∧ w = u.wr Reg.GOV_EPOCH_LEN v.toNat ∧ 100000 ≤ v.toNat ∧
      v.toNat ≤ 100000000 ∧ v.toNat % 5 = 0 ∧ u.gov.bound = some b) ∧
    (∃ (p : Path) (v : Word) (s : State) (u : State), u = s.turn p ∧ ((v.toNat < 100000 ∨ 100000000 < v.toNat ∨ v.toNat % 5 ≠ 0))) ∧
    (∃ (p : Path) (v : Word) (s : State) (u : State), u = s.turn p ∧ fld v.toNat 1 0 ≤ fld v.toNat 3 2) ∧
    (∃ (p : Path) (v : Word) (s : State) (u : State), u = s.turn p ∧ fld v.toNat 3 2 < fld v.toNat 1 0) := by
  refine ⟨?_, ?_, ?_, ?_, ?_, ?_, ?_, ?_⟩
  · exact ⟨.host, 1, zState.wr Reg.GOV_TIME_LOAD_LO 7, _, rfl, by decide +kernel⟩
  · exact ⟨.host, 1, { zState with jobs := [zJob] }, _, rfl, by decide +kernel⟩
  · exact ⟨.host, 0, zState, _, rfl, by decide +kernel⟩
  · exact ⟨.host, 100000000, zState, _, rfl, by decide +kernel⟩
  · exact ⟨.host, 100000, 0, { zState with gov := { zState.gov with bound := some 0 } }, _, _, rfl, rfl, by decide +kernel⟩
  · exact ⟨.host, 0, zState, _, rfl, by decide +kernel⟩
  · exact ⟨.host, 0, zState, _, rfl, by decide +kernel⟩
  · exact ⟨.host, 3, zState, _, rfl, by decide +kernel⟩

theorem witness_LullAndRefclk :
    (∃ (s : State), s.gov.refclk = true ∧ s.gov.locked = true) ∧
    (∃ (s : State), s.gov.refclk = true ∧ s.gov.locked = false) ∧
    (∃ (n : Nat) (s : State), s.lullOn = true ∧ n < 128 ∧ (s.tunSt n).lull = .awake ∧ s.tunIdle n = true ∧ s.idleLong (s.tunSt n).idleSince = true) ∧
    (∃ (k : Nat) (s : State), s.lullOn = true ∧ k < 8 ∧ (s.core k).lull = .awake ∧ s.coreIdle k = true ∧ s.idleLong (s.core k).idleSince = true) ∧
    (∃ (n : Nat) (s : State), s.lullOn = true ∧ 1 ≤ n ∧ n ≤ 3 ∧ (s.engLull (engineAt n)).lull = .awake ∧ s.engineIdle n = true ∧
      s.idleLong (s.engLull (engineAt n)).idleSince = true) ∧
    (∃ (n : Nat) (s : State), n < 128 ∧ s.ready = true ∧ s.rf Reg.GOV_LULL_CTRL 30 30 = 1 ∧ (s.tunRegion n).isSome = true ∧ (s.tunSt n).load = none ∧
      ((s.tunSt n).lull = .awake ∨ (s.tunSt n).lull = .lull) ∧ s.tunIdle n = true ∧ s.idleLong (s.tunSt n).idleSince = true) ∧
    (∃ (n : Nat) (t0 : Nat) (off : Bool) (s : State) (u : State), u = s.updTun n (fun x => { x with lull := .awake }) ∧
      (s.tunSt n).lull = .waking off t0 ∧ t0 ≤ s.time) ∧
    (∃ (k : Nat) (t0 : Nat) (off : Bool) (s : State) (u : State), u = s.updCore k (fun c => { c with lull := .awake }) ∧
      (s.core k).lull = .waking off t0 ∧ t0 ≤ s.time) ∧
    (∃ (n : Nat) (t0 : Nat) (off : Bool) (s : State), 1 ≤ n ∧ n ≤ 3 ∧ (s.engLull (engineAt n)).lull = .waking off t0 ∧ t0 ≤ s.time) := by
  refine ⟨?_, ?_, ?_, ?_, ?_, ?_, ?_, ?_, ?_⟩
  · exact ⟨{ zState with gov := { zState.gov with refclk := true, locked := true } }, by decide +kernel⟩
  · exact ⟨{ zState with gov := { zState.gov with refclk := true, locked := false } }, by decide +kernel⟩
  · exact ⟨0, ((zReady.wf Reg.GOV_LULL_CTRL 31 31 1).wf Reg.GOV_LULL_CTRL 30 30 1), by decide +kernel⟩
  · exact ⟨0, ((zReady.wf Reg.GOV_LULL_CTRL 31 31 1).wf Reg.GOV_LULL_CTRL 30 30 1), by decide +kernel⟩
  · exact ⟨1, ((zReady.wf Reg.GOV_LULL_CTRL 31 31 1).wf Reg.GOV_LULL_CTRL 30 30 1), by decide +kernel⟩
  · exact ⟨0, ((zFull.wf Reg.GOV_LULL_CTRL 31 31 1).wf Reg.GOV_LULL_CTRL 30 30 1), by decide +kernel⟩
  · exact ⟨0, 0, true, (zState).updTun 0 (fun x => { x with lull := .waking true 0 }), _, rfl, by decide +kernel⟩
  · exact ⟨0, 0, true, (zState).updCore 0 (fun x => { x with lull := .waking true 0 }), _, rfl, by decide +kernel⟩
  · exact ⟨1, 0, false, (zState.setEngLull (engineAt 1) { (zState.engLull (engineAt 1)) with lull := .waking false 0 }), by decide +kernel⟩

theorem witness_RegionCommandsComplete :
    (∃ (v : Word) (s : State), s.mem.rgnAsks = [v]) ∧
    (∃ (v : Word) (s : State) (r : Nat), r = fld v.toNat 3 0 ∧ fld v.toNat 31 28 = 1 ∧ s.ready = true ∧ s.pageFailed pgFabric = false ∧
      s.rf Reg.FAB_FAB_STATE 0 0 = 0 ∧ (s.staged r).rect = (s.rgn r).rect ∧ (s.staged r).commons = (s.rgn r).commons ∧
      (s.staged r).hbm = (s.rgn r).hbm) ∧
    (∃ (v : Word) (s : State) (r : Nat), r = fld v.toNat 3 0 ∧ fld v.toNat 31 28 = 1 ∧ s.ready = true ∧ s.pageFailed pgFabric = false ∧
      s.rf Reg.FAB_FAB_STATE 0 0 = 0 ∧ (s.staged r).rect ≠ (s.rgn r).rect ∧ s.quiet r (s.staged r).rect.toNat = true) ∧
    (∃ (v : Word) (s : State), fld v.toNat 31 28 = 1 ∧ s.ready = false) ∧
    (∃ (v : Word) (r : Nat), r = fld v.toNat 3 0 ∧ fld v.toNat 31 28 = 2) ∧
    (∃ (v : Word), (fld v.toNat 31 28 = 0 ∨ 2 < fld v.toNat 31 28)) := by
  refine ⟨?_, ?_, ?_, ?_, ?_, ?_⟩
  · exact ⟨0, { zState with mem := { zState.mem with rgnAsks := [0] } }, by decide +kernel⟩
  · exact ⟨268435456, ((zState).wf Reg.BOOT_BOOT_STATE 0 0 1).wf Reg.FAB_FAB_STATE 0 0 0, _, rfl, by decide +kernel⟩
  · exact ⟨0x10000000, (zReady.wr (fabRg 0 Reg.FRG_RG_RECT) 0x80000000), _, rfl, by decide +kernel⟩
  · exact ⟨268435456, zState, by decide +kernel⟩
  · exact ⟨536870912, _, rfl, by decide +kernel⟩
  · exact ⟨0, by decide +kernel⟩

theorem witness_PacketsMove :
    (∃ (q : Packet) (s : State), s.packet q.id = some q ∧ q.cls ≠ .mc ∧ q.loc < 128) ∧
    (∃ (q : Packet) (s : State), s.packet q.id = some q ∧ q.cls ≠ .mc ∧ 128 ≤ q.loc ∧ q.loc < 256) ∧
    (∃ (q : Packet) (s : State), s.packet q.id = some q ∧ q.cls ≠ .mc ∧ 256 ≤ q.loc) ∧
    (∃ (o : PacketOffer) (q : Packet) (s : State) (u : State), o.cls ≠ .mc ∧ o.flits ≠ 0 ∧ o.flits ≤ 9 ∧ placeGood o.src = true ∧ placeGood o.dst = true ∧
      s.offer o = (u, s.mem.nextPacket) ∧ u.packet s.mem.nextPacket = some q ∧ q.cls = o.cls ∧ 256 ≤ q.loc) ∧
    (∃ (q : Packet) (t : Nat) (s : State), q.loc = q.target ∧ s.front q = true ∧ s.packetNow q < s.cycleLimit ∧ s.routerBad q.loc = false ∧
      ((q.dst < 128 → s.tunOfRegion q q.loc = true)) ∧ s.grant q q.exit = some t) ∧
    (∃ (q : Packet) (s : State), s.packet q.id = some q ∧ q.cls = .mc ∧ q.loc < 256) ∧
    (∃ (q : Packet) (s : State), s.packet q.id = some q ∧ q.cls = .mc ∧ 256 ≤ q.loc) ∧
    (∃ (q : Packet) (s : State), (∃ t, t < 128 ∧ Nat.testBit q.mask t = true ∧ s.tunOfRegion q t = false)) ∧
    (∃ (q : Packet) (s : State), s.packet q.id = some q ∧ q.since + 65536 ≤ s.gov.ccycles) ∧
    (∃ (q : Packet) (s : State), s.packet q.id = some q ∧ s.gov.ccycles < q.since + 65536) := by
  refine ⟨?_, ?_, ?_, ?_, ?_, ?_, ?_, ?_, ?_, ?_⟩
  · exact ⟨zPacket, { zState with mem := { zState.mem with packets := [zPacket] } }, by decide +kernel⟩
  · exact ⟨{ zPacket with loc := 128, cls := .req }, { zState with mem := { zState.mem with packets := [{ zPacket with loc := 128, cls := .req }] } },
      by decide +kernel⟩
  · exact ⟨{ zPacket with loc := 256, cls := .req }, { zState with mem := { zState.mem with packets := [{ zPacket with loc := 256, cls := .req }] } },
      by decide +kernel⟩
  · exact ⟨{ cls := .req, region := none, src := 0, dst := 1, mask := 0, flits := 1, job := none },
      (((((zState.offer { cls := .req, region := none, src := 0, dst := 1, mask := 0, flits := 1, job := none }).1)).packet (zState).mem.nextPacket).getD zPacket),
      zState, (zState.offer { cls := .req, region := none, src := 0, dst := 1, mask := 0, flits := 1, job := none }).1, by decide +kernel,
      by decide +kernel, by decide +kernel, by decide +kernel, by decide +kernel, zPair (by decide +kernel), by decide +kernel, by decide +kernel,
      by decide +kernel⟩
  · exact ⟨{ zPacket with region := some 0, src := 1, since := 1 },
      (zDef _ ({ zFull with mem := { zFull.mem with packets := [{ zPacket with region := some 0, src := 1, since := 1 }] } }.grant { zPacket with region := some 0, src := 1, since := 1 } { zPacket with region := some 0, src := 1, since := 1 }.exit) (by decide +kernel)),
      { zFull with mem := { zFull.mem with packets := [{ zPacket with region := some 0, src := 1, since := 1 }] } }, by decide +kernel,
      by decide +kernel, by decide +kernel, by decide +kernel, by decide +kernel, (Option.some_get _).symm⟩
  · exact ⟨{ zPacket with cls := .mc }, { zState with mem := { zState.mem with packets := [{ zPacket with cls := .mc }] } }, by decide +kernel⟩
  · exact ⟨{ zPacket with loc := 256, cls := .mc }, { zState with mem := { zState.mem with packets := [{ zPacket with loc := 256, cls := .mc }] } },
      by decide +kernel⟩
  · exact ⟨{ zPacket with loc := 0, cls := .mc, mask := 2 },
      { zState with mem := { zState.mem with packets := [{ zPacket with loc := 0, cls := .mc, mask := 2 }] } }, ⟨1, by decide +kernel⟩⟩
  · exact ⟨zPacket, { zState with mem := { zState.mem with packets := [zPacket] } }, by decide +kernel⟩
  · exact ⟨{ zPacket with loc := 0, cls := .req, since := 1000000000000 },
      { zState with mem := { zState.mem with packets := [{ zPacket with loc := 0, cls := .req, since := 1000000000000 }] } }, by decide +kernel⟩

theorem witness_MemoryAccessesComplete :
    (∃ (r : MemReq) (s : State) (u : State),
      u = { s with mem := { s.mem with replies := [], comWait := Tab.put (fun _ => []) (comBank r.addr) [] s.mem.comWait } } ∧ comBank r.addr < 32 ∧
      inSpace spCom r = true ∧ r.addr % 64 + opSize r.op ≤ 64 ∧ s.contained spCom r = true ∧
      Tab.get (fun _ => []) s.mem.comWait (comBank r.addr) = [] ∧ u.accessHeld spCom r = false) ∧
    (∃ (r : MemReq) (port : Nat) (s : State) (u : State) (v : State),
      u = { s with mem := { s.mem with replies := [], hbmWait := Tab.put (fun _ => []) port [] s.mem.hbmWait } } ∧
      v = ({ u with mem := { u.mem with busyCycles := u.mem.busyCycles + 1 } }.bump64 (hbmReg (port / 4) Reg.HBM_BUSY_CYC_LO) 1).event 0x0B40 (pgHbm (port / 4)) { inst := some (port / 4) } ∧
      port = 4 * hbmStack r.addr + hbmPort r.addr ∧ port < 16 ∧ inSpace spHbm r = true ∧ r.addr % 256 + opSize r.op ≤ 256 ∧
      s.contained spHbm r = true ∧ Tab.get (fun _ => []) s.mem.hbmWait port = [] ∧ u.accessHeld spHbm r = false) ∧
    (∃ (k : Nat) (ks : List Nat) (s : State), s.mem.writeBacks = k :: ks ∧ s.mark k = 1) ∧
    (∃ (k : Nat) (ks : List Nat) (s : State), s.mem.writeBacks = k :: ks ∧ s.mark k ≠ 1) ∧
    (∃ (stack : Nat) (s : State) (a : Nat) (u : State), a = stackAddr stack (Tab.get (fun _ => 0) s.mem.patrol stack) ∧
      u = { s with mem := { s.mem with patrol := (Tab.put (fun _ => 0) stack ((Tab.get (fun _ => 0) s.mem.patrol stack + 1) % stackWords) s.mem.patrol) } } ∧
      stack < 4 ∧ s.rf (hbmReg stack Reg.HBM_SCRUB) 15 0 ≠ 0 ∧ s.rf (hbmReg stack Reg.HBM_HBM_STATE) 2 0 = 3) ∧
    (∃ (s : State) (occ : Nat), occ = Nat.min 256 (256 * s.mem.busyCycles / 16384) ∧ occ ≤ s.rf Reg.PRD_FETCH_CTRL 7 0) ∧
    (∃ (s : State) (occ : Nat) (u : State), occ = Nat.min 256 (256 * s.mem.busyCycles / 16384) ∧
      u = { s with mem := { s.mem with busyCycles := 0 } }.wr Reg.MEM_HBM_BUSY occ ∧ s.rf Reg.PRD_FETCH_CTRL 7 0 < occ ∧
      u.rf Reg.PRD_FETCH_CTRL 7 0 = s.rf Reg.PRD_FETCH_CTRL 7 0) ∧
    (∃ (stack : Nat), stack < 4) := by
  refine ⟨?_, ?_, ?_, ?_, ?_, ?_, ?_, ?_⟩
  · exact ⟨zMemReq, zState, _, rfl, by decide +kernel⟩
  · exact ⟨zMemReq, 0, zState, _, _, rfl, rfl, by decide +kernel⟩
  · exact ⟨5, [], { zState with mem := { zState.mem with writeBacks := [5], marks := [(5, 1)] } }, by decide +kernel⟩
  · exact ⟨0, [], { zState with mem := { zState.mem with writeBacks := 0 :: [] } }, by decide +kernel⟩
  · exact ⟨0, (zState).wf (hbmReg 0 Reg.HBM_HBM_STATE) 2 0 3, _, _, rfl, rfl, by decide +kernel⟩
  · exact ⟨zState, _, rfl, by decide +kernel⟩
  · exact ⟨{ (zState.wf Reg.PRD_FETCH_CTRL 7 0 0) with mem := { zState.mem with busyCycles := 16384 } }, _, _, rfl, rfl, by decide +kernel⟩
  · exact ⟨0, by decide +kernel⟩

theorem witness_MarchesComplete :
    (∃ (a : MemAsk) (s : State), s.mem.asks = [a]) ∧
    (∃ (a : MemAsk) (s : State) (t : State), t = s.memCommand a ∧ a.op = some 1 ∧ a.kind = 2 ∧ a.fails = [] ∧
      s.marchCheck true a.kind a.inst a.start a.count = 0 ∧ Tab.wf (fun _ => 0) s.commons = true) ∧
    (∃ (a : MemAsk) (s : State), a.op = some 2 ∧ s.marchCheck false a.kind a.inst a.start a.count = 0) ∧
    (∃ (a : MemAsk) (c : Nat) (s : State), c ≠ 0 ∧
      ((a.op = some 1 ∧ s.marchCheck true a.kind a.inst a.start a.count = c ∨ a.op = some 2 ∧ s.marchCheck false a.kind a.inst a.start a.count = c))) ∧
    (∃ (a : MemAsk) (m : March) (s : State), a.op = some 3 ∧ s.ready = true ∧ s.mem.marches.getLast? = some m ∧ m.destructive = false) ∧
    (∃ (a : MemAsk) (m : March) (s : State), a.op = some 3 ∧ s.ready = true ∧ s.mem.marches.getLast? = some m ∧ m.destructive = true) ∧
    (∃ (a : MemAsk) (n : Nat) (s : State), a.op = some n ∧ (n = 0 ∨ 3 < n) ∧ s.ready = true) ∧
    (∃ (r : Run) (m : March) (tun : Nat) (fails : List (Nat × Nat)) (s : State) (u : State) (v : State),
      u = s.marchCover m (Nat.min 2048 (m.count - m.done)) fails ∧
      v = (u.wr (tunReg tun Reg.TUN_SWEEP_LAST_CYC) (satAdd 32 (u.rg (tunReg tun Reg.TUN_SWEEP_LAST_CYC)) (u.gov.ccycles - r.sweepFrom))).event 0x0109 (pageIdx .tun tun) { inst := some tun } ∧
      s.run r.cmd = some r ∧ s.mem.marches.find? (fun m => m.kind == 0 && m.inst == tun && !m.destructive) = some m ∧ r.tuns = [tun] ∧
      s.ssramFree tun .march = true ∧ r.phase = .sweeping ∧ m.done < m.count ∧ m.sliceEnd = none ∧ r.runFrom + 3840 ≤ s.gov.ccycles) ∧
    (∃ (m : March) (s : State), s.mem.marches = [m] ∧ m.paused = true ∧ s.engineInUse m.kind = false) ∧
    (∃ (m : March) (s : State), s.mem.marches = [m] ∧ m.destructive = true ∧ s.marchHeld m = false) ∧
    (∃ (m : March) (fails : List (Nat × Nat)) (s : State) (u : State), u = s.marchCover m (m.count - m.done) fails ∧ s.mem.marches = [m] ∧
      m.destructive = false ∧ (m.kind = 1 ∨ m.kind = 2) ∧ m.paused = false) := by
  refine ⟨?_, ?_, ?_, ?_, ?_, ?_, ?_, ?_, ?_, ?_, ?_⟩
  · exact ⟨zMemAsk, { zState with mem := { zState.mem with asks := [zMemAsk] } }, by decide +kernel⟩
  · exact ⟨{ zMemAsk with op := some 1, kind := 2, inst := 0, start := 0, count := 8 }, zReady, _, rfl, by decide +kernel⟩
  · exact ⟨{ zMemAsk with op := some 2, kind := 2, inst := 0, start := 0, count := 8 }, zReady, by decide +kernel⟩
  · exact ⟨{ zMemAsk with op := some 1, kind := 2, inst := 0, start := 0, count := 8 }, 6, zState, by decide +kernel⟩
  · exact ⟨{ zMemAsk with op := some 3, kind := 2, inst := 0, start := 0, count := 8 }, { zMarch with destructive := false },
      { zReady with mem := { zReady.mem with marches := [{ zMarch with destructive := false }] } }, by decide +kernel⟩
  · exact ⟨{ zMemAsk with op := some 3, kind := 2, inst := 0, start := 0, count := 8 }, { zMarch with destructive := true },
      { zReady with mem := { zReady.mem with marches := [{ zMarch with destructive := true }] } }, by decide +kernel⟩
  · exact ⟨{ zMemAsk with op := some 0 }, 0, (zState).wf Reg.BOOT_BOOT_STATE 0 0 1, by decide +kernel⟩
  · exact ⟨{ zRunD with atGap := true }, { zMarch with count := 1 }, 0, [],
      { zRunSt { zRunD with atGap := true } zDense1 zCmdT with mem := { zState.mem with marches := [{ zMarch with count := 1 }] } }, _, _, rfl, rfl,
      by decide +kernel⟩
  · exact ⟨{ zMarch with paused := true }, { zState with mem := { zState.mem with marches := [{ zMarch with paused := true }] } }, by decide +kernel⟩
  · exact ⟨{ zMarch with destructive := true }, { zState with mem := { zState.mem with marches := [{ zMarch with destructive := true }] } }, by decide +kernel⟩
  · exact ⟨{ zMarch with kind := 1 }, [], { zState with mem := { zState.mem with marches := [{ zMarch with kind := 1 }] } }, _, rfl, by decide +kernel⟩

theorem witness_SpargesComplete :
    (∃ (p : Path) (v : Word) (s : State) (u : State) (a : MemAsk), u = s.turn p ∧
      a = ⟨none, u.rf Reg.MEM_SPARGE_TARGET 31 28, u.rf Reg.MEM_SPARGE_TARGET 7 0, u.rg64 Reg.MEM_SPARGE_BASE_LO, u.rg64 Reg.MEM_SPARGE_BYTES_LO, []⟩ ∧
      bit v.toNat 0 = true) ∧
    (∃ (p : Path) (v : Word) (s : State) (u : State), u = s.turn p ∧ bit v.toNat 0 = false) ∧
    (∃ (a : MemAsk) (s : State) (t : State), t = s.memCommand a ∧ a.op = none ∧ s.ready = true ∧ a.kind = 1 ∧ a.start % 64 = 0 ∧ a.count ≠ 0 ∧
      a.count % 64 = 0 ∧ a.start + a.count ≤ spaceSize spCom ∧ s.rangeOwned spCom a.start a.count = false ∧
      s.rangeMarched spCom a.start a.count = false ∧ s.sparging spCom a.start a.count = false ∧ Tab.wf (fun _ => 0) s.commons = true) ∧
    (∃ (a : MemAsk) (s : State), a.op = none ∧ s.ready = true ∧ a.kind = 0 ∧ a.inst < 128 ∧ s.tunInUse a.inst = false ∧ s.gwClaims a.inst = false ∧
      s.targetBusy 0 a.inst = false) ∧
    (∃ (g : Sparge) (gs : List Sparge) (s : State), s.mem.sparges = g :: gs ∧ g.tun = none) ∧
    (∃ (g : Sparge) (gs : List Sparge) (n : Nat) (s : State) (u : State), u = s.updTun n (fun x => { x with idleSince := s.time }) ∧
      s.mem.sparges = g :: gs ∧ g.tun = some n ∧ g.from_ + 4096 ≤ s.gov.ccycles) := by
  refine ⟨?_, ?_, ?_, ?_, ?_, ?_⟩
  · exact ⟨.host, 1, zState, _, _, rfl, rfl, by decide +kernel⟩
  · exact ⟨.host, 0, zState, _, rfl, by decide +kernel⟩
  · exact ⟨{ zMemAsk with op := none, kind := 1, start := 0, count := 64 }, zReady, _, rfl, by decide +kernel⟩
  · exact ⟨{ zMemAsk with op := none, kind := 0 }, (zState).wf Reg.BOOT_BOOT_STATE 0 0 1, by decide +kernel⟩
  · exact ⟨{ zSparge with tun := none }, [], { zState with mem := { zState.mem with sparges := { zSparge with tun := none } :: [] } }, by decide +kernel⟩
  · exact ⟨{ zSparge with tun := some 0 }, [], 0, { zState with mem := { zState.mem with sparges := { zSparge with tun := some 0 } :: [] } }, _, rfl,
      by decide +kernel⟩

theorem witness_NoiseSourcesComplete :
    (∃ (bits : Nat) (s : State) (u : State), u = (List.range 3).foldl (State.sampleSource bits) { s with ent := { s.ent with lastSample := s.time } } ∧
      s.ent.lastSample + 40 ≤ s.time ∧ s.ent.samples < 128) ∧
    (∃ (bits : Nat) (n : Nat) (x : NoiseSource) (y : NoiseSource) (s : State) (b : Bool) (u : State), b = bit bits n ∧ u = State.sampleSource bits s n ∧
      n < 3 ∧ s.src n = x ∧ x.st = 2 ∧ x.testLeft = none ∧ 0 < x.aptPos ∧ Nat.testBit (s.rg Reg.ENT_TP_CTRL) n = false ∧
      x.test (s.sourceFigures n) b = (y, true, false) ∧ s.ent.sources.length = 3) ∧
    (∃ (s : State) (u : State) (v : State), u = { s with ent := { s.ent with policy := s.rf Reg.ENT_CHAN_CTRL 1 0 } } ∧
      v = (List.range 3).foldl State.offerWord u ∧ 128 ≤ s.ent.samples ∧ s.ent.kat = none) ∧
    (∃ (src : Nat) (t0 : Nat) (s : State), (s.src src).nextTest = some t0 ∧ t0 ≤ s.time) ∧
    (∃ (v : Nat) (n : Nat) (s : State) (t : State), t = s.srcCtrlWrite v ∧ n < 3 ∧ s.ent.sources.length = 3) ∧
    (∃ (p : Path) (s : State) (u : State), u = s.turn p ∧ u.lcState = 1) ∧
    (∃ (p : Path) (v : Word) (s : State) (u : State), u = s.turn p ∧ u.lcState = 1 ∧ u.rg Reg.ENT_TP_CTRL = 0 ∧ v.toNat = 2) ∧
    (∃ (p : Path) (s : State) (u : State), u = s.turn p ∧ u.lcState ≠ 1) := by
  refine ⟨?_, ?_, ?_, ?_, ?_, ?_, ?_, ?_⟩
  · exact ⟨0, zState, _, rfl, by decide +kernel⟩
  · exact ⟨0, 0, zNoise, (zNoise.test ((zState.updSrc 0 (fun _ => zNoise)).sourceFigures 0) false).1, (zState.updSrc 0 (fun _ => zNoise)), _, _, rfl, rfl,
      by decide +kernel⟩
  · exact ⟨{ zState with ent := { zState.ent with samples := 128 } }, _, _, rfl, rfl, by decide +kernel⟩
  · exact ⟨0, 0, (zState).updSrc 0 (fun x => { x with nextTest := some 0 }), by decide +kernel⟩
  · exact ⟨0, 0, zState, _, rfl, by decide +kernel⟩
  · exact ⟨.host, (zState).wf Reg.KEY_LC_STATE 2 0 1, _, rfl, by decide +kernel⟩
  · exact ⟨.host, 2, (zState).wf Reg.KEY_LC_STATE 2 0 1, _, rfl, by decide +kernel⟩
  · exact ⟨.host, zState, _, rfl, by decide +kernel⟩

theorem witness_ChannelsAndKnownAnswers :
    (∃ (chan : Nat) (t0 : Nat) (b : List Nat) (rest : List (Nat × List Nat)) (s : State), (s.chan chan).coming = (t0, b) :: rest ∧ t0 ≤ s.time) ∧
    (∃ (chan : Nat) (s : State), chan < 4 ∧ (s.chan chan).instantiated = true ∧ (s.chan chan).gen = none ∧ (s.chan chan).need = none ∧
      (s.chan chan).st = 2 ∧ (s.chan chan).reserve.length ≤ 4032 ∧ s.reseedDue chan = false) ∧
    (∃ (chan : Nat) (s : State), chan < 4 ∧ (s.chan chan).instantiated = true ∧ (s.chan chan).gen = none ∧ (s.chan chan).need = none ∧
      (s.chan chan).st = 2 ∧ (s.chan chan).reserve.length ≤ 4032 ∧ s.reseedDue chan = true) ∧
    (∃ (t0 : Nat) (c : Channel) (s : State), s.chan 0 = c ∧ c.gen = some t0 ∧ t0 + 560 ≤ s.time) ∧
    (∃ (chan : Nat) (c : Channel) (s : State), s.chan chan = c ∧ c.need = some false ∧ 3 ≤ c.blocks.length ∧ c.readyAt + 60 ≤ s.time ∧ c.st = 1) ∧
    (∃ (p : Path) (s : State) (v : State) (b : List Byte) (u : State), u = s.turn p ∧ u.ent.softRead = none ∧ u.draw 3 4 = (v, some b)) ∧
    (∃ (p : Path) (s : State) (v : State) (u : State), u = s.turn p ∧ u.ent.softRead = none ∧ u.draw 3 4 = (v, none)) ∧
    (∃ (p : Path) (v : Word) (s : State) (u : State), u = s.turn p ∧ bit v.toNat 31 = true ∧ fld v.toNat 2 0 = 0 ∧ u.ent.kat = none ∧
      u.ent.katEnded = false) ∧
    (∃ (p : Path) (v : Word) (s : State) (u : State) (n : Nat), u = s.turn p ∧ n = fld v.toNat 2 0 ∧ bit v.toNat 31 = true ∧ 1 ≤ n ∧ n ≤ 4 ∧
      u.ent.kat = none ∧ u.ent.katEnded = false ∧ (u.chan (n - 1)).st ≠ 5 ∧ (u.chan (n - 1)).st ≠ 6) ∧
    (∃ (s : State), (s.ent.kat.isSome = true ∨ s.ent.katEnded = true)) ∧
    (∃ (k : Kat) (s : State), s.ent.kat = some k ∧ k.started = none ∧ k.target ≠ 0 ∧
      (4096 ≤ (s.chan (k.target - 1)).reserve.length ∨ k.asked + 100000 ≤ s.time)) ∧
    (∃ (k : Kat) (t0 : Nat) (s : State), s.ent.kat = some k ∧ k.boot = false ∧ k.started = some t0 ∧ k.target = 0 ∧ t0 + 1000 ≤ s.time ∧
      s.ent.katBusy = false) ∧
    (∃ (k : Kat) (t0 : Nat) (s : State), s.ent.kat = some k ∧ k.boot = false ∧ k.started = some t0 ∧ k.target ≠ 0 ∧ t0 + 2000 ≤ s.time ∧
      s.ent.katBusy = false) ∧
    (∃ (k : Kat) (t0 : Nat) (s : State), s.ent.kat = some k ∧ k.boot = false ∧ k.started = some t0 ∧ t0 + 2000 ≤ s.time ∧ s.ent.katBusy = false) ∧
    (∃ (p : Path) (v : Word) (s : State) (u : State), u = s.turn p ∧ bit v.toNat 31 = true ∧ 4 < fld v.toNat 2 0) := by
  refine ⟨?_, ?_, ?_, ?_, ?_, ?_, ?_, ?_, ?_, ?_, ?_, ?_, ?_, ?_, ?_⟩
  · exact ⟨0, 0, [], [], (zState).updChan 0 (fun x => { x with coming := (0, []) :: [] }), by decide +kernel⟩
  · exact ⟨1, (zState.updChan 1 (fun y0 => { y0 with instantiated := true, gen := none, need := none, st := 2, reserve := [], since := 0 })), by decide +kernel⟩
  · exact ⟨0,
      ((((zState).updChan 0 (fun x => { x with instantiated := true })).updChan 0 (fun x => { x with gen := none })).updChan 0 (fun x => { x with need := none })).updChan 0 (fun x => { x with st := 2 }),
      by decide +kernel⟩
  · exact ⟨0, { Channel.reset with gen := some 0 }, (zState.updChan 0 (fun _ => { Channel.reset with gen := some 0 })), by decide +kernel⟩
  · exact ⟨1, { Channel.reset with need := some false, blocks := [[], [], []], readyAt := 0, st := 1 },
      (zState.updChan 1 (fun _ => { Channel.reset with need := some false, blocks := [[], [], []], readyAt := 0, st := 1 })), by decide +kernel⟩
  · exact ⟨.host, ((zState.wf Reg.ENT_ENT_STATE 16 16 1).updChan 3 (fun y0 => { y0 with reserve := List.replicate 8 0 })),
      (((((zState.wf Reg.ENT_ENT_STATE 16 16 1).updChan 3 (fun y0 => { y0 with reserve := List.replicate 8 0 }))).turn .host).draw 3 4).1,
      [0, 0, 0, 0], _, rfl, by decide +kernel, zPair (by decide +kernel)⟩
  · exact ⟨.host, zState, ((zState.turn .host).draw 3 4).1, _, rfl, by decide +kernel, zPair (by decide +kernel)⟩
  · exact ⟨.host, 2147483648, zState, _, rfl, by decide +kernel⟩
  · exact ⟨.host, 0x80000001, zState, _, _, rfl, rfl, by decide +kernel⟩
  · exact ⟨{ zState with ent := { zState.ent with katEnded := true } }, by decide +kernel⟩
  · exact ⟨{ target := 1, asked := 0, started := none, boot := false },
      { zState with ent := { zState.ent with kat := some { target := 1, asked := 0, started := none, boot := false } } }, by decide +kernel⟩
  · exact ⟨{ target := 0, asked := 0, started := some 0, boot := false }, 0,
      { zState with ent := { zState.ent with kat := some { target := 0, asked := 0, started := some 0, boot := false }, katBusy := false } },
      by decide +kernel⟩
  · exact ⟨{ target := 1, asked := 0, started := some 0, boot := false }, 0,
      { zState with ent := { zState.ent with kat := some { target := 1, asked := 0, started := some 0, boot := false }, katBusy := false } },
      by decide +kernel⟩
  · exact ⟨{ target := 1, asked := 0, started := some 0, boot := false }, 0,
      { zState with ent := { zState.ent with kat := some { target := 1, asked := 0, started := some 0, boot := false }, katBusy := false } },
      by decide +kernel⟩
  · exact ⟨.host, 0x80000005, zState, _, rfl, by decide +kernel⟩

theorem witness_LifecycleCommandsComplete :
    (∃ (v : Word) (n : Nat) (s : State) (u : State), u = s.turn .manager ∧ fld v.toNat 31 28 = 1 ∧ u.lcCheck (fld v.toNat 2 0) = 0 ∧
      u.lcRecord (fld v.toNat 2 0) = some n ∧ ¬(u.lcState = 3 ∧ fld v.toNat 2 0 = 4)) ∧
    (∃ (v : Word) (s : State) (u : State) (c : Nat), u = s.turn .manager ∧ c = u.lcCheck (fld v.toNat 2 0) ∧ fld v.toNat 31 28 = 1 ∧ c ≠ 0 ∧
      u.key.lc = none ∧ ¬(u.lcState = 3 ∧ fld v.toNat 2 0 = 4)) ∧
    (∃ (v : Word) (s : State) (u : State), u = s.turn .host ∧ fld v.toNat 31 28 = 1) ∧
    (∃ (p : Path) (v : Word) (s : State) (u : State) (c : Nat), u = s.turn p ∧ c = (if p = .host then 8 else 1) ∧ fld v.toNat 31 28 ≠ 1) ∧
    (∃ (r : LcRun) (s : State) (u : State), u = (s.program (16 * r.record) 8 (lcIntent r.record)).program (16 * r.record + 8) 4 lcCommit ∧
      s.key.lc = some r ∧ r.seedDue = false ∧ r.start + 100000 ≤ s.time) ∧
    (∃ (r : LcRun) (s : State), s.key.lc = some r ∧ (r.seedDue = true ∨ s.time < r.start + 100000)) := by
  refine ⟨?_, ?_, ?_, ?_, ?_, ?_⟩
  · exact ⟨0x10000001, 0, zState, _, rfl, by decide +kernel⟩
  · exact ⟨268435456, zState, _, _, rfl, rfl, by decide +kernel⟩
  · exact ⟨268435456, zState, _, rfl, by decide +kernel⟩
  · exact ⟨.host, 0, zState, _, _, rfl, rfl, by decide +kernel⟩
  · exact ⟨{ zLcRun with seedDue := false }, { zState with key := { zState.key with lc := some { zLcRun with seedDue := false } } }, _, rfl, by decide +kernel⟩
  · exact ⟨{ record := 0, seedDue := true, start := 0 }, { zState with key := { zState.key with lc := some { record := 0, seedDue := true, start := 0 } } },
      by decide +kernel⟩

theorem witness_ResponderAnswers :
    (∃ (s : State), s.mctpUp = true) ∧
    (∃ (s : State), s.mctpUp = true) ∧
    (∃ (s : State), s.mctpUp = true) ∧
    (∃ (s : State), s.mctpUp = true) ∧
    (∃ (s : State), s.mctpUp = true ∧ s.key.chain ≠ []) ∧
    (∃ (i : Nat) (x : Session) (s : State), s.mctpUp = true ∧ s.key.sessions.find? (fun x => x.id == i) = some x ∧ x.done = false) ∧
    (∃ (s : State), s.mctpUp = true) ∧
    (∃ (index : Nat) (sign : Bool) (s : State), s.mctpUp = true ∧ ((index = 0xFF ∨ (1 ≤ index ∧ index ≤ 4))) ∧ ((sign = false ∨ s.signer.isSome = true))) ∧
    (∃ (i : Nat) (s : State), s.mctpUp = true ∧ s.key.sessions.find? (fun x => x.id == i) = none) ∧
    (∃ (x : Nat) (y : Nat) (s : State), s.mctpUp = true ∧ s.key.lc = none ∧ s.pendingReset = false ∧ s.key.sessions.length < 4 ∧ s.signer.isSome = true ∧
      onCurve (x, y) = true) ∧
    (∃ (s : State), s.mctpUp = true ∧ s.key.lc = none ∧ s.pendingReset = false ∧ 4 ≤ s.key.sessions.length) ∧
    (∃ (s : State), s.mctpUp = true ∧ (s.key.lc.isSome = true ∨ s.pendingReset = true)) ∧
    (∃ (t : KeyTask) (m : List Byte) (s : State), s.key.tasks = [t] ∧ t.work = .challenge m ∧ t.since + 16384000 ≤ s.time) := by
  refine ⟨?_, ?_, ?_, ?_, ?_, ?_, ?_, ?_, ?_, ?_, ?_, ?_, ?_⟩
  · exact ⟨(zState).wf Reg.BOOT_BOOT_STATE 31 28 3, by decide +kernel⟩
  · exact ⟨(zState).wf Reg.BOOT_BOOT_STATE 31 28 3, by decide +kernel⟩
  · exact ⟨(zState).wf Reg.BOOT_BOOT_STATE 31 28 3, by decide +kernel⟩
  · exact ⟨(zState).wf Reg.BOOT_BOOT_STATE 31 28 3, by decide +kernel⟩
  · exact ⟨{ (zState.wf Reg.BOOT_BOOT_STATE 31 28 3) with key := { (zState.wf Reg.BOOT_BOOT_STATE 31 28 3).key with chain := [1] } }, by decide +kernel⟩
  · exact ⟨1, { id := 1, e := .pcie, done := false, secret := 0 },
      { (zState.wf Reg.BOOT_BOOT_STATE 31 28 3) with key := { (zState.wf Reg.BOOT_BOOT_STATE 31 28 3).key with sessions := [{ id := 1, e := .pcie, done := false, secret := 0 }] } },
      by decide +kernel⟩
  · exact ⟨(zState).wf Reg.BOOT_BOOT_STATE 31 28 3, by decide +kernel⟩
  · exact ⟨0xFF, false, (zState).wf Reg.BOOT_BOOT_STATE 31 28 3, by decide +kernel⟩
  · exact ⟨0, (zState).wf Reg.BOOT_BOOT_STATE 31 28 3, by decide +kernel⟩
  · exact ⟨0xAA87CA22BE8B05378EB1C71EF320AD746E1D3B628BA79B9859F741E082542A385502F25DBF55296C3A545E3872760AB7,
      0x3617DE4A96262C6F5D9E98BF9292DC29F8F41DBD289A147CE9DA3113B5F0B8C00A60B1CE1D7E819D7A431D7C90EA0E5F,
      { (zState.wf Reg.BOOT_BOOT_STATE 31 28 3) with key := { (zState.wf Reg.BOOT_BOOT_STATE 31 28 3).key with ident := some (1, 2, 3) } },
      by decide +kernel⟩
  · exact ⟨{ (zState.wf Reg.BOOT_BOOT_STATE 31 28 3) with key := { (zState.wf Reg.BOOT_BOOT_STATE 31 28 3).key with sessions := List.replicate 4 { id := 1, e := .pcie, done := false, secret := 0 } } },
      by decide +kernel⟩
  · exact ⟨((zState.wf Reg.BOOT_BOOT_STATE 31 28 3).wf Reg.KEY_LC_STATE 5 5 1), by decide +kernel⟩
  · exact ⟨{ zKeyTask with work := .challenge [] }, [], { zState with key := { zState.key with tasks := [{ zKeyTask with work := .challenge [] }] } },
      by decide +kernel⟩

theorem witness_SessionKeysAreManaged :
    (∃ (session : Option Nat) (s : State), s.mctpUp = true ∧ s.ideSession session = true) ∧
    (∃ (session : Option Nat) (s : State), s.mctpUp = true ∧ s.ideSession session = false) ∧
    (∃ (session : Option Nat) (stream : Nat) (set : Nat) (dir : Nat) (sub : Nat) (key : List Byte) (s : State), s.mctpUp = true ∧
      s.ideSession session = true ∧ key.length = 40 ∧ ideFits stream set dir sub = true) ∧
    (∃ (session : Option Nat) (stream : Nat) (set : Nat) (dir : Nat) (sub : Nat) (s : State), s.mctpUp = true ∧ s.ideSession session = true ∧
      ideFits stream set dir sub = true ∧ Tab.get (fun _ => []) s.key.ideKeys (6 * set + 3 * dir + sub) ≠ []) ∧
    (∃ (session : Option Nat) (stream : Nat) (set : Nat) (dir : Nat) (sub : Nat) (s : State), s.mctpUp = true ∧ s.ideSession session = true ∧
      ideFits stream set dir sub = true ∧ Tab.get (fun _ => 0) s.key.ideActive (3 * dir + sub) ≠ set + 1) ∧
    (∃ (e : Endpoint) (session : Option Nat) (b : List Byte) (nonce : List Byte) (x : Session) (s : State) (v : State) (t : TenantCmd) (u : State),
      t = ⟨e, session, b, false⟩ ∧ u = { s with key := { s.key with tenants := [t] } } ∧ leAt b 0 1 = 1 ∧ s.secure session = some x ∧
      s.key.tenants = [] ∧ s.key.write = none ∧ s.key.tasks = [] ∧ s.slotBusy b = false ∧ s.pendingReset = false ∧ s.key.lc = none ∧
      s.tenantCheck b = 0 ∧ u.drawKey 8 = (v, some nonce)) ∧
    (∃ (e : Endpoint) (session : Option Nat) (b : List Byte) (fail : Bool) (x : Session) (s : State) (t : TenantCmd) (u : State),
      t = ⟨e, session, b, fail⟩ ∧ u = { s with key := { s.key with tenants := [t] } } ∧ leAt b 0 1 = 2 ∧ s.secure session = some x ∧
      s.key.tenants = [] ∧ s.key.write = none ∧ s.key.tasks = [] ∧ s.slotBusy b = false ∧ s.pendingReset = false ∧ s.key.lc = none ∧
      s.tenantCheck b = 0) ∧
    (∃ (e : Endpoint) (session : Option Nat) (b : List Byte) (x : Session) (s : State) (t : TenantCmd) (u : State), t = ⟨e, session, b, false⟩ ∧
      u = { s with key := { s.key with tenants := [t] } } ∧ leAt b 0 1 = 3 ∧ s.secure session = some x ∧ s.key.tenants = [] ∧ s.key.write = none ∧
      s.key.tasks = [] ∧ s.pendingReset = false ∧ s.key.lc = none ∧ s.tenantCheck b = 0) ∧
    (∃ (session : Option Nat) (b : List Byte) (s : State), leAt b 0 1 = 3 ∧ s.secure session = none) ∧
    (∃ (b : Nat) (gen : Nat) (t : TenantCmd) (s : State) (slot : Nat) (u : State), slot = leAt t.payload 1 1 ∧
      u = (s.bumpSat Reg.KEY_STORE_WRITES 1).event 0x0D01 pgKey ∧ s.key.write = some (b, gen) ∧ s.key.tenants = [t]) ∧
    (∃ (b : Nat) (gen : Nat) (t : TenantCmd) (s : State) (slot : Nat) (u : State), slot = leAt t.payload 1 1 ∧
      u = (s.bumpSat Reg.KEY_STORE_WRITES 1).event 0x0D01 pgKey ∧ s.key.write = some (b, gen) ∧ s.key.tenants = [t]) := by
  refine ⟨?_, ?_, ?_, ?_, ?_, ?_, ?_, ?_, ?_, ?_, ?_⟩
  · exact ⟨(some 1), zSessSt, by decide +kernel⟩
  · exact ⟨none, (zState).wf Reg.BOOT_BOOT_STATE 31 28 3, by decide +kernel⟩
  · exact ⟨(some 1), 0, 0, 0, 0, (List.replicate 40 0), zSessSt, by decide +kernel⟩
  · exact ⟨(some 1), 0, 0, 0, 0, { zSessSt with key := { zSessSt.key with ideKeys := [(0, [1])] } }, by decide +kernel⟩
  · exact ⟨(some 1), 0, 0, 0, 0, zSessSt, by decide +kernel⟩
  · exact ⟨.i3c, (some 1), (1 :: List.replicate 35 0), (List.replicate 8 0), zSess,
      ((zSessSt.wf Reg.ENT_ENT_STATE 16 16 1).updChan 0 (fun y0 => { y0 with reserve := List.replicate 8 0 })),
      (({ (((zSessSt.wf Reg.ENT_ENT_STATE 16 16 1).updChan 0 (fun y0 => { y0 with reserve := List.replicate 8 0 }))) with key := { (((zSessSt.wf Reg.ENT_ENT_STATE 16 16 1).updChan 0 (fun y0 => { y0 with reserve := List.replicate 8 0 }))).key with tenants := [(⟨.i3c, (some 1), (1 :: List.replicate 35 0), false⟩)] } }).drawKey 8).1,
      _, _, rfl, rfl, by decide +kernel, by decide +kernel, by decide +kernel, by decide +kernel, by decide +kernel, by decide +kernel,
      by decide +kernel, by decide +kernel, by decide +kernel, zPair (by decide +kernel)⟩
  · exact ⟨.i3c, (some 1), [2, 0, 0, 0], true, zSess, zSessSt, _, _, rfl, rfl, by decide +kernel⟩
  · exact ⟨.i3c, (some 1), [3, 0, 0, 0], zSess, zSessSt, _, _, rfl, rfl, by decide +kernel⟩
  · exact ⟨none, [3, 0, 0, 0], zState, by decide +kernel⟩
  · exact ⟨0, 0, zTenantCmd, { zState with key := { zState.key with write := some (0, 0), tenants := [zTenantCmd] } }, _, _, rfl, rfl, by decide +kernel⟩
  · exact ⟨0, 0, zTenantCmd, { zState with key := { zState.key with write := some (0, 0), tenants := [zTenantCmd] } }, _, _, rfl, rfl, by decide +kernel⟩

theorem witness_CipherCommandsComplete :
    (∃ (c : CipherRun) (iv : List Byte) (s : State) (v : State) (w : State), w = v.setSeals c.slot c.bank (v.sealCount c.slot c.bank + 1) ∧
      s.cipher = some c ∧ c.ends = none ∧ s.draw 1 12 = (v, some iv)) ∧
    (∃ (p : Path) (v : Word) (k : Nat) (s : State) (u : State), u = (s.turn p).ciphGo ∧ bit v.toNat 0 = true ∧ u.cipher = none ∧ k ≠ 0) ∧
    (∃ (p : Path) (v : Word) (s : State) (u : State) (op : Nat), u = s.turn p ∧ op = u.rf Reg.CIPH_CIPH_CTRL 31 28 ∧ bit v.toNat 0 = true ∧
      (op = 0 ∨ 2 < op) ∧ u.cipher = none) ∧
    (∃ (c : CipherRun) (t0 : Nat) (out : List Byte) (s : State) (u : State), u = s.noteRead none c.srcSpace c.src c.bytes ∧ s.cipher = some c ∧
      c.ends = some t0 ∧ t0 ≤ s.time ∧ c.openIt = false ∧ c.srcSpace ≠ spHost ∧ c.dstSpace ≠ spHost ∧ s.areaBad c.srcSpace c.src c.bytes = false ∧
      u.cipherOut c = some out) ∧
    (∃ (c : CipherRun) (t0 : Nat) (s : State) (u : State), u = s.noteRead none c.srcSpace c.src (64 + c.bytes) ∧ s.cipher = some c ∧ c.ends = some t0 ∧
      t0 ≤ s.time ∧ c.openIt = true ∧ c.srcSpace ≠ spHost ∧ c.dstSpace ≠ spHost ∧ s.areaBad c.srcSpace c.src (64 + c.bytes) = false ∧
      u.cipherOut c = none) ∧
    (∃ (c : CipherRun) (s : State), s.cipher = some c ∧ c.ends = none ∧ c.asked + 10000000 < s.time) := by
  refine ⟨?_, ?_, ?_, ?_, ?_, ?_⟩
  · exact ⟨zCipherRun, (List.replicate 12 0),
      { ((zState.wf Reg.ENT_ENT_STATE 16 16 1).updChan 1 (fun y0 => { y0 with reserve := List.replicate 16 0 })) with cipher := some zCipherRun },
      ({ ((zState.wf Reg.ENT_ENT_STATE 16 16 1).updChan 1 (fun y0 => { y0 with reserve := List.replicate 16 0 })) with cipher := some zCipherRun }.draw 1 12).1,
      _, rfl, by decide +kernel, by decide +kernel, zPair (by decide +kernel)⟩
  · exact ⟨.host, 1, 11, zState, _, rfl, by decide +kernel⟩
  · exact ⟨.host, 1, zState, _, _, rfl, rfl, by decide +kernel⟩
  · exact ⟨{ zCipherRun with ends := some 0, srcSpace := 1, dstSpace := 1 }, 0,
      (zDef _ (({ zState with cipher := some { zCipherRun with ends := some 0, srcSpace := 1, dstSpace := 1 } }.noteRead none { zCipherRun with ends := some 0, srcSpace := 1, dstSpace := 1 }.srcSpace { zCipherRun with ends := some 0, srcSpace := 1, dstSpace := 1 }.src { zCipherRun with ends := some 0, srcSpace := 1, dstSpace := 1 }.bytes).cipherOut { zCipherRun with ends := some 0, srcSpace := 1, dstSpace := 1 }) (by decide +kernel)),
      { zState with cipher := some { zCipherRun with ends := some 0, srcSpace := 1, dstSpace := 1 } }, _, rfl, by decide +kernel, by decide +kernel,
      by decide +kernel, by decide +kernel, by decide +kernel, by decide +kernel, by decide +kernel, (Option.some_get _).symm⟩
  · exact ⟨{ zCipherRun with ends := some 0, srcSpace := 1, dstSpace := 1, openIt := true }, 0,
      { zState with cipher := some { zCipherRun with ends := some 0, srcSpace := 1, dstSpace := 1, openIt := true } }, _, rfl, by decide +kernel⟩
  · exact ⟨{ zCipherRun with ends := none }, { zState with cipher := some { zCipherRun with ends := none } }, by decide +kernel⟩

theorem witness_JtagInstructionsExecute :
    (∃ (s : State), s.lcState = 1 ∧ s.rf Reg.KEY_LC_STATE 4 4 = 1 ∧ s.pendingReset = false) ∧
    (∃ (s : State), ((s.lcState ≠ 1 ∨ s.rf Reg.KEY_LC_STATE 4 4 ≠ 1 ∨ s.pendingReset = true))) := by
  refine ⟨?_, ?_⟩
  · exact ⟨((zState).wf Reg.KEY_LC_STATE 2 0 1).wf Reg.KEY_LC_STATE 4 4 1, by decide +kernel⟩
  · exact ⟨zState, by decide +kernel⟩

theorem witness_LinkCommandsComplete :
    (∃ (p : Path) (l : Nat) (v : Word) (s : State) (u : State), u = s.turn p ∧ l < 8 ∧ bit v.toNat 0 = true) ∧
    (∃ (p : Path) (l : Nat) (v : Word) (s : State) (u : State) (w : State), u = s.turn p ∧ w = u.wf (linkReg l Reg.LINK_LINK_CTRL) 0 0 0 ∧ l < 8 ∧
      bit v.toNat 0 = false ∧ u.linkEn l = true ∧ w.linkSt l ≠ lsDisabled) ∧
    (∃ (p : Path) (l : Nat) (v : Word) (s : State) (u : State) (w : State), u = s.turn p ∧ w = (u.linkCode l 0).setLinkSt l lsLeaving ∧ l < 8 ∧
      fld v.toNat 31 28 = 1 ∧ u.linkSt l = lsActive) ∧
    (∃ (p : Path) (l : Nat) (s : State) (u : State), u = s.turn p ∧ l < 8 ∧ u.linkSt l ≠ lsActive) ∧
    (∃ (p : Path) (l : Nat) (v : Word) (s : State) (u : State), u = s.turn p ∧ l < 8 ∧ fld v.toNat 31 28 = 2 ∧ u.linkSt l = lsActive) ∧
    (∃ (l : Nat) (v : Word) (s : State) (u : State), u = s.turn .manager ∧ l < 8 ∧ fld v.toNat 31 28 = 3 ∧ u.linkSt l = lsDisabled ∧
      u.rf (linkReg l Reg.LINK_LINK_STATE) 11 8 = 2) ∧
    (∃ (l : Nat) (v : Word) (s : State) (u : State), u = s.turn .host ∧ l < 8 ∧ fld v.toNat 31 28 = 3) ∧
    (∃ (p : Path) (l : Nat) (v : Word) (s : State) (u : State), u = s.turn p ∧ l < 8 ∧ (fld v.toNat 31 28 = 0 ∨ 3 < fld v.toNat 31 28)) := by
  refine ⟨?_, ?_, ?_, ?_, ?_, ?_, ?_, ?_⟩
  · exact ⟨.host, 0, 1, zState, _, rfl, by decide +kernel⟩
  · exact ⟨.host, 0, 0, ((zState.wf (linkReg 0 Reg.LINK_LINK_CTRL) 0 0 1).setLinkSt 0 lsActive), _, _, rfl, rfl, by decide +kernel⟩
  · exact ⟨.host, 0, 0x10000000, (zState.setLinkSt 0 lsActive), _, _, rfl, rfl, by decide +kernel⟩
  · exact ⟨.host, 0, zState, _, rfl, by decide +kernel⟩
  · exact ⟨.host, 0, 0x20000000, (zState.setLinkSt 0 lsActive), _, rfl, by decide +kernel⟩
  · exact ⟨0, 0x30000000, ((zState.setLinkSt 0 lsDisabled).wf (linkReg 0 Reg.LINK_LINK_STATE) 11 8 2), _, rfl, by decide +kernel⟩
  · exact ⟨0, 805306368, zState, _, rfl, by decide +kernel⟩
  · exact ⟨.host, 0, 0, zState, _, rfl, by decide +kernel⟩

theorem witness_TrainingCompletes :
    (∃ (l : Nat) (s : State), l < 8 ∧ s.linkSt l = lsTraining ∧ (s.link l).phase = 1) ∧
    (∃ (l : Nat) (s : State), l < 8 ∧ s.linkSt l = lsTraining ∧ (s.link l).phase = 2) ∧
    (∃ (l : Nat) (s : State), l < 8 ∧ s.linkSt l = lsTraining ∧ (s.link l).phase = 3) ∧
    (∃ (l : Nat) (n : Nat) (s : State), l < 8 ∧ s.linkSt l = lsTraining ∧ phaseLimit (s.link l).phase = some n ∧ (s.link l).since + n < s.time) ∧
    (∃ (l : Nat) (n : Nat) (s : State), l < 8 ∧ s.linkSt l = lsTraining ∧ phaseLimit (s.link l).phase = some n ∧ s.time ≤ (s.link l).since + n) ∧
    (∃ (l : Nat) (t0 : Nat) (s : State), l < 8 ∧ (s.link l).retryAt = some t0 ∧ t0 ≤ s.time) ∧
    (∃ (l : Nat) (a : Arrival) (corr : Nat) (s : State) (u : State) (pkt : List Byte) (v : State), pkt = packetOf a ∧
      v = (u.updLink l (fun x => { x with trains := x.trains + 1, gotTrain := true, echoed := x.echoed || leAt pkt 0x13 1 == 1 })).sendTrain l ∧
      l < 8 ∧ s.rxPacket l pkt corr = (u, true) ∧ pktKind pkt = 4 ∧ u.linkSt l = lsTraining ∧ (u.link l).phase = 4 ∧ leAt pkt 0x10 1 = 1 ∧
      leAt pkt 0x11 1 ≤ 7 ∧ leAt pkt 0x12 1 = 33 ∧ leAt pkt 0x13 1 ≤ 1 ∧ (trainBufs pkt).getD 3 0 = 0 ∧
      ((trainBufs pkt).take 3).any (fun b => decide (b < 33) || decide (32768 < b)) = false) := by
  refine ⟨?_, ?_, ?_, ?_, ?_, ?_, ?_⟩
  · exact ⟨0, ((zState).setLinkSt 0 lsTraining).updLink 0 (fun x => { x with phase := 1 }), by decide +kernel⟩
  · exact ⟨0, ((zState).setLinkSt 0 lsTraining).updLink 0 (fun x => { x with phase := 2 }), by decide +kernel⟩
  · exact ⟨0, ((zState).setLinkSt 0 lsTraining).updLink 0 (fun x => { x with phase := 3 }), by decide +kernel⟩
  · exact ⟨0, 1000000, ((zState.setLinkSt 0 lsTraining).updLink 0 (fun y0 => { y0 with phase := 4 })), by decide +kernel⟩
  · exact ⟨0, 1000000, ((zState.setLinkSt 0 lsTraining).updLink 0 (fun y0 => { y0 with phase := 4, since := 1000000000000 })), by decide +kernel⟩
  · exact ⟨0, 0, (zState).updLink 0 (fun x => { x with retryAt := some 0 }), by decide +kernel⟩
  · exact ⟨0, (zPkt 4 0 [1, 0, 33, 0, 64, 0, 64, 0, 64, 0, 0, 0]), 0, ((zState.setLinkSt 0 lsTraining).updLink 0 (fun y0 => { y0 with phase := 4 })),
      ((((zState.setLinkSt 0 lsTraining).updLink 0 (fun y0 => { y0 with phase := 4 }))).rxPacket 0 (packetOf (zPkt 4 0 [1, 0, 33, 0, 64, 0, 64, 0, 64, 0, 0, 0])) 0).1,
      _, _, rfl, rfl, by decide +kernel, zPair (by decide +kernel), by decide +kernel, by decide +kernel, by decide +kernel, by decide +kernel,
      by decide +kernel, by decide +kernel, by decide +kernel, by decide +kernel, by decide +kernel⟩

theorem witness_LinkPackets :
    (∃ (l : Nat) (vc : Nat) (s : State), l < 8 ∧ vc < 3 ∧ (s.link l).resend ≠ []) ∧
    (∃ (l : Nat) (vc : Nat) (s : State), l < 8 ∧ vc < 3 ∧ (s.link l).resend = [] ∧ s.carries l vc = true) ∧
    (∃ (l : Nat) (t0 : Nat) (s : State), l < 8 ∧ (s.link l).ackDue = some t0) ∧
    (∃ (l : Nat) (vc : Nat) (s : State), l < 8 ∧ s.credDue l = some vc) ∧
    (∃ (l : Nat) (p : SentPkt) (ps : List SentPkt) (s : State), l < 8 ∧ (s.link l).buf = p :: ps ∧
      p.time + 1000 * s.rf (linkReg l Reg.LINK_REPLAY_CFG) 15 0 ≤ s.time) ∧
    (∃ (l : Nat) (s : State), l < 8 ∧ s.linkUp l = true ∧ 1 <<< s.rf (linkReg l Reg.LINK_KEY_CFG) 4 0 ≤ (s.link l).countTx) ∧
    (∃ (l : Nat) (a : Arrival) (corr : Nat) (s : State) (u : State) (pkt : List Byte) (v : State) (x : State) (w : State), pkt = packetOf a ∧ v = u.rxHeader l pkt ∧
      x = (v.wf (linkReg l Reg.LINK_SEQ_STATE) 11 0 ((v.expected l + 1) % 4096)).updLink l (fun x => { x with nakSent := false, accepted := x.accepted + 1, ackDue := some (x.ackDue.getD v.time) }) ∧
      w = (if 64 ≤ (x.link l).accepted then x.linkSend l 2 0 0 [] else x) ∧ l < 8 ∧ s.rxPacket l pkt corr = (u, true) ∧ pktKind pkt = 1 ∧
      u.linkOpen l = true ∧ fld (pktFlags pkt) 1 0 ≠ 3 ∧ v.linkOpen l = true ∧ (pktSeq pkt + 4096 - v.expected l) % 4096 = 0) ∧
    (∃ (l : Nat) (a : Arrival) (corr : Nat) (s : State) (u : State) (pkt : List Byte) (v : State), pkt = packetOf a ∧ v = u.rxHeader l pkt ∧ l < 8 ∧
      s.rxPacket l pkt corr = (u, true) ∧ pktKind pkt = 1 ∧ u.linkOpen l = true ∧ fld (pktFlags pkt) 1 0 ≠ 3 ∧ v.linkOpen l = true ∧
      2048 ≤ (pktSeq pkt + 4096 - v.expected l) % 4096) ∧
    (∃ (l : Nat) (a : Arrival) (corr : Nat) (s : State) (u : State), l < 8 ∧ s.rxPacket l (packetOf a) corr = (u, false)) ∧
    (∃ (l : Nat) (a : Arrival) (corr : Nat) (s : State) (u : State) (pkt : List Byte), pkt = packetOf a ∧ l < 8 ∧ s.rxPacket l pkt corr = (u, true) ∧
      u.linkOpen l = true) ∧
    (∃ (l : Nat), l < 8) ∧
    (∃ (l : Nat), l < 8) := by
  refine ⟨?_, ?_, ?_, ?_, ?_, ?_, ?_, ?_, ?_, ?_, ?_, ?_⟩
  · exact ⟨0, 0, ((zState.setLinkSt 0 lsActive).updLink 0 (fun y0 => { y0 with resend := [0] })), by decide +kernel⟩
  · exact ⟨0, 0, ((zState.setLinkSt 0 lsActive).updLink 0 (fun y0 => { y0 with resend := [] })), by decide +kernel⟩
  · exact ⟨0, 0, ((zState.setLinkSt 0 lsActive).updLink 0 (fun y0 => { y0 with ackDue := some 0 })), by decide +kernel⟩
  · exact ⟨0, 0, ((zState.setLinkSt 0 lsActive).updLink 0 (fun y0 => { y0 with freed0 := 1 })), by decide +kernel⟩
  · exact ⟨0, zSentPkt, [], (zState).updLink 0 (fun x => { x with buf := zSentPkt :: [] }), by decide +kernel⟩
  · exact ⟨0, ((zState.setLinkSt 0 lsActive).wf (linkReg 0 Reg.LINK_KEY_CFG) 4 0 0).updLink 0 (fun y0 => { y0 with countTx := 2 }), by decide +kernel⟩
  · exact ⟨0, (zPkt 1 0 [1]), 0, (zState.setLinkSt 0 lsActive), ((zState.setLinkSt 0 lsActive).rxPacket 0 (packetOf (zPkt 1 0 [1])) 0).1, _, _,
      _, _, rfl, rfl, rfl, rfl, by decide +kernel, zPair (by decide +kernel), by decide +kernel, by decide +kernel, by decide +kernel,
      by decide +kernel, by decide +kernel⟩
  · exact ⟨0, (zPkt 1 4095 [1]), 0, (zState.setLinkSt 0 lsActive),
      ((zState.setLinkSt 0 lsActive).rxPacket 0 (packetOf (zPkt 1 4095 [1])) 0).1, _, _, rfl, rfl, by decide +kernel,
      zPair (by decide +kernel), by decide +kernel, by decide +kernel, by decide +kernel, by decide +kernel, by decide +kernel⟩
  · exact ⟨0, zArrival, 0, zState, (zState.rxPacket 0 (packetOf zArrival) 0).1, by decide +kernel, zPair (by decide +kernel)⟩
  · exact ⟨0, (zPkt 2 0 []), 0, (zState.setLinkSt 0 lsActive), ((zState.setLinkSt 0 lsActive).rxPacket 0 (packetOf (zPkt 2 0 [])) 0).1, _, rfl,
      by decide +kernel, zPair (by decide +kernel), by decide +kernel⟩
  · exact ⟨0, by decide +kernel⟩
  · exact ⟨0, by decide +kernel⟩

theorem witness_HandshakesAndLosses :
    (∃ (l : Nat) (s : State), l < 8 ∧ s.linkSt l = lsDiscover ∧ (s.link l).inHandshake = false ∧ s.key.tasks.any (fun t => t.work == .hello l) = false ∧
      s.linkIdentity.isSome = true) ∧
    (∃ (l : Nat) (s : State), l < 8 ∧ s.linkSt l = lsDiscover ∧ (s.link l).inHandshake = false ∧ s.key.tasks.any (fun t => t.work == .hello l) = false ∧
      s.linkIdentity = none) ∧
    (∃ (l : Nat) (t0 : Nat) (s : State), l < 8 ∧ s.linkSt l = lsDiscover ∧ (s.link l).opened = some t0 ∧ (s.link l).closed = none ∧
      t0 + chalWindow ≤ s.time) ∧
    (∃ (l : Nat) (t0 : Nat) (s : State) (o : Nat) (u : State), o = s.outcome l (s.link l) ∧
      u = (s.updLink l (fun x => { x with closing := false })).queueMsg l 3 (natLE 1 o ++ natLE 7 0) ∧ (s.link l).opened = some t0 ∧
      (s.link l).closed = none ∧ (s.link l).closing = true) ∧
    (∃ (l : Nat) (t0 : Nat) (s : State), l < 8 ∧ s.linkSt l = lsDiscover ∧ (s.link l).closed = some t0 ∧ t0 + chalWindow < s.time) ∧
    (∃ (l : Nat) (t0 : Nat) (s : State) (u : State), u = (s.setLinkSt l lsDiscover).updLink l (fun x => { x with backoffEnd := none }) ∧ l < 8 ∧
      s.linkSt l = lsBackoff ∧ (s.link l).backoffEnd = some t0 ∧ t0 ≤ s.time ∧ u.linkIdentity.isSome = true) ∧
    (∃ (l : Nat) (t0 : Nat) (s : State), l < 8 ∧ s.linkSt l = lsLeaving ∧ (s.link l).leaveSent = some t0 ∧ t0 + 1000000 ≤ s.time ∧ (s.link l).out = []) ∧
    (∃ (l : Nat) (s : State), l < 8 ∧ s.linkUp l = true) ∧
    (∃ (l : Nat) (s : State), s.linkUp l = false) := by
  refine ⟨?_, ?_, ?_, ?_, ?_, ?_, ?_, ?_, ?_⟩
  · exact ⟨0,
      { (zState.wf Reg.KEY_LC_STATE 2 0 3).wf Reg.KEY_SPDM_STATE 8 8 1 with key := { ((zState.wf Reg.KEY_LC_STATE 2 0 3).wf Reg.KEY_SPDM_STATE 8 8 1).key with ident := some (1, 2, 3) } }.setLinkSt 0 lsDiscover,
      by decide +kernel⟩
  · exact ⟨0, (zState.setLinkSt 0 lsDiscover), by decide +kernel⟩
  · exact ⟨0, 0, (((zState).setLinkSt 0 lsDiscover).updLink 0 (fun x => { x with opened := some 0 })).updLink 0 (fun x => { x with closed := none }),
      by decide +kernel⟩
  · exact ⟨0, 0,
      (((zState).updLink 0 (fun x => { x with opened := some 0 })).updLink 0 (fun x => { x with closed := none })).updLink 0 (fun x => { x with closing := true }),
      _, _, rfl, rfl, by decide +kernel⟩
  · exact ⟨0, 0, ((zState).setLinkSt 0 lsDiscover).updLink 0 (fun x => { x with closed := some 0 }), by decide +kernel⟩
  · exact ⟨0, 0,
      { (zState.wf Reg.KEY_LC_STATE 2 0 3).wf Reg.KEY_SPDM_STATE 8 8 1 with key := { ((zState.wf Reg.KEY_LC_STATE 2 0 3).wf Reg.KEY_SPDM_STATE 8 8 1).key with ident := some (1, 2, 3) } }.setLinkSt 0 lsBackoff |>.updLink 0 (fun y0 => { y0 with backoffEnd := some 0 }),
      _, rfl, by decide +kernel⟩
  · exact ⟨0, 0, (((zState).setLinkSt 0 lsLeaving).updLink 0 (fun x => { x with leaveSent := some 0 })).updLink 0 (fun x => { x with out := [] }),
      by decide +kernel⟩
  · exact ⟨0, (zState).setLinkSt 0 lsActive, by decide +kernel⟩
  · exact ⟨0, zState, by decide +kernel⟩

theorem witness_ErrorsAndInjections :
    (∃ (s : State) (u : State), u = { s with agg := { s.agg with pagesDue := false, aggDue := false } } ∧ s.agg.pagesDue = true) ∧
    (∃ (s : State), s.agg.pagesDue = false ∧ s.agg.aggDue = false) ∧
    (∃ (e : Nat) (s : State), s.agg.squallEntry = some e ∧ s.squall = true ∧ e + s.agg.squallTests * 1000000 ≤ s.time ∧
      (recentErrors (e + s.agg.squallTests * 1000000) (s.agg.counted.filter (fun x => decide (x ≤ e + s.agg.squallTests * 1000000)))).length < 16) ∧
    (∃ (e : Nat) (s : State), s.agg.squallEntry = some e ∧ s.squall = true ∧ e + s.agg.squallTests * 1000000 ≤ s.time ∧
      16 ≤ (recentErrors (e + s.agg.squallTests * 1000000) (s.agg.counted.filter (fun x => decide (x ≤ e + s.agg.squallTests * 1000000)))).length) ∧
    (∃ (p : Path) (page : Nat) (i : Nat) (k : PageKind) (v : Word) (s : State) (u : State) (code : Nat), u = s.turn p ∧
      code = k.block * 256 + fld v.toNat 7 0 ∧ pageOf page = some (k, i) ∧ injBadMode v.toNat = false ∧ fld v.toNat 31 30 = 1) ∧
    (∃ (p : Path) (page : Nat) (i : Nat) (k : PageKind) (v : Word) (s : State) (u : State), u = s.turn p ∧ pageOf page = some (k, i) ∧
      injBadMode v.toNat = false ∧ k.hasMemory = true) ∧
    (∃ (p : Path) (page : Nat) (v : Word) (s : State) (u : State), u = s.turn p ∧ (pageOf page).isSome = true ∧ injBadMode v.toNat = true) := by
  refine ⟨?_, ?_, ?_, ?_, ?_, ?_, ?_⟩
  · exact ⟨{ zState with agg := { zState.agg with pagesDue := true } }, _, rfl, by decide +kernel⟩
  · exact ⟨{ zState with agg := { zState.agg with pagesDue := false, aggDue := false } }, by decide +kernel⟩
  · exact ⟨0, ({ zState with agg := { zState.agg with squallEntry := some 0 } }).wf Reg.ERRP_AGG_STATE 0 0 1, by decide +kernel⟩
  · exact ⟨0, { (zState.wf Reg.ERRP_AGG_STATE 0 0 1) with agg := { zState.agg with squallEntry := some 0, squallTests := 0, counted := List.replicate 16 0 } },
      by decide +kernel⟩
  · exact ⟨.host, 0, 0, .device, 1073741824, zState, _, _, rfl, rfl, by decide +kernel⟩
  · exact ⟨.host, 0x020, 0, .gnomos, 0x80000000, zState, _, rfl, by decide +kernel⟩
  · exact ⟨.host, 0, 0, zState, _, rfl, by decide +kernel⟩

theorem witness_ErrorRecordsClear :
    (∃ (p : Path) (page : Nat) (s : State) (u : State), u = s.turn p ∧ (pageOf page).isSome = true) ∧
    (∃ (p : Path) (s : State) (u : State), u = s.turn p ∧ u.fatal = false) ∧
    (∃ (p : Path) (s : State) (u : State), u = s.turn p ∧ u.fatal = true) := by
  refine ⟨?_, ?_, ?_⟩
  · exact ⟨.host, 0, zState, _, rfl, by decide +kernel⟩
  · exact ⟨.host, zState, _, rfl, by decide +kernel⟩
  · exact ⟨.host, (zState.wf Reg.ERRP_AGG_STATE 1 1 1), _, rfl, by decide +kernel⟩

theorem witness_RetirementAsserts :
    (∃ (v : Word) (s : State) (u : State), u = s.turn .manager ∧ v.toNat = 0xA5C3 ∧ u.fatal = true) ∧
    (∃ (p : Path) (v : Word) (s : State) (u : State), u = s.turn p ∧ ((p = .host ∨ v.toNat ≠ 0xA5C3 ∨ u.fatal = false))) ∧
    (∃ (t0 : Nat) (s : State), s.agg.fatalAt = some t0 ∧ s.rf Reg.ERRP_AGG_STATE 2 2 = 0 ∧ t0 + s.rf Reg.ERRP_RETIRE_TIMEOUT 15 0 * 1000000 ≤ s.time) := by
  refine ⟨?_, ?_, ?_⟩
  · exact ⟨0xA5C3, (zState.wf Reg.ERRP_AGG_STATE 1 1 1), _, rfl, by decide +kernel⟩
  · exact ⟨.host, 0, zState, _, rfl, by decide +kernel⟩
  · exact ⟨0, ({ zState with agg := { zState.agg with fatalAt := some 0 } }).wf Reg.ERRP_AGG_STATE 2 2 0, by decide +kernel⟩

theorem witness_ResetsComplete :
    (∃ (cause : Nat), cause ≤ 1) ∧
    (∃ (s : State), s.bootPhase = 0) ∧
    (∃ (v : Word) (s : State) (u : State), u = s.turn .manager ∧ v.toNat = 0x3C5A) ∧
    (∃ (p : Path) (v : Word) (s : State) (u : State), u = s.turn p ∧ ((p = .host ∨ v.toNat ≠ 0x3C5A))) ∧
    (∃ (cause : Nat), 3 ≤ cause ∧ cause ≤ 5) := by
  refine ⟨?_, ?_, ?_, ?_, ?_⟩
  · exact ⟨0, by decide +kernel⟩
  · exact ⟨((zState).wf Reg.BOOT_BOOT_STATE 31 28 0).wf Reg.BOOT_BOOT_STATE 31 28 0, by decide +kernel⟩
  · exact ⟨0x3C5A, zState, _, rfl, by decide +kernel⟩
  · exact ⟨.host, 0, zState, _, rfl, by decide +kernel⟩
  · exact ⟨3, by decide +kernel⟩

theorem witness_BootStepsComplete :
    (∃ (s : State), s.bootPhase = 1 ∧ s.gov.refclk = true) ∧
    (∃ (f : List (Nat × Nat × Nat)) (s : State) (u : State), u = ((s.keyStart.bootFails f).setReady pgKey).setReady pgCipher ∧ s.bootPhase = 2) ∧
    (∃ (s : State), s.bootPhase = 3) ∧
    (∃ (s : State), s.boot.imageOn = true) ∧
    (∃ (s : State), s.boot.memoryOn = true) ∧
    (∃ (s : State), s.bootPhase = 6 ∧ s.entSettled = true ∧ s.coresSettled = true) ∧
    (∃ (s : State), s.bootPhase = 7 ∧ s.boot.spiDrive = true ∧ s.boot.flashRetry = false) ∧
    (∃ (v : Word) (f : List (Nat × Nat × Nat)) (s : State), s.boot.resets = [(v, f)]) ∧
    (∃ (v : Nat) (k : PageKind) (s : State) (page : Nat) (u : State), page = pageIdx k (fld v 15 0) ∧ u = (s.resetBlock k (fld v 15 0)).resetPage page ∧
      blockPage (fld v 31 24) (fld v 15 0) = some k ∧ s.ready = true ∧ s.blockBusy k (fld v 15 0) = false ∧ k ≠ .entropy) ∧
    (∃ (v : Nat) (k : PageKind) (s : State), blockPage (fld v 31 24) (fld v 15 0) = some k ∧ s.ready = true ∧ s.blockBusy k (fld v 15 0) = true) ∧
    (∃ (v : Nat), blockPage (fld v 31 24) (fld v 15 0) = none) := by
  refine ⟨?_, ?_, ?_, ?_, ?_, ?_, ?_, ?_, ?_, ?_, ?_⟩
  · exact ⟨(({ zState with gov := { zState.gov with refclk := true } }).wf Reg.BOOT_BOOT_STATE 31 28 1).wf Reg.BOOT_BOOT_STATE 31 28 1, by decide +kernel⟩
  · exact ⟨[], ((zState).wf Reg.BOOT_BOOT_STATE 31 28 2).wf Reg.BOOT_BOOT_STATE 31 28 2, _, rfl, by decide +kernel⟩
  · exact ⟨((zState).wf Reg.BOOT_BOOT_STATE 31 28 3).wf Reg.BOOT_BOOT_STATE 31 28 3, by decide +kernel⟩
  · exact ⟨{ zState with boot := { zState.boot with imageOn := true } }, by decide +kernel⟩
  · exact ⟨{ zState with boot := { zState.boot with memoryOn := true } }, by decide +kernel⟩
  · exact ⟨{ (zState.wf Reg.BOOT_BOOT_STATE 31 28 6) with ent := { zState.ent with chans := [] } }, by decide +kernel⟩
  · exact ⟨(({ zState with boot := { zState.boot with spiDrive := true, flashRetry := false } }).wf Reg.BOOT_BOOT_STATE 31 28 7).wf Reg.BOOT_BOOT_STATE 31 28 7,
      by decide +kernel⟩
  · exact ⟨0, [], { zState with boot := { zState.boot with resets := [(0, [])] } }, by decide +kernel⟩
  · exact ⟨0x03000000, .solver, zReady, _, _, rfl, rfl, by decide +kernel⟩
  · exact ⟨0x06000000, .gnomos, (zReady.updCore 0 (fun y0 => { y0 with phase := .running })), by decide +kernel⟩
  · exact ⟨0, by decide +kernel⟩

theorem witness_CalibrationCommandsComplete :
    (∃ (p : Path) (s : State) (u : State) (body : Tab Byte) (full : Tab Byte), u = s.turn p ∧
      body = Tab.putList (fun _ => 0) 0x008 (natLE 4 (if u.calInvalid = true then 1 else calAt u.boot.calStored 0x008 4 + 1)) u.boot.calStage ∧
      full = Tab.putList (fun _ => 0) 0xFFC (natLE 4 (crc32c (calBytes body 0 0xFFC))) body ∧ u.lcState ≠ 5 ∧ u.poolUsed = 0 ∧ u.boot.commit = none ∧
      calReserved u.boot.calStage = false ∧ calInRange u.boot.calStage = true) ∧
    (∃ (t0 : Nat) (c : Tab Byte) (s : State), s.boot.commit = some (t0, c) ∧ s.boot.warmWaits = none) ∧
    (∃ (p : Path) (v : Word) (s : State) (u : State), u = s.turn p ∧ (fld v.toNat 31 28 = 0 ∨ 3 < fld v.toNat 31 28)) := by
  refine ⟨?_, ?_, ?_⟩
  · exact ⟨.host, { zState with boot := { zState.boot with calStage := zRecord } }, _, _, _, rfl, rfl, rfl, by decide +kernel⟩
  · exact ⟨0, [], { zState with boot := { zState.boot with commit := some (0, []), warmWaits := none } }, by decide +kernel⟩
  · exact ⟨.host, 0, zState, _, rfl, by decide +kernel⟩

theorem witness_PldmMonitoringAnswers :
    ∃ (s : State), 3 ≤ s.bootPhase :=
  ⟨(zState).wf Reg.BOOT_BOOT_STATE 31 28 3, by decide +kernel⟩

theorem witness_FirmwareUpdateCompletes :
    (∃ (s : State), s.boot.update = none ∧ 8 ≤ s.bootPhase) ∧
    (∃ (u : FwUpdate) (off : Nat) (bs : List Byte) (s : State), s.boot.update = some u ∧ bs.length ≤ 4096 ∧ off + bs.length ≤ 0x1000000 ∧
      s.boot.spiDrive = true ∧ s.boot.flashRetry = false) ∧
    (∃ (u : FwUpdate) (s : State), s.boot.update = some u ∧ s.boot.spiDrive = true ∧ s.boot.flashRetry = false) ∧
    (∃ (u : FwUpdate) (s : State), s.boot.update = some u ∧ u.verified = true) ∧
    (∃ (u : FwUpdate) (s : State), s.boot.update = some u ∧ u.verified = false) ∧
    (∃ (u : FwUpdate) (s : State), s.boot.update = some u) := by
  refine ⟨?_, ?_, ?_, ?_, ?_, ?_⟩
  · exact ⟨({ zState with boot := { zState.boot with update := none } }).wf Reg.BOOT_BOOT_STATE 31 28 8, by decide +kernel⟩
  · exact ⟨zFwUpdate, 0, [], { zState with boot := { zState.boot with update := some zFwUpdate, spiDrive := true, flashRetry := false } }, by decide +kernel⟩
  · exact ⟨zFwUpdate, { zState with boot := { zState.boot with update := some zFwUpdate, spiDrive := true, flashRetry := false } }, by decide +kernel⟩
  · exact ⟨{ zFwUpdate with verified := true }, { zState with boot := { zState.boot with update := some { zFwUpdate with verified := true } } },
      by decide +kernel⟩
  · exact ⟨{ zFwUpdate with verified := false }, { zState with boot := { zState.boot with update := some { zFwUpdate with verified := false } } },
      by decide +kernel⟩
  · exact ⟨zFwUpdate, { zState with boot := { zState.boot with update := some zFwUpdate } }, by decide +kernel⟩

theorem witness_PinCommandsComplete :
    (∃ (p : Path) (v : Word) (s : State) (u : State), u = s.turn p ∧
      (List.range 8).find? (fun g => !gpioAllowed g (fld v.toNat (4 * g + 3) (4 * g))) = none) ∧
    (∃ (p : Path) (v : Word) (g : Nat) (s : State) (u : State), u = s.turn p ∧
      (List.range 8).find? (fun g => !gpioAllowed g (fld v.toNat (4 * g + 3) (4 * g))) = some g) ∧
    (∃ (n : Nat) (s : State) (u : State), u = s.tachRoll ∧ n ≤ 3 ∧ s.gpioCarries (n + 1) 2 6 = true) ∧
    (∃ (s : State), s.time / 1000000000 ≠ s.boot.tachWindow) ∧
    (∃ (s : State), s.lcState = 1 ∧ s.gpioCarries 7 4 5 = true) ∧
    (∃ (s : State), s.lcState ≠ 1) ∧
    (∃ (s : State), s.rf Reg.PINS_PIN_STATE 3 3 = 1) := by
  refine ⟨?_, ?_, ?_, ?_, ?_, ?_, ?_⟩
  · exact ⟨.host, 0, zState, _, rfl, by decide +kernel⟩
  · exact ⟨.host, 2, 0, zState, _, rfl, by decide +kernel⟩
  · exact ⟨1, (zState.wf Reg.PINS_GPIO_FUNC 11 8 2), _, rfl, by decide +kernel⟩
  · exact ⟨zState, by decide +kernel⟩
  · exact ⟨((zState.wf Reg.KEY_LC_STATE 2 0 1).wf Reg.PINS_GPIO_FUNC 31 28 4), by decide +kernel⟩
  · exact ⟨zState, by decide +kernel⟩
  · exact ⟨(zState).wf Reg.PINS_PIN_STATE 3 3 1, by decide +kernel⟩

theorem witness_FramesReadBack :
    ∃ (before : List (List Byte)) (after : List (List Byte)) (p : List Byte) (line : List Codeword),
      line = (((before ++ p :: after).flatMap packetUnits).foldl putUnit (false, [])).2.reverse ∧
      ((∀ x, x ∈ before ++ p :: after → ∃ n, 1 ≤ n ∧ x.length = 64 * n ∧ leAt x 6 1 = n)) :=
  ⟨[], [], (List.replicate 6 0 ++ [1] ++ List.replicate 57 0), _, rfl, (fun x h => ⟨1, by rcases List.mem_singleton.mp h with rfl; decide +kernel⟩)⟩

end
end

section
/-! PROOFS. The reads of the two access paths and of the doorbell pages: what each leaves captured, what it answers, and that it changes
its own path alone (spec/00 R22 to R24, spec/04 R216). -/

namespace Sys2Proof.Machine

/-! What changes one path alone. -/

/-- t is s but for the access path p. -/
def State.PathOnly (p : Path) (s t : State) : Prop :=
  (∀ q, q ≠ p → t.path q = s.path q) ∧ t = { s with hostPath := t.hostPath, mgrPath := t.mgrPath }

theorem State.PathOnly.trans {p : Path} {s t u : State} (h : State.PathOnly p s t) (k : State.PathOnly p t u) : State.PathOnly p s u := by
  obtain ⟨hq, ht⟩ := h
  obtain ⟨kq, hu⟩ := k
  refine ⟨fun q hne => (kq q hne).trans (hq q hne), ?_⟩
  rw [hu, ht]

/-- What changes the host's path alone leaves the manager's. -/
theorem State.PathOnly.host {s t : State} (h : State.PathOnly .host s t) : t = { s with hostPath := t.hostPath } := by
  obtain ⟨hq, ht⟩ := h
  have hm : t.mgrPath = s.mgrPath := hq .manager (by decide)
  rw [hm] at ht
  exact ht

theorem State.updPath_pathOnly (s : State) (p : Path) (f : PathState → PathState) : State.PathOnly p s (s.updPath p f) :=
  ⟨fun _ h => State.path_updPath_ne s h f, by cases p <;> rfl⟩

theorem State.setCapture_pathOnly (s : State) (p : Path) (k : Nat) (w : Option Word) : State.PathOnly p s (s.setCapture p k w) :=
  s.updPath_pathOnly p _

/-! A path's answer. -/

theorem State.pathRead_eq_updPath (s : State) (p : Path) (v : List Word) :
    s.pathRead p v = s.updPath p (fun x => { x with lastRead := v }) := by cases p <;> rfl

theorem State.pathRead_pathOnly (s : State) (p : Path) (v : List Word) : State.PathOnly p s (s.pathRead p v) := by
  rw [State.pathRead_eq_updPath]
  exact s.updPath_pathOnly p _

@[simp] theorem State.lastRead_pathRead (s : State) (p : Path) (v : List Word) : ((s.pathRead p v).path p).lastRead = v := by
  rw [State.pathRead_eq_updPath, State.path_updPath_same]

@[simp] theorem State.capture_pathRead (s : State) (p : Path) (v : List Word) (k : Nat) : (s.pathRead p v).capture p k = s.capture p k := by
  unfold State.capture
  rw [State.pathRead_eq_updPath, State.path_updPath_same]

/-- A read that notes one capture, or drops one, and answers: its path alone changes. -/
theorem State.setCapture_pathRead_pathOnly (s : State) (p : Path) (k : Nat) (w : Option Word) (v : List Word) :
    State.PathOnly p s ((s.setCapture p k w).pathRead p v) :=
  (s.setCapture_pathOnly p k w).trans (State.pathRead_pathOnly _ p v)

/-! The registers of a multi-word read. -/

/-- The registers whose read does more than answer are no half of a pair and no word of BEST_EN. -/
theorem ne_acting_of_part {a : Nat} (h : isPairLo a = true ∨ isBest0 a = true ∨ isCaptured a = true) :
    a ≠ Reg.ENT_SOFT_DATA ∧ a ≠ Reg.BOOT_CAL_DATA ∧ a ≠ Reg.PINS_UART_RXDATA := by
  refine ⟨?_, ?_, ?_⟩ <;> rintro rfl
  · exact absurd h (by decide)
  · exact absurd h (by decide)
  · exact absurd h (by decide)

/-- BEST_EN_0 is no _LO register: it is no pair of the tun page. -/
theorem isPairLo_of_isBest0 {a : Nat} (h : isBest0 a = true) : isPairLo a = false := by
  unfold isBest0 at h
  unfold isPairLo
  split at h
  case h_1 i hp =>
    rw [hp, eq_of_beq h]
    rfl
  case h_2 => cases h

/-! One equation for each kind of read. -/

theorem State.busRead_pairLo (s : State) (p : Path) {a : Nat} (hl : isPairLo a = true) (hb : badReason a 4 = none) :
    s.busRead p a = (s.setCapture p (a + 4) (some (BitVec.ofNat 32 (s.counted.peek p (a + 4))))).pathRead p
      [BitVec.ofNat 32 (s.counted.peek p a)] := by
  obtain ⟨hsoft, hcal, huart⟩ := ne_acting_of_part (.inl hl)
  simp only [State.busRead, hb, if_neg hsoft, if_neg hcal, if_neg huart, if_pos hl]

/-- The captures that a read of BEST_EN_0 leaves (R216). -/
def State.captureBest (s : State) (p : Path) (a : Nat) : State :=
  [4, 8, 12].foldl (fun t i => t.setCapture p (a + i) (some (BitVec.ofNat 32 (s.counted.peek p (a + i))))) s

theorem State.busRead_best0 (s : State) (p : Path) {a : Nat} (h0 : isBest0 a = true) (hb : badReason a 4 = none) :
    s.busRead p a = (s.captureBest p a).pathRead p [BitVec.ofNat 32 (s.counted.peek p a)] := by
  obtain ⟨hsoft, hcal, huart⟩ := ne_acting_of_part (.inr (.inl h0))
  have hl : ¬ isPairLo a = true := by simp [isPairLo_of_isBest0 h0]
  simp only [State.busRead, hb, if_neg hsoft, if_neg hcal, if_neg huart, if_neg hl, if_pos h0, State.captureBest]

theorem State.captureBest_pathOnly (s : State) (p : Path) (a : Nat) : State.PathOnly p s (s.captureBest p a) :=
  ((s.setCapture_pathOnly p (a + 4) _).trans (State.setCapture_pathOnly _ p (a + 8) _)).trans (State.setCapture_pathOnly _ p (a + 12) _)

theorem State.capture_captureBest (s : State) (p : Path) (a : Nat) {i : Nat} (h1 : 1 ≤ i) (h3 : i ≤ 3) :
    (s.captureBest p a).capture p (a + 4 * i) = some (BitVec.ofNat 32 (s.counted.peek p (a + 4 * i))) := by
  obtain rfl | rfl | rfl : i = 1 ∨ i = 2 ∨ i = 3 := by omega
  all_goals simp [State.captureBest, State.capture_setCapture]

section
variable (s : State) (p : Path) {a : Nat} (hc : isCaptured a = true) (hl : isPairLo a = false) (h0 : isBest0 a = false)
  (hb : badReason a 4 = none)
include hc hl h0 hb

theorem State.busRead_pending {w : Word} (hw : s.capture p a = some w) : s.busRead p a = (s.setCapture p a none).pathRead p [w] := by
  obtain ⟨hsoft, hcal, huart⟩ := ne_acting_of_part (.inr (.inr hc))
  simp only [State.busRead, hb, if_neg hsoft, if_neg hcal, if_neg huart, hl, h0, if_neg Bool.false_ne_true, if_pos hc, hw]

theorem State.busRead_live (hw : s.capture p a = none) : s.busRead p a = s.pathRead p [BitVec.ofNat 32 (s.counted.peek p a)] := by
  obtain ⟨hsoft, hcal, huart⟩ := ne_acting_of_part (.inr (.inr hc))
  simp only [State.busRead, hb, if_neg hsoft, if_neg hcal, if_neg huart, hl, h0, if_neg Bool.false_ne_true, if_pos hc, hw]
end

/-! Doorbell pages. -/

section
variable {s : State} {func q o : Nat} (hd : s.dbReaches func q = true)
include hd

theorem State.dbRead_lo (ho : o = 0x010 ∨ o = 0x018) :
    s.dbRead func q o = (s.setCapture .host (dbKey q (o + 4)) (some (BitVec.ofNat 32 (s.dbPeek q (o + 4))))).pathRead .host
      [BitVec.ofNat 32 (s.dbPeek q o)] := by
  simp only [State.dbRead, hd, reduceCtorEq, if_false, if_pos ho]

theorem State.dbRead_hi_pending {w : Word} (ho : o = 0x014 ∨ o = 0x01C) (hw : s.capture .host (dbKey q o) = some w) :
    s.dbRead func q o = (s.setCapture .host (dbKey q o) none).pathRead .host [w] := by
  have hlo : ¬ (o = 0x010 ∨ o = 0x018) := by omega
  simp only [State.dbRead, hd, reduceCtorEq, if_false, if_neg hlo, if_pos ho, hw]

theorem State.dbRead_hi_live (ho : o = 0x014 ∨ o = 0x01C) (hw : s.capture .host (dbKey q o) = none) :
    s.dbRead func q o = s.pathRead .host [BitVec.ofNat 32 (s.dbPeek q o)] := by
  have hlo : ¬ (o = 0x010 ∨ o = 0x018) := by omega
  simp only [State.dbRead, hd, reduceCtorEq, if_false, if_neg hlo, if_pos ho, hw]
end

/-! The two read commands. -/

theorem exec_loReadCapture_bar0 (p : Path) {a : Nat} (s : State) (h : isPairLo a = true ∨ isBest0 a = true) :
    exec (.loReadCapture p (.bar0 a)) s = .next ((s.turn p).busRead p a) := if_pos h

theorem exec_hiRead_bar0 (p : Path) {a : Nat} (s : State) (h : isCaptured a = true) :
    exec (.hiRead p (.bar0 a)) s = .next ((s.turn p).busRead p a) := if_pos h

theorem exec_loReadCapture_db (func q : Nat) {o : Nat} (s : State) (h : o = 0x010 ∨ o = 0x018) :
    exec (.loReadCapture .host (.db func q o)) s = .next (s.dbRead func q o) := if_pos ⟨rfl, h⟩

theorem exec_hiRead_db (func q : Nat) {o : Nat} (s : State) (h : o = 0x014 ∨ o = 0x01C) :
    exec (.hiRead .host (.db func q o)) s = .next (s.dbRead func q o) := if_pos ⟨rfl, h⟩

/-- Settles O7: each clause is the equation of its read, and what that equation's captures and answer leave of the path. -/
theorem pairReadsAreCaptured : Obligations.PairReadsAreCaptured := by
  unfold Obligations.PairReadsAreCaptured
  refine ⟨?pairLo, ?best0, ?pending, ?live, ?dbLo, ?dbPending, ?dbLive⟩
  case pairLo =>
    rintro p a s u rfl hl hb
    obtain ⟨hpath, hrest⟩ := (s.turn p).setCapture_pathRead_pathOnly p (a + 4)
      (some (BitVec.ofNat 32 ((s.turn p).counted.peek p (a + 4)))) [BitVec.ofNat 32 ((s.turn p).counted.peek p a)]
    refine ⟨_, exec_loReadCapture_bar0 p s (.inl hl), ?_⟩
    rw [State.busRead_pairLo _ p hl hb]
    exact ⟨by simp, by simp [State.capture_setCapture], hpath, hrest⟩
  case best0 =>
    rintro p a s u rfl h0 hb
    obtain ⟨hpath, hrest⟩ := ((s.turn p).captureBest_pathOnly p a).trans
      (State.pathRead_pathOnly _ p [BitVec.ofNat 32 ((s.turn p).counted.peek p a)])
    refine ⟨_, exec_loReadCapture_bar0 p s (.inr h0), ?_⟩
    rw [State.busRead_best0 _ p h0 hb]
    refine ⟨by simp, fun i h1 h3 => ?_, hpath, hrest⟩
    rw [State.capture_pathRead, State.capture_captureBest _ p a h1 h3]
  case pending =>
    rintro p a w s u rfl hc hl h0 hb hw
    obtain ⟨hpath, hrest⟩ := (s.turn p).setCapture_pathRead_pathOnly p a none [w]
    refine ⟨_, exec_hiRead_bar0 p s hc, ?_⟩
    rw [State.busRead_pending _ p hc hl h0 hb hw]
    exact ⟨by simp, by simp [State.capture_setCapture], hpath, hrest⟩
  case live =>
    rintro p a s u rfl hc hl h0 hb hw
    obtain ⟨hpath, hrest⟩ := (s.turn p).pathRead_pathOnly p [BitVec.ofNat 32 ((s.turn p).counted.peek p a)]
    refine ⟨_, exec_hiRead_bar0 p s hc, ?_⟩
    rw [State.busRead_live _ p hc hl h0 hb hw]
    exact ⟨by simp, hpath, hrest⟩
  case dbLo =>
    intro func q o s ho hd
    refine ⟨_, exec_loReadCapture_db func q s ho, ?_⟩
    rw [State.dbRead_lo hd ho]
    exact ⟨State.lastRead_pathRead _ .host _, by simp [State.capture_setCapture], (s.setCapture_pathRead_pathOnly .host _ _ _).host⟩
  case dbPending =>
    intro func q o w s ho hd hw
    refine ⟨_, exec_hiRead_db func q s ho, ?_⟩
    rw [State.dbRead_hi_pending hd ho hw]
    exact ⟨State.lastRead_pathRead _ .host _, by simp [State.capture_setCapture], (s.setCapture_pathRead_pathOnly .host _ _ _).host⟩
  case dbLive =>
    intro func q o s ho hd hw
    refine ⟨_, exec_hiRead_db func q s ho, ?_⟩
    rw [State.dbRead_hi_live hd ho hw]
    exact ⟨State.lastRead_pathRead _ .host _, (s.pathRead_pathOnly .host _).host⟩

end Sys2Proof.Machine
end

section
/-! PROOFS. The doorbells: the index a valid write moves, the event it raises, and that nothing else changes (spec/11 R576, R577). -/

namespace Sys2Proof.Machine

/-! A valid write. -/

theorem State.event_events (s : State) {c n : Nat} (hc : c ≠ 0) (hn : n ≠ 0) (p : Nat) (e : EvSource) :
    (s.event c p e n).events = s.events ++ [{ code := c, page := p, src := e, count := n }] := by
  simp [State.event, hc, hn]

@[simp] theorem State.queue_event (s : State) (c p : Nat) (e : EvSource) (n x : Nat) : (s.event c p e n).queue x = s.queue x := by
  simp [State.queue]

/-- What a valid doorbell write leaves: queue q is k, and the write is noted. -/
def State.rung (s : State) (q : Nat) (k : Queue) : State := (s.setQueue q k).event 0x0900 pgHost { queue := some q }

theorem State.queue_rung_same (s : State) (q : Nat) (k : Queue) : (s.rung q k).queue q = k := by simp [State.rung]

theorem State.queue_rung_ne (s : State) {q x : Nat} (h : x ≠ q) (k : Queue) : (s.rung q k).queue x = s.queue x := by
  simp [State.rung, h]

theorem State.events_rung (s : State) (q : Nat) (k : Queue) :
    (s.rung q k).events = s.events ++ [{ code := 0x0900, page := pgHost, src := { queue := some q }, count := 1 }] :=
  (s.setQueue q k).event_events (by decide) (by decide) pgHost _

/-- A valid doorbell write changes the table of queues and the cycle's events alone. -/
theorem State.rung_frame (s : State) (q : Nat) (k : Queue) :
    s.rung q k = { s with queues := (s.rung q k).queues, events := (s.rung q k).events } := rfl

/-- What each clause of the two doorbells says of the state that a valid write leaves. -/
theorem State.rung_spec (s : State) (q : Nat) (k : Queue) :
    (s.rung q k).queue q = k ∧ (∀ x, x ≠ q → (s.rung q k).queue x = s.queue x) ∧
    (s.rung q k).events = s.events ++ [{ code := 0x0900, page := pgHost, src := { queue := some q }, count := 1 }] ∧
    s.rung q k = { s with queues := (s.rung q k).queues, events := (s.rung q k).events } :=
  ⟨s.queue_rung_same q k, fun _ hx => s.queue_rung_ne hx k, s.events_rung q k, s.rung_frame q k⟩

/-! The two commands on a valid write: none of the reasons of R578 to drop it holds. -/

section
variable {func q : Nat} {v : Word} {s : State} (hopen : s.dbOpen func q = true)
include hopen

theorem exec_sqTailDb_valid (hstate : (s.queue q).state = .enabled ∨ (s.queue q).state = .draining)
    (hlt : fld v.toNat 15 0 < 1 <<< (s.queue q).sqLog)
    (hroom : modDist (fld v.toNat 15 0) (s.queue q).tS (1 <<< (s.queue q).sqLog) ≤
      modDist ((s.queue q).hS + (1 <<< (s.queue q).sqLog) - 1) (s.queue q).tS (1 <<< (s.queue q).sqLog)) :
    exec (.sqTailDb func q 4 v) s = .next (s.rung q { s.queue q with
      tS := fld v.toNat 15 0
      visible := (s.queue q).visible ++
        List.replicate (modDist (fld v.toNat 15 0) (s.queue q).tS (1 <<< (s.queue q).sqLog)) { arrival := s.time, inline := false } }) := by
  have htaken : ¬ ((s.queue q).state ≠ .enabled ∧ (s.queue q).state ≠ .draining) := by tauto
  change execSqTailDb func q 4 v s = _
  simp only [execSqTailDb, hopen, Bool.true_eq_false, ne_eq, not_true, if_false, if_neg htaken, if_neg (Nat.not_le.mpr hlt),
    if_neg (Nat.not_lt.mpr hroom), State.rung]

theorem exec_cqHeadDb_valid
    (hstate : (s.queue q).state = .enabled ∨ (s.queue q).state = .draining ∨ (s.queue q).state = .quiescing ∨ (s.queue q).state = .error)
    (hlt : fld v.toNat 15 0 < 1 <<< (s.queue q).cqLog)
    (hroom : modDist (fld v.toNat 15 0) (s.queue q).hC (1 <<< (s.queue q).cqLog) ≤
      modDist (s.queue q).tC (s.queue q).hC (1 <<< (s.queue q).cqLog)) :
    exec (.cqHeadDb func q 4 v) s = .next (s.rung q { s.queue q with hC := fld v.toNat 15 0 }) := by
  have htaken : ¬ ((s.queue q).state ≠ .enabled ∧ (s.queue q).state ≠ .draining ∧ (s.queue q).state ≠ .quiescing ∧
      (s.queue q).state ≠ .error) := by tauto
  change execCqHeadDb func q 4 v s = _
  simp only [execCqHeadDb, hopen, Bool.true_eq_false, ne_eq, not_true, if_false, if_neg htaken, if_neg (Nat.not_le.mpr hlt),
    if_neg (Nat.not_lt.mpr hroom), State.rung]
end

/-- Settles O11: on a valid write either command answers the rung state, and `State.rung_spec` is the rest of each clause. -/
theorem doorbellsMoveTheirIndex : Obligations.DoorbellsMoveTheirIndex := by
  unfold Obligations.DoorbellsMoveTheirIndex
  refine ⟨?sqTail, ?cqHead⟩
  case sqTail =>
    intro func q v s hopen hstate hlt hroom
    exact ⟨_, exec_sqTailDb_valid hopen hstate hlt hroom, s.rung_spec q _⟩
  case cqHead =>
    intro func q v s hopen hstate hlt hroom
    exact ⟨_, exec_cqHeadDb_valid hopen hstate hlt hroom, s.rung_spec q _⟩

end Sys2Proof.Machine
end

section
/-! PROOFS. The debug port: the instruction the TAP takes up, the lock of JTAG_PRIVATE, and that nothing beside the TAP changes
(spec/17 R896). -/

namespace Sys2Proof.Machine

/-- Caerya's own instructions are allowed (LC_STATE.JTAG_OPEN, R896): FACTORY, not locked, PENDING_RESET clear. -/
def State.JtagOpen (s : State) : Prop := s.lcState = 1 ∧ s.rf Reg.KEY_LC_STATE 4 4 = 1 ∧ s.pendingReset = false

/-- One of the three conditions of R896 missing locks JTAG_PRIVATE. -/
theorem State.not_jtagOpen_iff (s : State) :
    ¬ s.JtagOpen ↔ s.lcState ≠ 1 ∨ s.rf Reg.KEY_LC_STATE 4 4 ≠ 1 ∨ s.pendingReset = true := by
  rw [State.JtagOpen, not_and_or, not_and_or, Bool.not_eq_false]

/-- Taking up an instruction changes the TAP alone: the instruction, and the pads no longer driven. -/
theorem State.jtagRun_eq (s : State) (i : JtagInstr) : s.jtagRun i = { s with jtag := { s.jtag with instr := i, drive := none } } := rfl

/-! The instructions executed in every state. -/

theorem exec_bypass (s : State) : exec .bypass s = .next (s.jtagRun .bypass) := rfl

/-- IDCODE is taken up, and the TAP captures its value. -/
theorem exec_idcode (s : State) :
    exec .idcode s = .next { s.jtagRun .idcode with jtag := { (s.jtagRun .idcode).jtag with captured := idcode } } := rfl

theorem exec_samplePreload (pads shift : Nat) (s : State) :
    exec (.samplePreload pads shift) s = .next { s with jtag := { instr := .sample, preload := shift, captured := pads, drive := none } } := rfl

theorem exec_extest (pads : Nat) (s : State) :
    exec (.extest pads) s = .next { s with jtag := { s.jtag with instr := .extest, captured := pads, drive := some s.jtag.preload } } := rfl

/-! JTAG_PRIVATE. -/

theorem exec_jtagPrivate_of_open (code : Nat) {s : State} (h : s.JtagOpen) :
    exec (.jtagPrivate code) s = .next (s.jtagRun (.privateCode code)) := if_pos h

/-- Locked, JTAG_PRIVATE acts as BYPASS: the two commands answer the same. -/
theorem exec_jtagPrivate_of_locked (code : Nat) {s : State} (h : ¬ s.JtagOpen) : exec (.jtagPrivate code) s = exec .bypass s := if_neg h

/-- Settles O44: the TAP's fields (`preload`, `captured`, `drive`, `privateCode`) are the model's choice of log 98;
JTAG_PRIVATE splits on its lock, `State.JtagOpen`. -/
theorem jtagInstructionsExecute : Obligations.JtagInstructionsExecute := by
  unfold Obligations.JtagInstructionsExecute
  refine ⟨?bypass, ?idcode, exec_samplePreload, exec_extest, ?privateOpen, ?privateLocked⟩
  case bypass =>
    intro s
    rw [exec_bypass, State.jtagRun_eq]
  case idcode =>
    intro s
    rw [exec_idcode, State.jtagRun_eq]
  case privateOpen =>
    intro code s hfactory hunlocked hpending
    rw [exec_jtagPrivate_of_open code ⟨hfactory, hunlocked, hpending⟩, State.jtagRun_eq]
  case privateLocked =>
    intro code s hlocked
    rw [exec_jtagPrivate_of_locked code (s.not_jtagOpen_iff.mpr hlocked), exec_bypass, State.jtagRun_eq]

end Sys2Proof.Machine
end

section
/-! PROOFS. TRAY_RETIRE_N: a register field read after it is written, and the two commands that assert the pin (spec/20 R1048, R1049). -/

namespace Sys2Proof.Machine

/-! Bit fields. -/

theorem testBit_fld (w hi lo i : Nat) : (fld w hi lo).testBit i = (decide (i < hi + 1 - lo) && w.testBit (lo + i)) := by
  rw [fld, Nat.one_shiftLeft, Nat.testBit_mod_two_pow, Nat.testBit_shiftRight]

/-- A field within a field. -/
theorem fld_fld (w : Nat) {hi lo h l : Nat} (hw : lo + h ≤ hi) : fld (fld w hi lo) h l = fld w (lo + h) (lo + l) := by
  refine Nat.eq_of_testBit_eq fun i => ?_
  simp only [testBit_fld, Nat.add_assoc]
  by_cases hlt : i < h + 1 - l
  · have hin : l + i < hi + 1 - lo := by omega
    have hout : i < lo + (h + 1) - (lo + l) := by omega
    simp [hlt, hin, hout]
  · have hout : ¬ i < lo + (h + 1) - (lo + l) := by omega
    simp [hlt, hout]

/-- A field below bit n is a field of the low n bits. -/
theorem fld_mod_two_pow (w : Nat) {n hi : Nat} (lo : Nat) (h : hi < n) : fld (w % 2 ^ n) hi lo = fld w hi lo := by
  refine Nat.eq_of_testBit_eq fun i => ?_
  simp only [testBit_fld, Nat.testBit_mod_two_pow]
  by_cases hlt : i < hi + 1 - lo
  · have hlow : lo + i < n := by omega
    simp [hlow]
  · simp [hlt]

/-- A field just replaced holds the low bits of the value given. -/
theorem fld_setFld_same (w hi lo v : Nat) : fld (setFld w hi lo v) hi lo = v % 2 ^ (hi + 1 - lo) := by
  simp only [fld, setFld, Nat.one_shiftLeft, Nat.and_two_pow_sub_one_eq_mod]
  simp only [Nat.shiftLeft_eq, Nat.shiftRight_eq_div_pow]
  generalize 2 ^ (hi + 1 - lo) = m
  have hrest : w / 2 ^ lo - w / 2 ^ lo % m = m * (w / 2 ^ lo / m) :=
    Nat.sub_eq_of_eq_add (Nat.div_add_mod _ m).symm
  rw [Nat.add_mul_div_right _ _ (Nat.two_pow_pos lo), Nat.mul_comm (_ % _) (2 ^ lo), Nat.sub_mul_div, hrest, Nat.mul_add_mod, Nat.mod_mod]

/-! A register after one of its fields is written. -/

theorem State.reg_wf_ne (s : State) {a b : Nat} (h : b ≠ a) (hi lo v : Nat) : (s.wf a hi lo v).reg b = s.reg b := by
  rw [State.wf, State.reg_wr, if_neg h]

theorem State.rf_wf_ne (s : State) {a b : Nat} (h : b ≠ a) (hi lo v j i : Nat) : (s.wf a hi lo v).rf b j i = s.rf b j i := by
  rw [State.rf, State.rg, s.reg_wf_ne h, State.rf, State.rg]

theorem State.rf_wf_same (s : State) (a : Nat) {hi : Nat} (lo v : Nat) (h : hi < 32) :
    (s.wf a hi lo v).rf a hi lo = v % 2 ^ (hi + 1 - lo) := by
  rw [State.rf, State.wf, State.rg_wr, if_pos rfl]
  exact (fld_mod_two_pow _ lo h).trans (fld_setFld_same (s.rg a) hi lo v)

/-! Assertion of TRAY_RETIRE_N. -/

/-- What either command leaves: bits [hi:2] of AGG_STATE are v, and the pin is asserted. -/
def State.retired (s : State) (hi v : Nat) : State := (s.wf Reg.ERRP_AGG_STATE hi 2 v).wf Reg.PINS_PIN_STATE 2 2 1

theorem State.rf_agg_retired (s : State) {hi : Nat} (v : Nat) (h : hi < 32) :
    (s.retired hi v).rf Reg.ERRP_AGG_STATE hi 2 = v % 2 ^ (hi + 1 - 2) := by
  rw [State.retired, State.rf_wf_ne _ (by decide), State.rf_wf_same _ _ _ _ h]

theorem State.rf_pin_retired (s : State) (hi v : Nat) : (s.retired hi v).rf Reg.PINS_PIN_STATE 2 2 = 1 :=
  State.rf_wf_same _ _ 2 1 (by decide)

/-- AGG_STATE and the pins' state are the only registers, and the register file the only field, that the assertion changes. -/
theorem State.retired_frame (s : State) (hi v : Nat) :
    (∀ a, a ≠ Reg.ERRP_AGG_STATE → a ≠ Reg.PINS_PIN_STATE → (s.retired hi v).reg a = s.reg a) ∧
    s.retired hi v = { s with regs := (s.retired hi v).regs } :=
  ⟨fun a hagg hpin => by rw [State.retired, State.reg_wf_ne _ hpin, State.reg_wf_ne _ hagg], rfl⟩

/-- Bits 2 and 3, RETIRED and UNSAVED, are the two bits of the field that the timeout writes. -/
theorem State.rf_agg_bits_retired (s : State) :
    (s.retired 3 3).rf Reg.ERRP_AGG_STATE 2 2 = 1 ∧ (s.retired 3 3).rf Reg.ERRP_AGG_STATE 3 3 = 1 := by
  have hboth : fld ((s.retired 3 3).rg Reg.ERRP_AGG_STATE) 3 2 = 3 := s.rf_agg_retired 3 (by decide)
  have hbit (i : Nat) (hi : 2 + i ≤ 3) : (s.retired 3 3).rf Reg.ERRP_AGG_STATE (2 + i) (2 + i) = fld 3 i i := by
    rw [State.rf, ← fld_fld _ hi, hboth]
  exact ⟨hbit 0 (by decide), hbit 1 (by decide)⟩

/-! The two commands. -/

theorem exec_retireCmd_key {v : Word} {s : State} (hkey : v.toNat = 0xA5C3) (hfatal : (s.turn .manager).fatal = true) :
    exec (.retireCmd .manager v) s = .next ((s.turn .manager).retired 2 1) := if_pos ⟨rfl, hkey, hfatal⟩

theorem exec_retireCmd_other {p : Path} {v : Word} {s : State} (h : p = .host ∨ v.toNat ≠ 0xA5C3 ∨ (s.turn p).fatal = false) :
    exec (.retireCmd p v) s = .next (s.turn p) := by
  refine if_neg ?_
  rintro ⟨rfl, hkey, hfatal⟩
  obtain hhost | hv | hclear := h
  · cases hhost
  · exact hv hkey
  · rw [hfatal] at hclear
    cases hclear

theorem exec_retireTimeoutExpiry_due {t0 : Nat} {s : State} (hat : s.agg.fatalAt = some t0) (hopen : s.rf Reg.ERRP_AGG_STATE 2 2 = 0)
    (hdue : t0 + s.rf Reg.ERRP_RETIRE_TIMEOUT 15 0 * 1000000 ≤ s.time) :
    exec .retireTimeoutExpiry s = .next (s.retired 3 3) := by
  have hnow : ¬ (s.rf Reg.ERRP_AGG_STATE 2 2 = 1 ∨ s.time < t0 + s.rf Reg.ERRP_RETIRE_TIMEOUT 15 0 * 1000000) := by omega
  change execRetireTimeoutExpiry s = _
  rw [execRetireTimeoutExpiry, hat]
  exact if_neg hnow

/-- Settles O51: the key and the timeout both answer a `State.retired` state, of the one bit RETIRED and of RETIRED with UNSAVED. -/
theorem retirementAsserts : Obligations.RetirementAsserts := by
  unfold Obligations.RetirementAsserts
  refine ⟨?key, ?other, ?timeout⟩
  case key =>
    rintro v s u rfl hkey hfatal
    exact ⟨_, exec_retireCmd_key hkey hfatal, State.rf_agg_retired _ 1 (by decide), State.rf_pin_retired _ 2 1,
      State.retired_frame _ 2 1⟩
  case other =>
    rintro p v s u rfl h
    exact exec_retireCmd_other h
  case timeout =>
    intro t0 s hat hopen hdue
    obtain ⟨hretired, hunsaved⟩ := s.rf_agg_bits_retired
    exact ⟨_, exec_retireTimeoutExpiry_due hat hopen hdue, hretired, hunsaved, s.rf_pin_retired 3 3, s.retired_frame 3 3⟩

end Sys2Proof.Machine
end

section
/-! PROOFS. Framing: a codeword holds the units put in its slots, the slots of a line are those units in order and then idle ones, and a
packet reads back from the slot of its first unit (spec/18 R916, R917). -/

namespace Sys2Proof.Machine

/-! One codeword. -/

/-- A codeword holds units in its first slots, each valid and marked as its unit is, and every other slot is idle. -/
def Holds (c : Codeword) (us : List (Bool × List Byte)) : Prop :=
  us.length ≤ 10 ∧ c.slots = us.map Prod.snd ∧
    ∀ j, j < 10 → slotValid c j = decide (j < us.length) ∧ slotStart c j = (us.map Prod.fst).getD j false

theorem holds_nil : Holds { header := 0, slots := [] } [] := by
  refine ⟨by decide, rfl, fun j _ => ⟨?_, ?_⟩⟩
  · simp [slotValid]
  · simp [slotStart]

/-- The bits that a unit in slot j sets: VALID of the slot, and START where it is the first of its packet. -/
theorem unitBits_getLsbD : ∀ j < 10, ∀ i < 20, ∀ b : Bool,
    (BitVec.ofNat 20 ((1 <<< (10 + j)) + if b then 1 <<< j else 0)).getLsbD i = (decide (i = 10 + j) || (b && decide (i = j))) := by
  decide

theorem Holds.slots_length {c : Codeword} {us : List (Bool × List Byte)} (h : Holds c us) : c.slots.length = us.length := by
  rw [h.2.1, List.length_map]

theorem Holds.putSlot {c : Codeword} {us : List (Bool × List Byte)} (h : Holds c us) (hroom : us.length < 10) (u : Bool × List Byte) :
    Holds (putSlot c u) (us ++ [u]) := by
  have hlen := h.slots_length
  obtain ⟨_, hslots, hbits⟩ := h
  refine ⟨by simpa using hroom, by simp [Machine.putSlot, hslots], fun j hj => ?_⟩
  obtain ⟨hvalid, hstart⟩ := hbits j hj
  constructor
  · have hnew := unitBits_getLsbD us.length hroom (10 + j) (by omega) u.1
    simp only [slotValid] at hvalid
    simp only [slotValid, Machine.putSlot, hlen, BitVec.getLsbD_or, hvalid, hnew, List.length_append, List.length_singleton]
    grind
  · have hnew := unitBits_getLsbD us.length hroom j (by omega) u.1
    simp only [slotStart] at hstart
    simp only [slotStart, Machine.putSlot, hlen, BitVec.getLsbD_or, hstart, hnew]
    grind

/-- The slots of a codeword: its units in order, then idle slots. -/
theorem Holds.linkSlots {c : Codeword} {us : List (Bool × List Byte)} (h : Holds c us) :
    linkSlots [c] = us.map some ++ List.replicate (10 - us.length) none := by
  obtain ⟨hlen, hslots, hbits⟩ := h
  simp only [Machine.linkSlots, List.flatMap_cons, List.flatMap_nil, List.append_nil]
  refine List.ext_getElem (by simp; omega) fun j hj _ => ?_
  have hj10 : j < 10 := by simpa using hj
  obtain ⟨hvalid, hstart⟩ := hbits j hj10
  simp only [List.getElem_map, List.getElem_range, hvalid, hstart, hslots]
  by_cases hu : j < us.length
  · simp [hu]
  · simp [hu, List.getElem_append]

theorem linkSlots_append (a b : List Codeword) : linkSlots (a ++ b) = linkSlots a ++ linkSlots b := by
  simp [linkSlots]

/-! The units of a line. -/

/-- Units put one after another: full codewords, and the newest one, which is open and holds the last of them. -/
def Laid (x : Bool × List Codeword) (us : List (Bool × List Byte)) : Prop :=
  (x = (false, []) ∧ us = []) ∨
  ∃ c r vs ws, x = (true, c :: r) ∧ us = vs ++ ws ∧ Holds c ws ∧ linkSlots r.reverse = vs.map some

theorem Laid.putUnit {x : Bool × List Codeword} {us : List (Bool × List Byte)} (h : Laid x us) (u : Bool × List Byte) :
    Laid (putUnit x u) (us ++ [u]) := by
  obtain ⟨rfl, rfl⟩ | ⟨c, r, vs, ws, rfl, rfl, hc, hr⟩ := h
  · exact .inr ⟨_, _, [], [u], rfl, rfl, holds_nil.putSlot (by decide) u, rfl⟩
  · by_cases hroom : c.slots.length < 10
    · refine .inr ⟨_, _, vs, ws ++ [u], if_pos hroom, by simp, hc.putSlot (hc.slots_length ▸ hroom) u, hr⟩
    · have hfull : ws.length = 10 := by
        have hle := hc.1
        have hlen := hc.slots_length
        omega
      refine .inr ⟨_, _, vs ++ ws, [u], if_neg hroom, rfl, holds_nil.putSlot (by decide) u, ?_⟩
      simp [linkSlots_append, hr, hc.linkSlots, hfull]

theorem Laid.foldl (us : List (Bool × List Byte)) : ∀ {x : Bool × List Codeword} {vs : List (Bool × List Byte)}, Laid x vs →
    Laid (us.foldl Machine.putUnit x) (vs ++ us) := by
  induction us with
  | nil => intro x vs h; simpa using h
  | cons u us ih => intro x vs h; simpa using ih (h.putUnit u)

/-- The slots of a line are its units in order, then idle slots. -/
theorem Laid.linkSlots {x : Bool × List Codeword} {us : List (Bool × List Byte)} (h : Laid x us) :
    ∃ k, linkSlots x.2.reverse = us.map some ++ List.replicate k none := by
  obtain ⟨rfl, rfl⟩ | ⟨c, r, vs, ws, rfl, rfl, hc, hr⟩ := h
  · exact ⟨0, rfl⟩
  · exact ⟨10 - ws.length, by simp [linkSlots_append, hr, hc.linkSlots]⟩

/-! One packet. -/

theorem length_packetUnits (p : List Byte) : (packetUnits p).length = p.length / 64 := by simp [packetUnits]

/-- The slots that packets of whole units take before the next one. -/
theorem length_flatMap_packetUnits (ps : List (List Byte)) (h : ∀ x ∈ ps, x.length % 64 = 0) :
    (ps.flatMap packetUnits).length = (ps.map List.length).sum / 64 := by
  induction ps with
  | nil => rfl
  | cons p ps ih =>
    rw [List.forall_mem_cons] at h
    rw [List.flatMap_cons, List.length_append, ih h.2, length_packetUnits, List.map_cons, List.sum_cons]
    omega

/-- The chunks of 64 bytes of a packet make it up. -/
theorem flatten_chunks (n : Nat) : ∀ p : List Byte, p.length = 64 * n →
    ((List.range n).map (fun i => (p.drop (64 * i)).take 64)).flatten = p := by
  induction n with
  | zero => intro p hp; exact (List.eq_nil_of_length_eq_zero hp).symm
  | succ n ih =>
    intro p hp
    have hrest := ih (p.drop 64) (by simp; omega)
    simp only [List.drop_drop] at hrest
    rw [List.range_succ_eq_map, List.map_cons, List.flatten_cons, List.map_map]
    have hshift : (fun i => (p.drop (64 * i)).take 64) ∘ Nat.succ = fun i => (p.drop (64 + 64 * i)).take 64 := by
      funext i
      simp [Nat.mul_succ, Nat.add_comm]
    rw [hshift, hrest]
    exact List.take_append_drop 64 p

/-- The units that continue a packet are the unmarked ones that follow. -/
theorem moreUnits_unmarked (us : List (List Byte)) (tail : List (Option (Bool × List Byte))) :
    moreUnits (us.map (fun u => some (false, u)) ++ tail) = us ++ moreUnits tail := by
  induction us with
  | nil => rfl
  | cons u us ih => simp [moreUnits, ih]

/-- A packet's units: the first, marked, and the rest, unmarked. -/
theorem packetUnits_cons {p : List Byte} {n : Nat} (hp : p.length = 64 * (n + 1)) :
    packetUnits p = (true, p.take 64) :: ((List.range n).map (fun i => ((p.drop 64).drop (64 * i)).take 64)).map (fun u => (false, u)) := by
  have hn : p.length / 64 = n + 1 := by omega
  rw [packetUnits, hn, List.range_succ_eq_map]
  simp [Function.comp_def, Nat.mul_succ, Nat.add_comm]

/-- The length field of a packet's header lies in its first unit. -/
theorem leAt_take_units (p : List Byte) : leAt (p.take 64) 6 1 = leAt p 6 1 := by
  simp only [leAt, List.drop_take, List.take_take]
  norm_num

/-- A packet whose header gives its number of units reads back from a slot where its units lie. -/
theorem packetOf_of_drop {a : Arrival} {p : List Byte} {n : Nat} {tail : List (Option (Bool × List Byte))} (hlen : p.length = 64 * n)
    (hn : 1 ≤ n) (hunits : leAt p 6 1 = n) (hdrop : (linkSlots a.codewords).drop a.slot = (packetUnits p).map some ++ tail) :
    packetOf a = p := by
  obtain ⟨m, rfl⟩ := Nat.exists_eq_add_of_le' hn
  have hrest := flatten_chunks m (p.drop 64) (by simp; omega)
  have hcount : ((List.range m).map (fun i => ((p.drop 64).drop (64 * i)).take 64)).length = m := by simp
  rw [packetOf, hdrop, packetUnits_cons hlen]
  generalize (List.range m).map (fun i => ((p.drop 64).drop (64 * i)).take 64) = us at hrest hcount
  simp only [List.map_cons, List.map_map, Function.comp_def, List.cons_append, moreUnits_unmarked, leAt_take_units, hunits,
    Nat.add_sub_cancel]
  rw [← hcount, List.take_left, hrest, List.take_append_drop]

/-- Settles O58: the line's slots are the units in order, the order of log entry 100 (`Laid.linkSlots`), so that the packet's own slots
follow those of the packets before it. -/
theorem framesReadBack : Obligations.FramesReadBack := by
  unfold Obligations.FramesReadBack
  rintro before after p line hunits rfl
  obtain ⟨k, hline⟩ := (Laid.foldl ((before ++ p :: after).flatMap packetUnits) (.inl ⟨rfl, rfl⟩)).linkSlots
  obtain ⟨n, hn, hlen, hfield⟩ := hunits p (by simp)
  refine packetOf_of_drop hlen hn hfield (tail := (after.flatMap packetUnits).map some ++ List.replicate k none) ?_
  rw [← length_flatMap_packetUnits before fun x hx => ?mod, hline]
  case mod =>
    obtain ⟨m, _, hm, _⟩ := hunits x (by simp [hx])
    omega
  simp

end Sys2Proof.Machine
end

section
/-! PROOFS. Operations that change registers alone. -/

namespace Sys2Proof.Machine

/-- t is s but for its registers. -/
def State.RegsOnly (s t : State) : Prop := t = { s with regs := t.regs }

theorem State.RegsOnly.refl (s : State) : s.RegsOnly s := rfl

theorem State.RegsOnly.setReg {s t : State} (h : s.RegsOnly t) (a : Nat) (w : Word) : s.RegsOnly (t.setReg a w) := by
  obtain ⟨r, rfl⟩ : ∃ r, t = { s with regs := r } := ⟨_, h⟩
  rfl

theorem State.RegsOnly.wr {s t : State} (h : s.RegsOnly t) (a n : Nat) : s.RegsOnly (t.wr a n) := h.setReg a _

theorem State.RegsOnly.wf {s t : State} (h : s.RegsOnly t) (a hi lo v : Nat) : s.RegsOnly (t.wf a hi lo v) := h.wr a _

theorem State.RegsOnly.wr64 {s t : State} (h : s.RegsOnly t) (a n : Nat) : s.RegsOnly (t.wr64 a n) := (h.wr a _).wr _ _

theorem State.RegsOnly.foldl {α : Type} {f : State → α → State} (hf : ∀ {s t : State} {x}, s.RegsOnly t → s.RegsOnly (f t x)) (l : List α) :
    ∀ {s t : State}, s.RegsOnly t → s.RegsOnly (l.foldl f t) := by
  induction l with
  | nil => exact fun h => h
  | cons x l ih => exact fun h => ih (hf h)

end Sys2Proof.Machine
end

section
/-! PROOFS. The words of the access paths: what waits, what is held, and what a word writes in its cycle. -/

namespace Sys2Proof.Machine

/-! A word in its cycle. -/

theorem State.turn_of_none {p : Path} {s : State} (h : (s.path p).waiting = []) : s.turn p = s := by
  rw [State.turn, h]
  rfl

theorem takesWrite_of_hiWritable {p : Path} {a : Nat} (h : hiWritable p a = true) : takesWrite p a = true := by
  simp only [hiWritable, Bool.and_eq_true] at h
  exact h.1.2

theorem State.wordWrite_shut (s : State) {p : Path} {a : Nat} (v : Nat) (h : takesWrite p a = false) : s.wordWrite p a v = (s, none) :=
  if_pos h

theorem State.wordWrite_lo (s : State) {p : Path} {a : Nat} (v : Nat) (ht : takesWrite p a = true) (hh : hiWritable p a = false)
    (hl : isPairLo a = true) : s.wordWrite p a v = (s.updPath p (fun x => { x with holds := Tab.put (fun _ => none) a none x.holds }),
      some { path := p, addr := a, value := v, upper := (Tab.get (fun _ => none) (s.path p).holds a).map (·.toNat) }) := by
  rw [State.wordWrite, if_neg (by rw [ht]; decide), if_neg (by rw [hh]; decide), if_pos hl]

theorem State.wordWrite_plain (s : State) {p : Path} {a : Nat} (v : Nat) (ht : takesWrite p a = true) (hh : hiWritable p a = false)
    (hl : isPairLo a = false) : s.wordWrite p a v = (s, some { path := p, addr := a, value := v, upper := none }) := by
  rw [State.wordWrite, if_neg (by rw [ht]; decide), if_neg (by rw [hh]; decide), if_neg (by rw [hl]; decide)]

theorem State.path_wordWrite_ne (s : State) {p q : Path} (h : q ≠ p) (a v : Nat) : (s.wordWrite p a v).1.path q = s.path q := by
  unfold State.wordWrite
  split
  · rfl
  · split
    · exact State.path_updPath_ne s h _
    · split
      · exact State.path_updPath_ne s h _
      · rfl

theorem State.writeAlone_shut (s : State) (ext : State → Path → Nat → Nat → Option State) {p : Path} {a : Nat} (v : Nat)
    (h : takesWrite p a = false) : s.writeAlone ext p a v = s := by
  rw [State.writeAlone, s.wordWrite_shut v h]

theorem State.writeAlone_lo (s : State) (ext : State → Path → Nat → Nat → Option State) {p : Path} {a : Nat} (v : Nat)
    (ht : takesWrite p a = true) (hh : hiWritable p a = false) (hl : isPairLo a = true) :
    s.writeAlone ext p a v = (s.updPath p (fun x => { x with holds := Tab.put (fun _ => none) a none x.holds })).writeOne ext
      { path := p, addr := a, value := v, upper := (Tab.get (fun _ => none) (s.path p).holds a).map (·.toNat) } := by
  rw [State.writeAlone, s.wordWrite_lo v ht hh hl]

/-- A register that is no pair's takes its word at once. -/
theorem State.writeAlone_plain (s : State) (ext : State → Path → Nat → Nat → Option State) {p : Path} {k : PageKind} {i a : Nat} (v : Nat)
    {r : RegRow} (ht : takesWrite p a = true) (hh : hiWritable p a = false) (hl : isPairLo a = false)
    (hk : pageOf (a / 0x1000) = some (k, i)) (hr : regRow a = some r) : s.writeAlone ext p a v = s.applyWrite ext p k i a v r := by
  rw [State.writeAlone, s.wordWrite_plain v ht hh hl]
  simp only [State.writeOne, hk, hr]

/-! The register file's cycle. -/

theorem State.takeWord_of_none {p : Path} {s : State} (h : (s.path p).waiting = []) : s.takeWord p = (s, none) := by
  rw [State.takeWord, h]

theorem State.takeWord_of_cons {p : Path} {a : Nat} {v : Word} {ws : List (Nat × Word)} {s : State}
    (h : (s.path p).waiting = (a, v) :: ws) (hb : badReason a 4 = none) :
    s.takeWord p = (s.updPath p (fun x => { x with waiting := ws })).wordWrite p a v.toNat := by
  rw [State.takeWord, h]
  simp only [hb]

/-- A cycle in which one path alone has words waiting. -/
theorem State.regCycle_of_host {a : Nat} {v : Word} {ws : List (Nat × Word)} {s : State} (h : s.hostPath.waiting = (a, v) :: ws)
    (hm : s.mgrPath.waiting = []) (hb : badReason a 4 = none) :
    s.regCycle = (s.updPath .host (fun x => { x with waiting := ws })).writeAlone bootExt .host a v.toNat := by
  have hmgr : (((s.updPath .host (fun x => { x with waiting := ws })).wordWrite .host a v.toNat).1.path .manager).waiting = [] := by
    rw [State.path_wordWrite_ne _ (by decide)]
    exact hm
  rw [State.regCycle, State.takeWord_of_cons (p := .host) h hb, State.takeWord_of_none hmgr, State.writeAlone]
  split <;> simp_all

theorem State.regCycle_of_manager {a : Nat} {v : Word} {ws : List (Nat × Word)} {s : State} (h : s.mgrPath.waiting = (a, v) :: ws)
    (hm : s.hostPath.waiting = []) (hb : badReason a 4 = none) :
    s.regCycle = (s.updPath .manager (fun x => { x with waiting := ws })).writeAlone bootExt .manager a v.toNat := by
  rw [State.regCycle, State.takeWord_of_none (p := .host) hm, State.takeWord_of_cons (p := .manager) h hb, State.writeAlone]
  split <;> simp_all

/-! The commands. -/

theorem exec_hiWriteHold_bar0 (p : Path) {a : Nat} (v : Word) (s : State) (h : hiWritable p a = true) :
    exec (.hiWriteHold p (.bar0 a) v) s = .next ((s.turn p).holdHi p a v.toNat) := if_pos h

theorem exec_loWriteCommit_bar0 (p : Path) {a : Nat} (v : Word) (s : State) (h : isPairLo a = true) :
    exec (.loWriteCommit p (.bar0 a) v) s = .next ((s.turn p).writeAlone bootExt p a v.toNat) := if_pos h

/-- Settles O8: the writes of a pair through what a word writes in its cycle (`State.wordWrite`), the others through the words that wait.
-/
theorem pairWritesAreHeld : Obligations.PairWritesAreHeld := by
  unfold Obligations.PairWritesAreHeld
  refine ⟨fun p s h => State.turn_of_none h, ?_, ?_, ?_, ?_, ?_, ?_, ?_, ?_, ?_, ?_, ?_⟩
  · intro p a v s u hu hh
    subst hu
    refine ⟨_, exec_hiWriteHold_bar0 p v s hh, ?_, fun q hq => State.path_updPath_ne _ hq _, ?_⟩
    · simp [State.holdHi]
    · cases p <;> rfl
  · intro p a v w s u hu hl hh ht hw
    rw [exec_loWriteCommit_bar0 p v s hl, ← hu, State.writeAlone_lo _ _ _ ht hh hl, hw]
    rfl
  · intro p a v s u hu hl hh ht hw
    rw [exec_loWriteCommit_bar0 p v s hl, ← hu, State.writeAlone_lo _ _ _ ht hh hl, hw]
    rfl
  · intro p a v s hl ht
    rw [exec_loWriteCommit_bar0 p v s hl, State.writeAlone_shut _ _ _ ht]
  · exact fun func q o v s ho => if_pos ⟨rfl, ho⟩
  · exact fun func q o v s ho => if_pos ⟨rfl, ho⟩
  · intro p a v s
    refine ⟨s.arrive p a v, rfl, ?_, fun q hq => State.path_updPath_ne _ hq _, ?_⟩
    · simp [State.arrive]
    · cases p <;> rfl
  · exact fun func q o v s => rfl
  · exact fun a v ws s h hm hb => State.regCycle_of_host h hm hb
  · exact fun a v ws s h hm hb => State.regCycle_of_manager h hm hb
  · exact fun p k i a v r s ht hh hl hk hr => State.writeAlone_plain _ _ _ ht hh hl hk hr

end Sys2Proof.Machine
end

section
/-! PROOFS. What every operation of the model keeps: the queue of waiting commands, and the canonical form of the register file, host
memory, the commons and HBM. One lemma for each operation, in the order of the definitions; each is composed of those of the operations it
calls, along its branches. -/

namespace Sys2Proof.Machine

/-- t has the queue of commands that s has, and the canonical form where s has it. Where still is set, TIME and the access paths stand
still too: only commands, register writes and the advance of TIME itself move them. -/
def State.Keeps (s : State) (still : Bool) (t : State) : Prop :=
  t.pending = s.pending ∧ (s.wfTabs = true → t.wfTabs = true) ∧
    (still = true → t.time = s.time ∧ t.hostPath = s.hostPath ∧ t.mgrPath = s.mgrPath)

/-- Every state that o may hold keeps what s has. -/
def State.KeepsAny (s : State) (still : Bool) (o : Option State) : Prop := ∀ u, o = some u → s.Keeps still u

/-- o answers a next state, and it keeps what s has. -/
def State.Answers (s : State) (still : Bool) (o : Host.Outcome State Fault Refusal) : Prop := ∃ t, o = .next t ∧ s.Keeps still t

/-! Composition. -/

theorem State.Keeps.refl (s : State) {still : Bool} : s.Keeps still s := ⟨rfl, id, fun _ => ⟨rfl, rfl, rfl⟩⟩

variable {still : Bool} {s t u : State} {c : Prop} [Decidable c]

theorem State.Keeps.ite (ht : s.Keeps still t) (hu : s.Keeps still u) : s.Keeps still (if c then t else u) := by
  split <;> assumption

theorem State.Keeps.ite_fst {α : Type} {p q : State × α} (hp : s.Keeps still p.1) (hq : s.Keeps still q.1) : s.Keeps still (if c then p else q).1 := by
  split <;> assumption

theorem State.Keeps.foldl {α : Type} {f : State → α → State} {l : List α} (hf : ∀ {u a}, s.Keeps still u → s.Keeps still (f u a)) :
    ∀ {t}, s.Keeps still t → s.Keeps still (l.foldl f t) := by
  induction l with
  | nil => exact fun h => h
  | cons a l ih => exact fun h => ih (hf h)

/-- A fold that carries more than the state. -/
theorem State.Keeps.foldl_fst {α β : Type} {f : State × β → α → State × β} {l : List α} (hf : ∀ {p a}, s.Keeps still p.1 → s.Keeps still (f p a).1) :
    ∀ {p}, s.Keeps still p.1 → s.Keeps still (l.foldl f p).1 := by
  induction l with
  | nil => exact fun h => h
  | cons a l ih => exact fun h => ih (hf h)

/-- The state of a pair that a match has taken apart. -/
theorem State.Keeps.out {α : Type} {p : State × α} {x : α} (h : s.Keeps still p.1) (e : p = (u, x) := by assumption) : s.Keeps still u := by
  rw [e] at h
  exact h

theorem State.KeepsAny.out {o : Option State} (h : s.KeepsAny still o) (e : o = some u := by assumption) : s.Keeps still u := h u e

theorem State.KeepsAny.none : s.KeepsAny still none := fun _ e => nomatch e

theorem State.KeepsAny.some (h : s.Keeps still t) : s.KeepsAny still (some t) := fun _ e => Option.some.inj e ▸ h

theorem State.KeepsAny.ite {o p : Option State} (ho : s.KeepsAny still o) (hp : s.KeepsAny still p) : s.KeepsAny still (if c then o else p) := by
  split <;> assumption

theorem State.Keeps.getD {o : Option State} (ho : s.KeepsAny still o) (ht : s.Keeps still t) : s.Keeps still (o.getD t) := by
  cases o with
  | none => exact ht
  | some u => exact ho u rfl

theorem State.Answers.next (h : s.Keeps still t) : s.Answers still (.next t) := ⟨t, rfl, h⟩

theorem State.Answers.ite {o p : Host.Outcome State Fault Refusal} (ho : s.Answers still o) (hp : s.Answers still p) :
    s.Answers still (if c then o else p) := by
  split <;> assumption

theorem State.Keeps.ran {o : Host.Outcome State Fault Refusal} (_ : s.Keeps still t) (ho : s.Answers still o) : s.Keeps still (ran t o) := by
  obtain ⟨u, rfl, hu⟩ := ho
  exact hu

/-- A change of the fields beside those eight. -/
theorem State.Keeps.same {events : List CycleEvent} {intSet : Tab Nat} {records : List (Job × Nat)} {mgrOut : List (List Byte)} {agg :
    Aggregator} {ibi : IbiState} {gov : Governor} {hif : HostIf} {queues : Tab Queue} {fetched : List Fetched} {jobs : List Job} {cmds :
    List Command} {stops : List StopAsk} {mem : MemState} {tun : TunArray} {boot : BootState} {ent : EntState} {solver : Option SolverRun}
    {pred : PredState} {plan : PlanState} {gnm : CoreArray} {key : KeyState} {cipher : Option CipherRun} {jtag : Jtag} {links : Tab Link}
    {nextId : Nat} {fresh : Nat} (h : s.Keeps still t) : s.Keeps still ⟨t.pending, t.time, t.regs, t.hostPath, t.mgrPath, events, intSet,
    records, mgrOut, agg, ibi, gov, hif, queues, fetched, jobs, cmds, stops, t.hostMem, t.commons, t.hbm, mem, tun, boot, ent, solver, pred,
    plan, gnm, key, cipher, jtag, links, nextId, fresh⟩ := h

/-- A change of TIME or of an access path, and of fields beside them. -/
theorem State.Keeps.moved {time : Nat} {hostPath : PathState} {mgrPath : PathState} {events : List CycleEvent} {intSet : Tab Nat} {records :
    List (Job × Nat)} {mgrOut : List (List Byte)} {agg : Aggregator} {ibi : IbiState} {gov : Governor} {hif : HostIf} {queues : Tab Queue}
    {fetched : List Fetched} {jobs : List Job} {cmds : List Command} {stops : List StopAsk} {mem : MemState} {tun : TunArray} {boot :
    BootState} {ent : EntState} {solver : Option SolverRun} {pred : PredState} {plan : PlanState} {gnm : CoreArray} {key : KeyState} {cipher
    : Option CipherRun} {jtag : Jtag} {links : Tab Link} {nextId : Nat} {fresh : Nat} (h : s.Keeps false t) : s.Keeps false ⟨t.pending,
    time, t.regs, hostPath, mgrPath, events, intSet, records, mgrOut, agg, ibi, gov, hif, queues, fetched, jobs, cmds, stops, t.hostMem,
    t.commons, t.hbm, mem, tun, boot, ent, solver, pred, plan, gnm, key, cipher, jtag, links, nextId, fresh⟩ := ⟨h.1, h.2.1, fun e =>
    nomatch e⟩

/-! The places where a register or a byte of memory changes. -/

theorem State.wfTabs_iff (s : State) : s.wfTabs = true ↔ Tab.wf regReset s.regs = true ∧ Tab.wf (fun _ => []) s.hostMem = true ∧
    s.hostMem.all (fun e => Memory.wf e.2) = true ∧ Memory.wf s.commons = true ∧ Memory.wf s.hbm = true := by
  simp only [State.wfTabs, Bool.and_eq_true, and_assoc]

/-- A change of the register file that keeps its form. -/
theorem State.Keeps.regs {r : Tab Word} (h : s.Keeps still t) (hr : Tab.wf regReset t.regs = true → Tab.wf regReset r = true) :
    s.Keeps still { t with regs := r } := by
  refine ⟨h.1, fun hs => ?_, h.2.2⟩
  obtain ⟨hregs, hmem⟩ := t.wfTabs_iff.1 (h.2.1 hs)
  exact (State.wfTabs_iff _).2 ⟨hr hregs, hmem⟩

theorem State.Keeps.commons {m : Tab Byte} (h : s.Keeps still t) (hm : Memory.wf t.commons = true → Memory.wf m = true) :
    s.Keeps still { t with commons := m } := by
  refine ⟨h.1, fun hs => ?_, h.2.2⟩
  obtain ⟨hregs, hhost, hall, hcom, hhbm⟩ := t.wfTabs_iff.1 (h.2.1 hs)
  exact (State.wfTabs_iff _).2 ⟨hregs, hhost, hall, hm hcom, hhbm⟩

theorem State.Keeps.hbm {m : Tab Byte} (h : s.Keeps still t) (hm : Memory.wf t.hbm = true → Memory.wf m = true) : s.Keeps still { t with hbm := m } := by
  refine ⟨h.1, fun hs => ?_, h.2.2⟩
  obtain ⟨hregs, hhost, hall, hcom, hhbm⟩ := t.wfTabs_iff.1 (h.2.1 hs)
  exact (State.wfTabs_iff _).2 ⟨hregs, hhost, hall, hcom, hm hhbm⟩

/-- Each value of a table after a write of one key is the value written or one that stood there. -/
theorem Tab.all_put {α : Type} [DecidableEq α] (d : Nat → α) (k : Nat) {v : α} {q : α → Bool} (hv : q v = true) {m : Tab α}
    (hm : m.all (fun e => q e.2) = true) : (Tab.put d k v m).all (fun e => q e.2) = true := by
  have herase : (Tab.erase k m).all (fun e => q e.2) = true := by
    rw [Tab.erase_eq_filter, List.all_eq_true] at *
    exact fun e he => hm e (List.mem_filter.1 he).1
  unfold Tab.put
  split
  · exact herase
  · generalize Tab.erase k m = l at herase
    induction l with
    | nil => simpa [Tab.insert] using hv
    | cons e l ih =>
      rw [List.all_cons, Bool.and_eq_true] at herase
      unfold Tab.insert
      split
      · simp only [List.all_cons, hv, herase.1, herase.2, Bool.and_self]
      · rw [List.all_cons, herase.1, ih herase.2, Bool.and_self]

/-- Each value that stands in a table is read there, and every other key reads the default. -/
theorem Tab.get_of_all {α : Type} (d : Nat → α) (k : Nat) {q : α → Bool} (hd : q (d k) = true) {m : Tab α}
    (hm : m.all (fun e => q e.2) = true) : q (Tab.get d m k) = true := by
  induction m with
  | nil => exact hd
  | cons e m ih =>
    rw [List.all_cons, Bool.and_eq_true] at hm
    unfold Tab.get
    split
    · exact hm.1
    · exact ih hm.2

theorem State.Keeps.hostMem {func a : Nat} {bs : List Byte} (h : s.Keeps still t) :
    s.Keeps still { t with hostMem := Tab.upd (fun _ => []) func (Tab.putList (fun _ => 0) a bs) t.hostMem } := by
  refine ⟨h.1, fun hs => ?_, h.2.2⟩
  obtain ⟨hregs, hhost, hall, hcom, hhbm⟩ := t.wfTabs_iff.1 (h.2.1 hs)
  have hrow := Tab.wf_putList (fun _ => (0 : Byte)) a bs (Tab.get_of_all (fun _ => []) func (q := Memory.wf) rfl hall)
  have hrows := Tab.all_put (fun _ => ([] : Tab Byte)) func (q := Memory.wf) hrow hall
  exact (State.wfTabs_iff _).2 ⟨hregs, Tab.wf_upd _ func _ hhost, hrows, hcom, hhbm⟩

/-! The operations. -/


/-! Ops. -/

theorem State.Keeps.setReg {a : Nat} {w : Word} (h : s.Keeps still t) : s.Keeps still (t.setReg a w) := h.regs (Tab.wf_put _ a w)
theorem State.Keeps.wr {a n : Nat} (h : s.Keeps still t) : s.Keeps still (t.wr a n) := h.setReg
theorem State.Keeps.wf {a hi lo v : Nat} (h : s.Keeps still t) : s.Keeps still (t.wf a hi lo v) := h.wr
theorem State.Keeps.wr64 {lo n : Nat} (h : s.Keeps still t) : s.Keeps still (t.wr64 lo n) := h.wr.wr
theorem State.Keeps.bump {a n : Nat} (h : s.Keeps still t) : s.Keeps still (t.bump a n) := h.wr
theorem State.Keeps.bumpSat {a n : Nat} (h : s.Keeps still t) : s.Keeps still (t.bumpSat a n) := h.wr
theorem State.Keeps.bump64 {lo n : Nat} (h : s.Keeps still t) : s.Keeps still (t.bump64 lo n) := h.wr64
theorem State.Keeps.askIbi {b : Nat} (h : s.Keeps still t) : s.Keeps still (t.askIbi b) := .ite h h
theorem State.Keeps.pendCheck {page : Nat} {before : Bool} (h : s.Keeps still t) : s.Keeps still (t.pendCheck page before) :=
  .ite h.askIbi h
theorem State.Keeps.setInt {page mask : Nat} (h : s.Keeps still t) : s.Keeps still (t.setInt page mask) := by
  unfold State.setInt
  dsimp only
  exact h.same.wr.pendCheck
theorem State.Keeps.addCtr {page k n : Nat} (h : s.Keeps still t) : s.Keeps still (t.addCtr page k n) := .ite h.wr h.wr.setInt
theorem State.Keeps.countPage {page code n : Nat} (h : s.Keeps still t) : s.Keeps still (t.countPage page code n) :=
  .ite h (.foldl (fun h => .ite h.addCtr h) h)
theorem State.Keeps.countGlobal {code n : Nat} {e : EvSource} (h : s.Keeps still t) : s.Keeps still (t.countGlobal code n e) :=
  .ite h (.foldl (fun h => .ite (.ite h.wr64 h.wr64.wr) h) h)
theorem State.Keeps.event {code page : Nat} {e : EvSource} {n : Nat} (h : s.Keeps still t) : s.Keeps still (t.event code page e n) :=
  .ite h h
theorem State.Keeps.countEvent {e : CycleEvent} (h : s.Keeps still t) : s.Keeps still (t.countEvent e) := by
  unfold State.countEvent
  dsimp only
  refine .countGlobal ?_
  split
  · exact h.countPage.countPage
  · exact h.countPage
theorem State.Keeps.counted (h : s.Keeps still t) : s.Keeps still t.counted := .foldl (fun h => h.countEvent) h
theorem State.Keeps.raiseErr {page code info : Nat} {region : Option Nat} (h : s.Keeps still t) : s.Keeps still (t.raiseErr page code info
    region) :=
  h
theorem State.Keeps.setQueue {q : Nat} {v : Queue} (h : s.Keeps still t) : s.Keeps still (t.setQueue q v) := h
theorem State.Keeps.updQueue {q : Nat} {f : Queue → Queue} (h : s.Keeps still t) : s.Keeps still (t.updQueue q f) := h.setQueue
theorem State.Keeps.updJob {e : Nat} {f : Job → Job} (h : s.Keeps still t) : s.Keeps still (t.updJob e f) := h
theorem State.Keeps.updCmd {i : Nat} {f : Command → Command} (h : s.Keeps still t) : s.Keeps still (t.updCmd i f) := h

/-! Energy. -/

theorem State.Keeps.chargeDev {c : Nat} (h : s.Keeps still t) : s.Keeps still (t.chargeDev c) := h
theorem State.Keeps.chargeJob {e c : Nat} (h : s.Keeps still t) : s.Keeps still (t.chargeJob e c) := by
  unfold State.chargeJob
  split
  · exact h.chargeDev
  · exact h.updJob.same
theorem State.Keeps.charge {e : Option Nat} {c : Nat} (h : s.Keeps still t) : s.Keeps still (t.charge e c) := by
  unfold State.charge
  split
  · exact h.chargeJob
  · exact h.chargeDev
theorem State.Keeps.reserve {e : Nat} (h : s.Keeps still t) : s.Keeps still (t.reserve e) := by
  unfold State.reserve
  split
  · exact h
  · exact h.updJob.same
theorem State.Keeps.release {e : Nat} (h : s.Keeps still t) : s.Keeps still (t.release e) := by
  unfold State.release
  split
  · exact h
  · exact h.updJob.same

/-! Jobs. -/

theorem State.Keeps.addBacklog {b : Nat} (h : s.Keeps still t) : s.Keeps still (t.addBacklog b) := h.wr64
theorem State.Keeps.backlogLess {b : Nat} (h : s.Keeps still t) : s.Keeps still (t.backlogLess b) := h.wr64
theorem State.Keeps.await {id n : Nat} (h : s.Keeps still t) : s.Keeps still (t.await id n) := .ite h h.addBacklog.updCmd
theorem State.Keeps.arrived {id : Nat} (h : s.Keeps still t) : s.Keeps still (t.arrived id) := by
  unfold State.arrived
  split
  · exact .ite h h.backlogLess.updCmd
  · exact h
theorem State.Keeps.finishJob {e status : Nat} {valid : Bool} {reason cause app : Nat} (h : s.Keeps still t) : s.Keeps still (t.finishJob e
    status valid reason cause app) := by
  unfold State.finishJob
  split
  · exact h
  · split
    · exact h
    · split <;> exact h.updJob
theorem State.Keeps.refuseJob {e status : Nat} (h : s.Keeps still t) : s.Keeps still (t.refuseJob e status) := h.finishJob
theorem State.Keeps.askStop {t' : StopTarget} {status : Nat} (h : s.Keeps still t) : s.Keeps still (t.askStop t' status) := .ite h h

/-! Mem. -/

theorem State.Keeps.setMark {k n : Nat} (h : s.Keeps still t) : s.Keeps still (t.setMark k n) := h
theorem State.Keeps.putBytes {space func a : Nat} {bs : List Byte} (h : s.Keeps still t) : s.Keeps still (t.putBytes space func a bs) :=
  .ite h.hostMem (.ite (h.hbm (Tab.wf_putList _ a bs)) (h.commons (Tab.wf_putList _ a bs)))
theorem State.Keeps.hostWrite {func a : Nat} {bs : List Byte} (h : s.Keeps still t) : s.Keeps still (t.hostWrite func a bs) := h.putBytes
theorem State.Keeps.noteWord {space w : Nat} (h : s.Keeps still t) : s.Keeps still (t.noteWord space w) := by
  unfold State.noteWord
  dsimp only
  exact .ite h (.ite (.ite h.wr64.wr.bump.event.raiseErr.same h.wr64.wr.bump.event.raiseErr) (.ite h.bump.event.raiseErr.same
      h.bump.event.raiseErr))
theorem State.Keeps.noteRead {job : Option Nat} {space a n : Nat} (h : s.Keeps still t) : s.Keeps still (t.noteRead job space a n) :=
  .ite h (.ite h.charge.bump64 (.ite (.foldl (fun h => h.bump64.event) (.charge (.foldl (fun h => h.noteWord) h))) (.foldl (fun h =>
    h.noteWord) h)))
theorem State.Keeps.storePart {space func w lo : Nat} {bs : List Byte} (h : s.Keeps still t) : s.Keeps still (t.storePart space func w lo
    bs) := by
  unfold State.storePart
  dsimp only
  exact .ite h.noteWord (.putBytes (.ite (.setMark (.ite h.noteWord h)) (.same (.setMark (.ite h.noteWord h)))))
theorem State.Keeps.writeSpace {job : Option Nat} {space func a : Nat} {bs : List Byte} (h : s.Keeps still t) : s.Keeps still (t.writeSpace
    job space func a bs) :=
  .ite h (.ite h.putBytes.charge.bump64 (.ite (.foldl (fun h => h.bump64.event) (.charge (.foldl (fun h => h.storePart) h))) (.foldl (fun h
    => h.storePart) h)))
theorem State.Keeps.writeAll {job : Option Nat} {ws : List SpaceWrite} (h : s.Keeps still t) : s.Keeps still (t.writeAll job ws) :=
  .foldl (fun h => h.writeSpace) h
theorem State.Keeps.access {space : Nat} {r : MemReq} (h : s.Keeps still t) : s.Keeps still (t.access space r).1 := by
  unfold State.access
  dsimp only
  split
  · exact .noteRead (.ite h h.setMark)
  · exact .writeSpace (.ite h h.setMark)
  · split
    · exact .noteRead (.ite h h.setMark)
    · exact .writeSpace (.ite h h.setMark)
  · split
    · exact .noteRead (.ite h h.setMark)
    · exact .writeSpace (.ite h h.setMark)
  · split
    · exact .noteRead (.ite h h.setMark)
    · exact .writeSpace (.ite h h.setMark)
theorem State.Keeps.edgeDrop {kind region router stop : Nat} (h : s.Keeps still t) : s.Keeps still (t.edgeDrop kind region router stop) :=
  h.bump.wr.bumpSat.event.raiseErr

/-! Calib. -/

theorem State.Keeps.calCode {c : Nat} (h : s.Keeps still t) : s.Keeps still (t.calCode c) := h.wf
theorem State.Keeps.effectCalLoad {x0 : Path} {x1 : Word} (h : s.Keeps still t) : s.Answers still (effectCalLoad x0 x1 t) := .next h.calCode
theorem State.Keeps.effectCalClear {x0 : Path} {x1 : Word} (h : s.Keeps still t) : s.Answers still (effectCalClear x0 x1 t) :=
  .next h.calCode
theorem State.Keeps.effectCalCommit {x0 : Path} {x1 : Word} (h : s.Keeps still t) : s.Answers still (effectCalCommit x0 x1 t) :=
  .ite (.next h.calCode) (.ite (.next h.calCode) (.ite (.next h.calCode) (.ite (.next h.calCode) (.next h.wf))))
theorem State.Keeps.commitStep (h : s.Keeps still t) : s.Keeps still t.commitStep := by
  unfold State.commitStep
  split
  · exact .ite h.wf.calCode h
  · exact h
theorem State.Keeps.effectCalBadOp {x0 : Path} {v : Word} (h : s.Keeps still t) : s.Answers still (effectCalBadOp x0 v t) :=
  .ite (.next h) (.next h.calCode)
theorem State.Keeps.effectCalDataAccess {p : Path} {v : Option Word} (h : s.Keeps false t) : s.Answers false (effectCalDataAccess p v t) := by
  unfold Machine.effectCalDataAccess
  dsimp only
  split
  · exact .next h.wr.moved
  · split <;> exact .next h.wr.moved

/-! Entropy. -/

theorem State.Keeps.updSrc {n : Nat} {f : NoiseSource → NoiseSource} (h : s.Keeps still t) : s.Keeps still (t.updSrc n f) := h
theorem State.Keeps.updChan {n : Nat} {f : Channel → Channel} (h : s.Keeps still t) : s.Keeps still (t.updChan n f) := h
theorem State.Keeps.chanPolicy {n : Nat} (h : s.Keeps still t) : s.Keeps still (t.chanPolicy n) :=
  .ite h (.ite (.ite h (.ite h.updChan.raiseErr h.updChan)) (.ite h.updChan h))
theorem State.Keeps.entReadyCheck (h : s.Keeps still t) : s.Keeps still t.entReadyCheck := .ite h.wf h
theorem State.Keeps.entStep (h : s.Keeps still t) : s.Keeps still t.entStep := .entReadyCheck (.foldl (fun h => h.chanPolicy) h)
theorem State.Keeps.healthFail {n test : Nat} (h : s.Keeps still t) : s.Keeps still (t.healthFail n test) := h.wf.event.raiseErr
theorem State.Keeps.sampleSource {bits n : Nat} (h : s.Keeps still t) : s.Keeps still (t.sampleSource bits n) :=
  .ite h.updSrc (.ite h.updSrc (.ite (.raiseErr (.ite (.healthFail (.ite h.updSrc.healthFail h.updSrc)) (.ite h.updSrc.healthFail
    h.updSrc))) (.ite (.healthFail (.ite h.updSrc.healthFail h.updSrc)) (.ite h.updSrc.healthFail h.updSrc))))
theorem State.Keeps.katStatus {st code target : Nat} (h : s.Keeps still t) : s.Keeps still (t.katStatus st code target) := h.wr
theorem State.Keeps.bootKat {target : Nat} (h : s.Keeps still t) : s.Keeps still (t.bootKat target) := by
  unfold State.bootKat
  dsimp only
  exact .katStatus (.ite h.same h.same.updChan)
theorem State.Keeps.entStartKats (h : s.Keeps still t) : s.Keeps still t.entStartKats := .ite h.bootKat h
theorem State.Keeps.entStartChans (h : s.Keeps still t) : s.Keeps still t.entStartChans := h
theorem State.Keeps.execNoiseSample {bits : Nat} (h : s.Keeps still t) : s.Answers still (execNoiseSample bits t) := by
  unfold Machine.execNoiseSample
  exact .ite (.next h) (.next (.entStartKats (.same (.foldl (fun h => h.sampleSource) h.same))))
theorem State.Keeps.execRestartTestStart {src : Nat} (h : s.Keeps still t) : s.Answers still (execRestartTestStart src t) := by
  unfold Machine.execRestartTestStart
  split
  · exact .next h
  · exact .ite (.next h) (.next h.updSrc)
theorem State.Keeps.offerWord {n : Nat} (h : s.Keeps still t) : s.Keeps still (t.offerWord n) := by
  unfold State.offerWord
  dsimp only
  split
  · exact h
  · split
    · exact h
    · exact .ite (.ite h.updChan h.updChan.bump.event) h.updChan
theorem State.Keeps.execNoiseWord (h : s.Keeps still t) : s.Answers still (execNoiseWord t) :=
  .ite (.next h) (.next (.ite h (.foldl (fun h => h.offerWord) h)))
theorem State.Keeps.execConditionedBlockReady {chan : Nat} (h : s.Keeps still t) : s.Answers still (execConditionedBlockReady chan t) := by
  unfold Machine.execConditionedBlockReady
  split
  · exact .next h
  · exact .ite (.next h) (.next h.updChan)
theorem State.Keeps.execDrbgGenerateStart {chan : Nat} (h : s.Keeps still t) : s.Answers still (execDrbgGenerateStart chan t) :=
  .ite (.next h) (.ite (.next h.updChan) (.next h.updChan))
theorem State.Keeps.execDrbgGenerateDone {chan : Nat} (h : s.Keeps still t) : s.Answers still (execDrbgGenerateDone chan t) := by
  unfold Machine.execDrbgGenerateDone
  dsimp only
  split
  · exact .next h
  · exact .ite (.next h) (.ite (.next h.updChan.updChan) (.next h.updChan))
theorem State.Keeps.execDrbgReseedDone {chan : Nat} (h : s.Keeps still t) : s.Answers still (execDrbgReseedDone chan t) := by
  unfold Machine.execDrbgReseedDone
  dsimp only
  split
  · exact .next h
  · exact .ite (.next h) (.next (.ite h.updChan.event h.updChan))
theorem State.Keeps.draw {chan n : Nat} (h : s.Keeps still t) : s.Keeps still (t.draw chan n).1 := .ite_fst h h.updChan
theorem State.Keeps.notReady {chan : Nat} (h : s.Keeps still t) : s.Keeps still (t.notReady chan) := h.bumpSat.event
theorem State.Keeps.drawSeed (h : s.Keeps still t) : s.Keeps still t.drawSeed.1 := by
  unfold State.drawSeed
  split
  · exact h.draw.out
  · exact h.draw.out.notReady
theorem State.Keeps.pathRead {p : Path} {v : List Word} (h : s.Keeps false t) : s.Keeps false (t.pathRead p v) := by
  cases p <;> exact h.moved
theorem State.Keeps.softAnswer {r : SoftRead} (h : s.Keeps false t) : s.Keeps false (t.softAnswer r) := by
  unfold State.softAnswer
  dsimp only
  exact h.same.pathRead
theorem State.Keeps.effectSoftDataRead {p : Path} (h : s.Keeps false t) : s.Answers false (effectSoftDataRead p t) := by
  unfold Machine.effectSoftDataRead
  extract_lets +onlyGivenNames d r t₁
  have h₁ : s.Keeps false t₁ := .ite h.draw h.draw.notReady
  clear_value t₁ r
  split
  · exact .ite (.next (.same h₁.softAnswer.softAnswer)) (.next h₁.softAnswer)
  · exact .next (.same h₁.softAnswer)
theorem State.Keeps.katCode {code : Nat} (h : s.Keeps still t) : s.Keeps still (t.katCode code) := h.wf
theorem State.Keeps.katAsk {target : Nat} (h : s.Keeps still t) : s.Keeps still (t.katAsk target) :=
  .ite h.katCode (.ite h.katStatus (.ite h.katCode h.katStatus))
theorem State.Keeps.effectKatConditioner {x0 : Path} {v : Word} (h : s.Keeps still t) : s.Answers still (effectKatConditioner x0 v t) :=
  .ite (.next h) (.next h.katAsk)
theorem State.Keeps.effectKatChannel {x0 : Path} {v : Word} (h : s.Keeps still t) : s.Answers still (effectKatChannel x0 v t) :=
  .ite (.next h) (.next h.katAsk)
theorem State.Keeps.execKatStart (h : s.Keeps still t) : s.Answers still (execKatStart t) := by
  unfold Machine.execKatStart
  split
  · exact .next h
  · exact .ite (.next h) (.ite (.next h) (.next h.same.updChan.katStatus))
theorem State.Keeps.katFailed {target : Nat} (h : s.Keeps still t) : s.Keeps still (t.katFailed target) := by
  unfold State.katFailed
  exact .ite h.same.raiseErr (.ite h.updChan.raiseErr.raiseErr h.updChan.raiseErr)
theorem State.Keeps.katPassed {k : Kat} (h : s.Keeps still t) : s.Keeps still (t.katPassed k) := .ite h (.ite h.updChan h.updChan)
theorem State.Keeps.execKatDone {pass : Bool} (h : s.Keeps still t) : s.Answers still (execKatDone pass t) := by
  unfold Machine.execKatDone
  split
  · exact .next h
  · split
    · exact .next h
    · exact .ite (.next h) (.next (.ite (.ite h.same.katStatus.katPassed h.same.katStatus.katFailed) (.ite (.bootKat (.ite
        h.same.katStatus.katPassed h.same.katStatus.katFailed)) (.entStartChans (.ite h.same.katStatus.katPassed
        h.same.katStatus.katFailed)))))
theorem State.Keeps.effectKatBadTarget {x0 : Path} {v : Word} (h : s.Keeps still t) : s.Answers still (effectKatBadTarget x0 v t) :=
  .ite (.next h.katCode) (.next h)
theorem State.Keeps.startSource {n : Nat} (h : s.Keeps still t) : s.Keeps still (t.startSource n) := h.updSrc
theorem State.Keeps.srcCtrl {v n : Nat} (h : s.Keeps still t) : s.Keeps still (t.srcCtrl v n) :=
  .ite h.wf.updSrc (.ite h.wf.startSource (.ite h.wf.updSrc h.wf))
theorem State.Keeps.srcCtrlWrite {v : Nat} (h : s.Keeps still t) : s.Keeps still (t.srcCtrlWrite v) := .foldl (fun h => h.srcCtrl) h
theorem State.Keeps.effectSourceRestart {x0 : Path} {v : Word} (h : s.Keeps still t) : s.Answers still (effectSourceRestart x0 v t) :=
  .next h.srcCtrlWrite
theorem State.Keeps.effectSourceDisable {x0 : Path} {v : Word} (h : s.Keeps still t) : s.Answers still (effectSourceDisable x0 v t) :=
  .next h.srcCtrlWrite
theorem State.Keeps.effectSourceEnable {x0 : Path} {v : Word} (h : s.Keeps still t) : s.Answers still (effectSourceEnable x0 v t) :=
  .next h.srcCtrlWrite
theorem State.Keeps.effectTestPatternWrite {x0 : Path} {ctrl : Bool} {v : Word} (h : s.Keeps still t) : s.Answers still
    (effectTestPatternWrite x0 ctrl v t) :=
  .ite (.next h.wr) (.ite (.next (.foldl (fun h => .ite h.updSrc h) h.wr)) (.next h.wr))
theorem State.Keeps.entStart (h : s.Keeps still t) : s.Keeps still t.entStart := .foldl (fun h => .ite h h.startSource) h

/-! RunBlock. -/

theorem State.Keeps.updTun {t' : Nat} {f : TunSt → TunSt} (h : s.Keeps still t) : s.Keeps still (t.updTun t' f) := h
theorem State.Keeps.updGrist {id : Nat} {f : Grist → Grist} (h : s.Keeps still t) : s.Keeps still (t.updGrist id f) := h
theorem State.Keeps.updRun {cmd : Nat} {f : Run → Run} (h : s.Keeps still t) : s.Keeps still (t.updRun cmd f) := h

/-! Anneal. -/

theorem State.Keeps.endCmd {id : Nat} {e : CmdEnd} (h : s.Keeps still t) : s.Keeps still (t.endCmd id e) := h.arrived.updCmd
theorem State.Keeps.annealBad {c : Command} {h' : RunHead} {b : Bad} (h : s.Keeps still t) : s.Keeps still (t.annealBad c h' b) :=
  .endCmd (.ite h.wr h)
theorem State.Keeps.tunEvent {r : Run} {t' code n : Nat} (h : s.Keeps still t) : s.Keeps still (t.tunEvent r t' code n) := h.event
theorem State.Keeps.storeStates {r : Run} {job : Option Nat} {n : Nat} (h : s.Keeps still t) : s.Keeps still (t.storeStates r job n) :=
  .foldl (fun h => h.writeSpace) h
theorem State.Keeps.noteCause {r : Run} {e : CmdEnd} (h : s.Keeps still t) : s.Keeps still (t.noteCause r e) := h.wr
theorem State.Keeps.wordRead {page bits ce ue bound ceBase : Nat} (h : s.Keeps still t) : s.Keeps still (t.wordRead page bits ce ue bound
    ceBase) := by
  unfold State.wordRead
  exact .ite h h.same.raiseErr
theorem State.Keeps.tunWordRead {t' bits code : Nat} (h : s.Keeps still t) : s.Keeps still (t.tunWordRead t' bits code) := h.wordRead
theorem State.Keeps.readBest {r : Run} (h : s.Keeps still t) : s.Keeps still (t.readBest r) := .foldl (fun h => h.tunWordRead.updTun) h
theorem State.Keeps.finishRun {r : Run} {status cause : Nat} {validOk mid : Bool} (h : s.Keeps still t) : s.Keeps still (t.finishRun r
    status cause validOk mid) := by
  unfold State.finishRun
  split
  · exact .endCmd (.noteCause (.foldl (fun h => h.updTun) (.updRun (.ite (.readBest (.ite h.storeStates h)) (.ite h.storeStates h)))))
  · exact h.updRun
theorem State.Keeps.dropLoad {b : List Byte} (h : s.Keeps still t) : s.Keeps still (t.dropLoad b) := .foldl (fun h => h.updTun) h
theorem State.Keeps.stopTun {c : Command} {status : Nat} {halt : Bool} (h : s.Keeps still t) : s.Keeps still (t.stopTun c status halt) := by
  unfold State.stopTun
  split
  · exact .endCmd (.ite h.dropLoad h)
  · split
    · exact h
    · exact .ite h.finishRun (.ite h (.ite h.updRun h.finishRun))
theorem State.Keeps.tunFault {t' : Nat} {valid : Bool} (h : s.Keeps still t) : s.Keeps still (t.tunFault t' valid) :=
  .foldl (fun h => .ite h.dropLoad.endCmd h) (.foldl (fun h => .ite h.finishRun h) h)
theorem State.Keeps.disarm {page : Nat} (h : s.Keeps still t) : s.Keeps still (t.disarm page) := h
theorem State.Keeps.tunStores {t' : Nat} {f : TunSt → Nat → TunSt} (h : s.Keeps still t) : s.Keeps still (t.tunStores t' f) :=
  .ite h h.disarm.updTun
theorem State.Keeps.copyBest {r : Run} (h : s.Keeps still t) : s.Keeps still (t.copyBest r) := .foldl (fun h => h.updTun.tunStores) h
theorem State.Keeps.tunReads {t' : Nat} (h : s.Keeps still t) : s.Keeps still (t.tunReads t') :=
  .ite h.tunWordRead.tunWordRead.updTun.tunFault.updTun (.ite h.tunWordRead.tunWordRead.updTun.tunFault h.tunWordRead.tunWordRead.updTun)

/-! EngineCmd. -/

theorem State.Keeps.setEngLull {e : Engine} {x : EngineLull} (h : s.Keeps still t) : s.Keeps still (t.setEngLull e x) := h
theorem State.Keeps.noteArea {c : Command} {a : Area} (h : s.Keeps still t) : s.Keeps still (t.noteArea c a) := h.noteRead
theorem State.Keeps.noteAreas {c : Command} {l : List Area} (h : s.Keeps still t) : s.Keeps still (t.noteAreas c l) :=
  .foldl (fun h => h.noteArea) h
theorem State.Keeps.operandFault {page code region : Nat} {l : List Area} (h : s.Keeps still t) : s.Keeps still (t.operandFault page code
    region l) := by
  unfold State.operandFault
  split
  · exact .ite h h.raiseErr
  · exact h

/-! Planner. -/

theorem State.Keeps.setPlanResident {gs : List PlanGrid} {ts : List PlanTable} (h : s.Keeps still t) : s.Keeps still (t.setPlanResident gs
    ts) :=
  h.wr
theorem State.Keeps.useGrid {g : PlanGrid} (h : s.Keeps still t) : s.Keeps still (t.useGrid g) := h.setPlanResident
theorem State.Keeps.useTable {t' : PlanTable} (h : s.Keeps still t) : s.Keeps still (t.useTable t') := h.setPlanResident
theorem State.Keeps.dropPlans {p : Nat → Bool} (h : s.Keeps still t) : s.Keeps still (t.dropPlans p) := by
  unfold State.dropPlans
  split
  · exact h.setPlanResident
  · exact .ite h.setPlanResident h.setPlanResident
theorem State.Keeps.effectPlnFlushAll {x0 : Path} {v : Word} (h : s.Keeps still t) : s.Answers still (effectPlnFlushAll x0 v t) :=
  .ite (.next h.dropPlans) (.next h)
theorem State.Keeps.effectPlnFlushRegion {x0 : Path} {v : Word} (h : s.Keeps still t) : s.Answers still (effectPlnFlushRegion x0 v t) :=
  .ite (.next h) (.next h.dropPlans)
theorem State.Keeps.plPos {req tstep phase : Nat} (h : s.Keeps still t) : s.Keeps still (t.plPos req tstep phase) := h.wr
theorem State.Keeps.plEnd {c : Command} {e : CmdEnd} (h : s.Keeps still t) : s.Keeps still (t.plEnd c e) :=
  .ite h (.endCmd (.ite h.wr.wf h.wr))
theorem State.Keeps.plRefuse {c : Command} {status reason cause : Nat} (h : s.Keeps still t) : s.Keeps still (t.plRefuse c status reason
    cause) :=
  h.plEnd
theorem State.Keeps.setPlanGrid {g : PlanGrid} (h : s.Keeps still t) : s.Keeps still (t.setPlanGrid g) := h.setPlanResident
theorem State.Keeps.plFinish {r : PlanRun} {status cause : Nat} (h : s.Keeps still t) : s.Keeps still (t.plFinish r status cause) := by
  unfold State.plFinish
  split
  · exact h.setPlanGrid.plEnd
  · exact h.plRefuse
  · exact h
theorem State.Keeps.setPlan {r : PlanRun} (h : s.Keeps still t) : s.Keeps still (t.setPlan r) := h
theorem State.Keeps.plCount {c : Command} {n : PlanCount} (h : s.Keeps still t) : s.Keeps still (t.plCount c n) := by
  unfold State.plCount
  dsimp only
  exact h.same.bump64.event.bump64.event.bump64.event
theorem State.Keeps.conclude {r : PlanRun} {i : Nat} {res : PlanRes} (h : s.Keeps still t) : s.Keeps still (t.conclude r i res) := by
  unfold State.conclude
  dsimp only
  refine .setPlan ?_
  split
  · exact .ite h.setPlanGrid h
  · exact h
theorem State.Keeps.planUnit {c : Command} {r : PlanRun} (h : s.Keeps still t) : s.Keeps still (t.planUnit c r) := by
  unfold State.planUnit
  split
  · exact .ite (.ite (.plPos (.setPlan (.ite h.plCount.bump.event h.plCount))) (.plPos (.conclude (.ite h.plCount.bump.event h.plCount))))
      h.plCount.conclude.plPos
  · exact h
theorem State.Keeps.planReads {r : PlanRun} (h : s.Keeps still t) : s.Keeps still (t.planReads r).1 :=
  .ite_fst h.wordRead.wordRead.setPlanResident.plFinish.setPlanResident h.wordRead.wordRead.setPlanResident
theorem State.Keeps.planRunUnits {c : Command} {n : Nat} : ∀ {t}, s.Keeps still t → s.Keeps still (t.planRunUnits c n) := by
  induction n with
  | zero => exact fun h => h
  | succ n ih =>
    intro t h
    unfold State.planRunUnits
    split
    · exact h
    · exact .ite h (.ite h.planReads (.ite h.planReads.plFinish (ih (.ite h.planReads.planUnit.wf h.planReads.planUnit))))
theorem State.Keeps.plOperand {c : Command} {a : Area} (h : s.Keeps still t) : s.Keeps still (t.plOperand c a) := h.operandFault.plRefuse
theorem State.Keeps.planBegin {c : Command} {r : PlanRun} {p : PlanInput} (h : s.Keeps still t) : s.Keeps still (t.planBegin c r p) :=
  .plPos (.setPlan (.useTable (.useGrid (.ite h.disarm h))))
theorem State.Keeps.plLoad (h : s.Keeps still t) : s.Keeps still t.plLoad := by
  unfold State.plLoad
  split
  · exact h
  · split
    · exact h
    · dsimp only
      split
      · exact h.noteAreas.arrived.planBegin
      · split
        · refine .plRefuse ?_
          refine .setPlan ?_
          split
          · exact h.noteAreas.arrived.useTable
          · exact h.noteAreas.arrived
        · refine .plOperand ?_
          refine .setPlan ?_
          split
          · exact h.noteAreas.arrived.useTable
          · exact h.noteAreas.arrived
theorem State.Keeps.planAdvance {cmd n : Nat} {ours : Nat → Bool} (h : s.Keeps still t) : s.Keeps still (t.planAdvance cmd n ours) := by
  unfold State.planAdvance
  split
  · exact h
  · split
    · exact h
    · split
      · exact h.planRunUnits
      · split
        · exact h
        · split
          · exact h.plRefuse
          · split
            · exact h.plRefuse
            · exact .ite h.plRefuse (.ite h.plRefuse h.setPlan.wr64.plPos.updCmd.await)
theorem State.Keeps.execPlanCmd {cmd n : Nat} (h : s.Keeps still t) : s.Answers still (execPlanCmd cmd n t) := .next h.planAdvance
theorem State.Keeps.execRepairCmd {cmd n : Nat} (h : s.Keeps still t) : s.Answers still (execRepairCmd cmd n t) := .next h.planAdvance
theorem State.Keeps.stopPlan {c : Command} {status : Nat} {valid : Bool} (h : s.Keeps still t) : s.Keeps still (t.stopPlan c status valid) := by
  unfold State.stopPlan
  extract_lets +onlyGivenNames cause
  split
  · refine .ite h (.ite h.plRefuse (.ite h.plFinish ?_))
    extract_lets +onlyGivenNames u
    have hu : s.Keeps still u := by
      unfold u
      split
      · split
        · exact .ite h h.conclude
        · exact h
      · exact h
    clear_value u
    split
    · exact hu.plFinish
    · exact hu
  · exact h.plRefuse
theorem State.Keeps.releasePlan (h : s.Keeps still t) : s.Keeps still t.releasePlan := by
  unfold State.releasePlan
  split
  · exact h
  · exact .ite h.same.plPos.dropPlans h.same.plPos

/-! Predictor. -/

theorem State.Keeps.setResident {l : List Resident} (h : s.Keeps still t) : s.Keeps still (t.setResident l) := h.wr
theorem State.Keeps.useImage {r : Resident} (h : s.Keeps still t) : s.Keeps still (t.useImage r) := h.setResident
theorem State.Keeps.dropImages {p : Resident → Bool} (h : s.Keeps still t) : s.Keeps still (t.dropImages p) := h.setResident
theorem State.Keeps.effectResFlushAll {x0 : Path} {v : Word} (h : s.Keeps still t) : s.Answers still (effectResFlushAll x0 v t) :=
  .ite (.next h.dropImages) (.next h)
theorem State.Keeps.effectResFlushRegion {x0 : Path} {v : Word} (h : s.Keeps still t) : s.Answers still (effectResFlushRegion x0 v t) :=
  .ite (.next h) (.next h.dropImages)
theorem State.Keeps.prPos {block layer phase : Nat} (h : s.Keeps still t) : s.Keeps still (t.prPos block layer phase) := h.wr
theorem State.Keeps.prEnd {c : Command} {e : CmdEnd} (h : s.Keeps still t) : s.Keeps still (t.prEnd c e) := by
  unfold State.prEnd
  split
  · exact h
  · dsimp only
    refine .endCmd ?_
    split
    · exact .same h.wr.prPos
    · exact .same h.wr
theorem State.Keeps.prRefuse {c : Command} {status reason cause : Nat} {pre : List SpaceWrite} (h : s.Keeps still t) : s.Keeps still
    (t.prRefuse c status reason cause pre) :=
  h.prEnd
theorem State.Keeps.prStop {status cause : Nat} {valid : Bool} (h : s.Keeps still t) : s.Keeps still (t.prStop status cause valid) := by
  unfold State.prStop
  split
  · exact h
  · split
    · exact h
    · exact .ite h.prRefuse h.prEnd
theorem State.Keeps.prOperand {c : Command} {a : Area} (h : s.Keeps still t) : s.Keeps still (t.prOperand c a) := h.operandFault.prStop
theorem State.Keeps.prDefect {c : Command} {e : Bad} (h : s.Keeps still t) : s.Keeps still (t.prDefect c e) := h.prRefuse
theorem State.Keeps.setRun {r : PredRun} (h : s.Keeps still t) : s.Keeps still (t.setRun r) := h
theorem State.Keeps.prLoad {c : Command} {r : PredRun} (h : s.Keeps still t) : s.Keeps still (t.prLoad c r) := by
  unfold State.prLoad
  dsimp only
  split
  · exact h.noteArea.prOperand
  · split
    · exact .prDefect (.ite (.useImage (.setRun (.ite h h.noteArea.disarm))) (.setRun (.ite h h.noteArea.disarm)))
    · split
      · exact .prOperand (.noteArea (.ite (.useImage (.setRun (.ite h h.noteArea.disarm))) (.setRun (.ite h h.noteArea.disarm))))
      · split
        · exact .prDefect (.noteArea (.ite (.useImage (.setRun (.ite h h.noteArea.disarm))) (.setRun (.ite h h.noteArea.disarm))))
        · exact .await (.prPos (.setRun (.noteArea (.ite (.useImage (.setRun (.ite h h.noteArea.disarm))) (.setRun (.ite h
            h.noteArea.disarm))))))
theorem State.Keeps.execPredictorCommand {cmd : Nat} (h : s.Keeps still t) : s.Answers still (execPredictorCommand cmd t) := by
  unfold Machine.execPredictorCommand
  split
  · exact .next h
  · dsimp only
    split
    · exact .next h.prRefuse
    · split
      · exact .next h.prRefuse
      · split
        · exact .next h.prRefuse
        · split
          · exact .next h.prRefuse
          · split
            · exact .next h.setRun.wr64.prPos.updCmd.prOperand
            · exact .next h.setRun.wr64.prPos.updCmd.prDefect
            · exact .ite (.next (.prLoad (.setRun (.ite (.foldl (fun h => h.updTun) h.setRun.wr64.prPos.updCmd.noteArea)
                h.setRun.wr64.prPos.updCmd)))) (.next (.setRun (.ite (.foldl (fun h => h.updTun)
                h.setRun.wr64.prPos.updCmd.noteArea) h.setRun.wr64.prPos.updCmd)))
theorem State.Keeps.wantBlock {c : Command} {r : PredRun} {j : Nat} (h : s.Keeps still t) : s.Keeps still (t.wantBlock c r j) :=
  .ite h.setRun h.setRun.await
theorem State.Keeps.beginBlock {c : Command} {r : PredRun} {j : Nat} {vs : List Nat} (h : s.Keeps still t) : s.Keeps still (t.beginBlock c r
    j vs) :=
  h.disarm.prPos.wantBlock
theorem State.Keeps.prInput {c : Command} {r : PredRun} {j : Nat} (h : s.Keeps still t) : s.Keeps still (t.prInput c r j) := by
  unfold State.prInput
  dsimp only
  split
  · exact h.noteArea.arrived.prOperand
  · exact .ite h.noteArea.arrived.beginBlock h.noteArea.arrived.setRun
theorem State.Keeps.prFetched (h : s.Keeps still t) : s.Keeps still t.prFetched := by
  unfold State.prFetched
  split
  · exact h
  · split
    · exact h
    · split
      · exact h.prLoad
      · split
        · exact h.prInput
        · exact h
theorem State.Keeps.execInputScanDone {cmd : Nat} (h : s.Keeps still t) : s.Answers still (execInputScanDone cmd t) := by
  unfold Machine.execInputScanDone
  split
  · exact .next h
  · dsimp only
    split
    · exact .next h
    · split
      · exact .next h.noteArea.arrived.prOperand
      · exact .ite (.next h.noteArea.arrived.prDefect) (.next h.noteArea.arrived.prPos.wantBlock)
theorem State.Keeps.setPred {r : PredRun} (h : s.Keeps still t) : s.Keeps still (t.setPred r) := h.disarm.setRun.prPos
theorem State.Keeps.passReads {r : PredRun} (h : s.Keeps still t) : s.Keeps still (t.passReads r) := h.wordRead.wordRead
theorem State.Keeps.execLayerPassDone {cmd : Nat} (h : s.Keeps still t) : s.Answers still (execLayerPassDone cmd t) := by
  unfold Machine.execLayerPassDone
  split
  · exact .next h
  · exact .ite (.next h) (.ite (.next h.passReads.dropImages.prStop) (.ite (.next h.passReads.prStop) (.ite (.next h.passReads.setPred)
      (.ite (.next h.passReads.setPred) (.ite (.next h.passReads.bump64.event.setPred) (.ite (.next h.passReads.bump64.event.setPred)
      (.ite (.next h.passReads.bump64.event.bump.event.setPred) (.next h.passReads.bump64.event.bump.event.setPred))))))))
theorem State.Keeps.blockComplete {c : Command} {r : PredRun} (h : s.Keeps still t) : s.Keeps still (t.blockComplete c r) := by
  unfold State.blockComplete
  dsimp only
  split
  · exact h.setRun.event.prStop
  · split
    · exact h.setRun.event.beginBlock
    · exact h.setRun.event.setRun.prPos
theorem State.Keeps.execRowBlockDone {cmd : Nat} (h : s.Keeps still t) : s.Answers still (execRowBlockDone cmd t) := by
  unfold Machine.execRowBlockDone
  split
  · exact .next h
  · exact .ite (.next h.setRun.prPos) (.next h.blockComplete)
theorem State.Keeps.execGristWriterWrite {cmd : Nat} (h : s.Keeps still t) : s.Answers still (execGristWriterWrite cmd t) := by
  unfold Machine.execGristWriterWrite
  split
  · exact .next h
  · dsimp only
    split
    · exact .next h
    · split
      · exact .ite (.next h.raiseErr.prStop) (.next h.updGrist.bump.event.blockComplete)
      · exact .next h.raiseErr.prStop
theorem State.Keeps.stopPred {c : Command} {status : Nat} {valid : Bool} (h : s.Keeps still t) : s.Keeps still (t.stopPred c status valid)
    :=
  .ite h.prStop h.prRefuse
theorem State.Keeps.releasePred (h : s.Keeps still t) : s.Keeps still t.releasePred := by
  unfold State.releasePred
  split
  · exact h
  · exact .ite h.prPos.setResident h.prPos

/-! Solver. -/

theorem State.Keeps.svEnd {c : Command} {e : CmdEnd} (h : s.Keeps still t) : s.Keeps still (t.svEnd c e) := .ite h h.wr.endCmd
theorem State.Keeps.svRefuse {c : Command} {status reason cause : Nat} (h : s.Keeps still t) : s.Keeps still (t.svRefuse c status reason
    cause) :=
  h.svEnd
theorem State.Keeps.svStop {status cause : Nat} {cut broke valid : Bool} (h : s.Keeps still t) : s.Keeps still (t.svStop status cause cut
    broke valid) := by
  unfold State.svStop
  split
  · exact h
  · split
    · exact h
    · split
      · exact h.svRefuse
      · exact h.svEnd
theorem State.Keeps.svOperand {c : Command} {l : List Area} (h : s.Keeps still t) : s.Keeps still (t.svOperand c l) :=
  h.operandFault.svRefuse
theorem State.Keeps.svTake {id : Nat} {ours : Nat → Bool} (h : s.Keeps still t) : s.Keeps still (t.svTake id ours) := by
  unfold State.svTake
  split
  · exact h
  · dsimp only
    split
    · exact h
    · split
      · exact h.svRefuse
      · split
        · exact h.svRefuse
        · exact .ite h.svRefuse (.ite h.svRefuse (.ite h.svRefuse h.same.await.wr64.wr.wr64.updCmd))
theorem State.Keeps.svLoad (h : s.Keeps still t) : s.Keeps still t.svLoad := by
  unfold State.svLoad
  split
  · exact h
  · dsimp only
    split
    · exact h
    · split
      · exact h.noteAreas.arrived.svOperand
      · exact .ite h.noteAreas.arrived.svRefuse h.noteAreas.arrived.disarm.same
theorem State.Keeps.execLinsolve {cmd : Nat} (h : s.Keeps still t) : s.Answers still (execLinsolve cmd t) := .next h.svTake
theorem State.Keeps.execAssign {cmd : Nat} (h : s.Keeps still t) : s.Answers still (execAssign cmd t) := .next h.svTake
theorem State.Keeps.execBoxqp {cmd : Nat} (h : s.Keeps still t) : s.Answers still (execBoxqp cmd t) := .next h.svTake
theorem State.Keeps.svIterated {c : Command} {r : SolverRun} (h : s.Keeps still t) : s.Keeps still (t.svIterated c r) := by
  unfold State.svIterated
  dsimp only
  split
  · exact h.same.wr.wr64.event
  · exact h.same.wr.wr64.event.svStop
theorem State.Keeps.svStepped {c : Command} {e : StepEnd} (h : s.Keeps still t) : s.Keeps still (t.svStepped c e) :=
  .ite (.svStop (.event (.bump (.ite (.foldl (fun h => h.noteAreas) h) h)))) (.svIterated (.ite (.foldl (fun h => h.noteAreas) h) h))
theorem State.Keeps.execSolverIterate {cmd : Nat} (h : s.Keeps still t) : s.Answers still (execSolverIterate cmd t) := by
  unfold Machine.execSolverIterate
  split
  · split
    · exact .next h
    · split
      · exact .next h.noteAreas.svOperand
      · exact .next h.noteAreas.svRefuse
      · exact .ite (.next h) (.ite (.next h.wordRead.same.svStop) (.next h.wordRead.svStepped))
  · exact .next h
theorem State.Keeps.execAssignStop {cmd : Nat} (h : s.Keeps still t) : s.Answers still (execAssignStop cmd t) := by
  unfold Machine.execAssignStop
  split
  · exact .ite (.next h.askStop) (.next h)
  · exact .next h
theorem State.Keeps.stopSolver {c : Command} {status : Nat} {valid : Bool} (h : s.Keeps still t) : s.Keeps still (t.stopSolver c status
    valid) :=
  .ite h.svStop h.svRefuse

/-! Window. -/

theorem State.Keeps.noteRows {c : Command} {g : Grist} {spins : List Nat} (h : s.Keeps still t) : s.Keeps still (t.noteRows c g spins) := by
  unfold State.noteRows
  refine .foldl (fun h => ?_) h
  dsimp only
  split
  · exact h.noteRead
  · exact h.noteRead.noteRead.noteRead
theorem State.Keeps.windowDefect {r : Run} {c : Command} {g : Grist} {b : Bad} (h : s.Keeps still t) : s.Keeps still (t.windowDefect r c g
    b) :=
  .ite h.finishRun (.endCmd (.noteCause (.foldl (fun h => h.updTun) (.updRun (.ite h.wr h)))))
theorem State.Keeps.countSerial {r : Run} {c : Command} {g : Grist} {entry : Nat} (h : s.Keeps still t) : s.Keeps still (t.countSerial r c g
    entry) := by
  unfold State.countSerial
  split
  · exact h
  · exact .ite h h.bump.tunEvent
theorem State.Keeps.execWindowSwitch {run : Nat} (h : s.Keeps still t) : s.Answers still (execWindowSwitch run t) := by
  unfold Machine.execWindowSwitch
  split
  · exact .next h
  · split
    · split
      · exact .next h
      · dsimp only
        split
        · exact .next h.windowDefect
        · exact .next (.updRun (.ite h.countSerial h.countSerial.noteRows))
    · exact .next h
theorem State.Keeps.execRowStaging {run : Nat} (h : s.Keeps still t) : s.Answers still (execRowStaging run t) := by
  unfold Machine.execRowStaging
  split
  · exact .next h
  · split
    · exact .ite (.next h) (.ite (.next h.noteRows.updRun) (.next h))
    · exact .next h

/-! Span. -/

theorem State.Keeps.postMsg {m : RunMsg} (h : s.Keeps still t) : s.Keeps still (t.postMsg m) := .ite h h.bumpSat
theorem State.Keeps.sendMsg {sp : Span} {links : List Nat} {kind dst flags tag : Nat} {payload : List Byte} (h : s.Keeps still t) : s.Keeps
    still (t.sendMsg sp links kind dst flags tag payload) :=
  .foldl (fun h => h.postMsg) h
theorem State.Keeps.sendRun {sp : Span} {kind dst tag : Nat} {payload : List Byte} (h : s.Keeps still t) : s.Keeps still (t.sendRun sp kind
    dst tag payload) :=
  h.sendMsg
theorem State.Keeps.dropMsg {link : Nat} (h : s.Keeps still t) : s.Keeps still (t.dropMsg link) := by
  unfold State.dropMsg
  split
  · exact h
  · exact h.bump
theorem State.Keeps.takeMsg {kind : Nat} {m : RunMsg} (h : s.Keeps still t) (e : t.takeMsg kind = some (m, u)) : s.Keeps still u := by
  unfold State.takeMsg at e
  split at e
  · cases e
  · obtain ⟨_, _, hm⟩ := Option.map_eq_some_iff.1 e
    cases hm
    exact h
theorem State.Keeps.relayMsg {sp : Span} {m : RunMsg} (h : s.Keeps still t) : s.Keeps still (t.relayMsg sp m) :=
  .foldl (fun h => h.postMsg) h
theorem State.Keeps.serveMsg {kind : Nat} {f : State → RunMsg → Run → Span → Command → Grist → Option State} (h : s.Keeps still t)
    (hf : ∀ {u m r sp c g}, s.Keeps still u → s.KeepsAny still (f u m r sp c g)) : s.Keeps still (t.serveMsg kind f) := by
  unfold State.serveMsg
  split
  · exact h
  next hm =>
    replace h := h.takeMsg hm
    split
    · exact h
    · split
      · refine .ite h.dropMsg (.ite h.relayMsg ?_)
        extract_lets +onlyGivenNames u
        have hu : s.Keeps still u := .ite h.relayMsg h
        clear_value u
        split
        · exact hu.dropMsg
        · exact (hf hu).out
      · exact h
theorem State.Keeps.updSpan {run : Nat} {f : Span → Span} (h : s.Keeps still t) : s.Keeps still (t.updSpan run f) := h.updRun
theorem State.Keeps.sendHalos {r : Run} {sp : Span} {g : Grist} {phase sweep1 : Nat} (h : s.Keeps still t) : s.Keeps still (t.sendHalos r sp
    g phase sweep1) :=
  .foldl (fun h => h.sendMsg) h
theorem State.Keeps.startSpan {r : Run} {sp : Span} {c : Command} {g : Grist} {seed start : Nat} (h : s.Keeps still t) : s.Keeps still
    (t.startSpan r sp c g seed start) :=
  .ite (.sendHalos (.sendHalos (.foldl (fun h => h.sendMsg) h.updRun))) h.updRun.storeStates
theorem State.Keeps.endSpan {r : Run} {c : Command} {g : Grist} {status ext : Nat} (h : s.Keeps still t) : s.Keeps still (t.endSpan r c g
    status ext) :=
  .endCmd (.noteCause (.foldl (fun h => h.updTun) (.updRun (.ite h.wr h))))
theorem State.Keeps.execJoinMsg (h : s.Keeps still t) : s.Answers still (execJoinMsg t) :=
  .next (.serveMsg h (fun h => .ite .none (.ite (.some h.sendRun.endSpan) (.ite (.some h.updRun.sendRun.startSpan) (.some h.updRun)))))
theorem State.Keeps.execStartMsg (h : s.Keeps still t) : s.Answers still (execStartMsg t) :=
  .next (.serveMsg h (fun h => .ite .none (.some h.startSpan)))
theorem State.Keeps.execAbortMsg (h : s.Keeps still t) : s.Answers still (execAbortMsg t) :=
  .next (.serveMsg h (fun h => .ite .none (.some h.endSpan)))
theorem State.Keeps.execJoinTimeout {run : Nat} (h : s.Keeps still t) : s.Answers still (execJoinTimeout run t) := by
  unfold Machine.execJoinTimeout
  split
  · exact .next h
  · split
    · exact .next h
    · split
      · exact .next h
      · dsimp only
        split
        · exact .next (.endCmd (.dropLoad (.ite h.sendRun h)))
        · split
          · exact .ite (.next (.endSpan (.ite h.sendRun h))) (.next h)
          · exact .next h
theorem State.Keeps.execCoefMsg (h : s.Keeps still t) : s.Answers still (execCoefMsg t) := by
  unfold Machine.execCoefMsg
  refine .next ?_
  refine .serveMsg h (fun h => ?_)
  dsimp only
  split
  · exact .none
  · exact .ite .none (.some h.updRun)
theorem State.Keeps.maskLost {r : Run} {c : Nat} (h : s.Keeps still t) : s.Keeps still (t.maskLost r c) := h.wr
theorem State.Keeps.foundLost {run c : Nat} (h : s.Keeps still t) : s.Keeps still (t.foundLost run c) := by
  unfold State.foundLost
  split
  · exact h
  · exact h.maskLost.updSpan
theorem State.Keeps.namedLost {run c : Nat} (h : s.Keeps still t) : s.Keeps still (t.namedLost run c) := by
  unfold State.namedLost
  split
  · exact h
  · exact .updSpan (.ite h.maskLost h)
theorem State.Keeps.declareLost {run c : Nat} (h : s.Keeps still t) : s.Keeps still (t.declareLost run c) := by
  unfold State.declareLost
  split
  · exact h
  · exact .foldl (fun h => h.namedLost) h
theorem State.Keeps.gatherStep {run : Nat} (h : s.Keeps still t) : s.Keeps still (t.gatherStep run) := by
  unfold State.gatherStep
  split
  · exact h
  · split
    · split
      · exact h
      · exact .ite (.updSpan (.wr (.foldl (fun h => h.writeSpace) h))) h
    · exact h
theorem State.Keeps.gatherStart {run : Nat} (h : s.Keeps still t) : s.Keeps still (t.gatherStart run) := by
  unfold State.gatherStart
  split
  · exact h
  · split
    · split
      · exact .ite h h.sendRun.writeSpace.updSpan.gatherStep
      · exact h
    · exact h
theorem State.Keeps.gatherGo {run : Nat} (h : s.Keeps still t) : s.Keeps still (t.gatherGo run) := h.gatherStep.gatherStart
theorem State.Keeps.execPartReqMsg (h : s.Keeps still t) : s.Answers still (execPartReqMsg t) := by
  unfold Machine.execPartReqMsg
  refine .next ?_
  refine .serveMsg h (fun h => ?_)
  dsimp only
  split
  · exact .none
  · split
    · exact .some h
    · exact .some h.sendRun.updSpan
theorem State.Keeps.execPartMsg (h : s.Keeps still t) : s.Answers still (execPartMsg t) := by
  unfold Machine.execPartMsg
  refine .next ?_
  refine .serveMsg h (fun h => ?_)
  dsimp only
  split
  · exact .none
  · exact .ite .none (.some h.writeSpace.updSpan.gatherGo)
theorem State.Keeps.countBoundary {r0 r1 : Run} {captured : Bool} (h : s.Keeps still t) : s.Keeps still (t.countBoundary r0 r1 captured) :=
  .tunEvent (.tunEvent (.ite (.foldl (fun h => h.bump.tunEvent) h) h))
theorem State.Keeps.tryDecide {run : Nat} (h : s.Keeps still t) : s.Keeps still (t.tryDecide run) := by
  unfold State.tryDecide
  split
  · exact h
  · split
    · split
      · exact h
      · exact .ite h (.ite (.finishRun (.sendRun (.ite h.updRun.countBoundary.copyBest h.updRun.countBoundary))) (.gatherStart (.updRun
          (.sendRun (.ite h.updRun.countBoundary.copyBest h.updRun.countBoundary)))))
    · exact h
theorem State.Keeps.noteSweep {r : Run} (h : s.Keeps still t) : s.Keeps still (t.noteSweep r) := .tunEvent (.foldl (fun h => h.wr) h)
theorem State.Keeps.execRendezvous {run : Nat} (h : s.Keeps still t) : s.Answers still (execRendezvous run t) := by
  unfold Machine.execRendezvous
  split
  · exact .next h
  · split
    · split
      · exact .next h
      · dsimp only
        split
        · exact .next h.updRun
        · split
          · exact .next h.tunReads
          · exact .ite (.next (.tryDecide (.updRun (.ite (.foldl (fun h => h.tunReads) h) (.noteSweep (.foldl (fun h => h.tunReads) h))))))
              (.next (.sendRun (.updRun (.ite (.foldl (fun h => h.tunReads) h) (.noteSweep (.foldl (fun h => h.tunReads) h))))))
    · exact .next h
theorem State.Keeps.execReportMsg (h : s.Keeps still t) : s.Answers still (execReportMsg t) :=
  .next (.serveMsg h (fun h => .ite .none (.some (.gatherGo (.tryDecide (.foldl (fun h => h.declareLost) h.updSpan))))))
theorem State.Keeps.execReportTimeout {run chip : Nat} (h : s.Keeps still t) : s.Answers still (execReportTimeout run chip t) := by
  unfold Machine.execReportTimeout
  split
  · exact .next h
  · split
    · exact .next h
    · exact .ite (.next h) (.next h.declareLost.tryDecide.gatherGo)
theorem State.Keeps.execDecideMsg (h : s.Keeps still t) : s.Answers still (execDecideMsg t) := by
  refine .next (.serveMsg h fun {u m r sp _ _} h => ?_)
  extract_lets +onlyGivenNames p fits
  refine .ite .none ?_
  extract_lets +onlyGivenNames lost u₁
  have h₁ : s.Keeps still u₁ := .foldl (fun h => h.namedLost) h
  clear_value u₁
  split
  · exact .some h₁
  · refine .ite (.some h₁.finishRun) ?_
    extract_lets +onlyGivenNames u₂ r₂ u₃
    have h₂ : s.Keeps still u₂ := .ite (.copyBest (.foldl (fun h => h.bump.tunEvent) h₁)) h₁
    have h₃ : s.Keeps still u₃ := h₂.updRun
    exact .ite (.some h₃.finishRun) (.some h₃.updRun)
theorem State.Keeps.execDecideTimeout {run : Nat} (h : s.Keeps still t) : s.Answers still (execDecideTimeout run t) := by
  unfold Machine.execDecideTimeout
  split
  · exact .next h
  · split
    · exact .ite (.next h) (.next h.maskLost.endSpan)
    · exact .next h
theorem State.Keeps.execHaloMsg (h : s.Keeps still t) : s.Answers still (execHaloMsg t) := by
  unfold Machine.execHaloMsg
  refine .next ?_
  refine .serveMsg h (fun h => ?_)
  dsimp only
  split
  · exact .none
  · exact .ite .none (.some h.updSpan)
theorem State.Keeps.haloStart {r : Run} {sp : Span} {ph : Nat} (h : s.Keeps still t) : s.Keeps still (t.haloStart r sp ph).1 :=
  .ite_fst h.updSpan (.ite h.updRun.bump64.tunEvent h.updRun)
theorem State.Keeps.partnerLost {run chip : Nat} (h : s.Keeps still t) : s.Keeps still (t.partnerLost run chip) := by
  unfold State.partnerLost
  dsimp only
  split
  · exact .ite h.foundLost.declareLost.tryDecide.gatherGo h.foundLost
  · exact h.foundLost
theorem State.Keeps.execHaloWaitTimeout {run dir : Nat} (h : s.Keeps still t) : s.Answers still (execHaloWaitTimeout run dir t) := by
  unfold Machine.execHaloWaitTimeout
  split
  · exact .next h
  · split
    · split
      · exact .next h
      · exact .ite (.next h) (.next h.partnerLost)
    · exact .next h
theorem State.Keeps.linkLost {link : Nat} (h : s.Keeps still t) : s.Keeps still (t.linkLost link) := by
  unfold State.linkLost
  refine .foldl (fun h => ?_) h
  split
  · exact h
  · split
    · exact h
    · exact .ite h h.partnerLost
theorem State.Keeps.grantAll {region run n : Nat} : ∀ {t}, s.Keeps still t → s.Keeps still (State.grantAll region run n t) := by
  induction n with
  | zero => exact fun h => h
  | succ n ih =>
    intro t h
    unfold State.grantAll
    split
    · exact h
    · split
      · exact h
      · split
        · exact h
        · dsimp only
          split
          · exact h
          · exact ih (.ite h.updRun h.updRun.sendRun)
theorem State.Keeps.execGrantMsg (h : s.Keeps still t) : s.Answers still (execGrantMsg t) :=
  .next (.serveMsg h (fun h => .ite .none (.some h.updRun)))
theorem State.Keeps.storeBest {r : Run} {c : Command} {n : Nat} (h : s.Keeps still t) : s.Keeps still (t.storeBest r c n) := by
  unfold State.storeBest
  split
  · exact h
  · exact h.writeSpace
theorem State.Keeps.applyReturn {r : Run} {sp : Span} {c : Command} {g : Grist} {visit entry chip : Nat} {vals : List Nat} (h : s.Keeps
    still t) : s.Keeps still (t.applyReturn r sp c g visit entry chip vals) :=
  .ite (.finishRun (.sendRun (.sendRun (.ite h.updRun.countBoundary.storeStates.storeBest h.updRun.countBoundary.storeStates)))) (.grantAll
    (.sendRun (.ite h.updRun.countBoundary.storeStates.storeBest h.updRun.countBoundary.storeStates)))
theorem State.Keeps.execReturnMsg (h : s.Keeps still t) : s.Answers still (execReturnMsg t) := by
  unfold Machine.execReturnMsg
  refine .next ?_
  refine .serveMsg h (fun h => ?_)
  dsimp only
  split
  · exact .none
  · split
    · exact .some h.updSpan.grantAll
    · exact .ite .none (.ite (.some h.updSpan.grantAll) (.some h.applyReturn))
theorem State.Keeps.execLeaseEnd {run visit : Nat} (h : s.Keeps still t) : s.Answers still (execLeaseEnd run visit t) := by
  unfold Machine.execLeaseEnd
  split
  · exact .next h
  · split
    · split
      · exact .next h
      · exact .ite (.next h) (.next h.updSpan.grantAll)
    · exact .next h
theorem State.Keeps.execUpdateMsg (h : s.Keeps still t) : s.Answers still (execUpdateMsg t) :=
  .next (.serveMsg h (fun h => .ite .none (.some h.storeStates.updRun)))
theorem State.Keeps.visitDone {r : Run} {sp : Span} {c : Command} {g : Grist} {v : Visit} (h : s.Keeps still t) : s.Keeps still (t.visitDone
    r sp c g v) :=
  .ite (.ite h.updRun.applyReturn h.updRun.updSpan.grantAll) h.updRun.sendRun

/-! Sweep. -/

theorem State.Keeps.unlull {t' : Nat} (h : s.Keeps still t) : s.Keeps still (t.unlull t') := .ite h.updTun h
theorem State.Keeps.wakeTun {t' : Nat} (h : s.Keeps still t) : s.Keeps still (t.wakeTun t') := h.unlull.updTun
theorem State.Keeps.noteKiln {c : Command} {kiln : List Byte} (h : s.Keeps still t) : s.Keeps still (t.noteKiln c kiln) := .ite h h.noteRead
theorem State.Keeps.beginLoad {c : Command} {kiln : List Byte} (h : s.Keeps still t) : s.Keeps still (t.beginLoad c kiln) := by
  unfold State.beginLoad
  dsimp only
  split
  · exact h.annealBad
  · split
    · exact h.annealBad
    · split
      · exact h.annealBad
      · split
        · exact h.annealBad
        · exact .ite (.foldl (fun h => h.wakeTun) h) (.await (.updCmd (.foldl (fun h => h.updTun) h.noteRead)))
theorem State.Keeps.sweepGrists (h : s.Keeps still t) : s.Keeps still t.sweepGrists := h
theorem State.Keeps.recomputeArms {b : List Byte} {g : Grist} (h : s.Keeps still t) : s.Keeps still (t.recomputeArms b g) := h
theorem State.Keeps.statesAndSeed {c : Command} {g : Grist} (h : s.Keeps still t) : s.Keeps still (t.statesAndSeed c g).1 := by
  unfold State.statesAndSeed
  dsimp only
  split
  · exact h
  · split
    · exact .ite h h.noteRead
    · split
      · exact .ite h h.noteRead
      · split
        · split
          · exact .ite h h.noteRead
          · split <;> exact .ite h h.noteRead
        · exact .ite h h.noteRead
theorem State.Keeps.askDraw {cmd : Nat} (h : s.Keeps still t) : s.Keeps still (t.askDraw cmd) := .ite h h
theorem State.Keeps.clearSpanRegs {t' : Nat} (h : s.Keeps still t) : s.Keeps still (t.clearSpanRegs t') := .foldl (fun h => h.wr) h
theorem State.Keeps.beginRun {c : Command} {g : Grist} {kiln : List Byte} {bits : List Nat} {seed : Nat} {drawn : Bool} (h : s.Keeps still
    t) : s.Keeps still (t.beginRun c g kiln bits seed drawn) := by
  unfold State.beginRun
  dsimp only
  split
  · exact .ite (.storeStates (.tunEvent (.updCmd (.clearSpanRegs (.foldl (fun h => h.updTun.tunStores.wr) h))))) (.tunEvent (.updCmd
      (.clearSpanRegs (.foldl (fun h => h.updTun.tunStores.wr) h))))
  · exact .ite (.tunEvent (.updCmd (.clearSpanRegs (.foldl (fun h => h.updTun.tunStores.wr) h)))) (.sendRun (.tunEvent (.updCmd
      (.clearSpanRegs (.foldl (fun h => h.updTun.tunStores.wr) h)))))
theorem State.Keeps.startHeld {c : Command} {kiln : List Byte} (h : s.Keeps still t) : s.Keeps still (t.startHeld c kiln) := by
  unfold State.startHeld
  dsimp only
  split
  · exact .foldl (fun h => h.wakeTun) h
  · split
    · exact h.annealBad
    · split
      · exact .ite h.askDraw h.noteKiln.statesAndSeed.out.annealBad
      · exact h.noteKiln.statesAndSeed.out.beginRun
theorem State.Keeps.annealIssue {c : Command} (h : s.Keeps still t) : s.Keeps still (t.annealIssue c) := by
  unfold State.annealIssue
  split
  · exact h
  · split
    · exact h.annealBad
    · exact .ite h (.ite h.startHeld h.noteKiln.beginLoad)
theorem State.Keeps.execLoadCmd {cmd : Nat} (h : s.Keeps still t) : s.Answers still (execLoadCmd cmd t) := by
  unfold Machine.execLoadCmd
  split
  · exact .next h
  · exact .ite (.next h.annealIssue) (.next h)
theorem State.Keeps.execRunCmd {cmd : Nat} (h : s.Keeps still t) : s.Answers still (execRunCmd cmd t) := by
  unfold Machine.execRunCmd
  split
  · exact .next h
  · exact .ite (.next h) (.next h.annealIssue)
theorem State.Keeps.execLoadRun {cmd : Nat} (h : s.Keeps still t) : s.Answers still (execLoadRun cmd t) := by
  unfold Machine.execLoadRun
  split
  · exact .next h
  · exact .ite (.next h.annealIssue) (.next h)
theorem State.Keeps.commitLoad {b : List Byte} {id : Nat} (h : s.Keeps still t) : s.Keeps still (t.commitLoad b id) :=
  .foldl (fun h => h.updTun.tunStores) h
theorem State.Keeps.execLoadComplete {cmd : Nat} (h : s.Keeps still t) : s.Answers still (execLoadComplete cmd t) := by
  unfold Machine.execLoadComplete
  split
  · refine .ite (.next h) ?_
    extract_lets +onlyGivenNames kiln u head t₁
    have h₁ : s.Keeps still t₁ := h.noteRead.arrived
    clear_value t₁
    split
    · exact .next h₁.dropLoad.annealBad.sweepGrists
    · extract_lets +onlyGivenNames g
      split
      · exact .next h₁.dropLoad.annealBad.sweepGrists
      · extract_lets +onlyGivenNames t₂
        have h₂ : s.Keeps still t₂ := h₁.updGrist
        clear_value t₂
        refine .ite (.next h₂.commitLoad.recomputeArms.sweepGrists.endCmd) ?_
        split
        · exact .ite (.next h.askDraw) (.next (.sweepGrists (.annealBad (.foldl (fun h => h.updTun) h₂.statesAndSeed.out))))
        · exact .next h₂.statesAndSeed.out.commitLoad.recomputeArms.beginRun.sweepGrists
  · exact .next h
theorem State.Keeps.serveDraw {cmd : Nat} (h : s.Keeps still t) : s.Keeps still (t.serveDraw cmd) := by
  unfold State.serveDraw
  dsimp only
  split
  · exact h
  · refine .ite h ?_
    have hdraw : s.Keeps still { t.drawSeed.1 with tun := { t.drawSeed.1.tun with drawn := some (cmd, t.drawSeed.2) } } := h.drawSeed
    exact State.Keeps.ite hdraw.annealIssue (hdraw.ran hdraw.execLoadComplete)
theorem State.Keeps.drawStep (h : s.Keeps still t) : s.Keeps still t.drawStep := .foldl (fun h => h.serveDraw) h
theorem State.Keeps.countDecisions {r : Run} {t' decisions flips : Nat} (h : s.Keeps still t) : s.Keeps still (t.countDecisions r t'
    decisions flips) :=
  h.bump64.bump64.tunEvent.tunEvent
theorem State.Keeps.execLatticePhase {run tun : Nat} (h : s.Keeps still t) : s.Answers still (execLatticePhase run tun t) := by
  unfold Machine.execLatticePhase
  split
  · exact .next h
  · split
    · exact .next h
    · extract_lets +onlyGivenNames m ph ready
      refine .ite (.next h) ?_
      extract_lets +onlyGivenNames first started t₁
      have hstarted : s.Keeps still started.1 := by
        unfold started
        split
        · exact .ite_fst h.haloStart h
        · exact h
      have h₁ : s.Keeps still t₁ := hstarted.tunReads
      clear_value started t₁
      refine .ite (.next hstarted) ?_
      split
      · exact .next h₁
      · refine .ite (.next h₁) ?_
        extract_lets +onlyGivenNames fs _ r t₂ t₃ ended
        have h₂ : s.Keeps still t₂ := h₁.updRun.countDecisions
        have h₃ : s.Keeps still t₃ := .ite h₂ h₂.tunStores
        clear_value t₃
        split
        · exact .next h₃
        · extract_lets +onlyGivenNames t₄
          have h₄ : s.Keeps still t₄ := .ite h₃.sendHalos h₃
          exact .ite (.next h₄.noteSweep.updRun) (.next h₄)
theorem State.Keeps.multicast {r : Run} {region job src : Nat} {item : McItem} (h : s.Keeps still t) : s.Keeps still (t.multicast r region
    job src item) :=
  .ite h h
theorem State.Keeps.execDenseClassStep {run tun replica : Nat} (h : s.Keeps still t) : s.Answers still (execDenseClassStep run tun replica
    t) := by
  unfold Machine.execDenseClassStep
  split
  · exact .next h
  · split
    · split
      · exact .next h
      · dsimp only
        split
        · exact .next h
        · exact .ite (.next h) (.ite (.next h.tunReads) (.next (.multicast (.foldl (fun h => h.multicast) (.ite
            h.tunReads.updRun.countDecisions h.tunReads.updRun.countDecisions.tunStores)))))
    · exact .next h
theorem State.Keeps.execEndMarker {run dst src : Nat} (h : s.Keeps still t) : s.Answers still (execEndMarker run dst src t) := by
  unfold Machine.execEndMarker
  split
  · exact .next h
  · dsimp only
    split
    · exact .next h
    · exact .next h.updRun
theorem State.Keeps.execFlipApply {run tun : Nat} (h : s.Keeps still t) : s.Answers still (execFlipApply run tun t) := by
  unfold Machine.execFlipApply
  split
  · exact .next h
  · split
    · exact .next h
    · exact .ite (.next h) (.ite (.next h.updRun.bump64.tunEvent) (.next h.updRun))
theorem State.Keeps.boundaryWork {r : Run} {c : Command} {g : Grist} {k : Nat} {es : List Int} (h : s.Keeps still t) :
    s.Keeps still (t.boundaryWork r c g k es) := by
  unfold State.boundaryWork
  extract_lets +onlyGivenNames visit cap best cause r₂ t₁ t₂ t₃
  have h₁ : s.Keeps still t₁ := h.updRun.countBoundary
  have h₂ : s.Keeps still t₂ := .ite (.ite h₁.storeBest h₁.copyBest) h₁
  have h₃ : s.Keeps still t₃ := .ite h₂ h₂.noteSweep
  clear_value t₃
  split
  · extract_lets +onlyGivenNames t₄
    have h₄ : s.Keeps still t₄ := by
      unfold t₄
      split
      · exact h₃.sendRun
      · exact h₃
    exact h₄.finishRun
  · split
    · exact h₃.finishRun
    · split
      · exact h₃.updRun.grantAll
      · refine .ite h₃.updRun ?_
        split
        · exact h₃.updRun
        · exact .ite h₃.storeStates.updRun h₃.updRun
theorem State.Keeps.execSweepBoundary {run : Nat} (h : s.Keeps still t) : s.Answers still (execSweepBoundary run t) := by
  unfold Machine.execSweepBoundary
  split
  · exact .next h
  · split
    · split
      · exact .next h
      · split
        · exact .next h.tunReads
        · exact .ite (.ite (.next (.windowDefect (.foldl (fun h => h.tunReads) h))) (.next (.boundaryWork (.foldl (fun h => h.tunReads)
            h)))) (.next (.boundaryWork (.foldl (fun h => h.tunReads) h)))
        · split
          · exact .next h
          · split
            · exact .ite (.next h) (.ite (.next h.windowDefect) (.next h.boundaryWork))
            · exact .ite (.next h.noteSweep.visitDone) (.next h.noteSweep.updRun)
    · exact .next h
theorem State.Keeps.effectPhxGo {x0 : Path} {tun : Nat} {v : Word} (h : s.Keeps still t) : s.Answers still (effectPhxGo x0 tun v t) :=
  .ite (.next h) (.next (.foldl (fun h => h.wr) h))

/-! EngineApi. -/

theorem State.Keeps.refuseCmd {c : Command} {e : Bad} (h : s.Keeps still t) : s.Keeps still (t.refuseCmd c e) := by
  unfold State.refuseCmd
  split
  · exact h.annealBad
  · exact h.svRefuse
  · exact h.prRefuse
  · exact h.plRefuse

/-! CoreBase. -/

theorem State.Keeps.setCore {k : Nat} {c : Core} (h : s.Keeps still t) : s.Keeps still (t.setCore k c) := h
theorem State.Keeps.updCore {k : Nat} {f : Core → Core} (h : s.Keeps still t) : s.Keeps still (t.updCore k f) := h.setCore
theorem State.Keeps.lmCorrect {k w : Nat} (h : s.Keeps still t) : s.Keeps still (t.lmCorrect k w) := by
  unfold State.lmCorrect
  exact .ite h.bump.raiseErr.same h
theorem State.Keeps.lmFresh {k w0 n : Nat} (h : s.Keeps still t) : s.Keeps still (t.lmFresh k w0 n) := .ite h h
theorem State.Keeps.spargeLm {k : Nat} (h : s.Keeps still t) : s.Keeps still (t.spargeLm k) := by
  unfold State.spargeLm
  exact h.same.updCore
theorem State.Keeps.tagEnd {k t' status : Nat} (h : s.Keeps still t) : s.Keeps still (t.tagEnd k t' status) := h.updCore
theorem State.Keeps.endCommandAs {c : Command} {status : Nat} {valid halt : Bool} (h : s.Keeps still t) : s.Keeps still (t.endCommandAs c
    status valid halt) := by
  unfold State.endCommandAs
  split
  · exact h.stopTun
  · exact h.stopSolver
  · exact h.stopPred
  · exact h.stopPlan
theorem State.Keeps.stopCommand {id status : Nat} (h : s.Keeps still t) : s.Keeps still (t.stopCommand id status) := by
  unfold State.stopCommand
  split
  · exact h
  · exact .ite h h.endCommandAs
theorem State.Keeps.faultCommand {id status : Nat} (h : s.Keeps still t) : s.Keeps still (t.faultCommand id status) := by
  unfold State.faultCommand
  split
  · exact h
  · exact .ite h.endCommandAs h
theorem State.Keeps.partTransfer {c : Core} {t' : Transfer} (h : s.Keeps still t) : s.Keeps still (t.partTransfer c t') := by
  unfold State.partTransfer
  split
  · exact h
  · dsimp only
    split
    · exact .noteRead (.ite h.backlogLess h)
    · exact .writeSpace (.noteRead (.ite h.backlogLess h))
theorem State.Keeps.releaseCore {k : Nat} (h : s.Keeps still t) : s.Keeps still (t.releaseCore k) := by
  unfold State.releaseCore
  dsimp only
  exact h.same.updCore
theorem State.Keeps.haltStep {k : Nat} (h : s.Keeps still t) : s.Keeps still (t.haltStep k) := by
  unfold State.haltStep
  dsimp only
  split
  · exact .ite h (.ite (.foldl (fun h => h.askStop) h) (.releaseCore (.finishJob (.foldl (fun h => h.askStop) h))))
  · exact h
theorem State.Keeps.endProgram {k status : Nat} {byHalt : Bool} (h : s.Keeps still t) : s.Keeps still (t.endProgram k status byHalt) :=
  .ite h h.updCore.haltStep
theorem State.Keeps.haltNow {k : Nat} (h : s.Keeps still t) : s.Keeps still (t.haltNow k) := by
  unfold State.haltNow
  dsimp only
  split
  · exact h
  · refine .releaseCore ?_
    refine .finishJob ?_
    show s.Keeps still _
    refine .foldl (fun h => ?_) (.foldl (fun h => h.partTransfer) h)
    split
    · exact h.endCommandAs
    · exact h
theorem State.Keeps.stopProgram {k cause : Nat} (h : s.Keeps still t) : s.Keeps still (t.stopProgram k cause) := h.updCore
theorem State.Keeps.stopJob {e status : Nat} (h : s.Keeps still t) : s.Keeps still (t.stopJob e status) := by
  unfold State.stopJob
  split
  · exact h
  · split
    · exact h
    · dsimp only
      split
      · exact .stopProgram (.foldl (fun h => h.stopCommand) h.updJob)
      · exact .foldl (fun h => h.stopCommand) h.updJob
theorem State.Keeps.failJob {e status : Nat} (h : s.Keeps still t) : s.Keeps still (t.failJob e status) := by
  unfold State.failJob
  split
  · exact h
  · split
    · exact h
    · split
      · exact h.refuseJob
      · dsimp only
        split
        · exact .endProgram (.foldl (fun h => h.faultCommand) h.updJob)
        · exact .foldl (fun h => h.faultCommand) h.updJob
theorem State.Keeps.cancelJob {j : Job} (h : s.Keeps still t) : s.Keeps still (t.cancelJob j) := .ite h (.ite h.askStop h.refuseJob)
theorem State.Keeps.cancelJobs {p : Job → Bool} (h : s.Keeps still t) : s.Keeps still (t.cancelJobs p) := .foldl (fun h => h.cancelJob) h
theorem State.Keeps.failJobs {p : Job → Bool} {status : Nat} (h : s.Keeps still t) : s.Keeps still (t.failJobs p status) :=
  .foldl (fun h => h.failJob) h

/-! Guard. -/

theorem State.Keeps.guardUpdate {q : Nat} (h : s.Keeps still t) : s.Keeps still (t.guardUpdate q) := .ite h.wr.wr h.wr.wr
theorem State.Keeps.guardRecord {j : Job} {l : Nat} (h : s.Keeps still t) : s.Keeps still (t.guardRecord j l) :=
  .ite h.updQueue (.ite h (.ite h.updQueue.event.event h.updQueue.event))
theorem State.Keeps.guardRecords (h : s.Keeps still t) : s.Keeps still t.guardRecords := .foldl (fun h => h.guardRecord) h
theorem State.Keeps.guardRoll (h : s.Keeps still t) : s.Keeps still t.guardRoll := .foldl (fun h => h.updQueue.guardUpdate) h

/-! Start. -/

theorem State.Keeps.wakeEngine {e : Engine} (h : s.Keeps still t) : s.Keeps still (t.wakeEngine e) := by
  unfold State.wakeEngine
  split
  · exact h.setEngLull
  · exact h
theorem State.Keeps.wakeCore {k : Nat} (h : s.Keeps still t) : s.Keeps still (t.wakeCore k) := by
  unfold State.wakeCore
  split
  · exact h.updCore
  · exact h.spargeLm.updCore
  · exact h
theorem State.Keeps.addCommand {c : Command} (h : s.Keeps still t) : s.Keeps still (t.addCommand c) := by
  unfold State.addCommand
  dsimp only
  split
  · exact h.same
  · exact h.same.wakeEngine
theorem State.Keeps.releaseEngine {c : Command} (h : s.Keeps still t) : s.Keeps still (t.releaseEngine c) := by
  unfold State.releaseEngine
  dsimp only
  split
  · exact h
  · split
    · exact .event (.bump (.ite h.same h))
    · exact .setEngLull (.event (.bump (.ite h.same h)))
  · split
    · exact .event (.bump (.ite h.releasePred h))
    · exact .setEngLull (.event (.bump (.ite h.releasePred h)))
  · split
    · exact .event (.bump (.ite h.releasePlan h))
    · exact .setEngLull (.event (.bump (.ite h.releasePlan h)))
theorem State.Keeps.failedWrite {w : SpaceWrite} (h : s.Keeps still t) : s.Keeps still (t.failedWrite w) := by
  unfold State.failedWrite
  exact h.same.putBytes
theorem State.Keeps.showResult {c : Command} {e : CmdEnd} (h : s.Keeps still t) : s.Keeps still (t.showResult c e).1 :=
  .ite_fst h.writeAll (.ite_fst h.writeAll (.ite_fst (.foldl (fun h => h.failedWrite) h) h.writeAll))
theorem State.Keeps.finishCommand {id : Nat} (h : s.Keeps still t) : s.Keeps still (t.finishCommand id) := by
  unfold State.finishCommand
  split
  · exact h
  · split
    · dsimp only
      split
      · exact h.showResult.releaseEngine.same.updCore.tagEnd.haltStep
      · split
        · exact h.showResult.releaseEngine.same
        · split
          · exact h.showResult.releaseEngine.same
          · exact h.showResult.releaseEngine.same.finishJob
    · exact h
theorem State.Keeps.startJob {e : Nat} (h : s.Keeps still t) : s.Keeps still (t.startJob e) := by
  unfold State.startJob
  split
  · exact h
  · dsimp only
    split
    · exact h.updJob
    · exact .addCommand (.foldl (fun h => h.unlull) h.updJob)
    · exact .addCommand (.foldl (fun h => h.unlull) h.updJob)
    · split
      · exact h.updJob
      · exact h.updJob.addBacklog.wakeCore.updJob.updCore

/-! Host. -/

theorem State.Keeps.dbStray (h : s.Keeps still t) : s.Keeps still t.dbStray := h.bump
theorem State.Keeps.dbDrop {q reason : Nat} (h : s.Keeps still t) : s.Keeps still (t.dbDrop q reason) := h.updQueue.event
theorem State.Keeps.execSqTailDb {func q len : Nat} {v : Word} (h : s.Keeps still t) : s.Answers still (execSqTailDb func q len v t) :=
  .ite (.next h.dbStray) (.ite (.next h.dbDrop) (.ite (.next h.dbDrop) (.ite (.next h.dbDrop) (.ite (.next h.dbDrop) (.next
    h.setQueue.event)))))
theorem State.Keeps.execCqHeadDb {func q len : Nat} {v : Word} (h : s.Keeps still t) : s.Answers still (execCqHeadDb func q len v t) :=
  .ite (.next h.dbStray) (.ite (.next h.dbDrop) (.ite (.next h.dbDrop) (.ite (.next h.dbDrop) (.ite (.next h.dbDrop) (.next
    h.setQueue.event)))))
theorem State.Keeps.takeUp {f : Fetched} {entry : Nat} (h : s.Keeps still t) : s.Keeps still (t.takeUp f entry) := by
  unfold State.takeUp
  dsimp only
  split
  · exact h.same.bump.event.refuseJob
  · split
    · exact h.same.bump.event.updJob.refuseJob
    · split
      · exact h.same.bump.event.updJob.finishJob
      · split
        · exact h.same.bump.event.refuseJob
        · split
          · exact h.same.bump.event.refuseJob
          · split
            · exact .ite h.same.bump.event.updJob.addBacklog h.same.bump.event.updJob
            · exact .ite h.same.bump.event.updJob.addBacklog h.same.bump.event.updJob
            · exact .ite h.same.bump.event.updJob (.ite h.same.bump.event.event.refuseJob h.same.bump.event)
            · exact .ite h.same.bump.event.event.refuseJob h.same.bump.event
theorem State.Keeps.execInlineWrite {func q off : Nat} {bytes : List Byte} (h : s.Keeps still t) : s.Answers still (execInlineWrite func q
    off bytes t) :=
  .ite (.next h.dbStray) (.ite (.next h.dbDrop) (.ite (.next h.dbDrop) (.ite (.next h.setQueue) (.ite (.next h.setQueue.dbDrop) (.ite (.next
    h.setQueue.dbDrop) (.next h.setQueue.updQueue.takeUp))))))
theorem State.Keeps.fetchQueue {q : Nat} (h : s.Keeps still t) : s.Keeps still (t.fetchQueue q) := by
  unfold State.fetchQueue
  dsimp only
  split
  · exact h.updQueue
  · split
    · exact h.updQueue
    · exact h.updQueue.setQueue.bump64.chargeDev.same
theorem State.Keeps.takeUpReserved (h : s.Keeps still t) : s.Keeps still t.takeUpReserved := by
  unfold State.takeUpReserved
  split
  · exact h
  · exact .foldl (fun h => h.takeUp) h
theorem State.Keeps.execFetch (h : s.Keeps still t) : s.Answers still (execFetch t) :=
  .ite (.next h) (.next (.takeUpReserved (.foldl (fun h => h.fetchQueue) h)))
theorem State.Keeps.takeUpOp {op : Nat} (h : s.Keeps still t) : s.Keeps still (t.takeUpOp op) := by
  unfold State.takeUpOp
  split
  · exact h
  · split
    · exact h
    · split
      · exact h
      · split
        · exact h
        · exact h.same.takeUp
theorem State.Keeps.execEngineCmd (h : s.Keeps still t) : s.Answers still (execEngineCmd t) := .next h.takeUpOp
theorem State.Keeps.execProgramCmd (h : s.Keeps still t) : s.Answers still (execProgramCmd t) := .next h.takeUpOp
theorem State.Keeps.execChainCmd (h : s.Keeps still t) : s.Answers still (execChainCmd t) := by
  unfold Machine.execChainCmd
  split
  · exact .next h
  · exact .next h.takeUpOp
theorem State.Keeps.execFireCmd (h : s.Keeps still t) : s.Answers still (execFireCmd t) := .next h.takeUpOp
theorem State.Keeps.armSlot {j : Job} (h : s.Keeps still t) : s.Keeps still (t.armSlot j) := by
  unfold State.armSlot
  dsimp only
  split
  · exact h.finishJob
  · exact .finishJob (.updQueue (.ite h h.noteRead))
theorem State.Keeps.execArmCmd {job : Option Nat} (h : s.Keeps still t) : s.Answers still (execArmCmd job t) := by
  unfold Machine.execArmCmd
  split
  · exact .next h.takeUpOp
  · split
    · exact .next h
    · exact .ite (.next h.armSlot) (.next h)
theorem State.Keeps.refuseLast {e : Bad} (h : s.Keeps still t) : s.Keeps still (t.refuseLast e) := by
  unfold State.refuseLast
  split
  · exact h
  · exact h.refuseCmd.finishCommand
theorem State.Keeps.execEnginePayloadRead {job : Nat} (h : s.Keeps still t) : s.Answers still (execEnginePayloadRead job t) := by
  unfold Machine.execEnginePayloadRead
  split
  · exact .next h
  · split
    · exact .next h
    · dsimp only
      split
      · exact .next (.refuseJob (.noteRead (.ite h.backlogLess h)))
      · split
        · split
          · exact .next (.refuseLast (.addCommand (.updJob (.noteRead (.ite h.backlogLess h)))))
          · split
            · exact .next (.updJob (.noteRead (.ite h.backlogLess h)))
            · exact .ite (.next (.updJob (.noteRead (.ite h.backlogLess h)))) (.next (.refuseJob (.event (.updJob (.noteRead (.ite
                h.backlogLess h))))))
        · exact .ite (.next (.updJob (.noteRead (.ite h.backlogLess h)))) (.next (.refuseJob (.event (.updJob (.noteRead (.ite h.backlogLess
            h))))))
theorem State.Keeps.execRingEnable {func q : Nat} {v : Word} (h : s.Keeps still t) : s.Answers still (execRingEnable func q v t) :=
  .ite (.next h.dbStray) (.ite (.ite (.next h) (.next h.dbDrop)) (.ite (.next h.dbDrop) (.next h.setQueue)))
theorem State.Keeps.quiesced {q : Nat} (h : s.Keeps still t) : s.Keeps still (t.quiesced q) := .ite h.setQueue h
theorem State.Keeps.execRingDisable {func q : Nat} {v : Word} (h : s.Keeps still t) : s.Answers still (execRingDisable func q v t) :=
  .ite (.next h.dbStray) (.ite (.next h.setQueue) (.ite (.next (.quiesced (.updQueue (.ite h h.dbDrop)))) (.next (.ite h h.dbDrop))))
theorem State.Keeps.effectQOwnerWrite {x0 : Path} {q : Nat} {v : Word} (h : s.Keeps still t) : s.Answers still (effectQOwnerWrite x0 q v t)
    :=
  .ite (.next h) (.ite (.next h.wr) (.ite (.next h.wr) (.next h.wr.setQueue)))
theorem State.Keeps.issueRecord {j : Job} (h : s.Keeps still t) : s.Keeps still (t.issueRecord j) := by
  unfold State.issueRecord
  dsimp only
  exact .quiesced (.same (.ite (.event (.event (.ite (.bump (.ite (.event (.bump (.ite
      h.chargeJob.hostWrite.bump64.release.same.updQueue.bump.bump h.chargeJob.hostWrite.bump64.release.same.updQueue.bump))) (.ite
      h.chargeJob.hostWrite.bump64.release.same.updQueue.bump.bump h.chargeJob.hostWrite.bump64.release.same.updQueue.bump))) (.ite
      (.event (.bump (.ite h.chargeJob.hostWrite.bump64.release.same.updQueue.bump.bump
      h.chargeJob.hostWrite.bump64.release.same.updQueue.bump))) (.ite h.chargeJob.hostWrite.bump64.release.same.updQueue.bump.bump
      h.chargeJob.hostWrite.bump64.release.same.updQueue.bump))))) (.event (.ite (.bump (.ite (.event (.bump (.ite
      h.chargeJob.hostWrite.bump64.release.same.updQueue.bump.bump h.chargeJob.hostWrite.bump64.release.same.updQueue.bump))) (.ite
      h.chargeJob.hostWrite.bump64.release.same.updQueue.bump.bump h.chargeJob.hostWrite.bump64.release.same.updQueue.bump))) (.ite
      (.event (.bump (.ite h.chargeJob.hostWrite.bump64.release.same.updQueue.bump.bump
      h.chargeJob.hostWrite.bump64.release.same.updQueue.bump))) (.ite h.chargeJob.hostWrite.bump64.release.same.updQueue.bump.bump
      h.chargeJob.hostWrite.bump64.release.same.updQueue.bump))))))
theorem State.Keeps.dropJob {e : Nat} (h : s.Keeps still t) : s.Keeps still (t.dropJob e) := h.release
theorem State.Keeps.execCompletionRecord {job : Nat} {credits : Bool} (h : s.Keeps still t) : s.Answers still (execCompletionRecord job
    credits t) := by
  unfold Machine.execCompletionRecord
  split
  · exact .next h
  · exact .ite (.next h) (.ite (.next h.dropJob) (.ite (.next h) (.next h.issueRecord)))
theorem State.Keeps.execGuardUpdate {q : Nat} (h : s.Keeps still t) : s.Answers still (execGuardUpdate q t) := .next h.guardUpdate.bump
theorem State.Keeps.execPostedCreditReturn (h : s.Keeps still t) : s.Answers still (execPostedCreditReturn t) := by
  unfold Machine.execPostedCreditReturn
  split
  · exact .next h
  · refine .next ?_
    refine .foldl (fun h => ?_) h
    split
    · exact h.issueRecord
    · exact h
theorem State.Keeps.flrFunc {f : Nat} (h : s.Keeps still t) : s.Keeps still (t.flrFunc f) := by
  unfold State.flrFunc
  dsimp only
  exact .same (.foldl (fun h => h.setQueue.same.cancelJobs) h)
theorem State.Keeps.execFlr {vf : Nat} (h : s.Keeps still t) : s.Answers still (execFlr vf t) := .ite (.next h) (.next h.bump.event.flrFunc)
theorem State.Keeps.execFlrPf (h : s.Keeps still t) : s.Answers still (execFlrPf t) := by
  unfold Machine.execFlrPf
  dsimp only
  exact .next (.same (.foldl (fun h => h.flrFunc) h.bump.event))
theorem State.Keeps.execFlrComplete {func : Nat} (h : s.Keeps still t) : s.Answers still (execFlrComplete func t) := by
  unfold Machine.execFlrComplete
  split
  · exact .next h
  · exact .ite (.next h) (.next (.foldl (fun h => h.updQueue) (.foldl (fun h => h.dropJob) h)))
theorem State.Keeps.execPcieLinkTraining {rate width : Nat} {flit : Bool} (h : s.Keeps still t) : s.Answers still (execPcieLinkTraining rate
    width flit t) :=
  .ite (.next h) (.next h.wf.wf.wf)
theorem State.Keeps.execHostIdeFail (h : s.Keeps still t) : s.Answers still (execHostIdeFail t) := by
  unfold Machine.execHostIdeFail
  dsimp only
  exact .next h.same.wf.raiseErr.failJobs
theorem State.Keeps.execHostReadFailure {fetch : Bool} {n : Nat} (h : s.Keeps still t) : s.Answers still (execHostReadFailure fetch n t) := by
  unfold Machine.execHostReadFailure
  split
  · exact .ite (.next h.setQueue.raiseErr) (.next h)
  · split
    · exact .next h
    · exact .ite (.next h) (.next h.raiseErr.failJobs)

/-! Keys. -/

theorem State.Keeps.program {off n v : Nat} (h : s.Keeps still t) : s.Keeps still (t.program off n v) := h
theorem State.Keeps.otpFault {off : Nat} (h : s.Keeps still t) : s.Keeps still (t.otpFault off) := h.wf.raiseErr
theorem State.Keeps.deriveFrom {n : Nat} : ∀ {st : Nat} {t}, s.Keeps still t → s.Keeps still (State.deriveFrom n st t) := by
  induction n with
  | zero => exact fun h => h.wf
  | succ n ih =>
    intro st t h
    unfold State.deriveFrom
    dsimp only
    split
    · exact h.wf
    · refine .ite h.wf.otpFault (.ite h.wf.otpFault ?_)
      split
      · exact h.wf.otpFault
      · exact .ite h.wf.wf.wf.raiseErr (ih (.ite h h.program))
theorem State.Keeps.keyStart (h : s.Keeps still t) : s.Keeps still t.keyStart := h.wr.deriveFrom.wf
theorem State.Keeps.deriveIdentity (h : s.Keeps still t) : s.Keeps still t.deriveIdentity := by
  unfold State.deriveIdentity
  split
  · exact h.same
  · split
    · exact h.same.raiseErr
    · exact h.same.wr64
theorem State.Keeps.takeChain {chain : List Byte} (h : s.Keeps still t) : s.Keeps still (t.takeChain chain) := by
  unfold State.takeChain
  dsimp only
  exact .ite h.same.wf h.same.wf.raiseErr
theorem State.Keeps.setBank {slot b : Nat} {r : List Byte} (h : s.Keeps still t) : s.Keeps still (t.setBank slot b r) := h
theorem State.Keeps.eraseStore (h : s.Keeps still t) : s.Keeps still t.eraseStore := h
theorem State.Keeps.setSeals {slot b n : Nat} (h : s.Keeps still t) : s.Keeps still (t.setSeals slot b n) := h
theorem State.Keeps.sealSteps (h : s.Keeps still t) : s.Keeps still t.sealSteps := h
theorem State.Keeps.countTorn (h : s.Keeps still t) : s.Keeps still t.countTorn := h.wr
theorem State.Keeps.reply {e : Endpoint} {session : Option Nat} {a : Answer} (h : s.Keeps still t) : s.Keeps still (t.reply e session a) :=
  h
theorem State.Keeps.setSessions {l : List Session} (h : s.Keeps still t) : s.Keeps still (t.setSessions l) := h.wf
theorem State.Keeps.drawKey {n : Nat} (h : s.Keeps still t) : s.Keeps still (t.drawKey n).1 := .ite_fst h h.draw
theorem State.Keeps.addTask {e : Endpoint} {session : Option Nat} {w : KeyWork} (h : s.Keeps still t) : s.Keeps still (t.addTask e session
    w) :=
  h
theorem State.Keeps.sign {d : Nat} {fresh msg : List Byte} (h : s.Keeps still t) : s.Keeps still (t.sign d fresh msg).1 := h.bumpSat.event
theorem State.Keeps.setNonce {b : List Byte} (h : s.Keeps still t) : s.Keeps still (t.setNonce b) := .foldl (fun h => h.wr) h
theorem State.Keeps.tenantAnswer {t' : TenantCmd} {result : Nat} (h : s.Keeps still t) : s.Keeps still (t.tenantAnswer t' result) := h.reply
theorem State.Keeps.tenantPop (h : s.Keeps still t) : s.Keeps still t.tenantPop := h
theorem State.Keeps.bankBegin {t' : TenantCmd} {nonce : List Byte} (h : s.Keeps still t) : s.Keeps still (t.bankBegin t' nonce) := by
  unfold State.bankBegin
  dsimp only
  exact h.setBank.same
theorem State.Keeps.bankErase {t' : TenantCmd} (h : s.Keeps still t) : s.Keeps still (t.bankErase t') :=
  .ite h.setBank.raiseErr.tenantAnswer h.setBank.setBank.setSeals.setSeals.tenantAnswer
theorem State.Keeps.tenantServe {n : Nat} : ∀ {t}, s.Keeps still t → s.Keeps still (State.tenantServe n t) := by
  induction n with
  | zero => exact fun h => h
  | succ n ih =>
    intro t h
    unfold State.tenantServe
    split
    · exact h
    · refine .ite h (.ite (ih h.tenantAnswer.tenantPop) (.ite (ih h.tenantAnswer.tenantPop) (.ite ?_ (.ite (ih h.bankErase.tenantPop)
        (ih h.tenantAnswer.tenantPop)))))
      split
      · exact h.drawKey.out.bankBegin
      · exact h.drawKey.out.addTask
theorem State.Keeps.tenantArrive {t' : TenantCmd} (h : s.Keeps still t) : s.Keeps still (t.tenantArrive t') := by
  unfold State.tenantArrive
  exact .ite h.reply h.same.tenantServe
theorem State.Keeps.execSetTenantKey {e : Endpoint} {session : Option Nat} {payload : List Byte} (h : s.Keeps still t) : s.Answers still
    (execSetTenantKey e session payload t) :=
  .ite (.next h.tenantArrive) (.next h)
theorem State.Keeps.execEraseTenantKey {e : Endpoint} {session : Option Nat} {payload : List Byte} {fail : Bool} (h : s.Keeps still t) :
    s.Answers still (execEraseTenantKey e session payload fail t) :=
  .ite (.next h.tenantArrive) (.next h)
theorem State.Keeps.execQuerySlot {e : Endpoint} {session : Option Nat} {payload : List Byte} (h : s.Keeps still t) : s.Answers still
    (execQuerySlot e session payload t) :=
  .ite (.next h.tenantArrive) (.next h)
theorem State.Keeps.execKeyBankWriteDone {fail : Bool} (h : s.Keeps still t) : s.Answers still (execKeyBankWriteDone fail t) := by
  unfold Machine.execKeyBankWriteDone
  split
  · exact .next (.tenantServe (.tenantPop (.ite h.bumpSat.event.raiseErr.tenantAnswer h.bumpSat.event.setBank.setSeals.tenantAnswer)))
  · exact .next h
theorem State.Keeps.lcResult {st code : Nat} (h : s.Keeps still t) : s.Keeps still (t.lcResult st code) := h.wr
theorem State.Keeps.renewNonce (h : s.Keeps still t) : s.Keeps still t.renewNonce := by
  unfold State.renewNonce
  split
  · exact h.drawKey.out.setNonce
  · exact h.drawKey.out.addTask
theorem State.Keeps.programSeed {b : List Byte} (h : s.Keeps still t) : s.Keeps still (t.programSeed b) := by
  unfold State.programSeed
  split
  · exact h
  · exact h.program.program
theorem State.Keeps.ciphRefuse (h : s.Keeps still t) : s.Keeps still t.ciphRefuse := by
  unfold State.ciphRefuse
  split
  · split
    · exact h
    · dsimp only
      refine .wr ?_
      refine .wr ?_
      show s.Keeps still _
      split
      · exact .ite h h.setSeals
      · exact h
  · exact h
theorem State.Keeps.lcBegin {n : Nat} (h : s.Keeps still t) : s.Keeps still (t.lcBegin n) := by
  unfold State.lcBegin
  extract_lets +onlyGivenNames t₁ t₂ run
  have h₁ : s.Keeps still t₁ := h.ciphRefuse.wf
  have h₂ : s.Keeps still t₂ := .ite h₁.eraseStore h₁
  have hrun : ∀ {u due}, s.Keeps still u → s.Keeps still (run u due) := fun h => .lcResult (.same h)
  clear_value run t₂
  split
  · split
    · exact hrun h₂.drawKey.out.programSeed
    · exact hrun h₂.drawKey.out
  · exact hrun h₂
theorem State.Keeps.effectLcTransition {p : Path} {v : Word} (h : s.Keeps still t) : s.Answers still (effectLcTransition p v t) := by
  unfold Machine.effectLcTransition
  split
  · exact .next h
  · split
    · exact .next (.ite h.wf h.lcResult)
    · dsimp only
      refine .next ?_
      split
      · refine .renewNonce ?_
        split
        · exact .ite h.lcBegin (.ite h.wf h.lcResult)
        · exact .ite h.wf h.lcResult
      · split
        · exact .ite h.lcBegin (.ite h.wf h.lcResult)
        · exact .ite h.wf h.lcResult
theorem State.Keeps.effectLcBadOp {p : Path} {v : Word} (h : s.Keeps still t) : s.Answers still (effectLcBadOp p v t) :=
  .ite (.next h) (.next (.ite h.wf h.lcResult))
theorem State.Keeps.execLcTransitionDone (h : s.Keeps still t) : s.Answers still (execLcTransitionDone t) := by
  unfold Machine.execLcTransitionDone
  split
  · exact .next h
  · exact .ite (.next h) (.next h.program.program.same.wf.lcResult)
theorem State.Keeps.lcCut (h : s.Keeps still t) : s.Keeps still t.lcCut := by
  unfold State.lcCut
  split
  · exact h
  · exact .ite h.same (.ite h.same.program (.ite h.same.program.program h.same.program.program))
theorem State.Keeps.keyIdentity (h : s.Keeps still t) : s.Keeps still t.keyIdentity := by
  unfold State.keyIdentity
  exact .ite h (.renewNonce (.ite h.same.deriveIdentity.countTorn.eraseStore h.same.deriveIdentity.countTorn))
theorem State.Keeps.jtagRun {i : JtagInstr} (h : s.Keeps still t) : s.Keeps still (t.jtagRun i) := h
theorem State.Keeps.execBypass (h : s.Keeps still t) : s.Answers still (execBypass t) := .next h.jtagRun
theorem State.Keeps.execIdcode (h : s.Keeps still t) : s.Answers still (execIdcode t) := by
  unfold Machine.execIdcode
  exact .next h.jtagRun.same
theorem State.Keeps.execSamplePreload {pads shift : Nat} (h : s.Keeps still t) : s.Answers still (execSamplePreload pads shift t) := .next h
theorem State.Keeps.execExtest {pads : Nat} (h : s.Keeps still t) : s.Answers still (execExtest pads t) := .next h
theorem State.Keeps.execJtagPrivate {code : Nat} (h : s.Keeps still t) : s.Answers still (execJtagPrivate code t) :=
  .ite (.next h.jtagRun) (.next h.jtagRun)

/-! Cipher. -/

theorem State.Keeps.ciphStatus {st code : Nat} (h : s.Keeps still t) : s.Keeps still (t.ciphStatus st code) := h.wr
theorem State.Keeps.ciphEnd {code : Nat} (h : s.Keeps still t) : s.Keeps still (t.ciphEnd code) :=
  .tenantServe (.ite h.ciphStatus.bump h.ciphStatus)
theorem State.Keeps.sealStart {c : CipherRun} {iv : List Byte} (h : s.Keeps still t) : s.Keeps still (t.sealStart c iv) := by
  unfold State.sealStart
  dsimp only
  exact h.setSeals.same.ciphStatus
theorem State.Keeps.cipherServe (h : s.Keeps still t) : s.Keeps still t.cipherServe := by
  unfold State.cipherServe
  split
  · split
    · exact h
    · split
      · exact h.draw.out.sealStart
      · exact h.draw.out
  · exact h
theorem State.Keeps.ciphGo (h : s.Keeps still t) : s.Keeps still t.ciphGo := h
theorem State.Keeps.effectSeal {x0 : Path} {v : Word} (h : s.Keeps still t) : s.Answers still (effectSeal x0 v t) := by
  unfold Machine.effectSeal
  exact .ite (.next h) (.ite (.next h.ciphGo.wf) (.ite (.next h.ciphGo.ciphStatus) (.ite (.next h.ciphGo.wr.ciphStatus) (.next
      h.ciphGo.wr.same.ciphStatus.cipherServe))))
theorem State.Keeps.effectUnseal {x0 : Path} {v : Word} (h : s.Keeps still t) : s.Answers still (effectUnseal x0 v t) := by
  unfold Machine.effectUnseal
  split
  · exact .next h
  · dsimp only
    split
    · exact .next h.ciphGo.wf
    · split
      · exact .next h.ciphGo.ciphStatus
      · split
        · exact .next h.ciphGo.noteRead.raiseErr.ciphStatus
        · split
          · exact .next h.ciphGo.ciphStatus
          · exact .ite (.next h.ciphGo.ciphStatus) (.next h.ciphGo.wr.same.ciphStatus)
theorem State.Keeps.effectCipherBadOp {x0 : Path} {v : Word} (h : s.Keeps still t) : s.Answers still (effectCipherBadOp x0 v t) :=
  .ite (.next h) (.ite (.next h.wf) (.next h.ciphStatus))
theorem State.Keeps.execCipherDone {fault : Bool} (h : s.Keeps still t) : s.Answers still (execCipherDone fault t) := by
  unfold Machine.execCipherDone
  split
  · exact .next h
  · split
    · exact .next h
    · refine .ite (.next h) ?_
      extract_lets +onlyGivenNames srcLen dstLen down bad t₁ wr ev
      have h₁ : s.Keeps still t₁ := .ite h h.noteRead
      have hwr : ∀ {u bs}, s.Keeps still u → s.Keeps still (wr u bs) := fun h => .ite h h.writeSpace
      clear_value wr t₁
      refine .ite (.next (hwr h₁).raiseErr.ciphEnd) ?_
      split
      · exact .next (hwr h₁).bump.event.ciphEnd
      · exact .next (hwr h₁).event.ciphEnd
theorem State.Keeps.execCipherEntropyTimeout (h : s.Keeps still t) : s.Answers still (execCipherEntropyTimeout t) := by
  unfold Machine.execCipherEntropyTimeout
  split
  · exact .next h
  · exact .ite (.next h) (.next h.ciphEnd)

/-! Dispatcher. -/

theorem State.Keeps.lateBeforeStart {j : Job} (h : s.Keeps still t) : s.Keeps still (t.lateBeforeStart j) := h.bump.event.refuseJob
theorem State.Keeps.execLateBeforeStart {job : Nat} (h : s.Keeps still t) : s.Answers still (execLateBeforeStart job t) := by
  unfold Machine.execLateBeforeStart
  split
  · exact .next h
  · exact .ite (.next h.lateBeforeStart) (.next h)
theorem State.Keeps.admitJob {j : Job} (h : s.Keeps still t) : s.Keeps still (t.admitJob j) :=
  .ite h.bump.refuseJob (.ite h.bump.event.refuseJob h)
theorem State.Keeps.visit {w : Walk} {j : Job} (h : s.Keeps still w.s) : s.Keeps still (w.visit j).s := by
  unfold Walk.visit
  split
  · exact h
  · split
    · exact h
    · split
      · split
        · exact State.Keeps.event (State.Keeps.bump h.reserve.startJob)
        · exact h.lateBeforeStart
      · split
        · extract_lets +onlyGivenNames u₁ _ u₂ since _ u₃ hold
          have h₁ : s.Keeps still u₁ := h.bump64.event
          have h₂ : s.Keeps still u₂ := .ite h₁.same h.bump.event
          exact h₂.same
        · exact h
theorem State.Keeps.walk {l : List Job} : ∀ {w : Walk}, s.Keeps still w.s → s.Keeps still (l.foldl Walk.visit w).s := by
  induction l with
  | nil => exact fun h => h
  | cons j l ih => exact fun h => ih h.visit
theorem State.Keeps.selectJob (h : s.Keeps still t) : s.Keeps still t.selectJob := by
  unfold State.selectJob
  extract_lets +onlyGivenNames t₁ ws t₂ cand w
  have h₁ : s.Keeps still t₁ := .foldl (fun h => h.admitJob) h
  clear_value ws
  have h₂ : s.Keeps still t₂ := by
    unfold t₂
    split
    · exact h₁
    · exact .ite h₁ h₁.bump.event
  have hw : s.Keeps still w.s := State.Keeps.walk h₂
  exact .ite hw.same hw
theorem State.Keeps.startStep (h : s.Keeps still t) : s.Keeps still t.startStep := by
  unfold State.startStep
  dsimp only
  exact .ite h.commitStep.same.selectJob h.commitStep.same
theorem State.Keeps.execJobStart (h : s.Keeps still t) : s.Answers still (execJobStart t) := .next h
theorem State.Keeps.cmdResult {p : Path} {matched code : Nat} (h : s.Keeps still t) : s.Keeps still (t.cmdResult p matched code) := h.wr
theorem State.Keeps.winArrive {p : Path} {op q : Nat} (h : s.Keeps still t) : s.Keeps still (t.winArrive p op q) := h
theorem State.Keeps.winCancel {j : Job} (h : s.Keeps still t) : s.Keeps still (t.winCancel j) := .ite h.lateBeforeStart h.cancelJob
theorem State.Keeps.winApply {c : WinCmd} (h : s.Keeps still t) : s.Keeps still (t.winApply c) := by
  unfold State.winApply
  dsimp only
  split
  · exact .ite h.cmdResult (.ite h.cmdResult (.cmdResult (.foldl (fun h => h.winCancel) h)))
  · exact .ite h.cmdResult (.ite h.cmdResult (.cmdResult (.foldl (fun h => h.winCancel) h)))
  · exact .ite h.cmdResult (.ite h.cmdResult h.cmdResult)
  · exact .ite h.cmdResult (.cmdResult (.foldl (fun h => h.refuseJob) h.updQueue))
  · exact .ite h.cmdResult h.updQueue.cmdResult
  · exact h.cmdResult
theorem State.Keeps.winCycle (h : s.Keeps still t) : s.Keeps still t.winCycle :=
  .foldl (fun h => .ite h.cmdResult h.winApply) (.foldl (fun h => .ite h.cmdResult h.winApply) h)
theorem State.Keeps.winReprio (h : s.Keeps still t) : s.Keeps still t.winReprio := .foldl (fun h => h.winApply) h
theorem State.Keeps.effectCancel {p : Path} {q : Nat} (h : s.Keeps still t) : s.Answers still (effectCancel p q t) := .next h.winArrive
theorem State.Keeps.effectCancelQueue {p : Path} {q : Nat} (h : s.Keeps still t) : s.Answers still (effectCancelQueue p q t) :=
  .next h.winArrive
theorem State.Keeps.effectReprio {p : Path} {q : Nat} (h : s.Keeps still t) : s.Answers still (effectReprio p q t) := .next h.winArrive
theorem State.Keeps.effectDrain {p : Path} {q : Nat} (h : s.Keeps still t) : s.Answers still (effectDrain p q t) := .next h.winArrive
theorem State.Keeps.effectUndrain {p : Path} {q : Nat} (h : s.Keeps still t) : s.Answers still (effectUndrain p q t) := .next h.winArrive
theorem State.Keeps.effectDispatchCmdBadOp {p : Path} {v : Word} (h : s.Keeps still t) : s.Answers still (effectDispatchCmdBadOp p v t) :=
  .ite (.next h) (.next h.winArrive)
theorem State.Keeps.effectContractWrite {x0 : Path} {q : Nat} {target : Bool} {v : Word} (h : s.Keeps still t) : s.Answers still
    (effectContractWrite x0 q target v t) :=
  .ite (.next h) (.ite (.next h.wr.guardUpdate) (.next h.wr.guardUpdate))
theorem State.Keeps.settleStop {a : StopAsk} (h : s.Keeps still t) : s.Keeps still (t.settleStop a) := by
  unfold State.settleStop
  split
  · exact h.stopJob
  · exact h.stopCommand
  · exact .ite h h.haltNow
theorem State.Keeps.settleStops (h : s.Keeps still t) : s.Keeps still t.settleStops := .foldl (fun h => h.settleStop) h
theorem State.Keeps.execStopTimeReached {w : StopOf} (h : s.Keeps still t) : s.Answers still (execStopTimeReached w t) := by
  unfold Machine.execStopTimeReached
  split
  · split
    · exact .next h
    · exact .ite (.next h) (.next h.askStop)
  · split
    · exact .next h
    · exact .ite (.next h) (.next h.askStop)
theorem State.Keeps.execHaltTimeReached {k : Nat} (h : s.Keeps still t) : s.Answers still (execHaltTimeReached k t) :=
  .ite (.next h) (.next h.askStop)
theorem State.Keeps.execEnergyCeilingStop {job : Nat} (h : s.Keeps still t) : s.Answers still (execEnergyCeilingStop job t) := by
  unfold Machine.execEnergyCeilingStop
  split
  · exact .next h
  · split
    · exact .next h
    · exact .ite (.next h) (.next h.event.askStop)
theorem State.Keeps.gustFallback {j : Job} (h : s.Keeps still t) : s.Keeps still (t.gustFallback j) := h.bump.event.updJob
theorem State.Keeps.execGustLaneEntry {job : Nat} (h : s.Keeps still t) : s.Answers still (execGustLaneEntry job t) := by
  unfold Machine.execGustLaneEntry
  split
  · exact .next h
  · split
    · exact .next h
    · dsimp only
      split
      · exact .next (.ite h.gustFallback.event.refuseJob h.gustFallback)
      · split
        · exact .next h.event.refuseJob
        · split
          · exact .next h.gustFallback
          · split
            · exact .next h.updJob.bump.event.event.reserve.startJob
            · exact .next h.updJob.bump.event.event.reserve.startJob.annealIssue
theorem State.Keeps.execEngineQueueEntry {cmd : Nat} (h : s.Keeps still t) : s.Answers still (execEngineQueueEntry cmd t) := by
  unfold Machine.execEngineQueueEntry
  split
  · exact .next h
  · exact .ite (.next h) (.next h.same.wakeEngine)
theorem State.Keeps.execEngineCommandEnd {cmd : Nat} (h : s.Keeps still t) : s.Answers still (execEngineCommandEnd cmd t) :=
  .ite (.next h) (.next h.finishCommand)

/-! Gnomos. -/

theorem State.Keeps.lmRead {k off n : Nat} (h : s.Keeps still t) : s.Keeps still (t.lmRead k off n).1 := by
  unfold State.lmRead
  dsimp only
  split
  · exact .raiseErr (.foldl (fun h => h.lmCorrect) h)
  · exact .foldl (fun h => h.lmCorrect) h
theorem State.Keeps.lmWrite {k off : Nat} {bs : List Byte} (h : s.Keeps still t) : s.Keeps still (t.lmWrite k off bs).1 := by
  unfold State.lmWrite
  dsimp only
  split
  · exact h.raiseErr
  · exact .updCore (.lmFresh (.foldl (fun h => h.lmCorrect) h))
theorem State.Keeps.faultProgram {k status : Nat} (h : s.Keeps still t) : s.Keeps still (t.faultProgram k status) :=
  h.updCore.endProgram.haltStep
theorem State.Keeps.noteTrap {k cause tval epc : Nat} (h : s.Keeps still t) : s.Keeps still (t.noteTrap k cause tval epc) := h.wr.wr64.wr64
theorem State.Keeps.trap {k cause tval at_ : Nat} (h : s.Keeps still t) : s.Keeps still (t.trap k cause tval at_) :=
  .ite h.noteTrap.event.endProgram h.noteTrap.event.updCore
theorem State.Keeps.takeIrq {k : Nat} (h : s.Keeps still t) : s.Keeps still (t.takeIrq k) := h.noteTrap.event.updCore
theorem State.Keeps.execTimerExpiry {k : Nat} (h : s.Keeps still t) : s.Answers still (execTimerExpiry k t) :=
  .ite (.next h) (.next h.updCore)
theorem State.Keeps.noteLast {c : Command} {reason : Nat} (h : s.Keeps still t) : s.Keeps still (t.noteLast c reason) := by
  unfold State.noteLast
  split
  · exact h
  · exact h.wr
  · exact h.wr
  · exact h.wr
theorem State.Keeps.openGate {g : Gate} (h : s.Keeps still t) : s.Keeps still (t.openGate g) := by
  unfold State.openGate
  split
  · exact h
  · split
    · exact h
    · split
      · exact h.noteLast.endCmd
      · dsimp only
        split
        · exact h.noteRead.noteLast.endCmd
        · exact h.noteRead.updCmd
theorem State.Keeps.openGates {k : Nat} (h : s.Keeps still t) : s.Keeps still (t.openGates k) := by
  unfold State.openGates
  exact State.Keeps.foldl (fun h => h.openGate) h.updCore
theorem State.Keeps.coreIssue {k : Nat} {x : Slot} {c : Core} {t' bound : Nat} (h : s.Keeps still t) : s.Keeps still (t.coreIssue k x c t'
    bound) :=
  .ite h.bump.event.updCore (.ite h.bump.event.updCore.tagEnd h.bump.event.addCommand.updCore.openGates)
theorem State.Keeps.doLoad {k : Nat} {c : Core} {m : CoreSpace × Nat} {n : Nat} (h : s.Keeps still t) : s.Keeps still (t.doLoad k c m n).1
    := by
  unfold State.doLoad
  split
  · split <;> exact h.lmRead.out
  · split
    · exact h
    · dsimp only
      split <;> exact h.noteRead
theorem State.Keeps.doStore {k : Nat} {c : Core} {x : Slot} {m : CoreSpace × Nat} {now : Nat} (h : s.Keeps still t) : s.Keeps still
    (t.doStore k c x m now).1 := by
  unfold State.doStore
  dsimp only
  split
  · split
    · exact h.lmRead.out
    · exact h.lmRead.out.lmWrite.updCore
  · split <;> exact h.lmWrite.out
  · exact h.updCore
theorem State.Keeps.doLoads {k : Nat} {c : Core} {xs : List Slot} : ∀ {t}, s.Keeps still t → s.Keeps still (t.doLoads k c xs).1 := by
  induction xs with
  | nil => exact fun h => h
  | cons x xs ih =>
    intro t h
    unfold State.doLoads
    split
    · exact h
    · split
      · exact h.doLoad.out
      · split
        · exact (ih h.doLoad.out).out
        · exact (ih h.doLoad.out).out
theorem State.Keeps.runBundle {k now : Nat} {act : List Slot} (h : s.Keeps still t) : s.Keeps still (t.runBundle k now act) := by
  unfold State.runBundle
  extract_lets +onlyGivenNames c slot loads ws
  split
  · exact h.doLoads.out.faultProgram
  next u lw hload =>
    have hu : s.Keeps still u := h.doLoads.out
    clear hload
    extract_lets +onlyGivenNames st p
    clear_value st
    have hp : s.Keeps still p.1 := by
      unfold p
      split
      · split
        · exact hu.doStore
        · exact hu
      · exact hu
    clear_value p
    split
    · exact State.Keeps.faultProgram hp
    · extract_lets +onlyGivenNames ws₂ u₁ br u₂ c₂ bound u₃
      have h₁ : s.Keeps still u₁ := State.Keeps.event (State.Keeps.bump64 hp)
      have h₂ : s.Keeps still u₂ := h₁.updCore
      have h₃ : s.Keeps still u₃ := by
        unfold u₃
        split
        · refine .ite h₂.updCore.coreIssue (.ite ?_ h₂)
          split
          · exact h₂.askStop
          · exact h₂
        · exact h₂
      clear_value u₃
      split
      · exact .ite h₃.endProgram h₃
      · exact h₃
theorem State.Keeps.checkBundle {k : Nat} (h : s.Keeps still t) : s.Keeps still (t.checkBundle k).1 := by
  unfold State.checkBundle
  dsimp only
  split
  · exact h
  · split
    · exact h
    · split <;> exact h.lmRead.out
theorem State.Keeps.coreTimer {k : Nat} (h : s.Keeps still t) : s.Keeps still (t.coreTimer k) := h.updCore
theorem State.Keeps.issue {k : Nat} (h : s.Keeps still t) : s.Keeps still (t.issue k) := by
  unfold State.issue
  split
  · exact h
  · dsimp only
    split
    · exact h.coreTimer.checkBundle
    · exact h.coreTimer.checkBundle.updCore
    · exact h.coreTimer.checkBundle.faultProgram
    · exact h.coreTimer.checkBundle.trap
    · split
      · exact h.coreTimer.checkBundle
      · split
        · exact h.coreTimer.checkBundle.updCore
        · exact h.coreTimer.checkBundle.runBundle
theorem State.Keeps.execInterruptTake {k : Nat} (h : s.Keeps still t) : s.Answers still (execInterruptTake k t) := by
  unfold Machine.execInterruptTake
  dsimp only
  split
  · exact .next h
  · split
    · exact .next h.coreTimer.checkBundle.out.trap
    · exact .next h.coreTimer.takeIrq
theorem State.Keeps.execBundleIssue {k : Nat} (h : s.Keeps still t) : s.Answers still (execBundleIssue k t) :=
  .ite (.next h) (.next h.issue)
theorem State.Keeps.execEngWaitReturn {k : Nat} (h : s.Keeps still t) : s.Answers still (execEngWaitReturn k t) :=
  .ite (.next h.issue) (.next h)
theorem State.Keeps.execWaitIWake {k : Nat} (h : s.Keeps still t) : s.Answers still (execWaitIWake k t) := .ite (.next h.issue) (.next h)
theorem State.Keeps.performStore {k : Nat} (h : s.Keeps still t) : s.Keeps still (t.performStore k) := by
  unfold State.performStore
  dsimp only
  split
  · exact h
  · split
    · exact h
    · split
      · exact h.updCore.access.out.faultProgram.openGates.haltStep
      · refine .haltStep ?_
        refine .openGates ?_
        split
        · exact h.updCore.access.out.updCore
        · exact h.updCore.access.out
theorem State.Keeps.storeClash {rs : List MemReq} (h : s.Keeps still t) : s.Keeps still (t.storeClash rs) := by
  unfold State.storeClash
  refine .foldl (fun h => ?_) h
  split
  · exact .ite h.bump.event h
  · exact h
theorem State.Keeps.performStores {n : Nat} : ∀ {t}, s.Keeps still t → s.Keeps still (State.performStores n t) := by
  induction n with
  | zero => exact fun h => h
  | succ n ih => exact fun h => .ite h (ih (.foldl (fun h => h.performStore) (State.Keeps.storeClash h)))
theorem State.Keeps.execStoreVisible {k : Nat} (h : s.Keeps still t) : s.Answers still (execStoreVisible k t) := .ite (.next h) (.next h)
theorem State.Keeps.transferEnd {k status : Nat} (h : s.Keeps still t) : s.Keeps still (t.transferEnd k status) := by
  unfold State.transferEnd
  split
  · exact h
  · exact .haltStep (.tagEnd (.updCore (.ite h.backlogLess h)))
theorem State.Keeps.execTransferStart {k : Nat} (h : s.Keeps still t) : s.Answers still (execTransferStart k t) := by
  unfold Machine.execTransferStart
  dsimp only
  split
  · exact .next h
  · exact .ite (.next h) (.ite (.next h.transferEnd) (.next (.updCore (.ite h.addBacklog h))))
theorem State.Keeps.execTransferEnd {k : Nat} (h : s.Keeps still t) : s.Answers still (execTransferEnd k t) := by
  unfold Machine.execTransferEnd
  dsimp only
  split
  · exact .next h
  · split
    · exact .next h
    · split
      · exact .next h
      · split
        · exact .next h.noteRead.transferEnd
        · exact .next h.noteRead.writeSpace.transferEnd
theorem State.Keeps.execProgramLoadDone {k : Nat} (h : s.Keeps still t) : s.Answers still (execProgramLoadDone k t) := by
  unfold Machine.execProgramLoadDone
  dsimp only
  split
  · exact .next h
  · split
    · exact .next h
    · split
      · split
        · exact .next (.releaseCore (.finishJob (.foldl (fun h => h.noteRead) h.backlogLess.noteRead)))
        · exact .next (.updCore (.lmFresh (.foldl (fun h => h.noteRead) h.backlogLess.noteRead)))
      · exact .next (.releaseCore (.finishJob (.foldl (fun h => h.noteRead) h.backlogLess.noteRead)))
theorem State.Keeps.execCoreSpargeDone {k : Nat} (h : s.Keeps still t) : s.Answers still (execCoreSpargeDone k t) :=
  .ite (.next h) (.next h.spargeLm.updCore.event)

/-! Governor. -/

theorem State.Keeps.avsRequest {raise : Bool} {code : Nat} (h : s.Keeps still t) : s.Keeps still (t.avsRequest raise code) := h.wr.askIbi
theorem State.Keeps.startGap {code : Nat} (h : s.Keeps still t) : s.Keeps still (t.startGap code) := by
  unfold State.startGap
  dsimp only
  exact h.wf.wf.same
theorem State.Keeps.slowTo {code : Nat} (h : s.Keeps still t) : s.Keeps still (t.slowTo code) := h.startGap
theorem State.Keeps.fastTo {code : Nat} (h : s.Keeps still t) : s.Keeps still (t.fastTo code) := by
  unfold State.fastTo
  dsimp only
  exact h.wf.wf.avsRequest.same
theorem State.Keeps.withdrawRaise (h : s.Keeps still t) : s.Keeps still t.withdrawRaise := by
  unfold State.withdrawRaise
  split
  · exact h
  · exact h.same.wf.wf.avsRequest
theorem State.Keeps.setTarget {target : Nat} (h : s.Keeps still t) : s.Keeps still (t.setTarget target) :=
  .ite h (.ite h.withdrawRaise (.ite h.withdrawRaise (.ite h.withdrawRaise.slowTo h.withdrawRaise.fastTo)))
theorem State.Keeps.execGovernorTick (h : s.Keeps still t) : s.Answers still (execGovernorTick t) := by
  unfold Machine.execGovernorTick
  split
  · exact .next h
  · exact .next (.ite (.setTarget (.ite h.wr h.wr.bump)) (.ite h.wr h.wr.bump))
theorem State.Keeps.execCclkGapEnd (h : s.Keeps still t) : s.Answers still (execCclkGapEnd t) := by
  unfold Machine.execCclkGapEnd
  split
  · exact .next h
  · split
    · exact .next h
    · dsimp only
      split
      · exact .next (.ite (.avsRequest (.ite h.wf.wf.same h.wf.wf.same.bump.event)) (.ite h.wf.wf.same h.wf.wf.same.bump.event))
      · exact .next (.setTarget (.same (.ite (.avsRequest (.ite h.wf.wf.same h.wf.wf.same.bump.event)) (.ite h.wf.wf.same
          h.wf.wf.same.bump.event))))
theorem State.Keeps.ackStep (h : s.Keeps still t) : s.Keeps still t.ackStep := by
  unfold State.ackStep
  split
  · exact h
  · dsimp only
    split
    · split
      · exact h.same.wf
      · exact h.same.wf.wf.same.startGap
    · exact .ite h.same.wf h.same
theorem State.Keeps.effectAvsAck {p : Path} {v : Word} (h : s.Keeps still t) : s.Answers still (effectAvsAck p v t) := by
  unfold Machine.effectAvsAck
  split
  · exact .next h
  · exact .next h.wr
theorem State.Keeps.execAvsTimeout (h : s.Keeps still t) : s.Answers still (execAvsTimeout t) := by
  unfold Machine.execAvsTimeout
  split
  · exact .next h
  · exact .ite (.next h) (.next h.withdrawRaise.bump.raiseErr)
theorem State.Keeps.enterTherm {t' : Therm} (h : s.Keeps still t) : s.Keeps still (t.enterTherm t') := by
  unfold State.enterTherm
  dsimp only
  exact .ite (.ite h.same.wf.wf.same h.same.wf.wf) (.ite (.slowTo (.withdrawRaise (.ite h.same.wf.wf.withdrawRaise h.same.wf.wf))) (.ite
      h.same.wf.wf.withdrawRaise h.same.wf.wf))
theorem State.Keeps.thermShutdown {sensor : Nat} (h : s.Keeps still t) : s.Keeps still (t.thermShutdown sensor) := by
  unfold State.thermShutdown
  dsimp only
  exact h.raiseErr.same.avsRequest
theorem State.Keeps.platformEvent {sensor st : Nat} {v : Int} (h : s.Keeps still t) : s.Keeps still (t.platformEvent sensor st v) := by
  unfold State.platformEvent
  dsimp only
  split
  · exact h
  · split
    · exact h
    · exact .ite h h
theorem State.Keeps.thermOne {readings : List (Option Int)} {p : State × List Int} {i : Nat} (h : s.Keeps still p.1) :
    s.Keeps still (State.thermOne readings p i).1 := .ite (State.Keeps.raiseErr h) h
theorem State.Keeps.execThermalSample {readings : List (Option Int)} (h : s.Keeps still t) : s.Answers still (execThermalSample readings t) := by
  unfold Machine.execThermalSample
  refine .ite (.next h) ?_
  extract_lets +onlyGivenNames _ res ts tj hot _ _ t₁ t₂ was t₃
  have hres : s.Keeps still res.1 := .foldl_fst (fun h => h.thermOne) h.same
  have h₁ : s.Keeps still t₁ := hres.same
  have h₃ : s.Keeps still t₃ := h₁.wr.enterTherm.platformEvent
  exact .next (.ite h₃.thermShutdown h₃)
theorem State.Keeps.snapCounters (h : s.Keeps still t) : s.Keeps still t.snapCounters := .wr (.foldl (fun h => h.wr64) h)
theorem State.Keeps.syncOutStep (h : s.Keeps still t) : s.Keeps still t.syncOutStep := .ite h h
theorem State.Keeps.boundary {b : Nat} (h : s.Keeps still t) : s.Keeps still (t.boundary b) := by
  unfold State.boundary
  dsimp only
  exact .event (.ite (.snapCounters (.guardRoll (.wr64 (.syncOutStep (.same (.foldl (fun h => h.wr) h.wr64.wr64.wr64)))))) (.guardRoll
      (.wr64 (.syncOutStep (.same (.foldl (fun h => h.wr) h.wr64.wr64.wr64))))))
theorem State.Keeps.execEpochBoundary (h : s.Keeps still t) : s.Answers still (execEpochBoundary t) :=
  .ite (.ite (.next h) (.next h.boundary)) (.ite (.next h) (.next h))
theorem State.Keeps.missStep (h : s.Keeps still t) : s.Keeps still t.missStep := by
  unfold State.missStep
  exact .ite h (.ite h.same h.same.wf.event.boundary)
theorem State.Keeps.syncIgnored (h : s.Keeps still t) : s.Keeps still t.syncIgnored := h.wf.event
theorem State.Keeps.execSyncPulse {src : Nat} (h : s.Keeps still t) : s.Answers still (execSyncPulse src t) :=
  .ite (.next h) (.ite (.next h.wf.wr.event.boundary) (.next h.syncIgnored))
theorem State.Keeps.execShortSyncPulse {src : Nat} (h : s.Keeps still t) : s.Answers still (execShortSyncPulse src t) :=
  .ite (.next h) (.next h.syncIgnored)
theorem State.Keeps.execSyncOutPulseEnd (h : s.Keeps still t) : s.Answers still (execSyncOutPulseEnd t) := by
  unfold Machine.execSyncOutPulseEnd
  split
  · exact .next h
  · exact .ite (.next h) (.next h)
theorem State.Keeps.govReason {r : Nat} (h : s.Keeps still t) : s.Keeps still (t.govReason r) := h.wr
theorem State.Keeps.timeLoad {v : Nat} {busy : Bool} (h : s.Keeps false t) : s.Keeps false (t.timeLoad v busy) :=
  .ite h (.ite h.govReason h.moved.wr64.wr64)
theorem State.Keeps.budgetWrite {v : Nat} (h : s.Keeps still t) : s.Keeps still (t.budgetWrite v) := h.wr
theorem State.Keeps.epochLenWrite {v : Nat} (h : s.Keeps still t) : s.Keeps still (t.epochLenWrite v) := by
  unfold State.epochLenWrite
  split
  · exact h.govReason
  · dsimp only
    split
    · exact h.wr
    · exact h.wr.same.wr64
theorem State.Keeps.clkCtrlWrite {v : Nat} (h : s.Keeps still t) : s.Keeps still (t.clkCtrlWrite v) := .ite h.govReason h.wr

/-! Spdm. -/

theorem State.Keeps.execMctpControl {e : Endpoint} {cmd : Nat} {data : List Byte} (h : s.Keeps still t) : s.Answers still (execMctpControl e
    cmd data t) := by
  unfold Machine.execMctpControl
  split
  · exact .next h
  · dsimp only
    split
    · exact .next h.same.reply
    · exact .next h.reply
    · exact .next h.reply
    · exact .next h.reply
    · exact .next h.reply
theorem State.Keeps.answerChallenge {t' : KeyTask} {toSign fresh : List Byte} (h : s.Keeps still t) : s.Keeps still (t.answerChallenge t'
    toSign fresh) := by
  unfold State.answerChallenge
  split
  · exact h.reply
  · exact h.sign.reply
theorem State.Keeps.answerMeasure {t' : KeyTask} {index : Nat} {sign : Bool} {toSign fresh : List Byte} (h : s.Keeps still t) : s.Keeps
    still (t.answerMeasure t' index sign toSign fresh) := by
  unfold State.answerMeasure
  dsimp only
  split
  · exact h.reply
  · split
    · exact h.reply
    · exact h.sign.reply
theorem State.Keeps.answerExchange {t' : KeyTask} {x y : Nat} {toSign fresh : List Byte} (h : s.Keeps still t) : s.Keeps still
    (t.answerExchange t' x y toSign fresh) := by
  unfold State.answerExchange
  split
  · exact h.reply
  · exact .ite h.reply (.ite h.reply h.sign.same.setSessions.reply)
theorem State.Keeps.endSession {id : Nat} (h : s.Keeps still t) : s.Keeps still (t.endSession id) := h.setSessions
theorem State.Keeps.ideUpdate (h : s.Keeps still t) : s.Keeps still t.ideUpdate := h.wf
theorem State.Keeps.ideGate {session : Option Nat} (h : s.Keeps still t) (hu : s.Keeps still u) : s.Keeps still (t.ideGate session u) := .ite hu h.reply
theorem State.Keeps.execIdeKmQuery {session : Option Nat} {stream : Nat} (h : s.Keeps still t) : s.Answers still (execIdeKmQuery session
    stream t) :=
  .ite (.next h) (.next (.ideGate h h.reply))
theorem State.Keeps.execIdeKmKeyProg {session : Option Nat} {stream set dir sub : Nat} {key : List Byte} (h : s.Keeps still t) : s.Answers
    still (execIdeKmKeyProg session stream set dir sub key t) :=
  .ite (.next h) (.next (.ideGate h (.reply (.ite h h))))
theorem State.Keeps.execIdeKmKSetGo {session : Option Nat} {stream set dir sub : Nat} (h : s.Keeps still t) : s.Answers still
    (execIdeKmKSetGo session stream set dir sub t) := by
  unfold Machine.execIdeKmKSetGo
  exact .ite (.next h) (.next (.ideGate h (.reply (.ite h.same.ideUpdate h))))
theorem State.Keeps.execIdeKmKSetStop {session : Option Nat} {stream set dir sub : Nat} (h : s.Keeps still t) : s.Answers still
    (execIdeKmKSetStop session stream set dir sub t) := by
  unfold Machine.execIdeKmKSetStop
  exact .ite (.next h) (.next (.ideGate h (.reply (.ite h.same.ideUpdate h))))
theorem State.Keeps.execCtExpiry {task : Nat} (h : s.Keeps still t) : s.Answers still (execCtExpiry task t) := by
  unfold Machine.execCtExpiry
  split
  · exact .next h
  · exact .ite (.next h) (.next h.same.reply)

/-! LinkBase. -/

theorem State.Keeps.setLink {l : Nat} {x : Link} (h : s.Keeps still t) : s.Keeps still (t.setLink l x) := h
theorem State.Keeps.updLink {l : Nat} {f : Link → Link} (h : s.Keeps still t) : s.Keeps still (t.updLink l f) := h.setLink
theorem State.Keeps.setLinkSt {l st : Nat} (h : s.Keeps still t) : s.Keeps still (t.setLinkSt l st) := h.wf
theorem State.Keeps.linkReason {l r : Nat} (h : s.Keeps still t) : s.Keeps still (t.linkReason l r) := h.wf
theorem State.Keeps.linkOutcome {l o : Nat} (h : s.Keeps still t) : s.Keeps still (t.linkOutcome l o) := h.wf
theorem State.Keeps.linkEvent {l mask : Nat} (h : s.Keeps still t) : s.Keeps still (t.linkEvent l mask) := h.wr.setInt
theorem State.Keeps.linkCount {l reg code n : Nat} (h : s.Keeps still t) : s.Keeps still (t.linkCount l reg code n) := h.bumpSat.event
theorem State.Keeps.linkUnits {l reg code n : Nat} (h : s.Keeps still t) : s.Keeps still (t.linkUnits l reg code n) := h.wr64.event
theorem State.Keeps.noteBuf {l : Nat} (h : s.Keeps still t) : s.Keeps still (t.noteBuf l) := h.wr
theorem State.Keeps.linkClear {l : Nat} (h : s.Keeps still t) : s.Keeps still (t.linkClear l) := by
  unfold State.linkClear
  dsimp only
  exact h.updLink.same.wr.wr.wr.noteBuf
theorem State.Keeps.linkDown {l st reason : Nat} (h : s.Keeps still t) : s.Keeps still (t.linkDown l st reason) := by
  unfold State.linkDown
  dsimp only
  exact .ite h.linkClear.setLinkSt.linkReason.updLink.same.linkEvent.linkLost h.linkClear.setLinkSt.linkReason.updLink.same
theorem State.Keeps.linkProtocol {l rule : Nat} (h : s.Keeps still t) : s.Keeps still (t.linkProtocol l rule) :=
  .ite h.raiseErr.linkDown h.raiseErr
theorem State.Keeps.linkSend {l kind flags seq : Nat} {pay : List Byte} (h : s.Keeps still t) : s.Keeps still (t.linkSend l kind flags seq
    pay) :=
  h.updLink.linkUnits
theorem State.Keeps.sendTrain {l : Nat} (h : s.Keeps still t) : s.Keeps still (t.sendTrain l) := h.linkSend
theorem State.Keeps.nextPart {l vc : Nat} {b : List Byte} {j : Option Nat} {upd : Bool} (h : s.Keeps still t)
    (e : t.nextPart l vc = some (b, j, upd, u)) : s.Keeps still u := by
  unfold State.nextPart at e
  split at e
  · split at e
    · cases e
    · cases e
      exact h.updLink
  · split at e
    · cases e
    · obtain ⟨_, _, hm⟩ := Option.map_eq_some_iff.1 e
      cases hm
      exact h
theorem State.Keeps.rotateTx {l : Nat} (h : s.Keeps still t) : s.Keeps still (t.rotateTx l) := h.updLink.bump.event.linkEvent
theorem State.Keeps.chargeUnits {job : Option Nat} {units : Nat} (h : s.Keeps still t) : s.Keeps still (t.chargeUnits job units) := by
  unfold State.chargeUnits
  split
  · exact h.chargeJob
  · exact h
theorem State.Keeps.sendNew {l vc : Nat} (h : s.Keeps still t) : s.Keeps still (t.sendNew l vc) := by
  unfold State.sendNew
  dsimp only
  split
  next hpart _ =>
    exact .ite h (.ite (.rotateTx (.noteBuf (.chargeUnits (.linkSend (.wf (h.nextPart hpart).updLink)))))
      (.noteBuf (.chargeUnits (.linkSend (.wf (h.nextPart hpart).updLink)))))
  · exact h
theorem State.Keeps.queueMsg {l code : Nat} {body : List Byte} (h : s.Keeps still t) : s.Keeps still (t.queueMsg l code body) := h.updLink
theorem State.Keeps.leaveStep {l : Nat} (h : s.Keeps still t) : s.Keeps still (t.leaveStep l) := .ite h.updLink.queueMsg h
theorem State.Keeps.resendOne {l : Nat} (h : s.Keeps still t) : s.Keeps still (t.resendOne l) := by
  unfold State.resendOne
  dsimp only
  split
  · exact h
  · split
    · exact h.updLink
    · exact h.updLink.linkSend.chargeUnits
theorem State.Keeps.execAckSend {link : Nat} (h : s.Keeps still t) : s.Answers still (execAckSend link t) :=
  .ite (.next h) (.next h.linkSend)
theorem State.Keeps.execCreditReturn {link : Nat} (h : s.Keeps still t) : s.Answers still (execCreditReturn link t) :=
  .ite (.next h) (.next h.linkSend)
theorem State.Keeps.takeAck {l a : Nat} (h : s.Keeps still t) : s.Keeps still (t.takeAck l a) := by
  unfold State.takeAck
  dsimp only
  split
  · exact h
  · exact .ite h h.updLink.noteBuf
theorem State.Keeps.takeCredit {l vc n : Nat} (h : s.Keeps still t) : s.Keeps still (t.takeCredit l vc n) := .ite h.linkProtocol h.updLink
theorem State.Keeps.startReplay {l : Nat} (h : s.Keeps still t) : s.Keeps still (t.startReplay l) :=
  .ite h (.ite h.linkCount.updLink.raiseErr.linkDown h.linkCount.updLink)
theorem State.Keeps.execReplayTimeout {link : Nat} (h : s.Keeps still t) : s.Answers still (execReplayTimeout link t) := by
  unfold Machine.execReplayTimeout
  split
  · exact .next h
  · split
    · exact .next h
    · exact .ite (.next h) (.next h.startReplay)
theorem State.Keeps.rotate {l : Nat} (h : s.Keeps still t) : s.Keeps still (t.rotate l) := .ite h h.updLink.queueMsg
theorem State.Keeps.execKeyRotate {link : Nat} (h : s.Keeps still t) : s.Answers still (execKeyRotate link t) :=
  .ite (.next h) (.next h.rotate)
theorem State.Keeps.linkCode {l c : Nat} (h : s.Keeps still t) : s.Keeps still (t.linkCode l c) := h.wf
theorem State.Keeps.effectLinkCmdLeave {x0 : Path} {link : Nat} {v : Word} (h : s.Keeps still t) : s.Answers still (effectLinkCmdLeave x0
    link v t) :=
  .ite (.next h) (.ite (.next h.linkCode) (.next h.linkCode.setLinkSt.updLink.leaveStep))
theorem State.Keeps.effectLinkCmdRotate {x0 : Path} {link : Nat} {v : Word} (h : s.Keeps still t) : s.Answers still (effectLinkCmdRotate x0
    link v t) :=
  .ite (.next h) (.ite (.next h.linkCode) (.next h.linkCode.rotate))
theorem State.Keeps.effectLinkCmdReenable {p : Path} {link : Nat} {v : Word} (h : s.Keeps still t) : s.Answers still (effectLinkCmdReenable
    p link v t) :=
  .ite (.next h) (.ite (.next h.linkCode) (.ite (.next h.linkCode) (.next h.linkCode.setLinkSt.wf)))
theorem State.Keeps.effectLinkCmdBadOp {x0 : Path} {link : Nat} {v : Word} (h : s.Keeps still t) : s.Answers still (effectLinkCmdBadOp x0
    link v t) :=
  .ite (.next h) (.next h.linkCode)
theorem State.Keeps.execLeaveTimeout {link : Nat} (h : s.Keeps still t) : s.Answers still (execLeaveTimeout link t) := by
  unfold Machine.execLeaveTimeout
  split
  · exact .next h
  · split
    · exact .next h
    · exact .ite (.next h) (.next h.linkDown.wf)
theorem State.Keeps.linkTry {l : Nat} (h : s.Keeps still t) : s.Keeps still (t.linkTry l) :=
  .ite (.updLink (.setLinkSt (.ite h.setLinkSt h))) (.ite h.setLinkSt h)
theorem State.Keeps.effectLinkEnable {x0 : Path} {link : Nat} {v : Word} (h : s.Keeps still t) : s.Answers still (effectLinkEnable x0 link v
    t) :=
  .ite (.next h) (.next h.wf.linkTry)
theorem State.Keeps.effectLinkDisable {x0 : Path} {link : Nat} {v : Word} (h : s.Keeps still t) : s.Answers still (effectLinkDisable x0 link
    v t) :=
  .ite (.next h) (.next (.ite h.wf.linkDown.linkEvent h.wf.linkDown))
theorem State.Keeps.execSignalDetect {link : Nat} (h : s.Keeps still t) : s.Answers still (execSignalDetect link t) :=
  .ite (.next h) (.ite (.next h.linkTry) (.next h.linkTry.updLink))
theorem State.Keeps.execTrainingPhaseDone {link : Nat} (h : s.Keeps still t) : s.Answers still (execTrainingPhaseDone link t) :=
  .ite (.next h) (.ite (.next h.updLink) (.ite (.next h.updLink.sendTrain) (.next h)))
theorem State.Keeps.trainFail {l : Nat} (h : s.Keeps still t) : s.Keeps still (t.trainFail l) := h.linkDown.updLink
theorem State.Keeps.execTrainingTimeout {link : Nat} (h : s.Keeps still t) : s.Answers still (execTrainingTimeout link t) := by
  unfold Machine.execTrainingTimeout
  split
  · exact .next h
  · split
    · exact .next h
    · exact .ite (.next h) (.next h.trainFail)
theorem State.Keeps.execTrainingRetry {link : Nat} (h : s.Keeps still t) : s.Answers still (execTrainingRetry link t) := by
  unfold Machine.execTrainingRetry
  split
  · exact .next h
  · split
    · exact .next h
    · exact .ite (.next h) (.next h.updLink.linkTry)
theorem State.Keeps.execLinkSignalLoss {link lanes : Nat} (h : s.Keeps still t) : s.Answers still (execLinkSignalLoss link lanes t) :=
  .ite (.next h) (.next h.raiseErr.linkDown)
theorem State.Keeps.execLinkRefclkLoss {lanes : Nat} (h : s.Keeps still t) : s.Answers still (execLinkRefclkLoss lanes t) :=
  .next (.foldl (fun h => .ite h.raiseErr.linkDown h) h)
theorem State.Keeps.execUncorrectableCodeword {link : Nat} (h : s.Keeps still t) : s.Answers still (execUncorrectableCodeword link t) :=
  .ite (.next h) (.next h.linkCount.raiseErr)

/-! LinkAuth. -/

theorem State.Keeps.linkDiscover {l : Nat} {adv : List Nat} (h : s.Keeps still t) : s.Keeps still (t.linkDiscover l adv) := by
  unfold State.linkDiscover
  dsimp only
  exact .ite h.linkClear.updLink.setLinkSt.linkReason h.linkClear.updLink.setLinkSt
theorem State.Keeps.sendHello {l : Nat} {fresh : List Byte} (h : s.Keeps still t) : s.Keeps still (t.sendHello l fresh) :=
  .ite h.updLink.setLinkSt.queueMsg.addTask h.updLink.setLinkSt.queueMsg
theorem State.Keeps.sendResponse {l : Nat} {fresh : List Byte} (h : s.Keeps still t) : s.Keeps still (t.sendResponse l fresh) := by
  unfold State.sendResponse
  dsimp only
  split
  · exact .ite h.sign.queueMsg h
  · exact h
theorem State.Keeps.contendedWait {l : Nat} {fresh : List Byte} (h : s.Keeps still t) : s.Keeps still (t.contendedWait l fresh) := h.updLink
theorem State.Keeps.keyWork {t' : KeyTask} {fresh : List Byte} (h : s.Keeps still t) : s.Keeps still (t.keyWork t' fresh) := by
  unfold State.keyWork
  split
  · exact h.setNonce
  · split
    · exact h.bankBegin
    · exact h
  · exact h.answerChallenge
  · exact h.answerMeasure
  · exact h.answerExchange
  · exact h.sendHello
  · exact h.sendResponse
  · exact h.contendedWait
theorem State.Keeps.keyServe {n : Nat} : ∀ {t}, s.Keeps still t → s.Keeps still (State.keyServe n t) := by
  induction n with
  | zero => exact fun h => h
  | succ n ih =>
    intro t h
    unfold State.keyServe
    split
    · split
      · split
        · split
          · exact h.draw.out.programSeed
          · exact h.draw.out
        · exact h
      · exact h
    · split
      · exact ih (.keyWork (.same h.draw.out))
      · exact h.draw.out
theorem State.Keeps.ask {e : Endpoint} {session : Option Nat} {w : KeyWork} (h : s.Keeps still t) : s.Keeps still (t.ask e session w) :=
  h.addTask.keyServe
theorem State.Keeps.execGetMeasurements {e : Endpoint} {session : Option Nat} {index : Nat} {sign : Bool} {toSign : List Byte} (h : s.Keeps
    still t) : s.Answers still (execGetMeasurements e session index sign toSign t) :=
  .ite (.next h) (.ite (.next h.reply) (.ite (.next h.reply) (.ite (.next h.reply) (.next h.ask))))
theorem State.Keeps.execKeyExchange {e : Endpoint} {x y : Nat} {toSign : List Byte} (h : s.Keeps still t) : s.Answers still (execKeyExchange
    e x y toSign t) :=
  .ite (.next h) (.ite (.next h.reply) (.ite (.next h.reply) (.ite (.next h.reply) (.ite (.next h.reply) (.next h.ask)))))
theorem State.Keeps.execSpdmRequest {e : Endpoint} {session : Option Nat} {r : SpdmReq} (h : s.Keeps still t) : s.Answers still
    (execSpdmRequest e session r t) := by
  unfold Machine.execSpdmRequest
  split
  · exact .next h
  · dsimp only
    split
    · exact .next h.reply
    · split
      · exact .next h.reply
      · exact .next h.reply
      · exact .next h.reply
      · exact .next h.reply
      · exact .ite (.next h.reply) (.next h.reply)
      · exact .ite (.next h.reply) (.ite (.next h.reply) (.next h.ask))
      · split
        · exact .next h.reply
        · exact .ite (.next h.reply) (.ite (.next h.setSessions.reply) (.next h.endSession.reply))
      · exact .next h.reply
      · exact .next h.reply
      · split
        · exact .next h.reply
        · exact .next h.endSession.reply
      · exact .next h.tenantArrive
      · exact .next h.reply
theorem State.Keeps.execHandshakeStart {link : Nat} (h : s.Keeps still t) : s.Answers still (execHandshakeStart link t) :=
  .ite (.next h) (.ite (.next h.linkReason) (.next h.ask))
theorem State.Keeps.linkFail {l outcome : Nat} (h : s.Keeps still t) : s.Keeps still (t.linkFail l outcome) :=
  .ite (.ite h.linkOutcome.setLinkSt.updLink.linkCount.wf.linkEvent.raiseErr.linkDown.linkEvent
    h.linkOutcome.setLinkSt.updLink.linkCount.wf.linkEvent.raiseErr.ask) (.updLink (.ite h.linkOutcome.setLinkSt.updLink.wf.bumpSat
    h.linkOutcome.setLinkSt.updLink.wf))
theorem State.Keeps.linkActive {l : Nat} (h : s.Keeps still t) : s.Keeps still (t.linkActive l) := by
  unfold State.linkActive
  dsimp only
  split
  · exact h
  · exact h.updLink.linkOutcome.setLinkSt.linkReason.wr64.wr.wf.bumpSat.linkEvent
theorem State.Keeps.confirmStep {l : Nat} (h : s.Keeps still t) : s.Keeps still (t.confirmStep l) := by
  unfold State.confirmStep
  dsimp only
  split
  · exact .ite h (.ite h.linkActive h.linkFail)
  · exact h
theorem State.Keeps.execPacketTransmit {link vc : Nat} (h : s.Keeps still t) : s.Answers still (execPacketTransmit link vc t) :=
  .ite (.next h) (.ite (.next h.resendOne) (.ite (.next h.sendNew.leaveStep.confirmStep) (.next h)))
theorem State.Keeps.windowClose {l : Nat} (h : s.Keeps still t) : s.Keeps still (t.windowClose l) := by
  unfold State.windowClose
  dsimp only
  split
  · exact .ite h (.ite h.updLink.queueMsg.linkOutcome.updLink.confirmStep h.updLink.queueMsg.linkFail)
  · exact h
theorem State.Keeps.execChallengeWindowClose {link : Nat} (h : s.Keeps still t) : s.Answers still (execChallengeWindowClose link t) := by
  unfold Machine.execChallengeWindowClose
  split
  · exact .next h
  · split
    · exact .next (.ite h h.updLink)
    · exact .next h
theorem State.Keeps.linkCycle {l : Nat} (h : s.Keeps still t) : s.Keeps still (t.linkCycle l) := h.windowClose.updLink
theorem State.Keeps.execConfirmTimeout {link : Nat} (h : s.Keeps still t) : s.Answers still (execConfirmTimeout link t) := by
  unfold Machine.execConfirmTimeout
  split
  · exact .next h
  · split
    · exact .next h
    · exact .ite (.next h) (.next h.linkFail)
theorem State.Keeps.execBackoffEnd {link : Nat} (h : s.Keeps still t) : s.Answers still (execBackoffEnd link t) := by
  unfold Machine.execBackoffEnd
  split
  · exact .next h
  · split
    · exact .next h
    · exact .ite (.next h) (.ite (.next h.setLinkSt.updLink.linkReason) (.next h.setLinkSt.updLink.ask))

/-! LinkRx. -/

theorem State.Keeps.rxPacket {l : Nat} {p : List Byte} {corr : Nat} (h : s.Keeps still t) : s.Keeps still (t.rxPacket l p corr).1 :=
  .ite_fst h.linkUnits.bumpSat (.ite h.linkUnits.bumpSat.linkCount.raiseErr.linkProtocol h.linkUnits.bumpSat.linkCount.raiseErr)
theorem State.Keeps.rxHeader {l : Nat} {p : List Byte} (h : s.Keeps still t) : s.Keeps still (t.rxHeader l p) :=
  .ite (.takeCredit (.ite h.takeAck h)) (.ite h.takeAck h)
theorem State.Keeps.onHello {l : Nat} {b : List Byte} (h : s.Keeps still t) : s.Keeps still (t.onHello l b) :=
  .ite h.linkDown (.ite h.linkProtocol (.ite h (.ite h.updLink.ask h.updLink)))
theorem State.Keeps.onResponse {l : Nat} {b : List Byte} (h : s.Keeps still t) : s.Keeps still (t.onResponse l b) := by
  unfold State.onResponse
  split
  · exact h.linkProtocol
  · split
    · exact .ite h.updLink h
    · exact h
theorem State.Keeps.onConfirm {l : Nat} {b : List Byte} (h : s.Keeps still t) : s.Keeps still (t.onConfirm l b) :=
  .ite h.linkProtocol (.ite h.updLink.confirmStep h)
theorem State.Keeps.onKeyUpd {l : Nat} {b : List Byte} (h : s.Keeps still t) : s.Keeps still (t.onKeyUpd l b) :=
  .ite h.linkProtocol h.wr.updLink
theorem State.Keeps.leaveEnd {l : Nat} (h : s.Keeps still t) : s.Keeps still (t.leaveEnd l) := h.linkDown.wf
theorem State.Keeps.onLeave {l : Nat} (h : s.Keeps still t) : s.Keeps still (t.onLeave l) :=
  .ite h.leaveEnd (.ite h.updLink.queueMsg.sendNew.linkDown h.linkProtocol)
theorem State.Keeps.onLeaveAck {l : Nat} (h : s.Keeps still t) : s.Keeps still (t.onLeaveAck l) :=
  .ite (.ite h.leaveEnd h) (.ite h h.linkProtocol)
theorem State.Keeps.onMessage {l code : Nat} {b : List Byte} (h : s.Keeps still t) : s.Keeps still (t.onMessage l code b) := by
  unfold State.onMessage
  split
  · exact h.onHello
  · exact h.onResponse
  · exact h.onConfirm
  · exact h.onKeyUpd
  · exact h.onLeave
  · exact h.onLeaveAck
  · exact h.linkProtocol
theorem State.Keeps.rxPart {l units : Nat} {plain : List Byte} (h : s.Keeps still t) : s.Keeps still (t.rxPart l units plain).1 := by
  unfold State.rxPart
  dsimp only
  split
  · exact h.updLink.linkProtocol
  · exact .ite_fst h.updLink.linkProtocol (.ite_fst h.updLink.linkProtocol (.ite_fst h.updLink.updLink h.updLink.updLink.onMessage))
theorem State.Keeps.rxRun {l vc units : Nat} {plain : List Byte} (h : s.Keeps still t) : s.Keeps still (t.rxRun l vc units plain) := by
  unfold State.rxRun
  dsimp only
  split
  · exact h.same.dropMsg
  · split
    · exact h.same
    · split
      · exact h.same.dropMsg
      · exact h.same
theorem State.Keeps.linkAuthFail {l : Nat} (h : s.Keeps still t) : s.Keeps still (t.linkAuthFail l) := h.raiseErr.bumpSat.linkDown
theorem State.Keeps.deliver {l : Nat} {p : List Byte} (h : s.Keeps still t) : s.Keeps still (t.deliver l p).1 := by
  unfold State.deliver
  dsimp only
  split
  · split
    · exact h.linkDown
    · split
      · exact h.linkAuthFail
      · split
        · exact h.linkAuthFail
        · exact .ite_fst (.ite_fst h.updLink.updLink h.updLink.rxPart) h.updLink.rxRun
  · exact .ite_fst h.linkProtocol (.ite_fst h.rxPart (.ite_fst h.updLink h.same))
theorem State.Keeps.rxData {l : Nat} {p : List Byte} {corr : Nat} (h : s.Keeps still t) : s.Keeps still (t.rxData l p corr).1 :=
  .ite_fst h.rxPacket (.ite_fst h.rxPacket.linkProtocol (.ite_fst h.rxPacket.rxHeader (.ite_fst (.deliver (.ite
    h.rxPacket.rxHeader.wf.updLink.linkSend h.rxPacket.rxHeader.wf.updLink)) (.ite_fst (.ite_fst h.rxPacket.rxHeader.linkCount
    h.rxPacket.rxHeader.linkCount.updLink.linkSend) h.rxPacket.rxHeader.linkCount.linkSend))))
theorem State.Keeps.execDataMsg {link : Nat} {a : Arrival} {corr : Nat} (h : s.Keeps still t) : s.Answers still (execDataMsg link a corr t)
    :=
  .ite (.next h) (.next h.rxData)
theorem State.Keeps.rxMessage {code link : Nat} {a : Arrival} {corr : Nat} (h : s.Keeps still t) : s.Answers still (t.rxMessage code link a
    corr) :=
  .ite (.next h) (.ite (.next h.rxData) (.next h))
theorem State.Keeps.execHello {link : Nat} {a : Arrival} {corr : Nat} (h : s.Keeps still t) : s.Answers still (execHello link a corr t) :=
  h.rxMessage
theorem State.Keeps.execResponse {link : Nat} {a : Arrival} {corr : Nat} (h : s.Keeps still t) : s.Answers still (execResponse link a corr
    t) :=
  h.rxMessage
theorem State.Keeps.execConfirm {link : Nat} {a : Arrival} {corr : Nat} (h : s.Keeps still t) : s.Answers still (execConfirm link a corr t)
    :=
  h.rxMessage
theorem State.Keeps.execKeyUpd {link : Nat} {a : Arrival} {corr : Nat} (h : s.Keeps still t) : s.Answers still (execKeyUpd link a corr t) :=
  h.rxMessage
theorem State.Keeps.execLeave {link : Nat} {a : Arrival} {corr : Nat} (h : s.Keeps still t) : s.Answers still (execLeave link a corr t) :=
  h.rxMessage
theorem State.Keeps.execLeaveAck {link : Nat} {a : Arrival} {corr : Nat} (h : s.Keeps still t) : s.Answers still (execLeaveAck link a corr
    t) :=
  h.rxMessage
theorem State.Keeps.execAck {link : Nat} {a : Arrival} {corr : Nat} (h : s.Keeps still t) : s.Answers still (execAck link a corr t) :=
  .ite (.next h) (.ite (.next h.rxPacket) (.next h.rxPacket.rxHeader))
theorem State.Keeps.execNak {link : Nat} {a : Arrival} {corr : Nat} (h : s.Keeps still t) : s.Answers still (execNak link a corr t) :=
  .ite (.next h) (.ite (.next h.rxPacket) (.next (.ite h.rxPacket.rxHeader.startReplay h.rxPacket.rxHeader)))
theorem State.Keeps.execTrain {link : Nat} {a : Arrival} {corr : Nat} (h : s.Keeps still t) : s.Answers still (execTrain link a corr t) :=
  .ite (.next h) (.ite (.next h.rxPacket) (.ite (.next h.rxPacket.updLink) (.ite (.next h.rxPacket.trainFail) (.ite (.next
    h.rxPacket.updLink.sendTrain.linkDiscover) (.next h.rxPacket.updLink.sendTrain)))))

/-! Fabric. -/

theorem State.Keeps.setPacket {q : Packet} (h : s.Keeps still t) : s.Keeps still (t.setPacket q) := h
theorem State.Keeps.dropPacket {i : Nat} (h : s.Keeps still t) : s.Keeps still (t.dropPacket i) := h
theorem State.Keeps.rtrCount {router port item n : Nat} (h : s.Keeps still t) : s.Keeps still (t.rtrCount router port item n) := h
theorem State.Keeps.takePort {q : Packet} {r p at_ : Nat} (h : s.Keeps still t) : s.Keeps still (t.takePort q r p at_) := h
theorem State.Keeps.packetJobEnds {job : Option Nat} (h : s.Keeps still t) : s.Keeps still (t.packetJobEnds job) := by
  unfold State.packetJobEnds
  split
  · exact h
  · split
    · exact h.same.finishRun
    · exact h.failJob
theorem State.Keeps.containDrop {q : Packet} {kind router port : Nat} (h : s.Keeps still t) : s.Keeps still (t.containDrop q kind router
    port) :=
  h.dropPacket.rtrCount.edgeDrop.packetJobEnds
theorem State.Keeps.noteEscape {q : Packet} {router port : Nat} (h : s.Keeps still t) : s.Keeps still (t.noteEscape q router port) :=
  .ite h.rtrCount h.rtrCount.bump64.event
theorem State.Keeps.sendHop {q : Packet} {r p at_ : Nat} {escape : Bool} (h : s.Keeps still t) : s.Keeps still (t.sendHop q r p at_ escape)
    := by
  unfold State.sendHop
  dsimp only
  refine .setPacket ?_
  split
  · exact .ite (.bump (.ite h.takePort.rtrCount.event.noteEscape h.takePort.rtrCount.event)) (.ite h.takePort.rtrCount.event.noteEscape
      h.takePort.rtrCount.event)
  · exact .ite h.takePort.rtrCount.event.noteEscape h.takePort.rtrCount.event
theorem State.Keeps.hopWait {q : Packet} {r p : Nat} (h : s.Keeps still t) : s.Keeps still (t.hopWait q r p) := h.rtrCount.event
theorem State.Keeps.meshStep {q : Packet} (h : s.Keeps still t) : s.Keeps still (t.meshStep q) := by
  unfold State.meshStep
  dsimp only
  split
  · exact h
  · split
    · exact h.dropPacket.rtrCount
    · split
      · split
        · exact h.containDrop
        · split
          · exact h
          · exact h.takePort.dropPacket.rtrCount
      · split
        · exact h.hopWait
        · split
          · exact h.containDrop
          · split
            · exact h
            · exact h.sendHop
theorem State.Keeps.enterStep {q : Packet} (h : s.Keeps still t) : s.Keeps still (t.enterStep q) :=
  .ite h (.ite (.ite (.setPacket (.ite h.noteEscape h)) h.hopWait) (.ite (.ite (.setPacket (.ite h.noteEscape h)) h.hopWait)
    h.bump64.event.setPacket))
theorem State.Keeps.ringStep {q : Packet} (h : s.Keeps still t) : s.Keeps still (t.ringStep q) := .ite h (.ite h.dropPacket h.setPacket)
theorem State.Keeps.offer {o : PacketOffer} (h : s.Keeps still t) : s.Keeps still (t.offer o).1 := h
theorem State.Keeps.execPacketHop {offer : Option PacketOffer} {packet : Nat} (h : s.Keeps still t) : s.Answers still (execPacketHop offer
    packet t) := by
  unfold Machine.execPacketHop
  dsimp only
  split
  · refine .next ?_
    split
    · exact h
    · exact .ite_fst h h.offer
  · split
    · refine .next ?_
      split
      · exact h
      · exact .ite_fst h h.offer
    · split
      · refine .next ?_
        refine .enterStep ?_
        split
        · exact h
        · exact .ite_fst h h.offer
      · split
        · refine .next ?_
          refine .ringStep ?_
          split
          · exact h
          · exact .ite_fst h h.offer
        · refine .next ?_
          refine .meshStep ?_
          split
          · exact h
          · exact .ite_fst h h.offer
theorem State.Keeps.arriveItem {item : Option McItem} {t' : Nat} (h : s.Keeps still t) : s.Keeps still (t.arriveItem item t') := by
  unfold State.arriveItem
  dsimp only
  split
  · exact h
  · exact h.updRun
  · exact h.updRun
theorem State.Keeps.mcRest {q : Packet} {served : Nat} (h : s.Keeps still t) : s.Keeps still (t.mcRest q served) :=
  .ite h.dropPacket h.setPacket
theorem State.Keeps.mcStep {q : Packet} {p : Nat} (h : s.Keeps still t) : s.Keeps still (t.mcStep q p) := by
  unfold State.mcStep
  dsimp only
  split
  · exact h
  · split
    · exact h.mcRest.rtrCount
    · split
      · exact h.mcRest.rtrCount.edgeDrop.packetJobEnds
      · split
        · exact h.mcRest.rtrCount.edgeDrop.packetJobEnds
        · split
          · exact h.hopWait
          · split
            · exact h
            · exact .ite h.takePort.mcRest.rtrCount.arriveItem h.takePort.mcRest.rtrCount.event.same
theorem State.Keeps.mcEnter {q : Packet} (h : s.Keeps still t) : s.Keeps still (t.mcEnter q) := by
  unfold State.mcEnter
  split
  · exact h.containDrop
  · split
    · exact h
    · split
      · exact h.hopWait
      · dsimp only
        refine .setPacket ?_
        split
        · exact .ite h.bump64.event.bump h.bump64.event
        · exact h.bump64.event
theorem State.Keeps.execMulticastCopy {offer : Option PacketOffer} {packet port : Nat} (h : s.Keeps still t) : s.Answers still
    (execMulticastCopy offer packet port t) := by
  unfold Machine.execMulticastCopy
  dsimp only
  split
  · refine .next ?_
    split
    · exact h
    · exact .ite_fst h h.offer
  · split
    · refine .next ?_
      split
      · exact h
      · exact .ite_fst h h.offer
    · split
      · refine .next ?_
        refine .mcEnter ?_
        split
        · exact h
        · exact .ite_fst h h.offer
      · refine .next ?_
        refine .mcStep ?_
        split
        · exact h
        · exact .ite_fst h h.offer
theorem State.Keeps.execPacketStuckTimeout {packet : Nat} (h : s.Keeps still t) : s.Answers still (execPacketStuckTimeout packet t) := by
  unfold Machine.execPacketStuckTimeout
  split
  · exact .next h
  · exact .ite (.next h) (.next h.dropPacket.raiseErr.packetJobEnds)
theorem State.Keeps.setRgn {r : Nat} {n : RegionRec} (h : s.Keeps still t) : s.Keeps still (t.setRgn r n) := h
theorem State.Keeps.reconfigure {r : Nat} {n : RegionRec} (h : s.Keeps still t) : s.Keeps still (t.reconfigure r n) :=
  .wf (.foldl (fun h => .ite h.updQueue h) (.dropPlans (.dropImages (.foldl (fun h => .ite h h.updTun.wakeTun) (.foldl (fun h => .ite h
    h.updTun) h.setRgn.wr.wf)))))
theorem State.Keeps.rgnResult {r code : Nat} (h : s.Keeps still t) : s.Keeps still (t.rgnResult r code) := h.wr
theorem State.Keeps.rgnApply {r : Nat} (h : s.Keeps still t) : s.Keeps still (t.rgnApply r) :=
  .ite h.rgnResult (.ite h.setRgn.rgnResult (.ite h.rgnResult (.ite h.rgnResult h.reconfigure.rgnResult)))
theorem State.Keeps.rgnRevert {r : Nat} (h : s.Keeps still t) : s.Keeps still (t.rgnRevert r) := h.setReg.setReg.setReg.setReg.rgnResult
theorem State.Keeps.rgnCommand {v : Word} (h : s.Keeps still t) : s.Keeps still (t.rgnCommand v) := by
  unfold State.rgnCommand
  dsimp only
  split
  · exact h.rgnApply
  · exact h.rgnRevert
  · exact h.rgnResult
theorem State.Keeps.rgnStep (h : s.Keeps still t) : s.Keeps still t.rgnStep := .foldl (fun h => h.rgnCommand) h
theorem State.Keeps.rgnArrive {v : Word} (h : s.Keeps still t) : s.Keeps still (t.rgnArrive v) := h
theorem State.Keeps.effectRgnApply {x0 : Path} {v : Word} (h : s.Keeps still t) : s.Answers still (effectRgnApply x0 v t) :=
  .ite (.next h) (.next h.rgnArrive)
theorem State.Keeps.effectRgnRevert {x0 : Path} {v : Word} (h : s.Keeps still t) : s.Answers still (effectRgnRevert x0 v t) :=
  .ite (.next h) (.next h.rgnArrive)
theorem State.Keeps.effectRgnBadOp {x0 : Path} {v : Word} (h : s.Keeps still t) : s.Answers still (effectRgnBadOp x0 v t) :=
  .ite (.next h) (.next h.rgnArrive)

/-! Memory. -/

theorem State.Keeps.portalDrop {stop : Nat} {r : MemReq} (h : s.Keeps still t) : s.Keeps still (t.portalDrop stop r) := by
  unfold State.portalDrop
  dsimp only
  exact h.same.edgeDrop.packetJobEnds
theorem State.Keeps.serve {s0 : State} {space : Nat} {r : MemReq} (h : s.Keeps still t) : s.Keeps still (t.serve s0 space r) := by
  unfold State.serve
  dsimp only
  split
  · exact h.access.same.failJob
  · exact h.access.same
theorem State.Keeps.execCommonsAccess {bank : Nat} {reqs : List MemReq} (h : s.Keeps still t) : s.Answers still (execCommonsAccess bank reqs
    t) := by
  unfold Machine.execCommonsAccess
  split
  · exact .next h
  · dsimp only
    split
    · exact .ite (.next (.event (.bump (.foldl (fun h => h.serve) (.foldl (fun h => h.serve) (.foldl (fun h => h.portalDrop) h)))))) (.next
        (.foldl (fun h => h.serve) (.foldl (fun h => h.serve) (.foldl (fun h => h.portalDrop) h))))
    · exact .next (.foldl (fun h => h.serve) (.foldl (fun h => h.serve) (.foldl (fun h => h.portalDrop) h)))
theorem State.Keeps.execHbmAccess {port : Nat} {reqs : List MemReq} (h : s.Keeps still t) : s.Answers still (execHbmAccess port reqs t) := by
  unfold Machine.execHbmAccess
  exact .ite (.next h) (.next (.foldl (fun h => h.same.bump64.event.serve) (.same (.foldl (fun h => h.portalDrop) h.same))))
theorem State.Keeps.execEccWriteBack (h : s.Keeps still t) : s.Answers still (execEccWriteBack t) := by
  unfold Machine.execEccWriteBack
  split
  · exact .next h
  · exact .next (.ite h.same.setMark h.same)
theorem State.Keeps.execPatrolScrubRead {stack upset : Nat} (h : s.Keeps still t) : s.Answers still (execPatrolScrubRead stack upset t) := by
  unfold Machine.execPatrolScrubRead
  exact .ite (.next h) (.next (.noteWord (.ite h.same h.same.setMark)))
theorem State.Keeps.execHbmOccupancyWindow (h : s.Keeps still t) : s.Answers still (execHbmOccupancyWindow t) := by
  unfold Machine.execHbmOccupancyWindow
  dsimp only
  exact .ite (.next h.same.wr.bump.event) (.next h.same.wr)
theorem State.Keeps.execHbmCatastrophicTemp {stack : Nat} (h : s.Keeps still t) : s.Answers still (execHbmCatastrophicTemp stack t) :=
  .ite (.next h) (.next h.raiseErr)
theorem State.Keeps.noSpare {kind inst : Nat} (h : s.Keeps still t) : s.Keeps still (t.noSpare kind inst) := by
  unfold State.noSpare
  split
  · exact h.updTun.raiseErr
  · exact h.updCore.raiseErr
  · exact h.raiseErr
  · exact h.wf.raiseErr
theorem State.Keeps.repairRow {kind inst row : Nat} (h : s.Keeps still t) : s.Keeps still (t.repairRow kind inst row).1 :=
  .ite_fst h.noSpare h
theorem State.Keeps.repairs {kind inst : Nat} {fails : List (Nat × Nat)} (h : s.Keeps still t) : s.Keeps still (t.repairs kind inst fails).1 := by
  unfold State.repairs
  refine State.Keeps.foldl_fst (fun {p f} hp => ?_) h
  extract_lets +onlyGivenNames row
  split
  · exact hp
  · extract_lets +onlyGivenNames u t₁ t₂
    have h₁ : s.Keeps still t₁ := .ite (State.Keeps.wr hp) hp
    have h₂ : s.Keeps still t₂ := h₁.wf.event
    exact h₂.repairRow
theorem State.Keeps.scrub {kind inst start count : Nat} {rows : List Nat} (h : s.Keeps still t) : s.Keeps still (t.scrub kind inst start
    count rows) := by
  unfold State.scrub
  dsimp only
  refine .foldl (fun h => ?_) h
  split
  · exact .ite h.lmCorrect.setMark (.ite h.setMark.raiseErr.updCore h)
  · exact .ite h.noteWord.setMark (.ite h.noteWord.setMark.putBytes h)
  · exact h
theorem State.Keeps.marchState {st : Nat} (h : s.Keeps still t) : s.Keeps still (t.marchState st) := h.wf
theorem State.Keeps.marchCode {c : Nat} (h : s.Keeps still t) : s.Keeps still (t.marchCode c) := h.wf
theorem State.Keeps.marchBegin {destructive : Bool} {kind inst start count : Nat} (h : s.Keeps still t) : s.Keeps still (t.marchBegin
    destructive kind inst start count) :=
  h.wr.wr.wr
theorem State.Keeps.marchZero {kind inst start count : Nat} (h : s.Keeps still t) : s.Keeps still (t.marchZero kind inst start count) := by
  unfold State.marchZero
  dsimp only
  split
  · exact h
  · exact h
  · exact State.Keeps.commons (t := { t with mem := _ }) h (Tab.wf_keep _ _)
  · exact State.Keeps.dropImages h
  · exact State.Keeps.dropPlans h
  · exact State.Keeps.dropPlans h
  · exact h
theorem State.Keeps.marchDestructive {a : MemAsk} (h : s.Keeps still t) : s.Keeps still (t.marchDestructive a) :=
  .ite h.marchCode h.marchBegin.marchZero.repairs
theorem State.Keeps.marchPreserving {a : MemAsk} (h : s.Keeps still t) : s.Keeps still (t.marchPreserving a) :=
  .ite h.marchCode h.marchBegin
theorem State.Keeps.marchSpoil {m : March} (h : s.Keeps still t) : s.Keeps still (t.marchSpoil m) := by
  unfold State.marchSpoil
  dsimp only
  split
  · exact .same h.updCore
  · exact .same (.foldl (fun h => h.putBytes) h)
  · exact .same h
theorem State.Keeps.marchAbort (h : s.Keeps still t) : s.Keeps still t.marchAbort := by
  unfold State.marchAbort
  split
  · exact h.marchCode
  · split
    · exact h.marchCode
    · exact .marchCode (.marchState (.ite h.same.marchSpoil h.same))
theorem State.Keeps.askMarch {op : Nat} {fails : List (Nat × Nat)} (h : s.Keeps still t) : s.Keeps still (t.askMarch op fails) := h
theorem State.Keeps.effectMarchDestructive {x0 : Path} {v : Word} {fails : List (Nat × Nat)} (h : s.Keeps still t) : s.Answers still
    (effectMarchDestructive x0 v fails t) :=
  .ite (.next h) (.next h.askMarch)
theorem State.Keeps.effectMarchPreserving {x0 : Path} {v : Word} (h : s.Keeps still t) : s.Answers still (effectMarchPreserving x0 v t) :=
  .ite (.next h) (.next h.askMarch)
theorem State.Keeps.effectMarchAbort {x0 : Path} {v : Word} (h : s.Keeps still t) : s.Answers still (effectMarchAbort x0 v t) :=
  .ite (.next h) (.next h.askMarch)
theorem State.Keeps.effectMarchBadOp {x0 : Path} {v : Word} (h : s.Keeps still t) : s.Answers still (effectMarchBadOp x0 v t) :=
  .ite (.next h) (.next h.askMarch)
theorem State.Keeps.marchCover {m : March} {n : Nat} {fails : List (Nat × Nat)} (h : s.Keeps still t) : s.Keeps still (t.marchCover m n
    fails) :=
  h.scrub.repairs.wr
theorem State.Keeps.marchEnd {m : March} {failed : Bool} (h : s.Keeps still t) : s.Keeps still (t.marchEnd m failed) :=
  h.marchState.marchCode
theorem State.Keeps.execMarchSlice {run tun : Nat} {fails : List (Nat × Nat)} (h : s.Keeps still t) : s.Answers still (execMarchSlice run
    tun fails t) := by
  unfold Machine.execMarchSlice
  split
  · exact .ite (.next h) (.next (.updRun (.event (.foldl (fun h => h.wr) h.marchCover))))
  · exact .next h
theorem State.Keeps.execMarchResume (h : s.Keeps still t) : s.Answers still (execMarchResume t) := by
  unfold Machine.execMarchResume
  split
  · exact .next h
  · exact .next h.marchState
theorem State.Keeps.marchSync (h : s.Keeps still t) : s.Keeps still t.marchSync := by
  unfold State.marchSync
  exact .foldl (fun h => .ite h.same.marchState (.ite h.marchState h)) h
theorem State.Keeps.execMarchDone {fails : List (Nat × Nat)} (h : s.Keeps still t) : s.Answers still (execMarchDone fails t) := by
  unfold Machine.execMarchDone
  split
  · exact .next h
  · exact .ite (.next h.wr.marchEnd) (.next h.marchCover.marchEnd)
theorem State.Keeps.spargeStatus {st code : Nat} (h : s.Keeps still t) : s.Keeps still (t.spargeStatus st code) := h.wr
theorem State.Keeps.spargeGo {a : MemAsk} (h : s.Keeps still t) : s.Keeps still (t.spargeGo a) :=
  .ite h.wf (.ite h.wf (.ite (.ite h.wf (State.Keeps.spargeStatus h)) (.ite h.wf (.ite h.wf (State.Keeps.spargeStatus
    (State.Keeps.foldl (fun h => h.setMark) (.ite (h.commons (Tab.wf_keep _ _)) (h.hbm (Tab.wf_keep _ _)))))))))
theorem State.Keeps.effectSpargeCommand {x0 : Path} {v : Word} (h : s.Keeps still t) : s.Answers still (effectSpargeCommand x0 v t) :=
  .ite (.next h) (.next h)
theorem State.Keeps.memCommand {a : MemAsk} (h : s.Keeps still t) : s.Keeps still (t.memCommand a) := by
  unfold State.memCommand
  split
  · exact h.spargeGo
  · exact h.marchDestructive
  · exact h.marchPreserving
  · exact h.marchAbort
  · exact h.marchCode
theorem State.Keeps.memStep (h : s.Keeps still t) : s.Keeps still t.memStep := .foldl (fun h => h.memCommand) h
theorem State.Keeps.execSpargeDone (h : s.Keeps still t) : s.Answers still (execSpargeDone t) := by
  unfold Machine.execSpargeDone
  split
  · exact .next h
  · split
    · exact .next h
    · dsimp only
      refine .next ?_
      refine .event ?_
      refine .spargeStatus ?_
      split
      · exact .same h.updTun
      · exact .same h

/-! Errors. -/

theorem State.Keeps.failPage {page : Nat} (h : s.Keeps still t) : s.Keeps still (t.failPage page) := h.wf
theorem State.Keeps.faultSolver {status : Nat} {valid : Bool} (h : s.Keeps still t) : s.Keeps still (t.faultSolver status valid) := by
  unfold State.faultSolver
  split
  · exact h.stopSolver
  · exact h
theorem State.Keeps.faultPred {status : Nat} {valid : Bool} (h : s.Keeps still t) : s.Keeps still (t.faultPred status valid) := by
  unfold State.faultPred
  split
  · exact h.stopPred
  · exact h
theorem State.Keeps.faultPlan {status : Nat} {valid : Bool} (h : s.Keeps still t) : s.Keeps still (t.faultPlan status valid) := by
  unfold State.faultPlan
  split
  · exact h.stopPlan
  · exact h
theorem State.Keeps.cutStores {k entry : Nat} (h : s.Keeps still t) : s.Keeps still (t.cutStores k entry) := h.updCore
theorem State.Keeps.clearGuard {q : Nat} (h : s.Keeps still t) : s.Keeps still (t.clearGuard q) := h.updQueue.wr.wf
theorem State.Keeps.hostInternal {q : Nat} (h : s.Keeps still t) : s.Keeps still (t.hostInternal q) := by
  unfold State.hostInternal
  dsimp only
  split
  · exact h.updQueue.refuseJob
  · exact h.updQueue
theorem State.Keeps.meterParity {which : Nat} {region : Option Nat} (h : s.Keeps still t) : s.Keeps still (t.meterParity which region) := by
  unfold State.meterParity
  split
  · split
    · exact h.updJob
    · exact h
  · split <;> exact h
  · exact h
theorem State.Keeps.flitLost {place : Nat} (h : s.Keeps still t) : s.Keeps still (t.flitLost place) := by
  unfold State.flitLost
  split
  · exact h.dropPacket.packetJobEnds
  · exact h
theorem State.Keeps.unlock (h : s.Keeps still t) : s.Keeps still t.unlock := h
theorem State.Keeps.calFallback (h : s.Keeps still t) : s.Keeps still t.calFallback := h.wf.wr
theorem State.Keeps.cipherFault (h : s.Keeps still t) : s.Keeps still t.cipherFault := by
  unfold State.cipherFault
  split
  · exact h
  · exact h.writeSpace.ciphEnd
theorem State.Keeps.linkLeaves {l reason : Nat} (h : s.Keeps still t) : s.Keeps still (t.linkLeaves l reason) := .ite h.linkDown h
theorem State.Keeps.tunLost {i : Nat} (h : s.Keeps still t) : s.Keeps still (t.tunLost i) := by
  unfold State.tunLost
  exact h.same.tunFault
theorem State.Keeps.hostOperand {q : Nat} (h : s.Keeps still t) : s.Keeps still (t.hostOperand q) := by
  unfold State.hostOperand
  split
  · exact h.failJob
  · exact h
theorem State.Keeps.ownResponse {page i code : Nat} (h : s.Keeps still t) : s.Keeps still (t.ownResponse page i code) := by
  unfold State.ownResponse
  split
  · exact h.tunFault.updTun
  · exact h.tunLost
  · exact h.tunLost
  · exact h.tunFault.updTun
  · exact h.updTun
  · exact h.bump
  · exact h.bump
  · exact h.failPage
  · exact h.same.faultSolver
  · exact h.failPage
  · exact h.faultSolver
  · exact h.faultPred
  · exact h.faultPred
  · exact h.faultPred
  · exact h.faultPred
  · exact h.failPage
  · exact h.faultPlan
  · exact h.faultPlan
  · exact h.faultPlan
  · exact h.failPage
  · exact h.bump
  · exact h.faultProgram
  · exact h.faultProgram
  · exact h.updCore
  · exact h.same
  · exact h.unlock
  · exact h.bump
  · exact h.wf.failJobs.same
  · exact h.bump.event
  · exact h.wf
  · exact h.same
  · exact h.wf
  · exact h.same
  · exact h.same.wf
  · exact h.failPage
  · exact h.linkLeaves
  · exact h.linkLeaves
  · exact h.linkLeaves
  · exact h.linkLeaves
  · exact h.linkLeaves
  · exact h.calFallback
  · exact h.avsRequest.same
  · exact h.cipherFault
  · exact h
theorem State.Keeps.infoResponse {page i code info : Nat} {region : Option Nat} (h : s.Keeps still t) : s.Keeps still (t.infoResponse page i
    code info region) := by
  unfold State.infoResponse
  split
  · exact h.flitLost
  · exact h
  · split
    · exact h.dropImages
    · exact h
  · split
    · exact h.setPlanResident
    · exact h
  · split
    · exact h.setPlanResident
    · exact h
  · exact h.cutStores
  · exact h.clearGuard
  · exact h.failJob
  · exact h.meterParity
  · exact h.updQueue
  · exact h.hostOperand
  · exact h.hostInternal
  · exact .ite h h.updChan
  · exact .ite h h.updChan
  · exact .ite h.setReg h
theorem State.Keeps.raiseAny {page code : Nat} {info region : Option Nat} (h : s.Keeps still t) : s.Keeps still (t.raiseAny page code info
    region) :=
  h
theorem State.Keeps.detect {page code : Nat} {info region : Option Nat} (h : s.Keeps still t) : s.Keeps still (t.detect page code info
    region) := by
  unfold State.detect
  split
  · exact h
  · split
    · exact h
    · dsimp only
      refine .ownResponse ?_
      split
      · exact h.raiseAny.infoResponse
      · exact .ite h.raiseAny.meterParity h.raiseAny
theorem State.Keeps.endWork (h : s.Keeps still t) : s.Keeps still t.endWork := by
  unfold State.endWork
  dsimp only
  exact .sweepGrists (.plPos (.prPos (.same (.foldl (fun h => .ite h.releaseCore h) (.foldl (fun h => .ite h.dropLoad h) h)))))
theorem State.Keeps.uartSend {b : Nat} (h : s.Keeps still t) : s.Keeps still (t.uartSend b) := h
theorem State.Keeps.setPhase {ph : Nat} (h : s.Keeps still t) : s.Keeps still (t.setPhase ph) := .ite h h.wf.uartSend
theorem State.Keeps.bootHalt {hold : Nat} (h : s.Keeps still t) : s.Keeps still (t.bootHalt hold) := by
  unfold State.bootHalt
  dsimp only
  exact h.same.wf.setPhase.uartSend
theorem State.Keeps.goFatal {code : Nat} (h : s.Keeps still t) : s.Keeps still (t.goFatal code) := by
  unfold State.goFatal
  dsimp only
  exact .ite (.ite (.bootHalt (.ite h.same h)) (.ite h.same h)) (.foldl (fun h => h.linkLeaves) (.foldl (fun h => h.refuseJob) (.endWork
      (.same (.wf (.wf (.ite (.bootHalt (.ite h.same h)) (.ite h.same h))))))))
theorem State.Keeps.pageRecord {e : RaisedError} (h : s.Keeps still t) : s.Keeps still (t.pageRecord e) :=
  .ite h.wr.wr.wr.wr.wr.wf.setInt (.ite h.bumpSat.wr.wr h.bumpSat.wr.wr.wr.wr.setInt)
theorem State.Keeps.recordOne {e : RaisedError} (h : s.Keeps still t) : s.Keeps still (t.recordOne e) := by
  unfold State.recordOne
  extract_lets +onlyGivenNames masked lost t₁ t₂ _ t₃
  have h₁ : s.Keeps still t₁ := by
    unfold t₁
    split
    · exact .ite h.wr h
    · exact h
  have h₂ : s.Keeps still t₂ := .ite h₁ (.ite h₁.bumpSat h₁.pageRecord)
  have h₃ : s.Keeps still t₃ := h₂.same
  exact .ite h₃.goFatal h₃
theorem State.Keeps.recordAll (h : s.Keeps still t) : s.Keeps still t.recordAll := .foldl (fun h => h.recordOne) h
theorem State.Keeps.execErrorRecord {det : Option Detected} (h : s.Keeps still t) : s.Answers still (execErrorRecord det t) := by
  unfold Machine.execErrorRecord
  dsimp only
  refine .next ?_
  show s.Keeps still _
  split
  · exact h
  · exact h.detect
theorem State.Keeps.devFirst {r : PageRecord} (h : s.Keeps still t) : s.Keeps still (t.devFirst r) := .ite h h.wr.wr.wr64
theorem State.Keeps.logError {r : PageRecord} (h : s.Keeps still t) : s.Keeps still (t.logError r) :=
  .ite h.wr64.wr.wr.wf.wf h.wr64.wr.wr.wf
theorem State.Keeps.aggregate {r : PageRecord} (h : s.Keeps still t) : s.Keeps still (t.aggregate r) :=
  .ite (.ite h h.bumpSat) (.ite (.bumpSat (.event (.ite h h.bumpSat))) (.ite (.ite (.logError (.devFirst (.event (.ite h h.bumpSat))))
    (.event (.ite h h.bumpSat))) (.ite (.logError (.devFirst (.event (.ite h h.bumpSat)))) (.event (.ite h h.bumpSat)))))
theorem State.Keeps.takeRecords (h : s.Keeps still t) : s.Keeps still t.takeRecords := .foldl (fun h => h.aggregate) h
theorem State.Keeps.execAggregatorRecord (h : s.Keeps still t) : s.Answers still (execAggregatorRecord t) := .next h
theorem State.Keeps.recordStep (h : s.Keeps still t) : s.Keeps still t.recordStep := by
  unfold State.recordStep
  dsimp only
  exact .ite (.takeRecords (.ite h.same.recordAll h.same)) (.ite h.same.recordAll h.same)
theorem State.Keeps.squallStep (h : s.Keeps still t) : s.Keeps still t.squallStep := by
  unfold State.squallStep
  split
  · exact .ite h.wf.event h
  · exact h
theorem State.Keeps.execSquallEndTest (h : s.Keeps still t) : s.Answers still (execSquallEndTest t) := by
  unfold Machine.execSquallEndTest
  split
  · exact .next h
  · exact .ite (.next h) (.ite (.next h.wf) (.next h))
theorem State.Keeps.effectErrFirstClear {x0 : Path} {page : Nat} (h : s.Keeps still t) : s.Answers still (effectErrFirstClear x0 page t) :=
  .ite (.next h) (.next (.wf (.foldl (fun h => h.wr) h)))
theorem State.Keeps.effectDevFirstClear {x0 : Path} (h : s.Keeps still t) : s.Answers still (effectDevFirstClear x0 t) :=
  .ite (.next h) (.next h.wr.wr.wr64)
theorem State.Keeps.effectFenceClear {x0 : Path} {v : Word} (h : s.Keeps still t) : s.Answers still (effectFenceClear x0 v t) := .next h.wr
theorem State.Keeps.injResult {page code : Nat} (h : s.Keeps still t) : s.Keeps still (t.injResult page code) := h.wr
theorem State.Keeps.effectInjectBadMode {x0 : Path} {page : Nat} {v : Word} (h : s.Keeps still t) : s.Answers still (effectInjectBadMode x0
    page v t) :=
  .ite (.next h) (.next h.injResult)
theorem State.Keeps.effectInjectSignal {x0 : Path} {page : Nat} {v : Word} (h : s.Keeps still t) : s.Answers still (effectInjectSignal x0
    page v t) := by
  unfold Machine.effectInjectSignal
  split
  · exact .next h
  · exact .ite (.next h) (.ite (.next h.injResult) (.ite (.next h.injResult) (.next h.injResult.detect)))
theorem State.Keeps.injectCorrupt {page v mode n : Nat} (h : s.Keeps still t) : s.Keeps still (t.injectCorrupt page v mode n) := by
  unfold State.injectCorrupt
  split
  · exact h
  · exact .ite h (.ite h.injResult h.injResult)
theorem State.Keeps.effectInjectCorrupt1 {x0 : Path} {page : Nat} {v : Word} (h : s.Keeps still t) : s.Answers still (effectInjectCorrupt1
    x0 page v t) :=
  .next h.injectCorrupt
theorem State.Keeps.effectInjectCorrupt2 {x0 : Path} {page : Nat} {v : Word} (h : s.Keeps still t) : s.Answers still (effectInjectCorrupt2
    x0 page v t) :=
  .next h.injectCorrupt
theorem State.Keeps.effectRetireCmd {p : Path} {v : Word} (h : s.Keeps still t) : s.Answers still (effectRetireCmd p v t) :=
  .ite (.next h.wf.wf) (.next h)
theorem State.Keeps.execRetireTimeoutExpiry (h : s.Keeps still t) : s.Answers still (execRetireTimeoutExpiry t) := by
  unfold Machine.execRetireTimeoutExpiry
  split
  · exact .next h
  · exact .ite (.next h) (.next h.wf.wf)

/-! Lull. -/

theorem State.Keeps.touchBusy (h : s.Keeps still t) : s.Keeps still t.touchBusy :=
  .foldl (fun h => .ite h h.setEngLull) (.foldl (fun h => h.updCore) (.foldl (fun h => h.updTun) h))
theorem State.Keeps.execLullEntry {r : LullRes} (h : s.Keeps still t) : s.Answers still (execLullEntry r t) := by
  unfold Machine.execLullEntry
  split
  · exact .next h
  · split
    · exact .ite (.next h.same.updTun) (.next h)
    · exact .ite (.next h.updCore) (.next h)
    · exact .ite (.next h.setEngLull) (.next h)
theorem State.Keeps.execLullOffEntry {tun : Nat} (h : s.Keeps still t) : s.Answers still (execLullOffEntry tun t) :=
  .ite (.next h.updTun) (.next h)
theorem State.Keeps.coresOff (h : s.Keeps still t) : s.Keeps still t.coresOff := .ite h (.foldl (fun h => .ite h.updCore h) h)
theorem State.Keeps.tunsOff (h : s.Keeps still t) : s.Keeps still t.tunsOff := .foldl (fun h => .ite h.updTun h) h
theorem State.Keeps.execWakeComplete {r : LullRes} (h : s.Keeps still t) : s.Answers still (execWakeComplete r t) := by
  unfold Machine.execWakeComplete
  dsimp only
  split
  · split
    · exact .next (.ite h.updTun.event h.updTun)
    · exact .next h
  · split
    · exact .next (.ite h.updCore.event h.updCore)
    · exact .next h
  · split
    · exact .next h
    · split
      · exact .next h.setEngLull
      · exact .next h
theorem State.Keeps.execRefclkLoss (h : s.Keeps still t) : s.Answers still (execRefclkLoss t) := by
  unfold Machine.execRefclkLoss
  exact .ite (.next h) (.ite (.next h.same.raiseErr.unlock) (.next h.same))
theorem State.Keeps.execRefclkReturn (h : s.Keeps still t) : s.Answers still (execRefclkReturn t) := .next h
theorem State.Keeps.effectTimeLoad {x0 : Path} {v : Word} (h : s.Keeps false t) : s.Answers false (effectTimeLoad x0 v t) :=
  .ite (.next h.timeLoad) (.next (.foldl (fun h => h.setEngLull) h.timeLoad))
theorem State.Keeps.effectBudgetWrite {x0 : Path} {region : Option Nat} {v : Word} (h : s.Keeps still t) : s.Answers still
    (effectBudgetWrite x0 region v t) := by
  unfold Machine.effectBudgetWrite
  split
  · exact .next h.budgetWrite
  · exact .ite (.next h) (.next h.wr)
theorem State.Keeps.effectEpochLenWrite {x0 : Path} {v : Word} (h : s.Keeps still t) : s.Answers still (effectEpochLenWrite x0 v t) :=
  .next h.epochLenWrite
theorem State.Keeps.effectClkCtrlWrite {x0 : Path} {v : Word} (h : s.Keeps still t) : s.Answers still (effectClkCtrlWrite x0 v t) :=
  .next h.clkCtrlWrite

/-! Pins. -/

theorem State.Keeps.effectGpioFuncWrite {x0 : Path} {v : Word} (h : s.Keeps still t) : s.Answers still (effectGpioFuncWrite x0 v t) := by
  unfold Machine.effectGpioFuncWrite
  dsimp only
  split <;> exact .next h.wr
theorem State.Keeps.tachRoll (h : s.Keeps still t) : s.Keeps still t.tachRoll := .ite h (.foldl (fun h => h.wr) h)
theorem State.Keeps.execTachRisingEdge {n : Nat} (h : s.Keeps still t) : s.Answers still (execTachRisingEdge n t) :=
  .ite (.next h) (.next h.tachRoll)
theorem State.Keeps.execTachWindow (h : s.Keeps still t) : s.Answers still (execTachWindow t) := .next h.tachRoll
theorem State.Keeps.gpioStep (h : s.Keeps still t) : s.Keeps still t.gpioStep := .ite h h
theorem State.Keeps.execUartRxByte {b : Byte} (h : s.Keeps still t) : s.Answers still (execUartRxByte b t) := .ite (.next h) (.next h.wr)
theorem State.Keeps.effectUartRxdataRead {p : Path} (h : s.Keeps false t) : s.Answers false (effectUartRxdataRead p t) :=
  .next h.wf.pathRead
theorem State.Keeps.flashReq {on : Bool} (h : s.Keeps still t) : s.Keeps still (t.flashReq on) := h.wf
theorem State.Keeps.execFlashGrant (h : s.Keeps still t) : s.Answers still (execFlashGrant t) := by
  unfold Machine.execFlashGrant
  dsimp only
  exact .next h.wf.same
theorem State.Keeps.execFlashGrantLoss (h : s.Keeps still t) : s.Answers still (execFlashGrantLoss t) := .next h.wf

/-! RegWrite. -/

theorem State.Keeps.effectCtrClear {x0 : Path} {page : Nat} {v : Word} (h : s.Keeps still t) : s.Answers still (effectCtrClear x0 page v t)
    :=
  .ite (.next h) (.next (.ite h.wf (.foldl (fun h => h.wr) h.wf)))
theorem State.Keeps.effectGbankSnap {x0 : Path} {v : Word} (h : s.Keeps still t) : s.Answers still (effectGbankSnap x0 v t) :=
  .ite (.next h.snapCounters) (.next h)
theorem State.Keeps.effectGbankClear {x0 : Path} {v : Word} (h : s.Keeps still t) : s.Answers still (effectGbankClear x0 v t) :=
  .ite (.next (.foldl (fun h => h.wr64) h.wr)) (.next h.wr)
theorem State.Keeps.lostWrite {p : Path} {a v : Nat} (h : s.Keeps still t) : s.Keeps still (t.lostWrite p a v) := h.wr.bumpSat.setInt.event
theorem State.Keeps.writeHeader {p : Path} {page o v : Nat} (h : s.Keeps still t) : s.KeepsAny still (t.writeHeader p page o v) := by
  have hmode := h.ran (h.effectInjectBadMode (x0 := p) (page := page) (v := BitVec.ofNat 32 v))
  have hsignal := hmode.ran (hmode.effectInjectSignal (x0 := p) (page := page) (v := BitVec.ofNat 32 v))
  have hone := hsignal.ran (hsignal.effectInjectCorrupt1 (x0 := p) (page := page) (v := BitVec.ofNat 32 v))
  unfold State.writeHeader
  exact .ite (.some (.ran h h.effectCtrClear)) (.ite (.some h.wr.pendCheck) (.ite (.some h.wr) (.ite (.some h.setInt) (.ite (.some (.ite
    (.ran h h.effectErrFirstClear) h)) (.ite (.some (.ran hone hone.effectInjectCorrupt2)) (.ite (.some (.ite h.wf.wf h)) .none))))))
theorem State.Keeps.writeGo {p : Path} {v : Nat} (h : s.Keeps still t) : s.Keeps still (t.writeGo p v) := by
  unfold State.writeGo
  dsimp only
  split
  · exact .ran h h.effectCancel
  · exact .ran h h.effectCancelQueue
  · exact .ran h h.effectReprio
  · exact .ran h h.effectDrain
  · exact .ran h h.effectUndrain
  · exact .ran h h.effectDispatchCmdBadOp
theorem State.Keeps.writeLink {p : Path} {l o v : Nat} (h : s.Keeps still t) : s.KeepsAny still (t.writeLink p l o v) := by
  have hon := h.ran (h.effectLinkEnable (x0 := p) (link := l) (v := BitVec.ofNat 32 v))
  have hleave := h.ran (h.effectLinkCmdLeave (x0 := p) (link := l) (v := BitVec.ofNat 32 v))
  unfold State.writeLink
  refine .ite (.some (.ran hon hon.effectLinkDisable)) (.ite ?_ (.ite (.some (.ite h.wr h)) .none))
  extract_lets +onlyGivenNames u
  change s.Keeps still u at hleave
  clear_value u
  split
  · exact .some hleave
  · exact .some (.ran hleave hleave.effectLinkCmdRotate)
  · exact .some (.ran hleave hleave.effectLinkCmdReenable)
  · exact .some (.ran hleave hleave.effectLinkCmdBadOp)
theorem State.Keeps.writeEnt {p : Path} {a v : Nat} (h : s.Keeps still t) : s.KeepsAny still (t.writeEnt p a v) :=
  .ite (.some (.ran h h.effectSourceRestart)) (.ite (.some (.ite (.ran h h.effectKatBadTarget) (.ite (.ran h h.effectKatConditioner) (.ran h
    h.effectKatChannel)))) (.ite (.some (.ran h h.effectTestPatternWrite)) (.ite (.some (.ran h h.effectTestPatternWrite)) .none)))
theorem State.Keeps.writeMem {p : Path} {a v : Nat} (h : s.Keeps still t) : s.KeepsAny still (t.writeMem p a v) := by
  unfold State.writeMem
  dsimp only
  split
  · split
    · exact .some (.ran h h.effectMarchDestructive)
    · exact .some (.ran h h.effectMarchPreserving)
    · exact .some (.ran h h.effectMarchAbort)
    · exact .some (.ran h h.effectMarchBadOp)
  · exact .ite (.some (.ran h h.effectSpargeCommand)) .none
theorem State.Keeps.writeGov {p : Path} {a v : Nat} (h : s.Keeps false t) : s.KeepsAny false (t.writeGov p a v) :=
  .ite (.some (.ran h h.effectClkCtrlWrite)) (.ite (.some (.ran h h.effectBudgetWrite)) (.ite (.some (.ran h h.effectEpochLenWrite)) (.ite
    (.some (.ran h h.effectTimeLoad)) (.ite (.some (.ran h h.effectBudgetWrite)) .none))))
theorem State.Keeps.writeCipher {p : Path} {v : Nat} (h : s.Keeps still t) : s.Keeps still (t.writeCipher p v) := by
  unfold State.writeCipher
  dsimp only
  split
  · exact .ran h h.effectSeal
  · exact .ran h h.effectUnseal
  · exact .ran h h.effectCipherBadOp
theorem State.Keeps.writeBlock {p : Path} {k : PageKind} {i a v : Nat} (h : s.Keeps false t) : s.KeepsAny false (t.writeBlock p k i a v) := by
  unfold State.writeBlock
  dsimp only
  split
  · exact h.writeHeader
  · split
    · exact .ite (.some (.ran h h.effectGbankClear)) (.ite (.some (.ran h h.effectGbankSnap)) .none)
    · exact .ite (.some (.ite (.ran h h.effectDevFirstClear) h)) (.ite (.some (.ran h h.effectFenceClear)) (.ite (.some (.ran h
        h.effectRetireCmd)) (.ite (.some h.wr) .none)))
    · exact .ite (.some (.ran h h.effectGpioFuncWrite)) (.ite (.some (.ran h h.effectAvsAck)) .none)
    · exact h.writeGov
    · exact .ite (.some h.writeGo) .none
    · split
      · split
        · exact .some (.ran h h.effectRgnApply)
        · exact .some (.ran h h.effectRgnRevert)
        · exact .some (.ran h h.effectRgnBadOp)
      · exact .none
    · exact h.writeMem
    · exact h.writeEnt
    · exact .ite (.some (.ite (.ran h h.effectLcTransition) (.ran h h.effectLcBadOp))) .none
    · exact .ite (.some h.writeCipher) .none
    · exact .ite (.some (.ite (.ran h h.effectResFlushAll) (.ran h h.effectResFlushRegion))) .none
    · exact .ite (.some (.ite (.ran h h.effectPlnFlushAll) (.ran h h.effectPlnFlushRegion))) .none
    · exact h.writeLink
    · split
      · exact .some (.ran h h.effectQOwnerWrite)
      · exact .some (.ran h h.effectContractWrite)
      · exact .some (.ran h h.effectContractWrite)
      · exact .none
    · exact .ite (.some (.ran h h.effectPhxGo)) .none
    · exact .none
theorem State.Keeps.applyWrite {ext : State → Path → Nat → Nat → Option State} {p : Path} {k : PageKind} {i a v : Nat} {r : RegRow}
    (h : s.Keeps false t) (he : ∀ {u p a v}, s.Keeps false u → s.KeepsAny false (ext u p a v)) : s.Keeps false (t.applyWrite ext p k i a v r) := by
  unfold State.applyWrite
  split
  · exact State.KeepsAny.out (.ite (he h) h.writeBlock)
  · exact h.wr
theorem State.Keeps.noteBad {p : Path} {reason a : Nat} (h : s.Keeps still t) : s.Keeps still (t.noteBad p reason a) := h.bumpSat.wr.event
theorem State.Keeps.updPath {p : Path} {f : PathState → PathState} (h : s.Keeps false t) : s.Keeps false (t.updPath p f) := by
  cases p <;> exact h.moved
theorem State.Keeps.arrive {p : Path} {a : Nat} {v : Word} (h : s.Keeps false t) : s.Keeps false (t.arrive p a v) := h.updPath
theorem State.Keeps.holdHi {p : Path} {a v : Nat} (h : s.Keeps false t) : s.Keeps false (t.holdHi p a v) := h.updPath
theorem State.Keeps.wordWrite {p : Path} {a v : Nat} (h : s.Keeps false t) : s.Keeps false (t.wordWrite p a v).1 :=
  .ite_fst h (.ite_fst h.holdHi (.ite_fst h.updPath h))
theorem State.Keeps.writeOne {ext : State → Path → Nat → Nat → Option State} {w : BusWrite} (h : s.Keeps false t)
    (he : ∀ {u p a v}, s.Keeps false u → s.KeepsAny false (ext u p a v)) : s.Keeps false (t.writeOne ext w) := by
  unfold State.writeOne
  split
  · refine .applyWrite ?_ he
    split
    · exact h.applyWrite he
    · exact h
  · exact h
theorem State.Keeps.writeAlone {ext : State → Path → Nat → Nat → Option State} {p : Path} {a v : Nat} (h : s.Keeps false t) (he : ∀ {u p a
    v}, s.Keeps false u → s.KeepsAny false (ext u p a v)) : s.Keeps false (t.writeAlone ext p a v) := by
  unfold State.writeAlone
  dsimp only
  split
  · exact h.wordWrite.writeOne he
  · exact h.wordWrite
theorem State.Keeps.writeBoth {ext : State → Path → Nat → Nat → Option State} {h' m : BusWrite} (h : s.Keeps false t) (he : ∀ {u p a v},
    s.Keeps false u → s.KeepsAny false (ext u p a v)) : s.Keeps false (t.writeBoth ext h' m) := by
  unfold State.writeBoth
  exact .ite (.lostWrite (h.writeOne he)) (.ite (.writeOne (h.writeOne he) he) (.writeOne (h.writeOne he) he))
theorem State.Keeps.noExt {p : Path} {a v : Nat} (_ : s.Keeps still t) : s.KeepsAny still (noExt t p a v) := .none

/-! Boot. -/

theorem State.Keeps.resetPages {p : Nat → Bool} (h : s.Keeps still t) : s.Keeps still (t.resetPages p) := h.regs (Tab.wf_keep _ _)
theorem State.Keeps.resetPage {page : Nat} (h : s.Keeps still t) : s.Keeps still (t.resetPage page) := h.resetPages
theorem State.Keeps.setReady {page : Nat} (h : s.Keeps still t) : s.Keeps still (t.setReady page) := .ite h h.wf
theorem State.Keeps.warmRegs (h : s.Keeps still t) : s.Keeps still t.warmRegs := h.regs (Tab.wf_keep _ _)
theorem State.Keeps.warmClock (h : s.Keeps still t) : s.Keeps still t.warmClock := by
  unfold State.warmClock
  dsimp only
  exact .ite h.withdrawRaise.same (.ite h.withdrawRaise h.withdrawRaise.slowTo.same)
theorem State.Keeps.coresStart (h : s.Keeps still t) : s.Keeps still t.coresStart := .foldl (fun h => h.spargeLm.updCore) h
theorem State.Keeps.toBlocks (h : s.Keeps still t) : s.Keeps still t.toBlocks :=
  .ite h.bootHalt (.ite h.bootHalt h.setPhase.entStart.coresStart)
theorem State.Keeps.warmState (h : s.Keeps still t) : s.Keeps still t.warmState := h
theorem State.Keeps.doWarm {cause : Nat} (h : s.Keeps still t) : s.Keeps still (t.doWarm cause) :=
  .ite h.endWork.warmRegs.warmState.warmClock.sealSteps.wr h.endWork.warmRegs.warmState.warmClock.sealSteps.wr.flashReq.wf.toBlocks
theorem State.Keeps.askWarm {cause : Nat} (h : s.Keeps still t) : s.Keeps still (t.askWarm cause) := .ite h (.ite h h.doWarm)
theorem State.Keeps.effectWarmReset {p : Path} {v : Word} (h : s.Keeps still t) : s.Answers still (effectWarmReset p v t) :=
  .ite (.next h.askWarm) (.next h)
theorem State.Keeps.execPcieReset {cause : Nat} (h : s.Keeps still t) : s.Answers still (execPcieReset cause t) := by
  unfold Machine.execPcieReset
  exact .ite (.next h) (.next h.same.wr.askWarm)
theorem State.Keeps.execColdReset {cause : Nat} (h : s.Keeps false t) : s.Answers false (execColdReset cause t) := by
  refine .ite (.next h) (.next (.wr (.wf (.wf ?_))))
  have hs : s.Keeps false t.lcCut.sealSteps := h.lcCut.sealSteps
  refine ⟨hs.1, fun hw => ?_, fun e => nomatch e⟩
  obtain ⟨_, hhost, hall, _, _⟩ := (State.wfTabs_iff _).1 (hs.2.1 hw)
  exact (State.wfTabs_iff _).2 ⟨rfl, hhost, hall, rfl, rfl⟩
theorem State.Keeps.execResetNRise {pos : Nat} {recovery : Bool} (h : s.Keeps still t) : s.Answers still (execResetNRise pos recovery t) := by
  unfold Machine.execResetNRise
  exact .ite (.next h) (.next h.same.wf.wr.setPhase)
theorem State.Keeps.selectImage (h : s.Keeps still t) : s.Keeps still t.selectImage.1 := by
  unfold State.selectImage
  dsimp only
  split
  · exact h.wr
  · exact h.wr.wr.wr.same
theorem State.Keeps.regInit {e : Nat × Nat} (h : s.Keeps false t) : s.Keeps false (t.regInit e) := by
  unfold State.regInit
  refine .ite h.bump ?_
  split
  · exact h.noteBad
  · exact h.writeAlone (fun _ => .none)
theorem State.Keeps.bootCal (h : s.Keeps still t) : s.Keeps still t.bootCal := by
  unfold State.bootCal
  exact .ite h.same.wf.wr h.same.wf.wr.raiseErr
theorem State.Keeps.startImage (h : s.Keeps still t) : s.Keeps still t.startImage :=
  .ite (.foldl (fun h => h.wf) h.setPhase) (.flashReq (.foldl (fun h => h.wf) h.setPhase))
theorem State.Keeps.imageMemory (h : s.Keeps still t) : s.Keeps still t.imageMemory := .ite h (.ite h.setPhase h.toBlocks)
theorem State.Keeps.imageEnd {sizeLog2 : Nat} {quad addr4 : Bool} (h : s.Keeps still t) : s.Keeps still (t.imageEnd sizeLog2 quad addr4) := by
  unfold State.imageEnd
  exact .ite h.wr.bootHalt (.ite h (.ite h.wr.wr.flashReq.bootHalt (.ite h.wr.selectImage.flashReq.same.imageMemory
      h.wr.selectImage.flashReq.bootHalt)))
theorem State.Keeps.memoryFail {f : Nat × Nat × Nat} (h : s.Keeps still t) : s.Keeps still (t.memoryFail f) :=
  .ite (.ite h.repairRow h) (.ite h.detect h)
theorem State.Keeps.memoryEnd {fails : List (Nat × Nat × Nat)} (h : s.Keeps still t) : s.Keeps still (t.memoryEnd fails) :=
  .imageMemory (.setReady (.foldl (fun h => .ite h h.wf.setReady) (.foldl (fun h => h.memoryFail) h)))
theorem State.Keeps.bootFails {fails : List (Nat × Nat × Nat)} (h : s.Keeps still t) : s.Keeps still (t.bootFails fails) :=
  .foldl (fun h => h.detect) h
theorem State.Keeps.blocksEnd {fails : List (Nat × Nat × Nat)} (h : s.Keeps still t) : s.Keeps still (t.blocksEnd fails) :=
  .flashReq (.setPhase (.keyIdentity (.foldl (fun h => h.setReady) (.foldl (fun h => h.updCore) h.bootFails))))
theorem State.Keeps.finishBoot (h : s.Keeps false t) : s.Keeps false t.finishBoot :=
  .coresOff (.tunsOff (.foldl (fun h => h.setEngLull) (.foldl (fun h => h.updCore) (.foldl (fun h => h.updTun) (.setPhase (.wr64 (.wf
    (.flashReq (.foldl (fun h => h.regInit) h.takeChain)))))))))
theorem State.Keeps.execBootPhaseEnd {phase sizeLog2 : Nat} {quad addr4 : Bool} {fails : List (Nat × Nat × Nat)} (h : s.Keeps false t) :
    s.Answers false (execBootPhaseEnd phase sizeLog2 quad addr4 fails t) := by
  unfold Machine.execBootPhaseEnd
  split
  · exact .ite (.next h) (.next h.moved.setPhase)
  · have hkey : s.Keeps false (((t.keyStart.bootFails fails).setReady pgKey).setReady pgCipher) := h.keyStart.bootFails.setReady.setReady
    exact .ite (.next h) (.next (.ite hkey.bootHalt (.ite hkey.bootHalt hkey.setPhase)))
  · exact .ite (.next h) (.next h.bootCal.startImage)
  · exact .ite (.next h.imageEnd) (.next h)
  · exact .ite (.next h.memoryEnd) (.next h)
  · exact .ite (.next h.blocksEnd) (.next h)
  · exact .ite (.next h.finishBoot) (.next h)
  · exact .next h
theorem State.Keeps.resetBlock {k : PageKind} {i : Nat} (h : s.Keeps still t) : s.Keeps still (t.resetBlock k i) := by
  unfold State.resetBlock
  split
  · exact h.same.updTun.sweepGrists
  · exact h.spargeLm.updCore
  · exact h.setEngLull
  · exact h.same.setEngLull
  · exact h.same.setEngLull
  · exact h.linkDown.updLink
  · exact h
theorem State.Keeps.blockReset {v : Nat} {fails : List (Nat × Nat × Nat)} (h : s.Keeps still t) : s.Keeps still (t.blockReset v fails) := by
  unfold State.blockReset
  dsimp only
  split
  · exact h.wr
  · exact .ite h.wr (.ite h.wr (.wr (.setReady (.bootFails (.ite h.resetBlock.resetPage.same.entStart h.resetBlock.resetPage)))))
theorem State.Keeps.resetStep (h : s.Keeps still t) : s.Keeps still t.resetStep := .foldl (fun h => h.blockReset) h
theorem State.Keeps.effectBlockReset {x0 : Path} {v : Word} {fails : List (Nat × Nat × Nat)} (h : s.Keeps still t) : s.Answers still
    (effectBlockReset x0 v fails t) :=
  .next h
theorem State.Keeps.execCalCommitDone (h : s.Keeps still t) : s.Answers still (execCalCommitDone t) := by
  unfold Machine.execCalCommitDone
  split
  · exact .next h
  · dsimp only
    refine .next ?_
    split
    · exact h.same.wf.calCode.wr.askWarm
    · exact h.same.wf.calCode.wr
theorem State.Keeps.bootExt {p : Path} {a v : Nat} (h : s.Keeps false t) : s.KeepsAny false (bootExt t p a v) := by
  unfold Machine.bootExt
  dsimp only
  split
  · exact .some (.ran h h.effectWarmReset)
  · split
    · exact .some (.ran h h.effectBlockReset)
    · split
      · exact .some (.ran h h.effectCalDataAccess)
      · split
        · split
          · exact .some (.ran h h.effectCalLoad)
          · exact .some (.ran h h.effectCalClear)
          · exact .some (.ran h h.effectCalCommit)
          · exact .some (.ran h h.effectCalBadOp)
        · exact .none

/-! RegPath. -/

theorem State.Keeps.setCapture {p : Path} {key : Nat} {w : Option Word} (h : s.Keeps false t) : s.Keeps false (t.setCapture p key w) :=
  h.updPath
theorem State.Keeps.takeWord {p : Path} (h : s.Keeps false t) : s.Keeps false (t.takeWord p).1 := by
  unfold State.takeWord
  split
  · exact h
  · dsimp only
    split
    · exact h.updPath.noteBad
    · exact h.updPath.wordWrite
theorem State.Keeps.regCycle (h : s.Keeps false t) : s.Keeps false t.regCycle := by
  unfold State.regCycle
  dsimp only
  split
  · exact h.takeWord.takeWord
  · exact h.takeWord.takeWord.writeOne (fun h => h.bootExt)
  · exact h.takeWord.takeWord.writeOne (fun h => h.bootExt)
  · exact h.takeWord.takeWord.writeBoth (fun h => h.bootExt)
theorem State.Keeps.turn {p : Path} (h : s.Keeps false t) : s.Keeps false (t.turn p) := .foldl (fun h => h.regCycle) h
theorem State.Keeps.busRead {p : Path} {a : Nat} (h : s.Keeps false t) : s.Keeps false (t.busRead p a) := by
  unfold State.busRead
  split
  · exact h.noteBad.pathRead
  · split
    · exact .ran h h.effectSoftDataRead
    · split
      · exact .ran h h.effectCalDataAccess
      · split
        · exact .ran h h.effectUartRxdataRead
        · dsimp only
          split
          · exact h.setCapture.pathRead
          · split
            · exact .pathRead (.foldl (fun h => h.setCapture) h)
            · split
              · exact h.setCapture.pathRead
              · exact h.pathRead
theorem State.Keeps.dbRead {func q o : Nat} (h : s.Keeps false t) : s.Keeps false (t.dbRead func q o) := by
  unfold State.dbRead
  split
  · exact h.pathRead
  · dsimp only
    split
    · exact h.setCapture.pathRead
    · split
      · split
        · exact h.setCapture.pathRead
        · exact h.pathRead
      · exact h.pathRead
theorem State.Keeps.execLoReadCapture {p : Path} {r : RegRef} (h : s.Keeps false t) : s.Answers false (execLoReadCapture p r t) := by
  unfold Machine.execLoReadCapture
  split
  · exact .ite (.next h.turn.busRead) (.next h)
  · exact .ite (.next h.dbRead) (.next h)
theorem State.Keeps.execHiRead {p : Path} {r : RegRef} (h : s.Keeps false t) : s.Answers false (execHiRead p r t) := by
  unfold Machine.execHiRead
  split
  · exact .ite (.next h.turn.busRead) (.next h)
  · exact .ite (.next h.dbRead) (.next h)
theorem State.Keeps.dbBase {q o v : Nat} (h : s.Keeps still t) : s.Keeps still (t.dbBase q o v) :=
  .ite h.dbDrop (.ite h.setQueue h.setQueue)
theorem State.Keeps.dbWrite {func q o : Nat} {v : Word} (h : s.Keeps still t) : s.Keeps still (t.dbWrite func q o v) :=
  .ite (.ran h h.execSqTailDb) (.ite (.ran h h.execCqHeadDb) (.ite (.ran h h.execInlineWrite) (.ite h.dbStray (.ite h.dbBase (.ite
    h.updQueue (.ite h.updQueue (.ite (.ite (.ran h h.execRingEnable) (.ran h h.execRingDisable)) (.ite h.dbDrop h))))))))
theorem State.Keeps.execHiWriteHold {p : Path} {r : RegRef} {v : Word} (h : s.Keeps false t) : s.Answers false (execHiWriteHold p r v t) := by
  unfold Machine.execHiWriteHold
  split
  · exact .ite (.next h.turn.holdHi) (.next h)
  · exact .ite (.next h.dbWrite) (.next h)
theorem State.Keeps.execLoWriteCommit {p : Path} {r : RegRef} {v : Word} (h : s.Keeps false t) : s.Answers false (execLoWriteCommit p r v t)
    := by
  unfold Machine.execLoWriteCommit
  split
  · exact .ite (.next (h.turn.writeAlone (fun h => h.bootExt))) (.next h)
  · exact .ite (.next h.dbWrite) (.next h)
theorem State.Keeps.execRegisterWrite {p : Path} {r : RegRef} {v : Word} (h : s.Keeps false t) : s.Answers false (execRegisterWrite p r v t)
    := by
  unfold Machine.execRegisterWrite
  split
  · exact .next h.arrive
  · exact .ite (.next h.dbWrite) (.next h)
theorem State.Keeps.mgrSend {b : List Byte} (h : s.Keeps still t) : s.Keeps still (t.mgrSend b) := h
theorem State.Keeps.execMgrRegisterRead {via : Carrier} {msg : List Byte} (h : s.Keeps false t) : s.Answers false (execMgrRegisterRead via msg t) :=
  .ite (.next h) (.ite (.next h.mgrSend) (.next (.mgrSend (.foldl_fst (fun h => h.busRead) h.turn))))
theorem State.Keeps.execMgrRegisterWrite {via : Carrier} {msg : List Byte} (h : s.Keeps false t) : s.Answers false (execMgrRegisterWrite via
    msg t) :=
  .ite (.next h) (.ite (.next h.mgrSend) (.next (.mgrSend (.foldl (fun h => h.arrive) h))))
theorem State.Keeps.execBadAccess {data : Option (List Byte)} {addr len : Nat} (h : s.Keeps false t) : s.Answers false (execBadAccess data
    addr len t) := by
  unfold Machine.execBadAccess
  split
  · exact .next (.ite h.turn.noteBad h.turn.noteBad.pathRead)
  · split
    · exact .next (.ite h.arrive.arrive h.arrive)
    · exact .ite (.next h.turn.busRead) (.next h.turn.busRead.busRead.pathRead)
theorem State.Keeps.execIbiRaise (h : s.Keeps still t) : s.Answers still (execIbiRaise t) := .ite (.next h) (.next h)

/-! PathRows. -/

theorem State.Keeps.execGbankSnap {p : Path} {v : Word} (h : s.Keeps false t) : s.Answers false (execGbankSnap p v t) :=
  h.turn.effectGbankSnap
theorem State.Keeps.execGbankClear {p : Path} {v : Word} (h : s.Keeps false t) : s.Answers false (execGbankClear p v t) :=
  h.turn.effectGbankClear
theorem State.Keeps.execCtrClear {p : Path} {page : Nat} {v : Word} (h : s.Keeps false t) : s.Answers false (execCtrClear p page v t) :=
  h.turn.effectCtrClear
theorem State.Keeps.execQOwnerWrite {p : Path} {q : Nat} {v : Word} (h : s.Keeps false t) : s.Answers false (execQOwnerWrite p q v t) :=
  h.turn.effectQOwnerWrite
theorem State.Keeps.execCancel {p : Path} {q : Nat} (h : s.Keeps false t) : s.Answers false (execCancel p q t) := h.turn.effectCancel
theorem State.Keeps.execCancelQueue {p : Path} {q : Nat} (h : s.Keeps false t) : s.Answers false (execCancelQueue p q t) :=
  h.turn.effectCancelQueue
theorem State.Keeps.execReprio {p : Path} {q : Nat} (h : s.Keeps false t) : s.Answers false (execReprio p q t) := h.turn.effectReprio
theorem State.Keeps.execDrain {p : Path} {q : Nat} (h : s.Keeps false t) : s.Answers false (execDrain p q t) := h.turn.effectDrain
theorem State.Keeps.execUndrain {p : Path} {q : Nat} (h : s.Keeps false t) : s.Answers false (execUndrain p q t) := h.turn.effectUndrain
theorem State.Keeps.execDispatchCmdBadOp {p : Path} {v : Word} (h : s.Keeps false t) : s.Answers false (execDispatchCmdBadOp p v t) :=
  h.turn.effectDispatchCmdBadOp
theorem State.Keeps.execContractWrite {p : Path} {q : Nat} {target : Bool} {v : Word} (h : s.Keeps false t) : s.Answers false
    (execContractWrite p q target v t) :=
  h.turn.effectContractWrite
theorem State.Keeps.execPhxGo {p : Path} {tun : Nat} {v : Word} (h : s.Keeps false t) : s.Answers false (execPhxGo p tun v t) :=
  h.turn.effectPhxGo
theorem State.Keeps.execResFlushAll {p : Path} {v : Word} (h : s.Keeps false t) : s.Answers false (execResFlushAll p v t) :=
  h.turn.effectResFlushAll
theorem State.Keeps.execResFlushRegion {p : Path} {v : Word} (h : s.Keeps false t) : s.Answers false (execResFlushRegion p v t) :=
  h.turn.effectResFlushRegion
theorem State.Keeps.execPlnFlushAll {p : Path} {v : Word} (h : s.Keeps false t) : s.Answers false (execPlnFlushAll p v t) :=
  h.turn.effectPlnFlushAll
theorem State.Keeps.execPlnFlushRegion {p : Path} {v : Word} (h : s.Keeps false t) : s.Answers false (execPlnFlushRegion p v t) :=
  h.turn.effectPlnFlushRegion
theorem State.Keeps.execAvsAck {p : Path} {v : Word} (h : s.Keeps false t) : s.Answers false (execAvsAck p v t) := h.turn.effectAvsAck
theorem State.Keeps.execTimeLoad {p : Path} {v : Word} (h : s.Keeps false t) : s.Answers false (execTimeLoad p v t) := h.turn.effectTimeLoad
theorem State.Keeps.execBudgetWrite {p : Path} {region : Option Nat} {v : Word} (h : s.Keeps false t) : s.Answers false (execBudgetWrite p
    region v t) :=
  h.turn.effectBudgetWrite
theorem State.Keeps.execEpochLenWrite {p : Path} {v : Word} (h : s.Keeps false t) : s.Answers false (execEpochLenWrite p v t) :=
  h.turn.effectEpochLenWrite
theorem State.Keeps.execClkCtrlWrite {p : Path} {v : Word} (h : s.Keeps false t) : s.Answers false (execClkCtrlWrite p v t) :=
  h.turn.effectClkCtrlWrite
theorem State.Keeps.execRgnApply {p : Path} {v : Word} (h : s.Keeps false t) : s.Answers false (execRgnApply p v t) := h.turn.effectRgnApply
theorem State.Keeps.execRgnRevert {p : Path} {v : Word} (h : s.Keeps false t) : s.Answers false (execRgnRevert p v t) :=
  h.turn.effectRgnRevert
theorem State.Keeps.execRgnBadOp {p : Path} {v : Word} (h : s.Keeps false t) : s.Answers false (execRgnBadOp p v t) := h.turn.effectRgnBadOp
theorem State.Keeps.execMarchDestructive {p : Path} {v : Word} {fails : List (Nat × Nat)} (h : s.Keeps false t) : s.Answers false
    (execMarchDestructive p v fails t) :=
  h.turn.effectMarchDestructive
theorem State.Keeps.execMarchPreserving {p : Path} {v : Word} (h : s.Keeps false t) : s.Answers false (execMarchPreserving p v t) :=
  h.turn.effectMarchPreserving
theorem State.Keeps.execMarchAbort {p : Path} {v : Word} (h : s.Keeps false t) : s.Answers false (execMarchAbort p v t) :=
  h.turn.effectMarchAbort
theorem State.Keeps.execMarchBadOp {p : Path} {v : Word} (h : s.Keeps false t) : s.Answers false (execMarchBadOp p v t) :=
  h.turn.effectMarchBadOp
theorem State.Keeps.execSpargeCommand {p : Path} {v : Word} (h : s.Keeps false t) : s.Answers false (execSpargeCommand p v t) :=
  h.turn.effectSpargeCommand
theorem State.Keeps.execKatConditioner {p : Path} {v : Word} (h : s.Keeps false t) : s.Answers false (execKatConditioner p v t) :=
  h.turn.effectKatConditioner
theorem State.Keeps.execKatChannel {p : Path} {v : Word} (h : s.Keeps false t) : s.Answers false (execKatChannel p v t) :=
  h.turn.effectKatChannel
theorem State.Keeps.execKatBadTarget {p : Path} {v : Word} (h : s.Keeps false t) : s.Answers false (execKatBadTarget p v t) :=
  h.turn.effectKatBadTarget
theorem State.Keeps.execSoftDataRead {p : Path} (h : s.Keeps false t) : s.Answers false (execSoftDataRead p t) := h.turn.effectSoftDataRead
theorem State.Keeps.execSourceRestart {p : Path} {v : Word} (h : s.Keeps false t) : s.Answers false (execSourceRestart p v t) :=
  h.turn.effectSourceRestart
theorem State.Keeps.execSourceDisable {p : Path} {v : Word} (h : s.Keeps false t) : s.Answers false (execSourceDisable p v t) :=
  h.turn.effectSourceDisable
theorem State.Keeps.execSourceEnable {p : Path} {v : Word} (h : s.Keeps false t) : s.Answers false (execSourceEnable p v t) :=
  h.turn.effectSourceEnable
theorem State.Keeps.execTestPatternWrite {p : Path} {ctrl : Bool} {v : Word} (h : s.Keeps false t) : s.Answers false (execTestPatternWrite p
    ctrl v t) :=
  h.turn.effectTestPatternWrite
theorem State.Keeps.execLcTransition {p : Path} {v : Word} (h : s.Keeps false t) : s.Answers false (execLcTransition p v t) :=
  h.turn.effectLcTransition
theorem State.Keeps.execLcBadOp {p : Path} {v : Word} (h : s.Keeps false t) : s.Answers false (execLcBadOp p v t) := h.turn.effectLcBadOp
theorem State.Keeps.execSeal {p : Path} {v : Word} (h : s.Keeps false t) : s.Answers false (execSeal p v t) := h.turn.effectSeal
theorem State.Keeps.execUnseal {p : Path} {v : Word} (h : s.Keeps false t) : s.Answers false (execUnseal p v t) := h.turn.effectUnseal
theorem State.Keeps.execCipherBadOp {p : Path} {v : Word} (h : s.Keeps false t) : s.Answers false (execCipherBadOp p v t) :=
  h.turn.effectCipherBadOp
theorem State.Keeps.execLinkEnable {p : Path} {link : Nat} {v : Word} (h : s.Keeps false t) : s.Answers false (execLinkEnable p link v t) :=
  h.turn.effectLinkEnable
theorem State.Keeps.execLinkDisable {p : Path} {link : Nat} {v : Word} (h : s.Keeps false t) : s.Answers false (execLinkDisable p link v t)
    :=
  h.turn.effectLinkDisable
theorem State.Keeps.execLinkCmdLeave {p : Path} {link : Nat} {v : Word} (h : s.Keeps false t) : s.Answers false (execLinkCmdLeave p link v
    t) :=
  h.turn.effectLinkCmdLeave
theorem State.Keeps.execLinkCmdRotate {p : Path} {link : Nat} {v : Word} (h : s.Keeps false t) : s.Answers false (execLinkCmdRotate p link v
    t) :=
  h.turn.effectLinkCmdRotate
theorem State.Keeps.execLinkCmdReenable {p : Path} {link : Nat} {v : Word} (h : s.Keeps false t) : s.Answers false (execLinkCmdReenable p
    link v t) :=
  h.turn.effectLinkCmdReenable
theorem State.Keeps.execLinkCmdBadOp {p : Path} {link : Nat} {v : Word} (h : s.Keeps false t) : s.Answers false (execLinkCmdBadOp p link v
    t) :=
  h.turn.effectLinkCmdBadOp
theorem State.Keeps.execErrFirstClear {p : Path} {page : Nat} (h : s.Keeps false t) : s.Answers false (execErrFirstClear p page t) :=
  h.turn.effectErrFirstClear
theorem State.Keeps.execDevFirstClear {p : Path} (h : s.Keeps false t) : s.Answers false (execDevFirstClear p t) :=
  h.turn.effectDevFirstClear
theorem State.Keeps.execFenceClear {p : Path} {v : Word} (h : s.Keeps false t) : s.Answers false (execFenceClear p v t) :=
  h.turn.effectFenceClear
theorem State.Keeps.execInjectSignal {p : Path} {page : Nat} {v : Word} (h : s.Keeps false t) : s.Answers false (execInjectSignal p page v
    t) :=
  h.turn.effectInjectSignal
theorem State.Keeps.execInjectCorrupt1 {p : Path} {page : Nat} {v : Word} (h : s.Keeps false t) : s.Answers false (execInjectCorrupt1 p page
    v t) :=
  h.turn.effectInjectCorrupt1
theorem State.Keeps.execInjectCorrupt2 {p : Path} {page : Nat} {v : Word} (h : s.Keeps false t) : s.Answers false (execInjectCorrupt2 p page
    v t) :=
  h.turn.effectInjectCorrupt2
theorem State.Keeps.execInjectBadMode {p : Path} {page : Nat} {v : Word} (h : s.Keeps false t) : s.Answers false (execInjectBadMode p page v
    t) :=
  h.turn.effectInjectBadMode
theorem State.Keeps.execRetireCmd {p : Path} {v : Word} (h : s.Keeps false t) : s.Answers false (execRetireCmd p v t) :=
  h.turn.effectRetireCmd
theorem State.Keeps.execWarmReset {p : Path} {v : Word} (h : s.Keeps false t) : s.Answers false (execWarmReset p v t) :=
  h.turn.effectWarmReset
theorem State.Keeps.execBlockReset {p : Path} {v : Word} {fails : List (Nat × Nat × Nat)} (h : s.Keeps false t) : s.Answers false
    (execBlockReset p v fails t) :=
  h.turn.effectBlockReset
theorem State.Keeps.execCalLoad {p : Path} {v : Word} (h : s.Keeps false t) : s.Answers false (execCalLoad p v t) := h.turn.effectCalLoad
theorem State.Keeps.execCalClear {p : Path} {v : Word} (h : s.Keeps false t) : s.Answers false (execCalClear p v t) := h.turn.effectCalClear
theorem State.Keeps.execCalCommit {p : Path} {v : Word} (h : s.Keeps false t) : s.Answers false (execCalCommit p v t) :=
  h.turn.effectCalCommit
theorem State.Keeps.execCalBadOp {p : Path} {v : Word} (h : s.Keeps false t) : s.Answers false (execCalBadOp p v t) := h.turn.effectCalBadOp
theorem State.Keeps.execCalDataAccess {p : Path} {v : Option Word} (h : s.Keeps false t) : s.Answers false (execCalDataAccess p v t) :=
  h.turn.effectCalDataAccess
theorem State.Keeps.execGpioFuncWrite {p : Path} {v : Word} (h : s.Keeps false t) : s.Answers false (execGpioFuncWrite p v t) :=
  h.turn.effectGpioFuncWrite
theorem State.Keeps.execUartRxdataRead {p : Path} (h : s.Keeps false t) : s.Answers false (execUartRxdataRead p t) :=
  h.turn.effectUartRxdataRead

/-! Pldm. -/

theorem State.Keeps.pldm {cmd code : Nat} {vals : List Int} (h : s.Keeps still t) : s.Keeps still (t.pldm cmd code vals) := .ite h h
theorem State.Keeps.execGetTid (h : s.Keeps still t) : s.Answers still (execGetTid t) := .next h.pldm
theorem State.Keeps.execGetPldmVersion {ty : Nat} (h : s.Keeps still t) : s.Answers still (execGetPldmVersion ty t) :=
  .next (.ite h.pldm h.pldm)
theorem State.Keeps.execGetPldmTypes (h : s.Keeps still t) : s.Answers still (execGetPldmTypes t) := .next h.pldm
theorem State.Keeps.execGetPldmCommands {ty : Nat} (h : s.Keeps still t) : s.Answers still (execGetPldmCommands ty t) :=
  .next (.ite h.pldm h.pldm)
theorem State.Keeps.execGetSensorReading {sensor : Nat} (h : s.Keeps still t) : s.Answers still (execGetSensorReading sensor t) :=
  .ite (.next h.pldm) (.ite (.next h.pldm) (.next h.pldm))
theorem State.Keeps.execGetPdrRepositoryInfo (h : s.Keeps still t) : s.Answers still (execGetPdrRepositoryInfo t) := .next h.pldm
theorem State.Keeps.execGetPdr {handle : Nat} (h : s.Keeps still t) : s.Answers still (execGetPdr handle t) :=
  .ite (.next h.pldm) (.next h.pldm)
theorem State.Keeps.execSetEventReceiver {enable : Bool} {addr : Nat} (h : s.Keeps still t) : s.Answers still (execSetEventReceiver enable
    addr t) := by
  unfold Machine.execSetEventReceiver
  exact .ite (.next h) (.next h.same.pldm)
theorem State.Keeps.execSetNumericSensorEnable {sensor : Nat} {enable : Bool} (h : s.Keeps still t) : s.Answers still
    (execSetNumericSensorEnable sensor enable t) := by
  unfold Machine.execSetNumericSensorEnable
  exact .ite (.next h) (.ite (.next h.pldm) (.next h.same.pldm))
theorem State.Keeps.execRequestUpdate (h : s.Keeps still t) : s.Answers still (execRequestUpdate t) := by
  unfold Machine.execRequestUpdate
  exact .ite (.next h.pldm) (.ite (.next h.pldm) (.next h.same.flashReq.pldm))
theorem State.Keeps.execFirmwareTransfer {offset : Nat} {bytes : List Byte} (h : s.Keeps still t) : s.Answers still (execFirmwareTransfer
    offset bytes t) := by
  unfold Machine.execFirmwareTransfer
  split
  · exact .next h.pldm
  · exact .ite (.next h.pldm) (.ite (.next h) (.next h.same.pldm))
theorem State.Keeps.execFirmwareVerify (h : s.Keeps still t) : s.Answers still (execFirmwareVerify t) := by
  unfold Machine.execFirmwareVerify
  split
  · exact .next h.pldm
  · exact .ite (.next h) (.next h.same.pldm)
theorem State.Keeps.updateOver (h : s.Keeps still t) : s.Keeps still t.updateOver := h.flashReq
theorem State.Keeps.execActivateFirmware (h : s.Keeps still t) : s.Answers still (execActivateFirmware t) := by
  unfold Machine.execActivateFirmware
  split
  · exact .next h.pldm
  · exact .ite (.next h.updateOver.pldm) (.next h.pldm)
theorem State.Keeps.execCancelUpdate (h : s.Keeps still t) : s.Answers still (execCancelUpdate t) := by
  unfold Machine.execCancelUpdate
  split
  · exact .next h.pldm
  · exact .next h.updateOver.pldm

/-! Tick. -/

theorem State.Keeps.eventAll {code n : Nat} (h : s.Keeps still t) : s.Keeps still (t.eventAll code n) :=
  .ite h (.countGlobal (.foldl (fun h => h.countPage) h))
theorem State.Keeps.chargeStatic (h : s.Keeps still t) : s.Keeps still t.chargeStatic := h.chargeDev
theorem State.Keeps.cyclesRun {n : Nat} {r : Run} (h : s.Keeps still t) : s.Keeps still (t.cyclesRun n r) := by
  unfold State.cyclesRun
  split
  · exact h
  · split
    · exact h
    · exact .ite (.tunEvent (.bump64 (.foldl (fun h => h.tunEvent) h.chargeJob))) (.foldl (fun h => h.tunEvent) h.chargeJob)
theorem State.Keeps.cyclesLoad {n : Nat} {c : Command} (h : s.Keeps still t) : s.Keeps still (t.cyclesLoad n c) := .ite h.chargeJob h
theorem State.Keeps.cyclesSolver {n : Nat} (h : s.Keeps still t) : s.Keeps still (t.cyclesSolver n) := by
  unfold State.cyclesSolver
  split
  · exact h
  · exact .ite h.chargeJob.bump64.event h.chargeJob.bump64.event.bump64.event
theorem State.Keeps.cyclesPred {n : Nat} (h : s.Keeps still t) : s.Keeps still (t.cyclesPred n) := by
  unfold State.cyclesPred
  split
  · exact h
  · split
    · exact h
    · exact .ite (.ite (.ite h.chargeJob.bump64.event h.chargeJob) (.event (.bump64 (.ite h.chargeJob.bump64.event h.chargeJob)))) (.event
        (.bump64 (.ite (.ite h.chargeJob.bump64.event h.chargeJob) (.event (.bump64 (.ite h.chargeJob.bump64.event h.chargeJob))))))
theorem State.Keeps.cyclesPlan {n : Nat} (h : s.Keeps still t) : s.Keeps still (t.cyclesPlan n) := by
  unfold State.cyclesPlan
  split
  · exact h
  · exact .ite h.chargeJob h.chargeJob.bump64.event
theorem State.Keeps.cyclesCore {n k : Nat} (h : s.Keeps still t) : s.Keeps still (t.cyclesCore n k) :=
  .ite h (.ite h.charge (.ite h.charge.bump64.event.bump.event h.charge.bump64.event))
theorem State.Keeps.cyclesLink {n l : Nat} (h : s.Keeps still t) : s.Keeps still (t.cyclesLink n l) :=
  .ite (.event (.ite h.event h)) (.ite h.event h)
theorem State.Keeps.cyclesAll {n : Nat} (h : s.Keeps still t) : s.Keeps still (t.cyclesAll n) :=
  .ite h (.eventAll (.ite (.foldl (fun h => h.cyclesLink) (.foldl (fun h => h.cyclesCore) (.cyclesPlan (.cyclesPred (.cyclesSolver (.foldl
    (fun h => h.cyclesLoad) (.foldl (fun h => h.cyclesRun) h))))))) (.event (.bump64 (.foldl (fun h => h.cyclesLink) (.foldl (fun h =>
    h.cyclesCore) (.cyclesPlan (.cyclesPred (.cyclesSolver (.foldl (fun h => h.cyclesLoad) (.foldl (fun h => h.cyclesRun) h)))))))))))
theorem State.Keeps.mclkCounts (h : s.Keeps still t) : s.Keeps still t.mclkCounts := by
  unfold State.mclkCounts
  dsimp only
  exact .ite (.event (.bumpSat (.bump (.ite (.event (.bumpSat (.ite (.event (.ite (.event (.ite (.ite (.event (.ite h.eventAll.bump.event
      h.eventAll)) (.ite h.eventAll.bump.event h.eventAll)) (.event (.ite (.event (.ite h.eventAll.bump.event h.eventAll)) (.ite
      h.eventAll.bump.event h.eventAll))))) (.ite (.ite (.event (.ite h.eventAll.bump.event h.eventAll)) (.ite h.eventAll.bump.event
      h.eventAll)) (.event (.ite (.event (.ite h.eventAll.bump.event h.eventAll)) (.ite h.eventAll.bump.event h.eventAll)))))) (.ite
      (.event (.ite (.ite (.event (.ite h.eventAll.bump.event h.eventAll)) (.ite h.eventAll.bump.event h.eventAll)) (.event (.ite (.event
      (.ite h.eventAll.bump.event h.eventAll)) (.ite h.eventAll.bump.event h.eventAll))))) (.ite (.ite (.event (.ite h.eventAll.bump.event
      h.eventAll)) (.ite h.eventAll.bump.event h.eventAll)) (.event (.ite (.event (.ite h.eventAll.bump.event h.eventAll)) (.ite
      h.eventAll.bump.event h.eventAll)))))))) (.ite (.event (.ite (.event (.ite (.ite (.event (.ite h.eventAll.bump.event h.eventAll))
      (.ite h.eventAll.bump.event h.eventAll)) (.event (.ite (.event (.ite h.eventAll.bump.event h.eventAll)) (.ite h.eventAll.bump.event
      h.eventAll))))) (.ite (.ite (.event (.ite h.eventAll.bump.event h.eventAll)) (.ite h.eventAll.bump.event h.eventAll)) (.event (.ite
      (.event (.ite h.eventAll.bump.event h.eventAll)) (.ite h.eventAll.bump.event h.eventAll)))))) (.ite (.event (.ite (.ite (.event
      (.ite h.eventAll.bump.event h.eventAll)) (.ite h.eventAll.bump.event h.eventAll)) (.event (.ite (.event (.ite h.eventAll.bump.event
      h.eventAll)) (.ite h.eventAll.bump.event h.eventAll))))) (.ite (.ite (.event (.ite h.eventAll.bump.event h.eventAll)) (.ite
      h.eventAll.bump.event h.eventAll)) (.event (.ite (.event (.ite h.eventAll.bump.event h.eventAll)) (.ite h.eventAll.bump.event
      h.eventAll)))))))))) (.ite (.event (.bumpSat (.ite (.event (.ite (.event (.ite (.ite (.event (.ite h.eventAll.bump.event
      h.eventAll)) (.ite h.eventAll.bump.event h.eventAll)) (.event (.ite (.event (.ite h.eventAll.bump.event h.eventAll)) (.ite
      h.eventAll.bump.event h.eventAll))))) (.ite (.ite (.event (.ite h.eventAll.bump.event h.eventAll)) (.ite h.eventAll.bump.event
      h.eventAll)) (.event (.ite (.event (.ite h.eventAll.bump.event h.eventAll)) (.ite h.eventAll.bump.event h.eventAll)))))) (.ite
      (.event (.ite (.ite (.event (.ite h.eventAll.bump.event h.eventAll)) (.ite h.eventAll.bump.event h.eventAll)) (.event (.ite (.event
      (.ite h.eventAll.bump.event h.eventAll)) (.ite h.eventAll.bump.event h.eventAll))))) (.ite (.ite (.event (.ite h.eventAll.bump.event
      h.eventAll)) (.ite h.eventAll.bump.event h.eventAll)) (.event (.ite (.event (.ite h.eventAll.bump.event h.eventAll)) (.ite
      h.eventAll.bump.event h.eventAll)))))))) (.ite (.event (.ite (.event (.ite (.ite (.event (.ite h.eventAll.bump.event h.eventAll))
      (.ite h.eventAll.bump.event h.eventAll)) (.event (.ite (.event (.ite h.eventAll.bump.event h.eventAll)) (.ite h.eventAll.bump.event
      h.eventAll))))) (.ite (.ite (.event (.ite h.eventAll.bump.event h.eventAll)) (.ite h.eventAll.bump.event h.eventAll)) (.event (.ite
      (.event (.ite h.eventAll.bump.event h.eventAll)) (.ite h.eventAll.bump.event h.eventAll)))))) (.ite (.event (.ite (.ite (.event
      (.ite h.eventAll.bump.event h.eventAll)) (.ite h.eventAll.bump.event h.eventAll)) (.event (.ite (.event (.ite h.eventAll.bump.event
      h.eventAll)) (.ite h.eventAll.bump.event h.eventAll))))) (.ite (.ite (.event (.ite h.eventAll.bump.event h.eventAll)) (.ite
      h.eventAll.bump.event h.eventAll)) (.event (.ite (.event (.ite h.eventAll.bump.event h.eventAll)) (.ite h.eventAll.bump.event
      h.eventAll)))))))
theorem State.Keeps.timers (h : s.Keeps still t) : s.Keeps still t.timers := h
theorem State.Keeps.settle (h : s.Keeps still t) : s.Keeps still t.settle :=
  .gpioStep (.coresOff (.touchBusy (.marchSync (.foldl (fun h => h.linkTry.leaveStep)
    h.squallStep.syncOutStep.timers.keyServe.tenantServe.cipherServe))))
theorem State.Keeps.cycleEnd {edges : Nat} (h : s.Keeps still t) : s.Keeps still (t.cycleEnd edges) :=
  .counted (.foldl (fun h => h.linkCycle)
    h.chargeStatic.cyclesAll.mclkCounts.drawStep.performStores.settleStops.missStep.ackStep.guardRecords.recordStep.startStep.winReprio.memStep.resetStep.entStep)
theorem State.Keeps.advance {e : Nat × Nat} (h : s.Keeps false t) : s.Keeps false (t.advance e) := h.moved
theorem State.Keeps.cycleBegin (h : s.Keeps false t) : s.Keeps false t.cycleBegin := h.regCycle.winCycle.rgnStep.svLoad.prFetched.plLoad
theorem State.Keeps.tick (h : s.Keeps false t) : s.Keeps false t.tick := h.cycleEnd.advance.cycleBegin.settle

/-! Dispatch. -/

theorem State.Keeps.exec {i : Instr} (h : s.Keeps false t) : s.Answers false (exec i t) := by
  unfold Machine.exec
  split
  · exact h.execLoReadCapture
  · exact h.execHiWriteHold
  · exact h.execLoWriteCommit
  · exact h.execRegisterWrite
  · exact h.execBadAccess
  · exact h.execMgrRegisterRead
  · exact h.execMgrRegisterWrite
  · exact h.execIbiRaise
  · exact h.execGbankSnap
  · exact h.execGbankClear
  · exact h.execCtrClear
  · exact h.execSqTailDb
  · exact h.execCqHeadDb
  · exact h.execInlineWrite
  · exact h.execFetch
  · exact h.execEngineCmd
  · exact h.execEnginePayloadRead
  · exact h.execProgramCmd
  · exact h.execChainCmd
  · exact h.execArmCmd
  · exact h.execFireCmd
  · exact h.execGustLaneEntry
  · exact h.execRingEnable
  · exact h.execRingDisable
  · exact h.execQOwnerWrite
  · exact h.execFlr
  · exact h.execFlrPf
  · exact h.execFlrComplete
  · exact h.execHostIdeFail
  · exact h.execCompletionRecord
  · exact h.execGuardUpdate
  · exact h.execJobStart
  · exact h.execLateBeforeStart
  · exact h.execCancel
  · exact h.execCancelQueue
  · exact h.execReprio
  · exact h.execDrain
  · exact h.execUndrain
  · exact h.execDispatchCmdBadOp
  · exact h.execContractWrite
  · exact h.execStopTimeReached
  · exact h.execHaltTimeReached
  · exact h.execEnergyCeilingStop
  · exact h.execEngineQueueEntry
  · exact h.execEngineCommandEnd
  · exact h.execLoadCmd
  · exact h.execRunCmd
  · exact h.execLoadRun
  · exact h.execLoadComplete
  · exact h.execLatticePhase
  · exact h.execDenseClassStep
  · exact h.execEndMarker
  · exact h.execFlipApply
  · exact h.execSweepBoundary
  · exact h.execPhxGo
  · exact h.execWindowSwitch
  · exact h.execRowStaging
  · exact h.execJoinMsg
  · exact h.execStartMsg
  · exact h.execAbortMsg
  · exact h.execJoinTimeout
  · exact h.execCoefMsg
  · exact h.execHaloMsg
  · exact h.execHaloWaitTimeout
  · exact h.execRendezvous
  · exact h.execReportMsg
  · exact h.execReportTimeout
  · exact h.execDecideMsg
  · exact h.execDecideTimeout
  · exact h.execPartReqMsg
  · exact h.execPartMsg
  · exact h.execGrantMsg
  · exact h.execReturnMsg
  · exact h.execLeaseEnd
  · exact h.execUpdateMsg
  · exact h.execLinsolve
  · exact h.execAssign
  · exact h.execBoxqp
  · exact h.execSolverIterate
  · exact h.execAssignStop
  · exact h.execPredictorCommand
  · exact h.execInputScanDone
  · exact h.execLayerPassDone
  · exact h.execRowBlockDone
  · exact h.execGristWriterWrite
  · exact h.execResFlushAll
  · exact h.execResFlushRegion
  · exact h.execPlanCmd
  · exact h.execRepairCmd
  · exact h.execPlnFlushAll
  · exact h.execPlnFlushRegion
  · exact h.execBundleIssue
  · exact h.execEngWaitReturn
  · exact h.execWaitIWake
  · exact h.execInterruptTake
  · exact h.execTimerExpiry
  · exact h.execStoreVisible
  · exact h.execTransferStart
  · exact h.execTransferEnd
  · exact h.execCoreSpargeDone
  · exact h.execGovernorTick
  · exact h.execAvsAck
  · exact h.execAvsTimeout
  · exact h.execCclkGapEnd
  · exact h.execThermalSample
  · exact h.execEpochBoundary
  · exact h.execSyncPulse
  · exact h.execSyncOutPulseEnd
  · exact h.execTimeLoad
  · exact h.execBudgetWrite
  · exact h.execEpochLenWrite
  · exact h.execClkCtrlWrite
  · exact h.execLullEntry
  · exact h.execLullOffEntry
  · exact h.execWakeComplete
  · exact h.execRefclkLoss
  · exact h.execRefclkReturn
  · exact h.execRgnApply
  · exact h.execRgnRevert
  · exact h.execRgnBadOp
  · exact h.execPacketHop
  · exact h.execMulticastCopy
  · exact h.execPacketStuckTimeout
  · exact h.execCommonsAccess
  · exact h.execHbmAccess
  · exact h.execEccWriteBack
  · exact h.execPatrolScrubRead
  · exact h.execHbmOccupancyWindow
  · exact h.execMarchDestructive
  · exact h.execMarchPreserving
  · exact h.execMarchAbort
  · exact h.execMarchBadOp
  · exact h.execMarchSlice
  · exact h.execMarchResume
  · exact h.execMarchDone
  · exact h.execSpargeCommand
  · exact h.execSpargeDone
  · exact h.execNoiseWord
  · exact h.execRestartTestStart
  · exact h.execConditionedBlockReady
  · exact h.execDrbgGenerateStart
  · exact h.execDrbgGenerateDone
  · exact h.execDrbgReseedDone
  · exact h.execKatConditioner
  · exact h.execKatChannel
  · exact h.execKatStart
  · exact h.execKatDone
  · exact h.execKatBadTarget
  · exact h.execSoftDataRead
  · exact h.execSourceRestart
  · exact h.execSourceDisable
  · exact h.execSourceEnable
  · exact h.execTestPatternWrite
  · exact h.execLcTransition
  · exact h.execLcBadOp
  · exact h.execMctpControl
  · exact h.execSpdmRequest
  · exact h.execGetMeasurements
  · exact h.execKeyExchange
  · exact h.execIdeKmQuery
  · exact h.execIdeKmKeyProg
  · exact h.execIdeKmKSetGo
  · exact h.execIdeKmKSetStop
  · exact h.execSetTenantKey
  · exact h.execEraseTenantKey
  · exact h.execQuerySlot
  · exact h.execSeal
  · exact h.execUnseal
  · exact h.execCipherBadOp
  · exact h.execCipherDone
  · exact h.execCipherEntropyTimeout
  · exact h.execBypass
  · exact h.execIdcode
  · exact h.execSamplePreload
  · exact h.execExtest
  · exact h.execJtagPrivate
  · exact h.execLinkEnable
  · exact h.execLinkDisable
  · exact h.execLinkCmdLeave
  · exact h.execLinkCmdRotate
  · exact h.execLinkCmdReenable
  · exact h.execLinkCmdBadOp
  · exact h.execSignalDetect
  · exact h.execTrainingPhaseDone
  · exact h.execTrainingTimeout
  · exact h.execTrainingRetry
  · exact h.execTrain
  · exact h.execDataMsg
  · exact h.execAck
  · exact h.execNak
  · exact h.execPacketTransmit
  · exact h.execAckSend
  · exact h.execCreditReturn
  · exact h.execReplayTimeout
  · exact h.execHandshakeStart
  · exact h.execHello
  · exact h.execResponse
  · exact h.execChallengeWindowClose
  · exact h.execConfirm
  · exact h.execConfirmTimeout
  · exact h.execBackoffEnd
  · exact h.execKeyRotate
  · exact h.execKeyUpd
  · exact h.execLeave
  · exact h.execLeaveAck
  · exact h.execLeaveTimeout
  · exact h.execLinkSignalLoss
  · exact h.execLinkRefclkLoss
  · exact h.execErrorRecord
  · exact h.execAggregatorRecord
  · exact h.execSquallEndTest
  · exact h.execErrFirstClear
  · exact h.execDevFirstClear
  · exact h.execFenceClear
  · exact h.execInjectSignal
  · exact h.execInjectCorrupt1
  · exact h.execInjectCorrupt2
  · exact h.execInjectBadMode
  · exact h.execRetireCmd
  · exact h.execRetireTimeoutExpiry
  · exact h.execColdReset
  · exact h.execResetNRise
  · exact h.execWarmReset
  · exact h.execPcieReset
  · exact h.execBootPhaseEnd
  · exact h.execBlockReset
  · exact h.execCalLoad
  · exact h.execCalClear
  · exact h.execCalCommit
  · exact h.execCalCommitDone
  · exact h.execCalBadOp
  · exact h.execCalDataAccess
  · exact h.execGetTid
  · exact h.execGetPldmVersion
  · exact h.execGetPldmTypes
  · exact h.execGetPldmCommands
  · exact h.execGetSensorReading
  · exact h.execGetPdrRepositoryInfo
  · exact h.execGetPdr
  · exact h.execSetEventReceiver
  · exact h.execSetNumericSensorEnable
  · exact h.execRequestUpdate
  · exact h.execFirmwareTransfer
  · exact h.execFirmwareVerify
  · exact h.execActivateFirmware
  · exact h.execCancelUpdate
  · exact h.execGpioFuncWrite
  · exact h.execTachWindow
  · exact h.execUartRxByte
  · exact h.execUartRxdataRead
  · exact h.execFlashGrant
  · exact h.execFlashGrantLoss
  · exact h.execHiRead
  · exact h.execNoiseSample
  · exact h.execProgramLoadDone
  · exact h.execHostReadFailure
  · exact h.execPostedCreditReturn
  · exact h.execPcieLinkTraining
  · exact h.execUncorrectableCodeword
  · exact h.execCtExpiry
  · exact h.execLcTransitionDone
  · exact h.execKeyBankWriteDone
  · exact h.execHbmCatastrophicTemp
  · exact h.execShortSyncPulse
  · exact h.execTachRisingEdge

/-! The obligations. -/

theorem State.Answers.pending {o : Host.Outcome State Fault Refusal} (h : s.Answers still o) (ho : o = .next t) : t.pending = s.pending := by
  obtain ⟨u, rfl, hu⟩ := h
  cases ho
  exact hu.1

theorem State.Answers.wfTabs {o : Host.Outcome State Fault Refusal} (h : s.Answers still o) (ho : o = .next t) (hs : s.wfTabs = true) :
    t.wfTabs = true := by
  obtain ⟨u, rfl, hu⟩ := h
  cases ho
  exact hu.2.1 hs

/-- Settles O3: no arm of exec faults or refuses. -/
theorem everyCommandAnswers : Obligations.EveryCommandAnswers := fun _ s =>
  have ⟨t, ht, _⟩ := (State.Keeps.refl s).exec
  ⟨t, ht⟩

/-- Settles O4, by what every operation that a command calls keeps. -/
theorem commandsKeepTheQueue : Obligations.CommandsKeepTheQueue := fun _ s _ ht => (State.Keeps.refl s).exec.pending ht

theorem step_of_nil (h : s.pending = []) : step s = .next s.tick := by
  rw [step, h]

theorem step_of_cons {c : Instr} {rest : List Instr} (h : s.pending = c :: rest) : step s = exec c { s with pending := rest } := by
  rw [step, h]

/-- A change of the queue of commands changes no table. -/
theorem State.wfTabs_pending (s : State) (l : List Instr) : { s with pending := l }.wfTabs = s.wfTabs := rfl

/-- Settles O5: a step is an MCLK cycle where no command waits, and exec of the front command else. -/
theorem stepKeepsCanonicalForm : Obligations.StepKeepsCanonicalForm := by
  intro s t hs ht
  cases hp : s.pending with
  | nil =>
    rw [step_of_nil hp, Host.Outcome.next.injEq] at ht
    exact ht ▸ (State.Keeps.refl s).tick.2.1 hs
  | cons c rest =>
    rw [step_of_cons hp] at ht
    exact (State.Keeps.refl { s with pending := rest }).exec.wfTabs ht ((s.wfTabs_pending rest).trans hs)

/-- Settles O1, by the equation of a step with a command waiting. -/
theorem stepTakesFront : Obligations.StepTakesFront := fun _ _ _ h => step_of_cons h

/-! An MCLK cycle with no word waiting on a path. -/

theorem State.regCycle_idle (hh : s.hostPath.waiting = []) (hm : s.mgrPath.waiting = []) : s.regCycle = s := by
  rw [State.regCycle, State.takeWord_of_none (p := .host) hh, State.takeWord_of_none (p := .manager) hm]

theorem State.advance_moves (s : State) (e : Nat × Nat) : (s.advance e).time = (s.time + s.timeStep) % 0x10000000000000000 ∧
    (s.advance e).hostPath = s.hostPath ∧ (s.advance e).mgrPath = s.mgrPath := ⟨rfl, rfl, rfl⟩

/-- TIME after the cycle: the end of the cycle leaves TIME and the paths as they were, and so does the start of the next one where no
register write takes effect. -/
theorem State.time_tick_idle (hh : s.hostPath.waiting = []) (hm : s.mgrPath.waiting = []) :
    s.tick.time = (s.time + (s.cycleEnd s.cclkEdges.1).timeStep) % 0x10000000000000000 := by
  obtain ⟨_, _, hend⟩ := (State.Keeps.refl s (still := true)).cycleEnd (edges := s.cclkEdges.1)
  obtain ⟨htime, hhost, hmgr⟩ := hend rfl
  obtain ⟨hadvance, hadvhost, hadvmgr⟩ := (s.cycleEnd s.cclkEdges.1).advance_moves s.cclkEdges
  have hidle : ((s.cycleEnd s.cclkEdges.1).advance s.cclkEdges).regCycle = (s.cycleEnd s.cclkEdges.1).advance s.cclkEdges :=
    State.regCycle_idle (by rw [hadvhost, hhost, hh]) (by rw [hadvmgr, hmgr, hm])
  have hbegin : ((s.cycleEnd s.cclkEdges.1).advance s.cclkEdges).Keeps true s.tick := by
    unfold State.tick State.cycleBegin
    dsimp only
    rw [hidle]
    exact (State.Keeps.refl _).winCycle.rgnStep.svLoad.prFetched.plLoad.settle
  obtain ⟨_, _, hstill⟩ := hbegin
  rw [(hstill rfl).1, hadvance, htime]

/-- Settles O2: that a step with no command waiting is one MCLK cycle is log entry 1's; TIME moves in `State.advance` alone. -/
theorem idleStepIsOneCycle : Obligations.IdleStepIsOneCycle := by
  refine ⟨fun s h => ⟨step_of_nil h, ?_⟩, fun s hh hm => State.time_tick_idle hh hm, fun s h => ?_, fun s h hl => ?_, fun s h hl => ?_⟩
  · exact (State.Keeps.refl s).tick.1.trans h
  · exact if_pos h
  · rw [State.timeStep, if_neg (by rw [h]; decide), if_pos hl]
  · rw [State.timeStep, if_neg (by rw [h]; decide), if_neg (by rw [hl]; decide)]

end Sys2Proof.Machine
end

section
/-! PROOFS. Runs of registers written one after another, and the commands that write them: the counter banks and the generator's output. -/

namespace Sys2Proof.Machine

/-! A run of registers. -/

theorem foldl_range_succ {α : Type} (f : α → Nat → α) (x : α) (n : Nat) :
    (List.range (n + 1)).foldl f x = f ((List.range n).foldl f x) n := by
  rw [List.range_succ, List.foldl_append]
  rfl

section
variable (s : State) (a : Nat) (f : Nat → Nat)

theorem State.reg_foldl_wr_ne {b n : Nat} (h : b < a ∨ a + 4 * n ≤ b) :
    ((List.range n).foldl (fun s i => s.wr (a + 4 * i) (f i)) s).reg b = s.reg b := by
  induction n with
  | zero => rfl
  | succ n ih =>
    rw [foldl_range_succ, State.reg_wr, if_neg (by omega)]
    exact ih (by omega)

theorem State.rg_foldl_wr {i n : Nat} (h : i < n) :
    ((List.range n).foldl (fun s i => s.wr (a + 4 * i) (f i)) s).rg (a + 4 * i) = f i % 0x100000000 := by
  induction n with
  | zero => omega
  | succ n ih =>
    rw [foldl_range_succ, State.rg_wr]
    split
    next heq =>
      have : i = n := by omega
      rw [this]
    next hne => exact ih (by omega)

theorem State.reg_foldl_wr64_ne {b n : Nat} (h : b < a ∨ a + 8 * n ≤ b) :
    ((List.range n).foldl (fun s i => s.wr64 (a + 8 * i) (f i)) s).reg b = s.reg b := by
  induction n with
  | zero => rfl
  | succ n ih =>
    rw [foldl_range_succ, State.wr64, State.reg_wr, if_neg (by omega), State.reg_wr, if_neg (by omega)]
    exact ih (by omega)

theorem State.rg_wr_same (n : Nat) : (s.wr a n).rg a = n % 4294967296 := by
  rw [State.rg_wr]
  exact if_pos rfl

theorem State.rg64_wr64 (n : Nat) : (s.wr64 a n).rg64 a = n % 2 ^ 64 := by
  have hlo : ((s.wr a n).wr (a + 4) (n >>> 32)).rg a = n % 4294967296 := by
    rw [State.rg_wr_ne _ (by omega), State.rg_wr_same]
  unfold State.rg64 State.wr64
  rw [hlo, State.rg_wr_same, Nat.shiftLeft_eq, Nat.shiftRight_eq_div_pow]
  omega

theorem State.rg64_wr64_same (n : Nat) (h : n < 2 ^ 64) : (s.wr64 a n).rg64 a = n := by
  rw [State.rg64_wr64, Nat.mod_eq_of_lt h]

theorem State.reg_wr64_ne {b : Nat} (hlo : b ≠ a) (hhi : b ≠ a + 4) (n : Nat) : (s.wr64 a n).reg b = s.reg b := by
  rw [State.wr64, State.reg_wr, if_neg hhi, State.reg_wr, if_neg hlo]

theorem State.rg64_of_reg {t : State} (hlo : t.reg a = s.reg a) (hhi : t.reg (a + 4) = s.reg (a + 4)) : t.rg64 a = s.rg64 a := by
  unfold State.rg64 State.rg
  rw [hlo, hhi]

theorem State.rg64_lt : s.rg64 a < 2 ^ 64 := by
  have hlo := s.rg_lt a
  have hhi := s.rg_lt (a + 4)
  unfold State.rg64
  rw [Nat.shiftLeft_eq]
  omega

theorem State.rg64_foldl_wr64 {i n : Nat} (h : i < n) (hf : f i < 2 ^ 64) :
    ((List.range n).foldl (fun s i => s.wr64 (a + 8 * i) (f i)) s).rg64 (a + 8 * i) = f i := by
  induction n with
  | zero => omega
  | succ n ih =>
    rw [foldl_range_succ]
    by_cases hi : i = n
    · rw [hi] at hf ⊢
      exact State.rg64_wr64_same _ _ _ hf
    · rw [← ih (by omega)]
      refine State.rg64_of_reg _ _ ?_ ?_ <;> rw [State.wr64, State.reg_wr, if_neg (by omega), State.reg_wr, if_neg (by omega)]

end

/-! GBANK_SNAP (R1004). -/

/-- A copy of a run to a place above it reads the run as it stood. -/
theorem State.foldl_copy64 (s : State) {a b n : Nat} (h : b + 8 * n ≤ a) :
    (List.range n).foldl (fun s k => s.wr64 (a + 8 * k) (s.rg64 (b + 8 * k))) s =
      (List.range n).foldl (fun t k => t.wr64 (a + 8 * k) (s.rg64 (b + 8 * k))) s := by
  induction n with
  | zero => simp only [List.range_zero, List.foldl_nil]
  | succ n ih =>
    have hread : ((List.range n).foldl (fun t k => t.wr64 (a + 8 * k) (s.rg64 (b + 8 * k))) s).rg64 (b + 8 * n) = s.rg64 (b + 8 * n) :=
      State.rg64_of_reg _ _ (State.reg_foldl_wr64_ne _ _ _ (by omega)) (State.reg_foldl_wr64_ne _ _ _ (by omega))
    rw [foldl_range_succ, foldl_range_succ, ih (by omega), hread]

/-- The counters and the epoch number that GBANK_SNAP copies, as they stood. -/
def State.snapped (s : State) : State :=
  (List.range 16).foldl (fun t k => t.wr64 (Reg.CNT_SNAP_n_LO + 8 * k) (s.rg64 (Reg.CNT_GCTR_0_LO + 8 * k))) s

theorem State.rg64_snapped (s : State) {k : Nat} (h : k < 16) :
    s.snapped.rg64 (Reg.CNT_SNAP_n_LO + 8 * k) = s.rg64 (Reg.CNT_GCTR_0_LO + 8 * k) :=
  State.rg64_foldl_wr64 s Reg.CNT_SNAP_n_LO (fun k => s.rg64 (Reg.CNT_GCTR_0_LO + 8 * k)) h (s.rg64_lt _)

theorem State.reg_snapped_ne (s : State) {a : Nat} (h : a < Reg.CNT_SNAP_n_LO ∨ Reg.CNT_SNAP_n_LO + 128 ≤ a) :
    s.snapped.reg a = s.reg a :=
  State.reg_foldl_wr64_ne s Reg.CNT_SNAP_n_LO (fun k => s.rg64 (Reg.CNT_GCTR_0_LO + 8 * k)) (n := 16) h

theorem State.snapped_regsOnly (s : State) : s.RegsOnly s.snapped := State.RegsOnly.foldl (fun h => h.wr64 _ _) _ (State.RegsOnly.refl s)

theorem State.snapCounters_eq (s : State) : s.snapCounters = s.snapped.wr Reg.CNT_SNAP_EPOCH (s.rg Reg.GOV_EPOCH_NUM_LO) := by
  have hepoch : s.snapped.rg Reg.GOV_EPOCH_NUM_LO = s.rg Reg.GOV_EPOCH_NUM_LO :=
    congrArg BitVec.toNat (s.reg_snapped_ne (by decide))
  have hcopy : s.snapCounters = s.snapped.wr Reg.CNT_SNAP_EPOCH (s.snapped.rg Reg.GOV_EPOCH_NUM_LO) :=
    congrArg (fun t : State => t.wr Reg.CNT_SNAP_EPOCH (t.rg Reg.GOV_EPOCH_NUM_LO)) (s.foldl_copy64 (n := 16) (by decide))
  rw [hcopy, hepoch]

theorem exec_gbankSnap (p : Path) {v : Word} (s : State) (h : bit v.toNat 0 = true) :
    exec (.gbankSnap p v) s = .next (s.turn p).snapCounters := if_pos h

/-! The page counters and the generator. -/

theorem pgReg_add (page o n : Nat) : pgReg page (o + n) = pgReg page o + n := by
  unfold pgReg
  omega

theorem tunReg_add (tun o n : Nat) : tunReg tun (o + n) = tunReg tun o + n := (Nat.add_assoc _ _ _).symm

theorem exec_gbankClear_eq (p : Path) (v : Word) (s : State) : exec (.gbankClear p v) s = effectGbankClear p v (s.turn p) := rfl

theorem exec_ctrClear_eq (p : Path) (page : Nat) (v : Word) (s : State) : exec (.ctrClear p page v) s = effectCtrClear p page v (s.turn p) := rfl

theorem exec_ctrClear (p : Path) {page : Nat} (v : Word) (s : State) (h : (pageOf page).isSome = true) :
    exec (.ctrClear p page v) s = .next (if bit v.toNat 1 = false then (s.turn p).wf (pgReg page Reg.H_CTRL) 0 0 (fld v.toNat 0 0) else
      (List.range 4).foldl (fun s k => s.wr (pgReg page Reg.H_CTR_0 + 4 * k) 0)
        ((s.turn p).wf (pgReg page Reg.H_CTRL) 0 0 (fld v.toNat 0 0))) := by
  have hs : ¬(pageOf page).isNone = true := by
    rw [Option.isNone_iff_eq_none]
    exact Option.isSome_iff_ne_none.1 h
  rw [exec_ctrClear_eq, effectCtrClear, if_neg hs]
  simp only [← pgReg_add]

theorem exec_phxGo_eq (p : Path) (tun : Nat) (v : Word) (s : State) : exec (.phxGo p tun v) s = effectPhxGo p tun v (s.turn p) := rfl

theorem exec_phxGo (p : Path) {tun : Nat} {v : Word} (s : State) (ht : tun < 128) (h : bit v.toNat 0 = true) :
    exec (.phxGo p tun v) s = .next ((List.range 4).foldl (fun t i => t.wr (tunReg tun Reg.TUN_PHX_OUT_0 + 4 * i)
      ((philox ((s.turn p).rg64 (tunReg tun Reg.TUN_PHX_KEY_LO)) ((s.turn p).rg (tunReg tun Reg.TUN_PHX_CTR_0))
        ((s.turn p).rg (tunReg tun (Reg.TUN_PHX_CTR_0 + 4))) ((s.turn p).rg (tunReg tun (Reg.TUN_PHX_CTR_0 + 8)))
        ((s.turn p).rg (tunReg tun (Reg.TUN_PHX_CTR_0 + 12)))).getD i 0)) (s.turn p)) := by
  have hgo : ¬(128 ≤ tun ∨ bit v.toNat 0 = false) := by
    simp only [h, Bool.true_eq_false, or_false]
    omega
  rw [exec_phxGo_eq, effectPhxGo, if_neg hgo]
  simp only [← tunReg_add]

theorem exec_gbankClear (p : Path) (v : Word) (s : State) : exec (.gbankClear p v) s = .next (if bit v.toNat 1 = true then
    (List.range 16).foldl (fun s k => s.wr64 (Reg.CNT_GCTR_0_LO + 8 * k) 0) ((s.turn p).wr Reg.CNT_GBANK_CTRL (v.toNat &&& 5))
    else (s.turn p).wr Reg.CNT_GBANK_CTRL (v.toNat &&& 5)) := by
  rw [exec_gbankClear_eq, effectGbankClear]
  exact (apply_ite Host.Outcome.next _ _ _).symm

/-- Settles O10, by what runs of written registers hold (`State.rg64_foldl_wr64`, `State.rg_foldl_wr`). -/
theorem counterCommandsComplete : Obligations.CounterCommandsComplete := by
  unfold Obligations.CounterCommandsComplete
  refine ⟨?_, ?_, ?_⟩
  · intro p v s u hu hgo
    refine ⟨_, exec_gbankSnap p s hgo, ?_, ?_, ?_, ?_⟩ <;> rw [← hu, State.snapCounters_eq]
    · intro k hk
      rw [← u.rg64_snapped hk]
      refine State.rg64_of_reg _ _ ?_ ?_ <;> rw [State.reg_wr, if_neg]
      · simp only [Reg.CNT_SNAP_n_LO, Reg.CNT_SNAP_EPOCH]
        omega
      · simp only [Reg.CNT_SNAP_n_LO, Reg.CNT_SNAP_EPOCH]
        omega
    · rw [State.rg_wr_same]
      exact Nat.mod_eq_of_lt (u.rg_lt _)
    · intro a ha hne
      rw [State.reg_wr, if_neg hne, u.reg_snapped_ne ha]
    · exact u.snapped_regsOnly.wr _ _
  · intro p v s u hu
    refine ⟨_, exec_gbankClear p v s, ?_⟩
    rw [← hu]
    split
    · refine ⟨?_, ?_, ?_, ?_⟩
      · have hctrl : Reg.CNT_GBANK_CTRL < Reg.CNT_GCTR_0_LO := by decide
        rw [State.rg, State.reg_foldl_wr64_ne _ Reg.CNT_GCTR_0_LO (fun _ => 0) (n := 16) (Or.inl hctrl)]
        rw [← State.rg, State.rg_wr_same]
        exact Nat.mod_eq_of_lt (Nat.lt_of_le_of_lt Nat.and_le_right (by decide))
      · exact fun k hk => State.rg64_foldl_wr64 _ Reg.CNT_GCTR_0_LO (fun _ => 0) hk (by decide)
      · intro a ha hne
        rw [State.reg_foldl_wr64_ne _ Reg.CNT_GCTR_0_LO (fun _ => 0) (n := 16) ha, State.reg_wr, if_neg hne]
      · exact State.RegsOnly.foldl (fun h => h.wr64 _ _) _ ((State.RegsOnly.refl u).wr _ _)
    · refine ⟨?_, ?_, ?_, (State.RegsOnly.refl u).wr _ _⟩
      · rw [State.rg_wr_same]
        exact Nat.mod_eq_of_lt (Nat.lt_of_le_of_lt Nat.and_le_right (by decide))
      · intro k hk
        refine State.rg64_of_reg _ _ ?_ ?_ <;> rw [State.reg_wr, if_neg]
        · simp only [Reg.CNT_GCTR_0_LO, Reg.CNT_GBANK_CTRL]
          omega
        · simp only [Reg.CNT_GCTR_0_LO, Reg.CNT_GBANK_CTRL]
          omega
      · intro a ha hne
        rw [State.reg_wr, if_neg hne]
  · intro p page v s u hu hpage
    have hbelow : pgReg page Reg.H_CTRL < pgReg page Reg.H_CTR_0 := Nat.add_lt_add_left (by decide) _
    have henable : (u.wf (pgReg page Reg.H_CTRL) 0 0 (fld v.toNat 0 0)).rf (pgReg page Reg.H_CTRL) 0 0 = fld v.toNat 0 0 := by
      rw [State.rf_wf_same _ _ _ _ (by decide)]
      exact Nat.mod_mod _ _
    refine ⟨_, exec_ctrClear p v s hpage, ?_⟩
    rw [← hu]
    split
    next hclear =>
      refine ⟨henable, ?_, ?_, (State.RegsOnly.refl u).wf _ _ _ _⟩
      · intro k hk
        rw [pgReg_add page Reg.H_CTR_0, hclear, if_neg (by decide), State.rg, State.reg_wf_ne _ (by omega)]
        rfl
      · exact fun a ha hne => State.reg_wf_ne _ hne _ _ _
    next hclear =>
      refine ⟨?_, ?_, ?_, ?_⟩
      · have hkept := State.reg_foldl_wr_ne (u.wf (pgReg page Reg.H_CTRL) 0 0 (fld v.toNat 0 0)) (pgReg page Reg.H_CTR_0) (fun _ => 0)
          (n := 4) (Or.inl hbelow)
        exact (congrArg (fun w : Word => fld w.toNat 0 0) hkept).trans henable
      · intro k hk
        rw [pgReg_add page Reg.H_CTR_0, if_pos (Bool.not_eq_false _ ▸ hclear)]
        exact State.rg_foldl_wr _ (pgReg page Reg.H_CTR_0) (fun _ => 0) hk
      · intro a ha hne
        rw [State.reg_foldl_wr_ne _ (pgReg page Reg.H_CTR_0) (fun _ => 0) (n := 4) ha, State.reg_wf_ne _ hne]
      · exact State.RegsOnly.foldl (fun h => h.wr _ _) _ ((State.RegsOnly.refl u).wf _ _ _ _)

/-- Settles O20, by what a run of written registers holds. -/
theorem philoxGoWritesItsOutput : Obligations.PhiloxGoWritesItsOutput := by
  unfold Obligations.PhiloxGoWritesItsOutput
  refine ⟨?_, fun p tun v s h => if_pos (Or.inr h)⟩
  intro p tun v s u hu ht hgo
  refine ⟨_, exec_phxGo p s ht hgo, ?_, ?_, ?_⟩ <;> rw [← hu]
  · intro i hi
    rw [tunReg_add tun Reg.TUN_PHX_OUT_0]
    exact State.rg_foldl_wr u (tunReg tun Reg.TUN_PHX_OUT_0) (fun i => List.getD _ i 0) hi
  · exact fun a ha => State.reg_foldl_wr_ne u (tunReg tun Reg.TUN_PHX_OUT_0) (fun i => List.getD _ i 0) (n := 4) ha
  · exact State.RegsOnly.foldl (fun h => h.wr _ _) _ (State.RegsOnly.refl u)

end Sys2Proof.Machine
end

section
/-! PROOFS. A register's field after a write of another field; function resets and the host link. -/

namespace Sys2Proof.Machine

/-! A field after a write of another. -/

/-- A word with a field replaced, as the parts above, in and below the field. -/
theorem setFld_eq (w hi lo v : Nat) : setFld w hi lo v =
    2 ^ lo * (2 ^ (hi + 1 - lo) * (w / 2 ^ lo / 2 ^ (hi + 1 - lo)) + v % 2 ^ (hi + 1 - lo)) + w % 2 ^ lo := by
  simp only [fld, setFld, Nat.one_shiftLeft, Nat.and_two_pow_sub_one_eq_mod]
  simp only [Nat.shiftLeft_eq, Nat.shiftRight_eq_div_pow]
  generalize 2 ^ (hi + 1 - lo) = m
  generalize 2 ^ lo = b
  have hw : w = b * (m * (w / b / m)) + b * (w / b % m) + w % b := by
    rw [← Nat.mul_add, Nat.div_add_mod, Nat.div_add_mod]
  have hmul : w / b % m * b = b * (w / b % m) := Nat.mul_comm _ _
  have hv : v % m * b = b * (v % m) := Nat.mul_comm _ _
  rw [Nat.mul_add, hmul, hv]
  omega

theorem fld_setFld_below (w : Nat) {hi lo h l : Nat} (v : Nat) (hd : h < lo) : fld (setFld w hi lo v) h l = fld w h l := by
  rw [← fld_mod_two_pow _ l hd, ← fld_mod_two_pow w l hd, setFld_eq, Nat.mul_add_mod, Nat.mod_mod]

theorem fld_setFld_above (w : Nat) {hi lo h l : Nat} (v : Nat) (hlo : lo ≤ hi) (hd : hi < l) : fld (setFld w hi lo v) h l = fld w h l := by
  have hhigh : setFld w hi lo v / 2 ^ lo / 2 ^ (hi + 1 - lo) = w / 2 ^ lo / 2 ^ (hi + 1 - lo) := by
    rw [setFld_eq, Nat.mul_add_div (Nat.two_pow_pos lo), Nat.div_eq_of_lt (Nat.mod_lt w (Nat.two_pow_pos lo)), Nat.add_zero,
      Nat.mul_add_div (Nat.two_pow_pos _), Nat.div_eq_of_lt (Nat.mod_lt v (Nat.two_pow_pos _)), Nat.add_zero]
  have hshift : ∀ x : Nat, x >>> l = (x / 2 ^ lo / 2 ^ (hi + 1 - lo)) >>> (l - (hi + 1)) := by
    intro x
    rw [← Nat.shiftRight_eq_div_pow, ← Nat.shiftRight_eq_div_pow, ← Nat.shiftRight_add, ← Nat.shiftRight_add]
    congr 1
    omega
  rw [fld, hshift, hhigh, ← hshift, ← fld]

/-- A field of a register is kept by a write of a field that shares no bit with it. -/
theorem State.rf_wf_disjoint (s : State) (a : Nat) {hi lo h l : Nat} (v : Nat) (hlo : lo ≤ hi) (hh : h < 32) (hd : h < lo ∨ hi < l) :
    (s.wf a hi lo v).rf a h l = s.rf a h l := by
  rw [State.rf, State.wf, State.rg_wr, if_pos rfl]
  refine (fld_mod_two_pow (n := 32) _ l hh).trans ?_
  cases hd with
  | inl hd => exact fld_setFld_below _ _ hd
  | inr hd => exact fld_setFld_above _ _ hlo hd

/-! Function resets. -/

theorem exec_flr_eq (vf : Nat) (s : State) : exec (.flr vf) s = execFlr vf s := rfl
theorem exec_flrComplete_eq (func : Nat) (s : State) : exec (.flrComplete func) s = execFlrComplete func s := rfl

theorem exec_flr {vf : Nat} (s : State) (h1 : 1 ≤ vf) (h2 : vf ≤ 63) :
    exec (.flr vf) s = .next (((s.bump Reg.HOST_FLR_COUNT 1).event 0x0906 pgHost).flrFunc vf) := by
  rw [exec_flr_eq, execFlr, if_neg (by omega)]

/-- The jobs of the queues that function func owns. -/
def State.funcJobs (s : State) (func : Nat) : List Job := s.jobs.filter (fun j => (s.funcQueues func).contains j.queue)

/-- A queue that an FLR has ended. -/
def Queue.flrEnd (k : Queue) : Queue := { k with state := .disabled, reserved := 0 }

theorem exec_flrComplete {func t0 : Nat} {s : State} (hflr : Tab.get (fun _ => none) s.hif.flr func = some t0)
    (hdone : (s.funcJobs func).any (fun j => decide (j.phase ≠ .done) || s.jobBusy j.entry) = false) {v : State}
    (hv : v = (s.funcQueues func).foldl (fun s q => s.updQueue q Queue.flrEnd)
      ((s.funcJobs func).foldl (fun s j => s.dropJob j.entry) s)) :
    exec (.flrComplete func) s = .next { v with hif := { v.hif with flr := Tab.put (fun _ => none) func none v.hif.flr } } := by
  subst hv
  rw [exec_flrComplete_eq, execFlrComplete, hflr]
  exact if_neg (by rw [← State.funcJobs, hdone]; decide)

/-- Queues updated one after another. -/
theorem State.queue_foldl_updQueue {f : Queue → Queue} (hf : ∀ k, f (f k) = f k) (qs : List Nat) (q : Nat) :
    ∀ s : State, (qs.foldl (fun s q => s.updQueue q f) s).queue q = if q ∈ qs then f (s.queue q) else s.queue q := by
  induction qs with
  | nil => exact fun s => (if_neg (List.not_mem_nil)).symm
  | cons x qs ih =>
    intro s
    rw [List.foldl_cons, ih, State.queue_updQueue]
    by_cases hx : q = x
    · subst hx
      simp [hf]
    · simp [hx]

theorem State.foldl_updQueue_frame {f : Queue → Queue} (qs : List Nat) :
    ∀ s : State, ∃ r, qs.foldl (fun s q => s.updQueue q f) s = { s with queues := r } := by
  induction qs with
  | nil => exact fun s => ⟨s.queues, rfl⟩
  | cons x qs ih =>
    intro s
    obtain ⟨r, hr⟩ := ih (s.updQueue x f)
    exact ⟨r, hr⟩

/-! The host link. -/

theorem exec_hostReadFailure_eq (fetch : Bool) (n : Nat) (s : State) : exec (.hostReadFailure fetch n) s = execHostReadFailure fetch n s := rfl
theorem exec_pcieLinkTraining_eq (rate width : Nat) (flit : Bool) (s : State) :
    exec (.pcieLinkTraining rate width flit) s = execPcieLinkTraining rate width flit s := rfl

theorem exec_hostReadFailure_fetch {q : Nat} {s : State} (h : (s.queue q).state = .enabled ∨ (s.queue q).state = .draining) :
    exec (.hostReadFailure true q) s = .next ((s.setQueue q { s.queue q with state := .error, dbErr := 8 }).raiseErr pgHost 0x0901 q) := by
  rw [exec_hostReadFailure_eq, execHostReadFailure, if_pos rfl]
  exact if_pos h

theorem exec_hostReadFailure_operand {e : Nat} {j : Job} {s : State} (hj : s.job e = some j) (hp : j.phase ≠ .done) :
    exec (.hostReadFailure false e) s = .next ((s.raiseErr pgHost 0x0902 j.queue).failJobs (fun x => x.entry == e) St.MEMORY_FAULT) := by
  rw [exec_hostReadFailure_eq, execHostReadFailure, if_neg (by decide), hj]
  exact if_neg hp

theorem exec_pcieLinkTraining {rate width : Nat} (flit : Bool) (s : State) (hr : rate ≤ 6) (hw : width ≤ 16) :
    exec (.pcieLinkTraining rate width flit) s = .next (((s.wf Reg.HOST_LINK_STATE 3 0 rate).wf Reg.HOST_LINK_STATE 12 8
      (if rate = 0 then 0 else width)).wf Reg.HOST_LINK_STATE 16 16 (b2n (flit && rate != 0))) := by
  rw [exec_pcieLinkTraining_eq, execPcieLinkTraining, if_neg (by omega)]

theorem rf_linkTraining (s : State) {rate width : Nat} (flit : Nat) (hr : rate ≤ 6) (hw : width ≤ 16) (hf : flit ≤ 1) {t : State}
    (ht : t = ((s.wf Reg.HOST_LINK_STATE 3 0 rate).wf Reg.HOST_LINK_STATE 12 8 width).wf Reg.HOST_LINK_STATE 16 16 flit) :
    t.rf Reg.HOST_LINK_STATE 3 0 = rate ∧ t.rf Reg.HOST_LINK_STATE 12 8 = width ∧ t.rf Reg.HOST_LINK_STATE 16 16 = flit ∧
      t.rf Reg.HOST_LINK_STATE 31 17 = s.rf Reg.HOST_LINK_STATE 31 17 ∧ (∀ a, a ≠ Reg.HOST_LINK_STATE → t.reg a = s.reg a) ∧
      t = { s with regs := t.regs } := by
  subst ht
  refine ⟨?_, ?_, ?_, ?_, fun a ha => ?_, (((State.RegsOnly.refl s).wf _ _ _ _).wf _ _ _ _).wf _ _ _ _⟩
  · rw [State.rf_wf_disjoint _ _ _ (by omega) (by omega) (by omega), State.rf_wf_disjoint _ _ _ (by omega) (by omega) (by omega),
      State.rf_wf_same _ _ _ _ (by omega)]
    exact Nat.mod_eq_of_lt (by omega)
  · rw [State.rf_wf_disjoint _ _ _ (by omega) (by omega) (by omega), State.rf_wf_same _ _ _ _ (by omega)]
    exact Nat.mod_eq_of_lt (by omega)
  · rw [State.rf_wf_same _ _ _ _ (by omega)]
    exact Nat.mod_eq_of_lt (by omega)
  · rw [State.rf_wf_disjoint _ _ _ (by omega) (by omega) (by omega), State.rf_wf_disjoint _ _ _ (by omega) (by omega) (by omega),
      State.rf_wf_disjoint _ _ _ (by omega) (by omega) (by omega)]
  · rw [State.reg_wf_ne _ ha, State.reg_wf_ne _ ha, State.reg_wf_ne _ ha]

/-- Settles O13, by the equation of each command; an FLR of a function ends with its queues disabled (log entry 155). -/
theorem functionResetsAndHostLink : Obligations.FunctionResetsAndHostLink := by
  unfold Obligations.FunctionResetsAndHostLink
  refine ⟨fun vf s h1 h2 => exec_flr s h1 h2, ?_, ?_, ?_, fun s => rfl, fun q s h => exec_hostReadFailure_fetch h,
    fun j s hj hp => exec_hostReadFailure_operand hj hp, ?_⟩
  · intro s u hu
    subst hu
    rfl
  · intro func t0 mine s u v hflr hmine hdone hu hv
    subst hmine hu
    exact exec_flrComplete hflr hdone hv
  · intro func t0 s hflr hjobs
    have hnone : s.funcJobs func = [] := by rw [State.funcJobs, hjobs, List.filter_nil]
    have hqueue := State.queue_foldl_updQueue (f := Queue.flrEnd) (fun _ => rfl) (s.funcQueues func)
    obtain ⟨r, hr⟩ := State.foldl_updQueue_frame (f := Queue.flrEnd) (s.funcQueues func) s
    refine ⟨_, exec_flrComplete hflr (by rw [hnone, List.any_nil]) rfl, ?_⟩
    rw [hnone, List.foldl_nil]
    refine ⟨fun q hq => ?_, fun q hq => ?_, ?_, ?_⟩
    · exact congrArg Queue.state ((hqueue q s).trans (if_pos hq))
    · exact (hqueue q s).trans (if_neg hq)
    · rw [hr]
    · rw [hr]
  · intro rate width flit s hr hw
    have hflit : b2n (flit && rate != 0) ≤ 1 := by
      unfold b2n
      split <;> omega
    have hwidth : (if rate = 0 then 0 else width) ≤ 16 := by
      split <;> omega
    exact ⟨_, exec_pcieLinkTraining flit s hr hw, rf_linkTraining s _ hr hwidth hflit rfl⟩

end Sys2Proof.Machine
end

section
/-! PROOFS. The records of errors and the region fences clear. -/

namespace Sys2Proof.Machine

/-! The commands' equations. -/

theorem exec_errFirstClear_eq (p : Path) (page : Nat) (s : State) : exec (.errFirstClear p page) s = effectErrFirstClear p page (s.turn p) := rfl
theorem exec_devFirstClear_eq (p : Path) (s : State) : exec (.devFirstClear p) s = effectDevFirstClear p (s.turn p) := rfl

/-- The header registers that hold a page's error records. -/
def errRecords : List Nat := [Reg.H_ERR_FIRST, Reg.H_ERR_FIRST_INFO, Reg.H_ERR_NEXT, Reg.H_ERR_NEXT_INFO, Reg.H_ERR_COUNT]

/-- A page's header with its error records cleared. -/
def State.errCleared (s : State) (page : Nat) : State :=
  (errRecords.foldl (fun s o => s.wr (pgReg page o) 0) s).wf (pgReg page Reg.H_STATUS) 2 2 0

theorem exec_errFirstClear (p : Path) {page : Nat} (s : State) (h : (pageOf page).isSome = true) :
    exec (.errFirstClear p page) s = .next ((s.turn p).errCleared page) := by
  have hs : ¬(pageOf page).isNone = true := by
    rw [Option.isNone_iff_eq_none]
    exact Option.isSome_iff_ne_none.1 h
  rw [exec_errFirstClear_eq, effectErrFirstClear, if_neg hs]
  rfl

theorem pgReg_ne (page : Nat) {o o' : Nat} (h : o ≠ o') : pgReg page o ≠ pgReg page o' := by
  unfold pgReg
  omega

theorem pgReg_ne_of_page {page a o : Nat} (h : a / 0x1000 ≠ page) (ho : o < 0x1000) : a ≠ pgReg page o := by
  unfold pgReg
  omega

theorem State.rg_foldl_zero_of_zero {page b : Nat} (l : List Nat) :
    ∀ {s : State}, s.rg b = 0 → (l.foldl (fun s o => s.wr (pgReg page o) 0) s).rg b = 0 := by
  induction l with
  | nil => exact fun h => h
  | cons o l ih =>
    intro s h
    refine ih ?_
    rw [State.rg_wr, h, Nat.zero_mod, ite_self]

theorem State.rg_foldl_zero (page : Nat) {o : Nat} {l : List Nat} (h : o ∈ l) :
    ∀ s : State, (l.foldl (fun s o => s.wr (pgReg page o) 0) s).rg (pgReg page o) = 0 := by
  induction l with
  | nil => exact absurd h List.not_mem_nil
  | cons x l ih =>
    intro s
    rcases List.mem_cons.1 h with rfl | h
    · exact State.rg_foldl_zero_of_zero l (State.rg_wr_same _ _ 0)
    · exact ih h _

theorem State.reg_foldl_zero_ne {page a : Nat} {l : List Nat} (h : ∀ o ∈ l, a ≠ pgReg page o) :
    ∀ s : State, (l.foldl (fun s o => s.wr (pgReg page o) 0) s).reg a = s.reg a := by
  induction l with
  | nil => exact fun _ => rfl
  | cons x l ih =>
    intro s
    rw [List.foldl_cons, ih (fun o ho => h o (List.mem_cons_of_mem _ ho)), State.reg_wr, if_neg (h x List.mem_cons_self)]

theorem State.rg_errCleared (s : State) (page : Nat) {o : Nat} (h : o ∈ errRecords) (hs : o ≠ Reg.H_STATUS) :
    (s.errCleared page).rg (pgReg page o) = 0 :=
  (congrArg BitVec.toNat (State.reg_wf_ne _ (pgReg_ne page hs) 2 2 0)).trans (State.rg_foldl_zero page h s)

theorem State.reg_errCleared_ne (s : State) {page a : Nat} (h : a / 0x1000 ≠ page) : (s.errCleared page).reg a = s.reg a := by
  have hrecords : ∀ o ∈ errRecords, o < 0x1000 := by decide
  rw [State.errCleared, State.reg_wf_ne _ (pgReg_ne_of_page h (by decide))]
  exact State.reg_foldl_zero_ne (fun o ho => pgReg_ne_of_page h (hrecords o ho)) s

/-! The fences. -/

/-- The bits of a word that lie in none of a mask's. -/
theorem testBit_sub_and (w m i : Nat) : (w - (w &&& m)).testBit i = (w.testBit i && !m.testBit i) := by
  induction i generalizing w m with
  | zero =>
    have hone : (w &&& m) % 2 = 1 ↔ w % 2 = 1 ∧ m % 2 = 1 := Nat.and_mod_two_eq_one
    have hle : (w &&& m) ≤ w := Nat.and_le_left
    rw [Bool.eq_iff_iff]
    simp only [Nat.testBit_zero, Bool.and_eq_true, decide_eq_true_eq, Bool.not_eq_true', decide_eq_false_iff_not]
    omega
  | succ i ih =>
    have hhalf : (w &&& m) / 2 = (w / 2 &&& m / 2) := Nat.and_div_two
    have hone : (w &&& m) % 2 = 1 → w % 2 = 1 := fun h => (Nat.and_mod_two_eq_one.1 h).1
    have hle : (w / 2 &&& m / 2) ≤ w / 2 := Nat.and_le_left
    have hdiv : (w - (w &&& m)) / 2 = w / 2 - (w / 2 &&& m / 2) := by omega
    rw [Nat.testBit_add_one, hdiv, ih, ← Nat.testBit_add_one, ← Nat.testBit_add_one]

theorem exec_fenceClear_eq (p : Path) (v : Word) (s u : State) (hu : u = s.turn p) : exec (.fenceClear p v) s =
    .next (u.wr Reg.ERRP_RG_FENCE (u.rg Reg.ERRP_RG_FENCE - (u.rg Reg.ERRP_RG_FENCE &&& v.toNat))) := by
  subst hu
  rfl

/-- Settles O50, by the equation of each command and the bits of a word without a mask's (`testBit_sub_and`). -/
theorem errorRecordsClear : Obligations.ErrorRecordsClear := by
  unfold Obligations.ErrorRecordsClear
  refine ⟨?_, ?_, ?_, ?_⟩
  · intro p page s u hu hpage
    subst hu
    refine ⟨_, exec_errFirstClear p s hpage, ?_, ?_, ?_, ?_, ?_, ?_, fun a ha => State.reg_errCleared_ne _ ha,
      (State.RegsOnly.foldl (fun h => h.wr _ _) _ (State.RegsOnly.refl _)).wf _ _ _ _⟩
    · exact State.rg_errCleared _ page (by decide) (by decide)
    · exact State.rg_errCleared _ page (by decide) (by decide)
    · exact State.rg_errCleared _ page (by decide) (by decide)
    · exact State.rg_errCleared _ page (by decide) (by decide)
    · exact State.rg_errCleared _ page (by decide) (by decide)
    · exact State.rf_wf_same _ _ 2 0 (by decide)
  · intro p s u hu hf
    subst hu
    have hf' : ¬(s.turn p).fatal = true := by rw [hf]; decide
    refine ⟨_, (exec_devFirstClear_eq p s).trans (if_neg hf'), ?_, ?_, ?_, ?_⟩
    · rw [State.wr64, State.rg_wr_ne _ (by decide), State.rg_wr_ne _ (by decide), State.rg_wr_ne _ (by decide), State.rg_wr_same]
    · rw [State.wr64, State.rg_wr_ne _ (by decide), State.rg_wr_ne _ (by decide), State.rg_wr_same]
    · exact State.rg64_wr64_same _ _ 0 (by decide)
    · exact (((State.RegsOnly.refl _).wr _ _).wr _ _).wr64 _ _
  · intro p s u hu hf
    subst hu
    exact if_pos hf
  · intro p v s u hu
    refine ⟨_, exec_fenceClear_eq p v s u hu, ?_, fun a ha => ?_, (State.RegsOnly.refl u).wr _ _⟩
    · intro i _
      rw [State.rg_wr_same, Nat.mod_eq_of_lt (Nat.lt_of_le_of_lt (Nat.sub_le _ _) (u.rg_lt _))]
      exact testBit_sub_and _ _ i
    · rw [State.reg_wr, if_neg ha]

end Sys2Proof.Machine
end

section
/-! PROOFS. An interrupt enters its handler. -/

namespace Sys2Proof.Machine

variable {k : Nat} {s : State}

/-! What the timer's look changes: the core's timer bit alone. -/

theorem State.core_coreTimer_same (k : Nat) (s : State) :
    (s.coreTimer k).core k = (s.core k).timerAt s.time (Nat.max (s.core k).nextIssue s.gov.ccycles) := by
  rw [State.coreTimer, State.core_updCore, if_pos rfl]

theorem State.core_coreTimer_ne (s : State) {i : Nat} (h : i ≠ k) : (s.coreTimer k).core i = s.core i := by
  rw [State.coreTimer, State.core_updCore, if_neg h]

/-- A core's look at the timer changes its timer bit alone. -/
theorem Core.timerAt_frame (c : Core) (time at_ : Nat) : c.timerAt time at_ = { c with timer := (c.timerAt time at_).timer } := by
  unfold Core.timerAt
  split <;> rfl

/-! The take of an interrupt. -/

theorem State.core_takeIrq (k i : Nat) (s : State) : (s.takeIrq k).core i = if i = k then { s.core k with
    epc := (s.core k).pc, cause := two64 / 2 + irqCode (s.core k).pendingSources, tval := 0
    status := 4 * b2n (bit (s.core k).status 2) + 2, pc := (s.core k).tvec, stall := none
    nextIssue := Nat.max (s.core k).nextIssue (((s.core k).lastIssue.map (· + 4)).getD 0) } else s.core i :=
  State.core_updCore _ k i _

/-- What a trap or an interrupt leaves behind it: its record in the core's page, and an event. -/
theorem State.noteTrap_event_frame (k cause tval epc code page : Nat) (e : EvSource) (s : State) :
    ∃ r ev, (s.noteTrap k cause tval epc).event code page e = { s with regs := r, events := ev } := by
  have hnote : s.noteTrap k cause tval epc = { s with regs := (s.noteTrap k cause tval epc).regs } := rfl
  rw [hnote]
  unfold State.event
  split
  · exact ⟨_, _, rfl⟩
  · exact ⟨_, _, rfl⟩

theorem State.takeIrq_frame (k : Nat) (s : State) :
    ∃ r e g, s.takeIrq k = { s with regs := r, events := e, gnm := g } := by
  unfold State.takeIrq
  extract_lets +onlyGivenNames c cause t
  obtain ⟨r, e, ht⟩ : ∃ r e, t = { s with regs := r, events := e } := State.noteTrap_event_frame _ _ _ _ _ _ _ s
  clear_value t
  subst ht
  exact ⟨r, e, _, rfl⟩

theorem exec_interruptTake_eq (k : Nat) (s : State) : exec (.interruptTake k) s = execInterruptTake k s := rfl

theorem exec_interruptTake_raises {e w at_ : Nat} {v : State} (hk : k < 8) (hirq : ((s.coreTimer k).core k).irq = true)
    (hc : (s.coreTimer k).checkBundle k = (v, .raises e w at_)) : exec (.interruptTake k) s = .next (v.trap k e w at_) := by
  have hgo : ¬(8 ≤ k ∨ ((s.coreTimer k).core k).irq = false) := by
    simp only [hirq, Bool.true_eq_false, or_false]
    omega
  rw [exec_interruptTake_eq, execInterruptTake, if_neg hgo, hc]

theorem exec_interruptTake {v : State} {x : Checked} (hk : k < 8) (hirq : ((s.coreTimer k).core k).irq = true)
    (hc : (s.coreTimer k).checkBundle k = (v, x)) (hx : ∀ e w at_, x ≠ .raises e w at_) :
    exec (.interruptTake k) s = .next ((s.coreTimer k).takeIrq k) := by
  have hgo : ¬(8 ≤ k ∨ ((s.coreTimer k).core k).irq = false) := by
    simp only [hirq, Bool.true_eq_false, or_false]
    omega
  rw [exec_interruptTake_eq, execInterruptTake, if_neg hgo, hc]
  split
  next e => exact absurd (congrArg Prod.snd e) (hx _ _ _)
  · rfl

/-- Settles O27: the core that looked at its timer is the core before it but for the timer bit (`Core.timerAt_frame`). -/
theorem interruptEntersTheHandler : Obligations.InterruptEntersTheHandler := by
  unfold Obligations.InterruptEntersTheHandler
  refine ⟨?_, fun k e w at_ s u v hk hu hirq hc => ?_⟩
  · intro k s u v x hk hu hirq hc hx
    subst hu
    have hcore : (s.coreTimer k).core k = { s.core k with timer := ((s.coreTimer k).core k).timer } := by
      rw [State.core_coreTimer_same]
      exact Core.timerAt_frame _ _ _
    refine ⟨_, exec_interruptTake hk hirq hc hx, ?_⟩
    have htaken := State.core_takeIrq k k (s.coreTimer k)
    rw [if_pos rfl] at htaken
    rw [htaken]
    refine ⟨?_, rfl, rfl, ?_, ?_, rfl, ?_, ?_, ?_, fun i hi => ?_, ?_⟩
    · rw [hcore]
    · rw [hcore]
    · rw [hcore]
    · rw [hcore]
    · rw [hcore]
    · rw [hcore]
    · rw [State.core_takeIrq, if_neg hi, State.core_coreTimer_ne s hi]
    · obtain ⟨r, e, g, hg⟩ := State.takeIrq_frame k (s.coreTimer k)
      rw [hg]
      rfl
  · subst hu
    exact exec_interruptTake_raises hk hirq hc

end Sys2Proof.Machine
end

section
/-! PROOFS. TIME_LOAD and the governor's writes. -/

namespace Sys2Proof.Machine

theorem exec_timeLoad_eq (p : Path) (v : Word) (s : State) : exec (.timeLoad p v) s = effectTimeLoad p v (s.turn p) := rfl
theorem exec_budgetWrite_eq (p : Path) (r : Option Nat) (v : Word) (s : State) :
    exec (.budgetWrite p r v) s = effectBudgetWrite p r v (s.turn p) := rfl
theorem exec_epochLenWrite_eq (p : Path) (v : Word) (s : State) : exec (.epochLenWrite p v) s = .next ((s.turn p).epochLenWrite v.toNat) := rfl
theorem exec_clkCtrlWrite_eq (p : Path) (v : Word) (s : State) : exec (.clkCtrlWrite p v) s = .next ((s.turn p).clkCtrlWrite v.toNat) := rfl

/-! TIME_LOAD (R712). -/

theorem State.timeLoad_of_busy {s : State} {v : Nat} {busy : Bool} (hv : bit v 0 = true) (h : busy = true ∨ 0 < s.poolUsed) :
    s.timeLoad v busy = s.govReason 3 := by
  rw [State.timeLoad, if_neg (by rw [hv]; decide), if_pos (by simpa using h)]

/-- The state at a new TIME, and its epoch. -/
def State.timeLoaded (s : State) : State :=
  ({ s with time := s.rg64 Reg.GOV_TIME_LOAD_LO / 5 * 5, gov := { s.gov with epochLen := s.rg Reg.GOV_EPOCH_LEN } }.wr64
    Reg.GOV_EPOCH_START_LO (s.rg64 Reg.GOV_TIME_LOAD_LO / 5 * 5)).wr64 Reg.GOV_EPOCH_NEXT_LO
    (s.rg64 Reg.GOV_TIME_LOAD_LO / 5 * 5 + s.rg Reg.GOV_EPOCH_LEN)

theorem State.timeLoad_of_idle {s : State} {v : Nat} (hv : bit v 0 = true) (h : s.poolUsed = 0) : s.timeLoad v false = s.timeLoaded := by
  rw [State.timeLoad, if_neg (by rw [hv]; decide), if_neg (by simp [h])]
  rfl

/-- Samplings that recur, and idle times, go on from the present TIME. -/
def State.timeRestarted (s : State) : State :=
  [1, 2, 3].foldl (fun s n => s.setEngLull (engineAt n) { s.engLull (engineAt n) with idleSince := s.time })
    { s with
      gov := { s.gov with lastSample := s.time }
      ent := { s.ent with lastSample := s.time }
      ibi := { s.ibi with lastRaised := none }
      boot := { s.boot with tachWindow := s.time / 1000000000 }
      tun := { s.tun with tuns := Tab.mapV (fun _ => TunSt.reset) (fun _ x => { x with idleSince := s.time }) s.tun.tuns }
      gnm := { s.gnm with cores := Tab.mapV (fun _ => Core.reset) (fun _ (c : Core) => { c with idleSince := s.time }) s.gnm.cores } }

theorem State.timeRestarted_kept (s : State) : s.timeRestarted.time = s.time ∧ s.timeRestarted.gov = { s.gov with lastSample := s.time } ∧
    s.timeRestarted.regs = s.regs ∧ s.timeRestarted.jobs = s.jobs ∧ s.timeRestarted.queues = s.queues ∧
    s.timeRestarted.hostMem = s.hostMem ∧ s.timeRestarted.commons = s.commons ∧ s.timeRestarted.hbm = s.hbm :=
  ⟨rfl, rfl, rfl, rfl, rfl, rfl, rfl, rfl⟩

theorem State.timeLoaded_kept (s : State) : s.timeLoaded.jobs = s.jobs ∧ s.timeLoaded.queues = s.queues ∧
    s.timeLoaded.hostMem = s.hostMem ∧ s.timeLoaded.commons = s.commons ∧ s.timeLoaded.hbm = s.hbm :=
  ⟨rfl, rfl, rfl, rfl, rfl⟩

theorem State.timeLoaded_time (s : State) : s.timeLoaded.time = s.rg64 Reg.GOV_TIME_LOAD_LO / 5 * 5 := by
  rw [State.timeLoaded, State.wr64_time, State.wr64_time]

theorem State.timeLoaded_epochLen (s : State) : s.timeLoaded.gov.epochLen = s.rg Reg.GOV_EPOCH_LEN := by
  rw [State.timeLoaded, State.wr64_gov, State.wr64_gov]

theorem exec_timeLoad_of_same {p : Path} {v : Word} {s : State}
    (h : ((s.turn p).timeLoad v.toNat (s.turn p).working).time = (s.turn p).time) :
    exec (.timeLoad p v) s = .next ((s.turn p).timeLoad v.toNat (s.turn p).working) := by
  rw [exec_timeLoad_eq, effectTimeLoad]
  exact if_pos h

theorem exec_timeLoad_of_ne {p : Path} {v : Word} {s : State}
    (h : ((s.turn p).timeLoad v.toNat (s.turn p).working).time ≠ (s.turn p).time) :
    exec (.timeLoad p v) s = .next ((s.turn p).timeLoad v.toNat (s.turn p).working).timeRestarted := by
  rw [exec_timeLoad_eq, effectTimeLoad]
  exact if_neg h

theorem State.rg64_start_timeLoaded (s : State) :
    s.timeLoaded.rg64 Reg.GOV_EPOCH_START_LO = s.rg64 Reg.GOV_TIME_LOAD_LO / 5 * 5 % 2 ^ 64 := by
  rw [← State.rg64_wr64 { s with time := s.rg64 Reg.GOV_TIME_LOAD_LO / 5 * 5, gov := { s.gov with epochLen := s.rg Reg.GOV_EPOCH_LEN } }]
  exact State.rg64_of_reg _ _ (State.reg_wr64_ne _ _ (by decide) (by decide) _) (State.reg_wr64_ne _ _ (by decide) (by decide) _)

theorem State.rg64_next_timeLoaded (s : State) :
    s.timeLoaded.rg64 Reg.GOV_EPOCH_NEXT_LO = (s.rg64 Reg.GOV_TIME_LOAD_LO / 5 * 5 + s.rg Reg.GOV_EPOCH_LEN) % 2 ^ 64 :=
  State.rg64_wr64 _ _ _

/-! The other writes. -/

theorem exec_epochLenWrite {p : Path} {v : Word} {s : State} (h : 100000 ≤ v.toNat ∧ v.toNat ≤ 100000000 ∧ v.toNat % 5 = 0) :
    exec (.epochLenWrite p v) s = .next (match (s.turn p).gov.bound with
      | none => (s.turn p).wr Reg.GOV_EPOCH_LEN v.toNat
      | some b => { (s.turn p).wr Reg.GOV_EPOCH_LEN v.toNat with gov := { (s.turn p).gov with epochLen := v.toNat } }.wr64
          Reg.GOV_EPOCH_NEXT_LO (b + v.toNat)) := by
  rw [exec_epochLenWrite_eq, State.epochLenWrite, if_neg (by omega)]
  rfl

/-- WATTS limited to 150 to 700 (Table 13-7). -/
def limitWatts (w : Nat) : Nat := if w < 150 then 150 else if 700 < w then 700 else w

theorem limitWatts_mem (w : Nat) : 150 ≤ limitWatts w ∧ limitWatts w ≤ 700 := by
  unfold limitWatts
  split
  · omega
  · split <;> omega

theorem limitWatts_of_mem {w : Nat} (h1 : 150 ≤ w) (h2 : w ≤ 700) : limitWatts w = w := by
  rw [limitWatts, if_neg (by omega), if_neg (by omega)]

theorem State.budgetWrite_eq (s : State) (v : Nat) :
    s.budgetWrite v = s.wr Reg.GOV_BUDGET ((fld v 31 24 <<< 24) ||| limitWatts (fld v 9 0)) := rfl

theorem State.rf_wr_same (s : State) (a n : Nat) {hi : Nat} (lo : Nat) (h : hi < 32) : (s.wr a n).rf a hi lo = fld n hi lo := by
  rw [State.rf, State.rg_wr_same]
  exact fld_mod_two_pow (n := 32) _ lo h

/-- The two fields of a BUDGET word. -/
theorem fld_budget {r w : Nat} (hr : r < 256) (hw : w < 1024) : fld ((r <<< 24) ||| w) 9 0 = w ∧ fld ((r <<< 24) ||| w) 31 24 = r := by
  rw [← Nat.shiftLeft_add_eq_or_of_lt (by omega)]
  simp only [fld, Nat.shiftLeft_eq, Nat.shiftRight_eq_div_pow]
  omega

/-- Settles O31, by the equation of each write. The samplings and idle times that go on from the new TIME are log entry 114's. -/
theorem governorWritesComplete : Obligations.GovernorWritesComplete := by
  unfold Obligations.GovernorWritesComplete
  refine ⟨?_, ?_, ?_, ?_, ?_, ?_, ?_, ?_, ?_⟩
  · intro p v s u hu hv hidle hpool hne
    subst hu
    have hload := State.timeLoad_of_idle hv hpool
    rw [← hidle] at hload
    have hrun : exec (.timeLoad p v) s = .next (s.turn p).timeLoaded.timeRestarted := by
      rw [← hload]
      refine exec_timeLoad_of_ne ?_
      rw [hload, State.timeLoaded_time]
      exact hne
    clear hload hne hidle hpool
    generalize s.turn p = u at hrun ⊢
    obtain ⟨htime, hgov, hregs, hjobs, hqueues, hhost, hcom, hhbm⟩ := u.timeLoaded.timeRestarted_kept
    obtain ⟨kjobs, kqueues, khost, kcom, khbm⟩ := u.timeLoaded_kept
    have hreg : ∀ a, u.timeLoaded.timeRestarted.reg a = u.timeLoaded.reg a := fun a => congrArg (fun r => Tab.get regReset r a) hregs
    refine ⟨u.timeLoaded.timeRestarted, hrun, ?_⟩
    rw [htime, hgov, State.timeLoaded_time]
    refine ⟨rfl, u.timeLoaded_epochLen, rfl, ?_, ?_, hjobs.trans kjobs, hqueues.trans kqueues, hhost.trans khost, hcom.trans kcom,
      hhbm.trans khbm⟩
    · exact (State.rg64_of_reg _ _ (hreg _) (hreg _)).trans u.rg64_start_timeLoaded
    · exact (State.rg64_of_reg _ _ (hreg _) (hreg _)).trans u.rg64_next_timeLoaded
  · intro p v s u hu hv hbusy
    subst hu
    have hload := State.timeLoad_of_busy hv hbusy
    have hsame : ((s.turn p).timeLoad v.toNat (s.turn p).working).time = (s.turn p).time := by
      rw [hload]
      exact State.wr_time _ _ _
    rw [exec_timeLoad_of_same hsame, hload]
  · intro p v s u hu
    subst hu
    have hw := limitWatts_mem (fld v.toNat 9 0)
    have hr : fld v.toNat 31 24 < 256 := Nat.mod_lt _ (by decide)
    obtain ⟨hwatts, hrest⟩ := fld_budget hr (w := limitWatts (fld v.toNat 9 0)) (by omega)
    have hread : ((s.turn p).budgetWrite v.toNat).rf Reg.GOV_BUDGET 9 0 = limitWatts (fld v.toNat 9 0) :=
      (State.rf_wr_same _ _ _ 0 (by decide)).trans hwatts
    refine ⟨(s.turn p).budgetWrite v.toNat, rfl, ?_, ?_, ?_, ?_, fun a ha => ?_, (State.RegsOnly.refl _).wr _ _⟩
    · rw [hread]
      exact hw.1
    · rw [hread]
      exact hw.2
    · intro h1 h2
      rw [hread, limitWatts_of_mem h1 h2]
    · exact (State.rf_wr_same _ _ _ 24 (by decide)).trans hrest
    · rw [State.budgetWrite_eq, State.reg_wr, if_neg ha]
  · intro p r v s u hu hr
    subst hu
    exact (exec_budgetWrite_eq p (some r) v s).trans (if_neg (by omega))
  · intro p v s u hu h1 h2 h3 hb
    subst hu
    rw [exec_epochLenWrite ⟨h1, h2, h3⟩, hb]
  · intro p v b s u w hu h1 h2 h3 hb hw
    subst hw hu
    rw [exec_epochLenWrite ⟨h1, h2, h3⟩, hb]
    rfl
  · intro p v s u hu h
    subst hu
    rw [exec_epochLenWrite_eq, State.epochLenWrite, if_pos h]
  · intro p v s u hu h
    subst hu
    rw [exec_clkCtrlWrite_eq, State.clkCtrlWrite, if_neg (by omega)]
  · intro p v s u hu h
    subst hu
    rw [exec_clkCtrlWrite_eq, State.clkCtrlWrite, if_pos h]

end Sys2Proof.Machine
end

section
/-! PROOFS. Sparges of the commons and of a tun. -/

namespace Sys2Proof.Machine

theorem exec_spargeCommand_eq (p : Path) (v : Word) (s : State) : exec (.spargeCommand p v) s = effectSpargeCommand p v (s.turn p) := rfl
theorem exec_spargeDone_eq (s : State) : exec .spargeDone s = execSpargeDone s := rfl

theorem State.memCommand_sparge (s : State) {a : MemAsk} (h : a.op = none) : s.memCommand a = s.spargeGo a := by
  rw [State.memCommand, h]

/-! A sparge of the commons. -/

/-- Inverted bits forgotten, a word at a time: the memory's own state alone changes. -/
theorem State.foldl_setMark_frame (l : List Nat) : ∀ s : State, ∃ m, l.foldl (fun s k => s.setMark k 0) s = { s with mem := m } := by
  induction l with
  | nil => exact fun s => ⟨s.mem, rfl⟩
  | cons k l ih =>
    intro s
    obtain ⟨m, hm⟩ := ih (s.setMark k 0)
    exact ⟨m, hm⟩

/-- What a sparge of the commons leaves: the bytes outside its range, and a sparge that runs. -/
theorem State.spargeGo_commons {s : State} {a : MemAsk} (hready : s.ready = true) (hkind : a.kind = 1) (hbase : a.start % 64 = 0)
    (hne : a.count ≠ 0) (hcount : a.count % 64 = 0) (hfit : a.start + a.count ≤ spaceSize spCom)
    (hown : s.rangeOwned spCom a.start a.count = false) (hmarch : s.rangeMarched spCom a.start a.count = false)
    (hsparge : s.sparging spCom a.start a.count = false) :
    ∃ m, s.spargeGo a = { s with
      mem := m, commons := Tab.keep (fun x _ => !(decide (a.start ≤ x) && decide (x < a.start + a.count))) s.commons }.spargeStatus 1 0 := by
  have hkinds : ¬(2 < a.kind ∨ a.kind = 0 ∧ 127 < a.inst) := by omega
  have hrange : ¬(a.start % 64 ≠ 0 ∨ a.count = 0 ∨ a.count % 64 ≠ 0 ∨ spaceSize spCom < a.start + a.count) := by omega
  have hfree : ¬(s.rangeOwned spCom a.start a.count = true ∨ s.rangeMarched spCom a.start a.count = true ∨
      s.sparging spCom a.start a.count = true) := by
    simp [hown, hmarch, hsparge]
  unfold State.spargeGo
  extract_lets +onlyGivenNames refuse base n
  rw [if_neg (by rw [hready]; decide), if_neg hkinds, if_neg (by omega), if_pos hkind, if_neg hrange, if_neg hfree]
  extract_lets +onlyGivenNames inR keep t gone u
  obtain ⟨m, hm⟩ : ∃ m, u = { t with mem := m } := State.foldl_setMark_frame gone t
  have ht : t = { s with commons := keep s.commons } := if_pos rfl
  clear_value u t
  subst hm ht
  exact ⟨_, rfl⟩

/-! A sparge of a tun. -/

theorem State.spargeGo_tun {s : State} {a : MemAsk} (hready : s.ready = true) (hkind : a.kind = 0) (hinst : a.inst < 128)
    (huse : s.tunInUse a.inst = false) (hgw : s.gwClaims a.inst = false) (hbusy : s.targetBusy 0 a.inst = false) :
    s.spargeGo a = { s.updTun a.inst (fun x => { x with load := none, loading := false }) with mem := { s.mem with
      sparges := s.mem.sparges ++ [({ tun := some a.inst, space := 0, base := 0, bytes := 0, from_ := s.gov.ccycles } : Sparge)] } }.spargeStatus 1 0 := by
  have hkinds : ¬(2 < a.kind ∨ a.kind = 0 ∧ 127 < a.inst) := by omega
  have hfree : ¬(s.tunInUse a.inst = true ∨ s.gwClaims a.inst = true ∨ s.targetBusy 0 a.inst = true) := by
    simp [huse, hgw, hbusy]
  rw [State.spargeGo, if_neg (by rw [hready]; decide), if_neg hkinds, if_pos hkind, if_neg hfree]
  rfl

/-- Settles O37: a sparge of the commons keeps the bytes outside its range alone (`Tab.get_keep`). -/
theorem spargesComplete : Obligations.SpargesComplete := by
  unfold Obligations.SpargesComplete
  refine ⟨?_, ?_, ?_, ?_, ?_, ?_⟩
  · intro p v a s u hu hv ha
    subst ha hu
    rw [exec_spargeCommand_eq, effectSpargeCommand, if_neg (by rw [hv]; decide)]
  · intro p v s u hu hv
    subst hu
    exact if_pos hv
  · intro a s t hop hready hkind hbase hne hcount hfit hown hmarch hsparge hwf ht
    obtain ⟨m, hm⟩ := State.spargeGo_commons hready hkind hbase hne hcount hfit hown hmarch hsparge
    rw [State.memCommand_sparge s hop, hm] at ht
    subst ht
    have hget := Tab.get_keep (fun _ => (0 : Byte)) (fun x => !(decide (a.start ≤ x) && decide (x < a.start + a.count))) s.commons
    refine ⟨fun x h1 h2 => ?_, fun x h => ?_, State.rg_wr_same _ _ _, rfl, rfl⟩
    · exact (hget x).trans (if_neg (by simp [h1, h2]))
    · refine (hget x).trans (if_pos ?_)
      simp only [Bool.not_eq_true', Bool.and_eq_false_iff, decide_eq_false_iff_not]
      omega
  · intro a s hop hready hkind hinst huse hgw hbusy
    rw [State.memCommand_sparge s hop, State.spargeGo_tun hready hkind hinst huse hgw hbusy]
    refine ⟨?_, State.rg_wr_same _ _ _⟩
    have htun := State.tunSt_updTun s a.inst a.inst (fun x => { x with load := none, loading := false })
    rw [if_pos rfl] at htun
    exact congrArg TunSt.load htun
  · intro g gs s hg htun
    rw [exec_spargeDone_eq, execSpargeDone, hg]
    simp only [htun]
    exact if_neg (by simp)
  · intro g gs n s u hg htun hdue hu
    subst hu
    rw [exec_spargeDone_eq, execSpargeDone, hg]
    simp only [htun]
    exact if_neg (by omega)

end Sys2Proof.Machine
end

section
/-! PROOFS. The resets, and the state after reset. -/

namespace Sys2Proof.Machine

theorem exec_coldReset_eq (cause : Nat) (s : State) : exec (.coldReset cause) s = execColdReset cause s := rfl
theorem exec_resetNRise_eq (pos : Nat) (recovery : Bool) (s : State) :
    exec (.resetNRise pos recovery) s = execResetNRise pos recovery s := rfl
theorem exec_warmReset_eq (p : Path) (v : Word) (s : State) : exec (.warmReset p v) s = effectWarmReset p v (s.turn p) := rfl
theorem exec_pcieReset_eq (cause : Nat) (s : State) : exec (.pcieReset cause) s = execPcieReset cause s := rfl

/-! The state after reset. -/

theorem State.reg_reset (a : Nat) : State.reset.reg a = regReset a := rfl

theorem State.queue_reset (q : Nat) : State.reset.queue q = Queue.reset := rfl

/-- Settles O6: every table is empty after reset. -/
theorem resetIsCanonical : Obligations.ResetIsCanonical :=
  ⟨by decide, rfl, rfl, State.reg_reset, State.queue_reset, rfl, rfl⟩

/-! A cold reset. -/

/-- What a power loss cuts short is the key block's. -/
theorem State.lcCut_frame (s : State) : ∃ k f, s.lcCut = { s with key := k, fresh := f } := by
  unfold State.lcCut
  split
  · exact ⟨_, _, rfl⟩
  · dsimp only
    split
    · exact ⟨_, _, rfl⟩
    · split
      · exact ⟨_, _, rfl⟩
      · split
        · exact ⟨_, _, rfl⟩
        · exact ⟨_, _, rfl⟩

/-- Settles O52: a cold reset starts from the state after reset, where every register reads its reset value. That the commons and HBM read
0 is log entry 113's. -/
theorem resetsComplete : Obligations.ResetsComplete := by
  unfold Obligations.ResetsComplete
  refine ⟨?_, ?_, ?_, ?_, ?_⟩
  · intro cause s hcause
    obtain ⟨k, f, hcut⟩ := s.lcCut_frame
    rw [exec_coldReset_eq, execColdReset, if_neg (by omega), hcut]
    refine ⟨_, rfl, rfl, rfl, rfl, rfl, rfl, rfl, rfl, rfl, rfl, rfl, ?_, fun a ha hpin => ?_⟩
    · exact (State.rg_wr_same _ _ _).trans (Nat.mod_eq_of_lt (by omega))
    · rw [State.reg_wr, if_neg ha, State.reg_wf_ne _ hpin, State.reg_wf_ne _ hpin]
      rfl
  · intro pos recovery s hphase
    rw [exec_resetNRise_eq, execResetNRise, if_neg (by omega)]
  · intro v s u hu hv
    subst hu
    have hkey : effectWarmReset .manager v (s.turn .manager) = .next ((s.turn .manager).askWarm 2) := if_pos ⟨rfl, hv⟩
    rw [exec_warmReset_eq, hkey, State.askWarm]
    refine ⟨fun hf => ?_, fun hf hc => ?_, fun hf hc => ?_⟩
    · rw [if_pos hf]
    · rw [if_neg (by rw [hf]; decide), if_pos hc]
    · rw [if_neg (by rw [hf]; decide), if_neg (by rw [hc]; decide)]
  · intro p v s u hu h
    subst hu
    refine (exec_warmReset_eq p v s).trans (if_neg fun ⟨hp, hv⟩ => ?_)
    rcases h with h | h
    · exact absurd (h.symm.trans hp) (by decide)
    · exact h hv
  · intro cause s h1 h2
    rw [exec_pcieReset_eq, execPcieReset, if_neg (by omega)]

end Sys2Proof.Machine
end

section
/-! PROOFS. Bad accesses, the manager's messages, and the in-band interrupt. -/

namespace Sys2Proof.Machine

/-! Bad accesses (R982). -/

theorem badReason_size {len : Nat} (addr : Nat) (h4 : len ≠ 4) (h8 : len ≠ 8) : badReason addr len = some 1 := if_pos ⟨h4, h8⟩

theorem badReason_align {addr len : Nat} (hlen : len = 4 ∨ len = 8) (h : addr % len ≠ 0) : badReason addr len = some 2 := by
  rw [badReason, if_neg (by omega), if_pos h]

theorem badReason_unmapped {addr len : Nat} (hlen : len = 4 ∨ len = 8) (h : addr % len = 0) (hpage : pageOf (addr / 0x1000) = none) :
    badReason addr len = some 0 := by
  rw [badReason, if_neg (by omega), if_neg (by omega), hpage]
  rfl

theorem badReason_good {addr len : Nat} (hlen : len = 4 ∨ len = 8) (h : addr % len = 0) (hpage : (pageOf (addr / 0x1000)).isSome = true) :
    badReason addr len = none := by
  obtain ⟨x, hx⟩ := Option.isSome_iff_exists.1 hpage
  rw [badReason, if_neg (by omega), if_neg (by omega), hx]
  rfl

theorem exec_badAccess_bad (data : Option (List Byte)) {addr len r : Nat} (s : State) (h : badReason addr len = some r) :
    exec (.badAccess data addr len) s = .next (if data.isSome then (s.turn .host).noteBad .host r addr
      else ((s.turn .host).noteBad .host r addr).pathRead .host (List.replicate (ceilDiv len 4) 0)) := by
  change execBadAccess data addr len s = _
  unfold execBadAccess
  rw [h]

/-! The manager's messages (R991, R992). -/

/-- The words that a read of n registers from a gives, one after another, and the state after them. -/
def State.mgrReads (s : State) (a n : Nat) : State × List Word :=
  (List.range n).foldl (fun (x : State × List Word) j =>
    ((x.1.busRead .manager (a + 4 * j)), x.2 ++ [BitVec.ofNat 32 ((x.1.busRead .manager (a + 4 * j)).lastWord .manager)])) (s, [])

theorem State.mgrReads_succ (s : State) (a n : Nat) : s.mgrReads a (n + 1) =
    (((s.mgrReads a n).1.busRead .manager (a + 4 * n)),
      (s.mgrReads a n).2 ++ [BitVec.ofNat 32 (((s.mgrReads a n).1.busRead .manager (a + 4 * n)).lastWord .manager)]) :=
  foldl_range_succ _ _ _

theorem State.length_mgrReads (s : State) (a n : Nat) : (s.mgrReads a n).2.length = n := by
  induction n with
  | zero => rfl
  | succ n ih => rw [State.mgrReads_succ, List.length_append, ih, List.length_singleton]

/-- A path's last word is a word. -/
theorem State.lastWord_lt (s : State) (p : Path) : s.lastWord p < 2 ^ 32 := by
  unfold State.lastWord
  cases (s.path p).lastRead.head? with
  | none => decide
  | some w => exact w.isLt

/-- The bytes of a read's answer are those of its words. -/
theorem State.mgrRead_bytes (s : State) (a n : Nat) :
    (List.range n).foldl (fun (x : State × List Byte) j =>
        ((x.1.busRead .manager (a + 4 * j)), x.2 ++ natLE 4 ((x.1.busRead .manager (a + 4 * j)).lastWord .manager))) (s, []) =
      ((s.mgrReads a n).1, (s.mgrReads a n).2.flatMap (fun w => natLE 4 w.toNat)) := by
  induction n with
  | zero => rfl
  | succ n ih =>
    rw [foldl_range_succ, ih, State.mgrReads_succ]
    simp only [List.flatMap_append, List.flatMap_singleton, BitVec.toNat_ofNat]
    rw [Nat.mod_eq_of_lt (State.lastWord_lt _ _)]

/-- The words of a write arrive one after another. -/
theorem State.foldl_arrive (f : Nat → Nat × Word) (n : Nat) (s : State) :
    (List.range n).foldl (fun s j => s.arrive .manager (f j).1 (f j).2) s =
      { s with mgrPath := { s.mgrPath with waiting := s.mgrPath.waiting ++ (List.range n).map f } } := by
  induction n with
  | zero => simp
  | succ n ih =>
    rw [foldl_range_succ, ih, List.range_succ, List.map_append]
    simp only [State.arrive, State.updPath, List.map_cons, List.map_nil, List.append_assoc]

/-! The in-band interrupt (R996). -/

/-- A held interrupt is raised where the rate allows. -/
theorem exec_ibiRaise {s : State} (hrate : ∀ t0, s.ibi.lastRaised = some t0 → t0 + s.ibiGap ≤ s.time)
    (hheld : s.ibi.held01 = true ∨ s.ibi.held02 = true) : exec .ibiRaise s = .next { s with ibi := {
      held01 := s.ibi.held01 && (if s.ibi.held02 then 2 else 1) == 2, held02 := false, lastRaised := some s.time
      raised := (if s.ibi.held02 then 2 else 1) :: s.ibi.raised } } := by
  change execIbiRaise s = _
  unfold execIbiRaise
  extract_lets +onlyGivenNames isOpen
  have hopen : isOpen = true := by
    unfold isOpen
    split
    next t0 ht => exact decide_eq_true (hrate t0 ht)
    · rfl
  rw [hopen, if_neg (by rcases hheld with h | h <;> simp [h])]

/-- Settles O9, by the equation of each command: a bad access through its first reason (`badReason`), a message through its first failing
check. -/
theorem badAccessAndManagerPath : Obligations.BadAccessAndManagerPath := by
  unfold Obligations.BadAccessAndManagerPath
  refine ⟨?_, ?_, ?_, ?_, ?_, ?_, ?_, ?_, ?_, ?_, ?_, ?_, ?_⟩
  · intro data addr len s u hu hlen hlen2
    subst hu
    rw [exec_badAccess_bad data s (badReason_size addr hlen hlen2)]
  · intro data addr len s u hu hlen hlen2
    subst hu
    rw [exec_badAccess_bad data s (badReason_align hlen hlen2)]
  · intro data addr len s u hu hlen hlen2 hx1000
    subst hu
    rw [exec_badAccess_bad data s (badReason_unmapped hlen hlen2 hx1000)]
  · intro addr data s haddr hpage
    refine ⟨(s.arrive .host (addr + 4) (BitVec.ofNat 32 (leAt data 4 4))).arrive .host addr (BitVec.ofNat 32 (leAt data 0 4)), ?_, ?_,
        rfl⟩
    · change execBadAccess (some data) addr 8 s = _
      unfold execBadAccess
      rw [badReason_good (by omega) haddr hpage]
      rfl
    · simp [State.arrive, State.updPath]
  · intro addr s u v hu hv haddr hpage
    subst hv hu
    change execBadAccess none addr 8 s = _
    unfold execBadAccess
    rw [badReason_good (by omega) haddr hpage]
    rfl
  · intro via msg s htakes hop hcheck
    refine ⟨_, _, rfl, State.length_mgrReads _ _ _, ?_⟩
    change execMgrRegisterRead via msg s = _
    have hgo : ¬(s.mgrTakes via msg = false ∨ leAt msg 3 1 = 2) := by simp [htakes, hop]
    have hok : ¬mgrCheck via msg ≠ 0 := by simp [hcheck]
    rw [execMgrRegisterRead, if_neg hgo, if_neg hok, State.mgrRead_bytes]
    rfl
  · intro via msg s hmgrTakes hmsg hmsg2
    change execMgrRegisterRead via msg s = _
    simp [execMgrRegisterRead, hmgrTakes, hmsg, hmsg2]
  · intro via msg s hmgrTakes hmsg hmsg2
    change execMgrRegisterWrite via msg s = _
    simp [execMgrRegisterWrite, hmgrTakes, hmsg, hmsg2]
  · intro via msg s htakes hop hcheck
    have hgo : ¬(s.mgrTakes via msg = false ∨ leAt msg 3 1 = 1) := by simp [htakes, hop]
    have hok : ¬mgrCheck via msg ≠ 0 := by simp [hcheck]
    have hrun : exec (.mgrRegisterWrite via msg) s = .next (((List.range (leAt msg 5 1)).foldl (fun (s : State) j =>
        s.arrive .manager (leAt msg 8 4 + 4 * j) (BitVec.ofNat 32 (leAt msg (12 + 4 * j) 4))) s).mgrSend (mgrResponse msg 0 [])) := by
      change execMgrRegisterWrite via msg s = _
      rw [execMgrRegisterWrite, if_neg hgo, if_neg hok]
    rw [State.foldl_arrive (fun j => (leAt msg 8 4 + 4 * j, BitVec.ofNat 32 (leAt msg (12 + 4 * j) 4)))] at hrun
    exact ⟨_, hrun, rfl, rfl, rfl⟩
  · intro msg s
    have hpec : s.mgrTakes (.i3c false) msg = false := rfl
    constructor
    · change execMgrRegisterRead (.i3c false) msg s = _
      rw [execMgrRegisterRead, if_pos (Or.inl hpec)]
    · change execMgrRegisterWrite (.i3c false) msg s = _
      rw [execMgrRegisterWrite, if_pos (Or.inl hpec)]
  · intro s hheld hrate
    rw [exec_ibiRaise hrate (Or.inr hheld), hheld]
    simp
  · intro s hheld hnone hrate
    rw [exec_ibiRaise hrate (Or.inl hheld), hheld, hnone]
    simp [hnone]
  · intro t0 s hlastRaised htime
    change execIbiRaise s = _
    simp [execIbiRaise, hlastRaised, htime]

end Sys2Proof.Machine
end

section
/-! PROOFS. Lull, wake-up, and the loss and return of REFCLK. -/

namespace Sys2Proof.Machine

theorem Lull.wakes_waking (off : Bool) {t0 now : Nat} (h : t0 ≤ now) : (Lull.waking off t0).wakes now = some off := if_pos h

/-- Settles O32, by the equation of each command; a resource wakes by the end of its wake-up (`Lull.wakes_waking`). -/
theorem lullAndRefclk : Obligations.LullAndRefclk := by
  unfold Obligations.LullAndRefclk
  refine ⟨?_, ?_, ?_, ?_, ?_, ?_, ?_, ?_, ?_, ?_⟩
  · intro s hrefclk hlocked
    change execRefclkLoss s = _
    simp only [execRefclkLoss, hrefclk, hlocked]
    rfl
  · intro s hrefclk hlocked
    change execRefclkLoss s = _
    simp only [execRefclkLoss, hrefclk, hlocked]
    rfl
  · intro s
    change execRefclkReturn s = _
    simp only [execRefclkReturn]
  · intro n s hlullOn hh hlull htunIdle hidleSince
    change execLullEntry (.tun n) s = _
    simp only [execLullEntry, hlullOn, hh, hlull, htunIdle, hidleSince]
    rfl
  · intro k s hlullOn hh hlull hcoreIdle hidleSince
    change execLullEntry (.core k) s = _
    simp only [execLullEntry, hlullOn, hh, hlull, hcoreIdle, hidleSince]
    rfl
  · intro n s hlullOn hh hh2 hlull hengineIdle hidleSince
    change execLullEntry (.engine n) s = _
    simp only [execLullEntry, hlullOn, hh, hh2, hlull, hengineIdle, hidleSince]
    rfl
  · intro n s hh hready hrf hisSome hload hlull htunIdle hidleSince
    change execLullOffEntry n s = _
    simp only [execLullOffEntry, hh, hready, hrf, hisSome, hload, hlull, htunIdle, hidleSince]
    rfl
  · intro n t0 off s u hlull ht0 hu
    subst hu
    have hwakes : (s.tunSt n).lull.wakes s.time = some off := by rw [hlull, Lull.wakes_waking off ht0]
    change execWakeComplete (.tun n) s = _
    simp only [execWakeComplete, hwakes]
  · intro k t0 off s u hlull ht0 hu
    subst hu
    have hwakes : (s.core k).lull.wakes s.time = some off := by rw [hlull, Lull.wakes_waking off ht0]
    change execWakeComplete (.core k) s = _
    simp only [execWakeComplete, hwakes]
  · intro n t0 off s h1 h3 hlull ht0
    have hwakes : (s.engLull (engineAt n)).lull.wakes s.time = some off := by rw [hlull, Lull.wakes_waking off ht0]
    change execWakeComplete (.engine n) s = _
    unfold execWakeComplete
    have hn : ¬(n = 0 ∨ 3 < n) := by omega
    simp only [if_neg hn, hwakes]

end Sys2Proof.Machine
end

section
/-! PROOFS. The pins. -/

namespace Sys2Proof.Machine

theorem Tab.get_foldl_put {α : Type} [DecidableEq α] (d : Nat → α) (v : α) (l : List Nat) (i : Nat) :
    ∀ t : Tab α, Tab.get d (l.foldl (fun t k => Tab.put d k v t) t) i = if i ∈ l then v else Tab.get d t i := by
  induction l with
  | nil => exact fun t => (if_neg List.not_mem_nil).symm
  | cons k l ih =>
    intro t
    rw [List.foldl_cons, ih, Tab.get_put]
    by_cases hl : i ∈ l
    · simp [hl]
    · simp [hl]

theorem exec_gpioFuncWrite_eq (p : Path) (v : Word) (s : State) : exec (.gpioFuncWrite p v) s = effectGpioFuncWrite p v (s.turn p) := rfl

/-- The fields of a word that differ from the functions of the GPIO pins. -/
def State.gpioChanged (s : State) (v : Word) : List Nat :=
  (List.range 8).filter (fun g => fld v.toNat (4 * g + 3) (4 * g) != s.gpioFunc g)

theorem State.mem_gpioChanged {s : State} {v : Word} {g : Nat} (hg : g < 8) :
    g ∈ s.gpioChanged v ↔ ¬fld v.toNat (4 * g + 3) (4 * g) = s.gpioFunc g := by
  simp [State.gpioChanged, hg]

theorem exec_gpioFuncWrite {p : Path} {v : Word} {s : State}
    (h : (List.range 8).find? (fun g => !gpioAllowed g (fld v.toNat (4 * g + 3) (4 * g))) = none) :
    exec (.gpioFuncWrite p v) s = .next ({ s.turn p with boot := { (s.turn p).boot with
      gpioSwitch := ((s.turn p).gpioChanged v).foldl (fun t g => Tab.put (fun _ => 0) g (sclkEdge (s.turn p).time) t)
        (s.turn p).boot.gpioSwitch } }.wr Reg.PINS_GPIO_FUNC v.toNat) := by
  rw [exec_gpioFuncWrite_eq, effectGpioFuncWrite, h]
  rfl

/-- The tachometers' counts at the end of a window. -/
theorem State.tachRoll_eq {s : State} (h : s.time / 1000000000 ≠ s.boot.tachWindow) :
    s.tachRoll = (List.range 4).foldl (fun t n => t.wr (Reg.PINS_TACH_0 + 4 * n) (Nat.min (Tab.get (fun _ => 0) s.boot.tach n) 0xFFFF))
      { s with boot := { s.boot with tach := [], tachWindow := s.time / 1000000000 } } := by
  rw [State.tachRoll, if_neg h]

theorem State.RegsOnly.boot {s t : State} (h : s.RegsOnly t) : t.boot = s.boot := by
  rw [h]

theorem State.pathRead_lastRead (s : State) (p : Path) (v : List Word) :
    (if p = .host then (s.pathRead p v).hostPath else (s.pathRead p v).mgrPath).lastRead = v := by
  cases p <;> rfl

theorem State.pathRead_reg (s : State) (p : Path) (v : List Word) (a : Nat) : (s.pathRead p v).reg a = s.reg a := by
  cases p <;> rfl

theorem State.pathRead_rf (s : State) (p : Path) (v : List Word) (a hi lo : Nat) : (s.pathRead p v).rf a hi lo = s.rf a hi lo := by
  cases p <;> rfl

/-- Settles O57, by the equation of each command and what a register reads after the writes of that command. -/
theorem pinCommandsComplete : Obligations.PinCommandsComplete := by
  unfold Obligations.PinCommandsComplete
  refine ⟨?_, ?_, ?_, ?_, ?_, ?_, ?_, ?_, ?_⟩
  · intro p v s u hu hrange
    subst hu
    refine ⟨_, exec_gpioFuncWrite hrange, ?_, ?_, ?_⟩
    · rw [State.rg_wr_same]
      exact Nat.mod_eq_of_lt v.isLt
    · exact fun a ha => (State.reg_wr _ _ _ _).trans (if_neg ha)
    · intro g hg
      change Tab.get (fun _ => 0) (((s.turn p).gpioChanged v).foldl _ _) g = _
      rw [Tab.get_foldl_put]
      simp only [State.mem_gpioChanged hg, ite_not]
  · intro p v g s u hu htoNat
    subst hu
    change execGpioFuncWrite p v s = _
    simp only [execGpioFuncWrite, effectGpioFuncWrite, htoNat]
  · intro n s u hh hgpioCarries hu
    subst hu
    change execTachRisingEdge n s = _
    simp [execTachRisingEdge, hh, hgpioCarries]
  · intro s hwindow
    refine ⟨s.tachRoll, rfl, ?_, ?_, ?_⟩
    · intro n hn
      rw [State.tachRoll_eq hwindow, State.rg_foldl_wr _ Reg.PINS_TACH_0 (fun n => Nat.min (Tab.get (fun _ => 0) s.boot.tach n) 0xFFFF)
          hn]
      exact Nat.mod_eq_of_lt (Nat.lt_of_le_of_lt (Nat.min_le_right _ _) (by decide))
    · rw [State.tachRoll_eq hwindow, (State.RegsOnly.foldl (fun h => h.wr _ _) _ (State.RegsOnly.refl _)).boot]
    · rw [State.tachRoll_eq hwindow, (State.RegsOnly.foldl (fun h => h.wr _ _) _ (State.RegsOnly.refl _)).boot]
  · intro b s hlcState hgpioCarries
    change execUartRxByte b s = _
    simp only [execUartRxByte, hlcState, hgpioCarries]
    rfl
  · intro b s hlcState
    change execUartRxByte b s = _
    simp [execUartRxByte, hlcState]
  · intro p s u hu
    subst hu
    refine ⟨((s.turn p).wf Reg.PINS_UART_RXDATA 8 8 0).pathRead p [BitVec.ofNat 32 ((s.turn p).rg Reg.PINS_UART_RXDATA)], rfl, ?_, ?_, ?_,
        ?_⟩
    · rw [State.pathRead_rf, State.rf_wf_same _ _ _ _ (by decide)]
      decide
    · rw [State.pathRead_lastRead]
    · rw [State.pathRead_rf, State.rf_wf_disjoint _ _ _ (by decide) (by decide) (by decide)]
    · intro a ha
      rw [State.pathRead_reg, State.reg_wf_ne _ ha]
  · intro s hreq
    refine ⟨_, rfl, ?_, ?_, rfl, ?_⟩
    · exact State.rf_wf_same s _ 4 1 (by decide)
    · exact beq_iff_eq.2 hreq
    · exact fun a ha => s.reg_wf_ne ha 4 4 1
  · intro s
    refine ⟨_, rfl, ?_, rfl, rfl, ?_⟩
    · exact State.rf_wf_same s _ 4 0 (by decide)
    · exact fun a ha => s.reg_wf_ne ha 4 4 0

end Sys2Proof.Machine
end

section
/-! PROOFS. The calibration commands. -/

namespace Sys2Proof.Machine

/-- Settles O54, by the equation of each command; a commit gives the code of its first failing check, in the order of the model (log entry
162). -/
theorem calibrationCommandsComplete : Obligations.CalibrationCommandsComplete := by
  unfold Obligations.CalibrationCommandsComplete
  refine ⟨?_, ?_, ?_, ?_, ?_, ?_, ?_, ?_⟩
  · intro p v s u hu
    subst hu
    change execCalLoad p v s = _
    simp only [execCalLoad, effectCalLoad]
  · intro p v s u hu
    subst hu
    change execCalClear p v s = _
    simp only [execCalClear, effectCalClear]
  · intro p v body full s u hu hlcState hpoolUsed hcommit hcalStage hcalStage2 hbody hfull
    subst hfull hbody hu
    change execCalCommit p v s = _
    simp only [execCalCommit, effectCalCommit, hlcState, hpoolUsed, hcommit, hcalStage, hcalStage2]
    rfl
  · intro p v s u hu
    subst hu
    change (_ → effectCalCommit p v (s.turn p) = _) ∧ (_ → _ → effectCalCommit p v (s.turn p) = _) ∧
      (_ → _ → _ → _ → effectCalCommit p v (s.turn p) = _) ∧ (_ → _ → _ → _ → _ → effectCalCommit p v (s.turn p) = _)
    unfold effectCalCommit
    refine ⟨?_, ?_, ?_, ?_⟩
    · exact fun hlost => if_pos hlost
    · intro hlc hbusy
      rw [if_neg hlc, if_pos hbusy]
    · intro hlc hpool hcommit hreserved
      simp [hlc, hpool, hcommit, hreserved]
    · intro hlc hpool hcommit hreserved hrange
      simp [hlc, hpool, hcommit, hreserved, hrange]
  · intro t0 c s hcommit hwarmWaits
    change execCalCommitDone s = _
    simp only [execCalCommitDone, hcommit, hwarmWaits]
  · intro p v s u hu htoNat
    subst hu
    change effectCalBadOp p v (s.turn p) = _
    exact if_neg (by omega)
  · intro p d w s u hu hw
    subst hw hu
    refine ⟨_, rfl, ?_, rfl, ?_, rfl⟩
    · exact (State.rg_wr_same _ _ _).trans (Nat.mod_eq_of_lt (Nat.lt_of_lt_of_le (Nat.mod_lt _ (by decide)) (by decide)))
    · exact fun a ha => (State.reg_wr _ _ _ _).trans (if_neg ha)
  · intro p w s u hu hw
    subst hw hu
    refine ⟨(((s.turn p).wr Reg.BOOT_CAL_PTR (((s.turn p).rf Reg.BOOT_CAL_PTR 9 0 + 1) % 1024)).pathRead p
      [BitVec.ofNat 32 (calAt (s.turn p).boot.calStage (4 * (s.turn p).rf Reg.BOOT_CAL_PTR 9 0) 4)]), ?_, ?_, ?_, ?_, ?_⟩
    · cases p <;> rfl
    · cases p <;> exact (State.rg_wr_same _ _ _).trans (Nat.mod_eq_of_lt (Nat.lt_of_lt_of_le (Nat.mod_lt _ (by decide)) (by decide)))
    · cases p <;> rfl
    · rw [State.pathRead_lastRead]
    · intro a ha
      rw [State.pathRead_reg]
      exact (State.reg_wr _ _ _ _).trans (if_neg ha)

end Sys2Proof.Machine
end

section
/-! PROOFS. The responder's answers. -/

namespace Sys2Proof.Machine

/-- Settles O41, by the equation of each request: its checks in their order, then the answer or the task that waits for the KEY channel.
The decoded answers, their error codes and the capability word are the model's choice (log entry 91). -/
theorem responderAnswers : Obligations.ResponderAnswers := by
  unfold Obligations.ResponderAnswers
  refine ⟨?_, ?_, ?_, ?_, ?_, ?_, ?_, ?_, ?_, ?_, ?_, ?_, ?_⟩
  · intro e data s hmctpUp
    change execMctpControl e 4 data s = _
    simp only [execMctpControl, hmctpUp]
    rfl
  · intro data s hmctpUp
    change execMctpControl .i3c 1 data s = _
    simp only [execMctpControl, hmctpUp]
    rfl
  · intro e s hmctpUp
    change execSpdmRequest e none .version s = _
    simp only [execSpdmRequest, hmctpUp]
    rfl
  · intro e s hmctpUp
    change execSpdmRequest e none .capabilities s = _
    simp only [execSpdmRequest, hmctpUp]
    rfl
  · intro e s hmctpUp hchain
    change execSpdmRequest e none .digests s = _
    have hsome : (s.key.chain != []) = true := bne_iff_ne.2 hchain
    simp [execSpdmRequest, hmctpUp, hsome, hchain, b2n]
  · intro e i x s hmctpUp hid hdone
    change execSpdmRequest e (some i) (.finish true) s = _
    simp [execSpdmRequest, hmctpUp, hid, hdone]
  · intro e n s hmctpUp
    change execSpdmRequest e none (.other n) s = _
    simp only [execSpdmRequest, hmctpUp]
    rfl
  · intro e index sign m s hmctpUp hindex hsign
    change execGetMeasurements e none index sign m s = _
    have hrange : ¬(index ≠ 0xFF ∧ (index = 0 ∨ 4 < index)) := by omega
    have hsigner : ¬(sign = true ∧ s.signer.isNone = true) := by
      rcases hsign with h | h
      · simp [h]
      · simp [Option.isNone_iff_eq_none, Option.isSome_iff_ne_none.1 h]
    rw [execGetMeasurements, if_neg (by simp [hmctpUp]), if_neg (by simp), if_neg hrange, if_neg hsigner]
  · intro e i sign m index s hmctpUp hid
    change execGetMeasurements e (some i) index sign m s = _
    simp [execGetMeasurements, hmctpUp, hid]
  · intro e x y m s hmctpUp hlc hreset hcount hsigner hcurve
    change execKeyExchange e x y m s = _
    rw [execKeyExchange, if_neg (by simp [hmctpUp]), if_neg (by simp [hlc, hreset]), if_neg (by omega),
      if_neg (by simp [Option.isNone_iff_eq_none, Option.isSome_iff_ne_none.1 hsigner]), if_neg (by simp [hcurve])]
  · intro e x y m s hmctpUp hlc hpendingReset hh
    change execKeyExchange e x y m s = _
    simp only [execKeyExchange, hmctpUp, hlc, hpendingReset, hh]
    rfl
  · intro e x y m s hmctpUp hisSome
    change execKeyExchange e x y m s = _
    simp only [execKeyExchange, hmctpUp, hisSome]
    rfl
  · intro t m s htasks hwork hsince
    change execCtExpiry t.id s = _
    simp [execCtExpiry, htasks, hwork, hsince]

end Sys2Proof.Machine
end

section
/-! PROOFS. Lifecycle transitions. -/

namespace Sys2Proof.Machine

theorem exec_lcTransition_eq (p : Path) (v : Word) (s : State) : exec (.lcTransition p v) s = effectLcTransition p v (s.turn p) := rfl
theorem exec_lcBadOp_eq (p : Path) (v : Word) (s : State) : exec (.lcBadOp p v) s = effectLcBadOp p v (s.turn p) := rfl

/-- What a refused transition leaves: RESULT and CODE, or CODE alone while another transition runs. -/
def State.lcRefused (s : State) (code : Nat) : State :=
  if s.key.lc.isSome then s.wf Reg.KEY_LC_RESULT 7 0 code else s.lcResult 2 code

theorem State.lcRefused_of_none {s : State} (h : s.key.lc = none) (code : Nat) : s.lcRefused code = s.lcResult 2 code := by
  rw [State.lcRefused, h]
  rfl

theorem State.lcRefused_of_some {s : State} (h : s.key.lc.isSome = true) (code : Nat) :
    s.lcRefused code = s.wf Reg.KEY_LC_RESULT 7 0 code := if_pos h

theorem exec_lcTransition_host {v : Word} (s : State) (hop : fld v.toNat 31 28 = 1) :
    exec (.lcTransition .host v) s = .next ((s.turn .host).lcRefused 8) := by
  rw [exec_lcTransition_eq, effectLcTransition, if_neg (fun h => h hop), if_pos rfl]
  rfl

theorem exec_lcBadOp {p : Path} {v : Word} (s : State) (hop : fld v.toNat 31 28 ≠ 1) :
    exec (.lcBadOp p v) s = .next ((s.turn p).lcRefused (if p = .host then 8 else 1)) := by
  rw [exec_lcBadOp_eq, effectLcBadOp, if_neg hop]
  rfl

/-- Settles O40, by the equation of each command. The time of a transition's run, CODE alone set while one runs, and PATH given to a
host's bad OP are the model's choice (log entry 89). -/
theorem lifecycleCommandsComplete : Obligations.LifecycleCommandsComplete := by
  unfold Obligations.LifecycleCommandsComplete
  refine ⟨?_, ?_, ?_, ?_, ?_, ?_, ?_⟩
  · intro v n s u hu htoNat htoNat2 htoNat3 hlcState
    subst hu
    change execLcTransition .manager v s = _
    simp only [execLcTransition, effectLcTransition, htoNat, htoNat2, htoNat3, hlcState]
    rfl
  · intro v n s u hu hop hcheck hrecord hstate hdst
    subst hu
    rw [exec_lcTransition_eq, effectLcTransition, if_neg (fun h => h hop), if_neg (by decide)]
    simp only [hrecord, hcheck, if_true, decide_eq_true (And.intro hstate hdst)]
  · intro v c s u hu hop hc hne hlc hback
    subst hc hu
    rw [exec_lcTransition_eq, effectLcTransition, if_neg (fun h => h hop), if_neg (by decide)]
    have hidle : ¬(s.turn .manager).key.lc.isSome = true := by simp [hlc]
    simp only [decide_eq_false hback, if_neg hne, if_neg hidle, Bool.false_eq_true, if_false]
    split
    · rfl
    · rfl
  · intro v s u hu hop
    subst hu
    rw [exec_lcTransition_host s hop]
    exact ⟨fun hlc => by rw [State.lcRefused_of_none hlc], fun hlc => by rw [State.lcRefused_of_some hlc]⟩
  · intro p v c s u hu hop hc
    subst hc hu
    rw [exec_lcBadOp s hop]
    exact ⟨fun hlc => by rw [State.lcRefused_of_none hlc], fun hlc => by rw [State.lcRefused_of_some hlc]⟩
  · intro r s u hlc hseedDue hstart hu
    subst hu
    change execLcTransitionDone s = _
    simp [execLcTransitionDone, hlc, hseedDue, hstart]
  · intro r s hlc hseedDue
    change execLcTransitionDone s = _
    simp only [execLcTransitionDone, hlc, hseedDue]
    rfl

end Sys2Proof.Machine
end

section
/-! PROOFS. SEAL and UNSEAL. -/

namespace Sys2Proof.Machine

theorem exec_seal_eq (p : Path) (v : Word) (s : State) : exec (.seal p v) s = effectSeal p v (s.turn p) := rfl
theorem exec_unseal_eq (p : Path) (v : Word) (s : State) : exec (.unseal p v) s = effectUnseal p v (s.turn p) := rfl
theorem exec_cipherBadOp_eq (p : Path) (v : Word) (s : State) : exec (.cipherBadOp p v) s = effectCipherBadOp p v (s.turn p) := rfl

theorem exec_seal_refused {p : Path} {v : Word} {s : State} (hgo : bit v.toNat 0 = true) (hop : (s.turn p).rf Reg.CIPH_CIPH_CTRL 31 28 =
    1)
    (hidle : (s.turn p).ciphGo.cipher = none) (hcheck : (s.turn p).ciphGo.cipherCheck false (s.turn p).ciphGo.cipherCmd ≠ 0) :
    exec (.seal p v) s = .next ((s.turn p).ciphGo.ciphStatus 3 ((s.turn p).ciphGo.cipherCheck false (s.turn p).ciphGo.cipherCmd)) := by
  rw [exec_seal_eq, effectSeal, if_neg (by simp [hgo, hop])]
  simp only [hidle, Option.isSome_none, Bool.false_eq_true, false_and, if_false, if_pos hcheck]

theorem exec_unseal_refused {p : Path} {v : Word} {s : State} (hgo : bit v.toNat 0 = true) (hop : (s.turn p).rf Reg.CIPH_CIPH_CTRL 31 28 =
    2)
    (hidle : (s.turn p).ciphGo.cipher = none) (hcheck : (s.turn p).ciphGo.cipherCheck true (s.turn p).ciphGo.cipherCmd ≠ 0) :
    exec (.unseal p v) s = .next ((s.turn p).ciphGo.ciphStatus 3 ((s.turn p).ciphGo.cipherCheck true (s.turn p).ciphGo.cipherCmd)) := by
  rw [exec_unseal_eq, effectUnseal, if_neg (by simp [hgo, hop])]
  simp only [hidle, Option.isSome_none, Bool.false_eq_true, false_and, if_false, if_pos hcheck]

/-- Settles O43, by the equation of each command: the first check that fails gives its code, and the times of a run are the model's (log
entry 96). -/
theorem cipherCommandsComplete : Obligations.CipherCommandsComplete := by
  unfold Obligations.CipherCommandsComplete
  refine ⟨?_, ?_, ?_, ?_, ?_, ?_, ?_, ?_⟩
  · intro p v c b s u w hu htoNat hrf hc hcipherCheck hb hw hslot
    subst hw hb hc hu
    change execSeal p v s = _
    simp [execSeal, effectSeal, htoNat, hrf, hcipherCheck, hslot]
  · intro c iv s v w hc hends hdraw hw
    subst hw
    have hwaits : ¬c.ends.isSome = true := by simp [hends]
    rw [State.cipherServe, hc]
    simp only [if_neg hwaits, hdraw]
    rfl
  · intro p v k s u hu hgo hidle hk
    subst hu
    constructor
    · intro hop hcheck
      subst hcheck
      exact exec_seal_refused hgo hop hidle hk
    · intro hop hcheck
      subst hcheck
      exact exec_unseal_refused hgo hop hidle hk
  · intro p v c e region b s u w run hu htoNat hrf hc hcipherCheck hsrc hsrcSpace he hslot hregion hbytes hw hrun
    subst hrun hw hregion he hc hu
    change execUnseal p v s = _
    simp [execUnseal, effectUnseal, htoNat, hrf, hcipherCheck, hsrc, hsrcSpace, hslot, hbytes]
  · intro p v op s u hu hop hgo hbad hidle
    subst hop hu
    rw [exec_cipherBadOp_eq, effectCipherBadOp, if_neg (by simp only [hgo, Bool.true_eq_false, false_or]; omega), if_neg (by simp
        [hidle])]
  · intro c t0 out s u hcipher hends ht0 hopenIt hsrcSpace hdstSpace hbytes hu hcipherOut
    subst hu
    change execCipherDone false s = _
    simp [execCipherDone, hcipher, hends, ht0, hopenIt, hsrcSpace, hdstSpace, hbytes, hcipherOut]
  · intro c t0 s u hcipher hends ht0 hopenIt hsrcSpace hdstSpace hbytes hu hcipherOut
    subst hu
    change execCipherDone false s = _
    simp [execCipherDone, hcipher, hends, ht0, hopenIt, hsrcSpace, hdstSpace, hbytes, hcipherOut]
  · intro c s hcipher hends hasked
    change execCipherEntropyTimeout s = _
    simp [execCipherEntropyTimeout, hcipher, hends, hasked]

end Sys2Proof.Machine
end

section
/-! PROOFS. The PLDM firmware update commands. -/

namespace Sys2Proof.Machine

/-- A PLDM reply changes the boot block alone, and there the replies alone. -/
theorem State.pldm_boot (s : State) (cmd code : Nat) (vals : List Int) :
    ∃ out, s.pldm cmd code vals = { s with boot := { s.boot with pldmOut := out } } := by
  unfold State.pldm
  split
  · exact ⟨s.boot.pldmOut, rfl⟩
  · exact ⟨_, rfl⟩

theorem exec_firmwareTransfer {u : FwUpdate} {off : Nat} {bs : List Byte} {s : State} (hu : s.boot.update = some u) (hlen : bs.length ≤
    4096)
    (hend : off + bs.length ≤ 0x1000000) (hdrive : s.boot.spiDrive = true) (hretry : s.boot.flashRetry = false) :
    exec (.firmwareTransfer off bs) s = .next ({ s with boot := { s.boot with
      flash := Tab.putList (fun _ => 0xFF) (u.slot * 0x1000000 + off) bs s.boot.flash
      update := some { u with got := u.got + bs.length, verified := false } } }.pldm 0x515 0 []) := by
  change execFirmwareTransfer off bs s = _
  unfold execFirmwareTransfer
  simp only [hu]
  rw [if_neg (by omega), if_neg (by simp [hdrive, hretry])]

theorem exec_firmwareVerify {u : FwUpdate} {ok : Bool} {s : State} (hu : s.boot.update = some u) (hdrive : s.boot.spiDrive = true)
    (hretry : s.boot.flashRetry = false) (hok : ok = (imageHeader (s.slotHeader u.slot) == 0 && s.digestOk u.slot &&
      (!s.imageLoaded || decide (s.rg Reg.BOOT_IMAGE_SEQ < s.slotSeq u.slot)))) :
    exec .firmwareVerify s = .next ({ s with boot := { s.boot with update := some { u with verified := ok } } }.pldm 0x517 0
      [if ok then 0 else 1]) := by
  subst hok
  change execFirmwareVerify s = _
  unfold execFirmwareVerify
  simp only [hu]
  rw [if_neg (by simp [hdrive, hretry])]

/-- Settles O56, by the equation of each command; the completion codes and the phases in which a command is accepted are the model's
choice (log entry 122). -/
theorem firmwareUpdateCompletes : Obligations.FirmwareUpdateCompletes := by
  unfold Obligations.FirmwareUpdateCompletes
  refine ⟨?_, ?_, ?_, ?_, ?_, ?_⟩
  · intro s hupdate hh
    change execRequestUpdate s = _
    simp [execRequestUpdate, hupdate, hh]
  · intro u off bs s hu hlen hend hdrive hretry
    refine ⟨_, exec_firmwareTransfer hu hlen hend hdrive hretry, ?_⟩
    generalize hw : ({ s with boot := { s.boot with
      flash := Tab.putList (fun _ => 0xFF) (u.slot * 0x1000000 + off) bs s.boot.flash
      update := some { u with got := u.got + bs.length, verified := false } } } : State) = w
    obtain ⟨out, hout⟩ := w.pldm_boot 0x515 0 []
    rw [hout, ← hw]
    exact ⟨rfl, rfl, rfl⟩
  · intro u s hu hdrive hretry
    generalize hok : (imageHeader (s.slotHeader u.slot) == 0 && s.digestOk u.slot &&
      (!s.imageLoaded || decide (s.rg Reg.BOOT_IMAGE_SEQ < s.slotSeq u.slot))) = ok
    refine ⟨_, ok, exec_firmwareVerify hu hdrive hretry hok.symm, ?_⟩
    generalize hw : ({ s with boot := { s.boot with update := some { u with verified := ok } } } : State) = w
    obtain ⟨out, hout⟩ := w.pldm_boot 0x517 0 [if ok then 0 else 1]
    rw [hout, ← hw]
    refine ⟨rfl, rfl, ?_, rfl⟩
    rw [← hok]
    cases s.imageLoaded <;> simp [and_assoc]
  · intro u s hupdate hverified
    change execActivateFirmware s = _
    simp only [execActivateFirmware, hupdate, hverified]
    rfl
  · intro u s hupdate hverified
    change execActivateFirmware s = _
    simp only [execActivateFirmware, hupdate, hverified]
    rfl
  · intro u s hupdate
    change execCancelUpdate s = _
    simp only [execCancelUpdate, hupdate]

end Sys2Proof.Machine
end

section
/-! PROOFS. Packets hop and are copied. -/

namespace Sys2Proof.Machine

theorem exec_packetHop_eq (o : Option PacketOffer) (n : Nat) (s : State) : exec (.packetHop o n) s = execPacketHop o n s := rfl

/-- A packet in the mesh steps there. -/
theorem exec_packetHop_mesh {q : Packet} {s : State} (hq : s.packet q.id = some q) (hcls : q.cls ≠ .mc) (hloc : q.loc < 128) :
    exec (.packetHop none q.id) s = .next (s.meshStep q) := by
  rw [exec_packetHop_eq, execPacketHop]
  simp only [hq]
  rw [if_neg hcls, if_neg (by omega), if_neg (by omega)]

/-- A good offer enters as a packet that waits at its end point. -/
theorem exec_packetHop_offer {o : PacketOffer} (n : Nat) {q : Packet} {s u : State} (hcls : o.cls ≠ .mc) (hlow : o.flits ≠ 0)
    (hhigh : o.flits ≤ 9) (hsrc : placeGood o.src = true) (hdst : placeGood o.dst = true) (hoffer : s.offer o = (u, s.mem.nextPacket))
    (hq : u.packet s.mem.nextPacket = some q) (hsame : q.cls = o.cls) (hloc : 256 ≤ q.loc) :
    exec (.packetHop (some o) n) s = .next (u.enterStep q) := by
  have hgood : ¬(o.cls = .mc ∨ o.flits = 0 ∨ 9 < o.flits ∨ placeGood o.src = false ∨ placeGood o.dst = false) := by
    simp only [hcls, hlow, hsrc, hdst, Bool.true_eq_false, or_false, false_or]
    omega
  rw [exec_packetHop_eq, execPacketHop]
  simp only [if_neg hgood, hoffer, hq, hsame]
  rw [if_neg hcls, if_pos hloc]

/-- Settles O34, by the packet that the command names and its place: an end point, a ring or a tun's router. -/
theorem packetsMove : Obligations.PacketsMove := by
  unfold Obligations.PacketsMove
  refine ⟨?_, ?_, ?_, ?_, ?_, ?_, ?_, ?_, ?_, ?_⟩
  · intro q s hq hcls hloc
    exact exec_packetHop_mesh hq hcls hloc
  · intro q s hid hcls hh hloc
    change execPacketHop none q.id s = _
    simp [execPacketHop, hid, hcls, hh, hloc]
  · intro q s hid hcls hh
    change execPacketHop none q.id s = _
    simp only [execPacketHop, hid, hcls, hh]
    rfl
  · intro o n q s u hcls hlow hhigh hsrc hdst hoffer hq hsame hloc
    exact exec_packetHop_offer n hcls hlow hhigh hsrc hdst hoffer hq hsame hloc
  · intro q t s hloc hfront hnow hgood hregion hgrant
    have hgo : ¬(s.front q = false ∨ s.cycleLimit ≤ s.packetNow q) := by
      simp only [hfront, Bool.true_eq_false, false_or]
      omega
    have hin : ¬(q.dst < 128 ∧ s.tunOfRegion q q.loc = false) := by
      rintro ⟨hdst, hout⟩
      exact absurd (hregion hdst) (by simp [hout])
    unfold State.meshStep
    simp only [if_neg hgo, hgood, if_pos hloc, if_neg hin, hgrant, Bool.false_eq_true, if_false]
  · intro q port s hid hcls hloc
    change execMulticastCopy none q.id port s = _
    simp [execMulticastCopy, hid, hcls, hloc]
  · intro q port s hid hcls hh
    change execMulticastCopy none q.id port s = _
    simp only [execMulticastCopy, hid, hcls, hh]
    rfl
  · intro q s hout
    obtain ⟨t, ht, hmask, hregion⟩ := hout
    have hany : (List.range 128).any (fun t => Nat.testBit q.mask t && !s.tunOfRegion q t) = true :=
      List.any_eq_true.2 ⟨t, List.mem_range.2 ht, by simp [hmask, hregion]⟩
    rw [State.mcEnter, if_pos hany]
  · intro q s hid hsince
    change execPacketStuckTimeout q.id s = _
    simp [execPacketStuckTimeout, hid, hsince]
  · intro q s hid hccycles
    change execPacketStuckTimeout q.id s = _
    simp only [execPacketStuckTimeout, hid, hccycles]
    rfl

end Sys2Proof.Machine
end

section
/-! PROOFS. Boot phases and block resets. -/

namespace Sys2Proof.Machine

/-- Settles O53, by the equation of each phase's end and of the block resets that the cycle holds. -/
theorem bootStepsComplete : Obligations.BootStepsComplete := by
  unfold Obligations.BootStepsComplete
  refine ⟨?_, ?_, ?_, ?_, ?_, ?_, ?_, ?_, ?_, ?_, ?_, ?_⟩
  · intro n q a f s hbootPhase hrefclk
    change execBootPhaseEnd 1 n q a f s = _
    simp only [execBootPhaseEnd, hbootPhase, hrefclk]
    rfl
  · intro n q a f s u hphase hu
    subst hu
    change (_ → execBootPhaseEnd 2 n q a f s = _) ∧ (_ → execBootPhaseEnd 2 n q a f s = _) ∧ (_ → _ → execBootPhaseEnd 2 n q a f s = _)
    have hin : ¬s.bootPhase ≠ 2 := fun h => h hphase
    unfold execBootPhaseEnd
    simp only [if_neg hin]
    refine ⟨?_, ?_, ?_⟩
    · intro hlc
      rw [if_pos hlc]
    · intro hlc
      rw [if_neg (by rw [hlc]; decide), if_pos hlc]
    · intro h0 h5
      rw [if_neg h0, if_neg h5]
  · intro n q a f s hbootPhase
    change execBootPhaseEnd 3 n q a f s = _
    simp only [execBootPhaseEnd, hbootPhase]
    rfl
  · intro n q a f s himageOn
    change execBootPhaseEnd 4 n q a f s = _
    simp only [execBootPhaseEnd, himageOn]
    rfl
  · intro n q a f s hmemoryOn
    change execBootPhaseEnd 5 n q a f s = _
    simp only [execBootPhaseEnd, hmemoryOn]
    rfl
  · intro n q a f s hbootPhase hentSettled hcoresSettled
    change execBootPhaseEnd 6 n q a f s = _
    simp only [execBootPhaseEnd, hbootPhase, hentSettled, hcoresSettled]
    rfl
  · intro n q a f s hbootPhase hspiDrive hflashRetry
    change execBootPhaseEnd 7 n q a f s = _
    simp only [execBootPhaseEnd, hbootPhase, hspiDrive, hflashRetry]
    rfl
  · intro p v f s u hu
    subst hu
    change execBlockReset p v f s = _
    simp only [execBlockReset, effectBlockReset]
  · intro v f s hone
    rw [State.resetStep, hone]
    rfl
  · intro v page f k s u hk hready hbusy hne hpage hu
    subst hu hpage
    unfold State.blockReset
    simp only [hk, hready, hbusy, if_neg hne, Bool.true_eq_false, Bool.false_eq_true, if_false]
  · intro v f k s hk hready hbusy
    unfold State.blockReset
    simp only [hk, hready, hbusy, Bool.true_eq_false, if_false, if_true]
  · intro v f s hk
    unfold State.blockReset
    simp only [hk]

end Sys2Proof.Machine
end

section
/-! PROOFS. The predictor array's command. -/

namespace Sys2Proof.Machine

theorem exec_predictorCommand_eq (n : Nat) (s : State) : exec (.predictorCommand n) s = execPredictorCommand n s := rfl
theorem exec_inputScanDone_eq (n : Nat) (s : State) : exec (.inputScanDone n) s = execInputScanDone n s := rfl
theorem exec_layerPassDone_eq (n : Nat) (s : State) : exec (.layerPassDone n) s = execLayerPassDone n s := rfl
theorem exec_gristWriterWrite_eq (n : Nat) (s : State) : exec (.gristWriterWrite n) s = execGristWriterWrite n s := rfl

section
variable {c : Command} {r : PredRun} {s : State}

/-- A fetched image loads once its due time has come. -/
theorem State.prFetched_fetch (hrun : s.pred.run = some r) (hcmd : s.cmd r.cmd = some c) (hphase : c.phase = .running) (hfetch : r.phase =
    .fetch)
    (hdue : r.due ≤ s.time) : s.prFetched = s.prLoad c r := by
  have hgo : ¬(c.phase ≠ .running ∨ s.time < r.due) := by
    simp only [hphase, ne_eq, not_true_eq_false, false_or]
    omega
  unfold State.prFetched
  simp only [hrun, Option.bind_some, hcmd, Option.map_some, if_neg hgo, if_pos hfetch]

end

/-- Settles O24, by the equation of each step of the command that the array runs (`State.predAt`), each past its due time or cycles. -/
theorem predictorCommands : Obligations.PredictorCommands := by
  unfold Obligations.PredictorCommands
  refine ⟨?_, ?_, ?_, ?_, ?_, ?_, ?_, ?_, ?_, ?_, ?_⟩
  · intro c s hid hpageFailed
    change execPredictorCommand c.id s = _
    simp only [execPredictorCommand, hid, hpageFailed]
    rfl
  · intro c e s hid hpageFailed hpbShape
    change execPredictorCommand c.id s = _
    simp only [execPredictorCommand, hid, hpageFailed, hpbShape]
    rfl
  · intro c im r s u hnext hfail hcheck hstop hbatch hgrist him hr hu
    subst hu hr him
    rw [exec_predictorCommand_eq]
    unfold execPredictorCommand
    simp only [hnext, hfail, hcheck, hstop, hgrist, if_neg hbatch, Bool.false_eq_true, if_false]
    split
    · rfl
    · rfl
  · intro c r s hrun hcmd hphase hfetch hdue
    exact State.prFetched_fetch hrun hcmd hphase hfetch hdue
  · intro c r a bs s u hat hdue ha hu hbytes hfin
    subst ha
    have hgo : ¬s.time < r.due := by omega
    refine ⟨_, ?_, rfl⟩
    rw [exec_inputScanDone_eq]
    unfold execInputScanDone
    simp only [hat, if_neg hgo, ← hu, hbytes, hfin, Bool.false_eq_true, if_false]
  · intro c r s u hat hlast hend himage hmark hu
    subst hu
    refine ⟨_, ?_, rfl⟩
    rw [exec_layerPassDone_eq]
    unfold execLayerPassDone
    simp only [hat, if_neg (Nat.not_lt.2 hend), if_neg (Nat.not_le.2 himage), if_neg (Nat.not_le.2 hmark), if_pos hlast]
  · intro c r img cs accs s u hat hmore hend himage hmark hu himg hcs haccs
    subst haccs hcs himg hu
    rw [exec_layerPassDone_eq]
    unfold execLayerPassDone
    simp only [hat, if_neg (Nat.not_lt.2 hend), if_neg (Nat.not_le.2 himage), if_neg (Nat.not_le.2 hmark), if_neg hmore]
    constructor
    · intro hwide sOut q hs hq
      subst hq hs
      simp only [if_pos hwide]
    · intro hnarrow o q ho hq hfit
      subst hq ho
      simp only [hnarrow, Bool.false_eq_true, if_false] at hfit ⊢
      simp only [if_pos hfit]
  · intro c r s hpass hccycles
    change execLayerPassDone c.id s = _
    simp only [execLayerPassDone, hpass, hccycles]
    rfl
  · intro c r s hpassed hblock
    change execRowBlockDone c.id s = _
    simp only [execRowBlockDone, hpassed, hblock]
    rfl
  · intro c r s hpassed hblock
    change execRowBlockDone c.id s = _
    simp only [execRowBlockDone, hpassed, hblock]
    rfl
  · intro c r g s hat hbusy hend hgood hgrist hmode
    refine ⟨_, _, ?_, rfl, rfl⟩
    have hgo : ¬((gwTuns r.gw).any (fun t => s.tun.runs.any (fun x => decide (x.phase ≠ .stopped) && x.tuns.contains t)) = true ∨
        s.gov.ccycles < r.from_ + gwCycles r.tensor.length (lyKout r.image.data (pbLayers c.block - 1))) := by
      rw [hbusy]
      simp only [Bool.false_eq_true, false_or]
      omega
    rw [exec_gristWriterWrite_eq]
    unfold execGristWriterWrite
    simp only [hat, if_neg hgo, hgood, hgrist, hmode, Bool.true_eq_false, if_false]

end Sys2Proof.Machine
end

section
/-! PROOFS. The gust lane, completion records, credits and job starts. -/

namespace Sys2Proof.Machine

theorem exec_gustLaneEntry_fallback {j : Job} {s : State} (hj : s.job j.entry = some j) (hphase : j.phase = .lane) (hkind : j.kind =
    .fire)
    (hdue : s.laneDue j = true) (hfeasible : s.laneFeasible j = true) (hno : s.laneReady j = false ∨ s.fits j = false ∨ s.laneOpen j =
        false) :
    exec (.gustLaneEntry j.entry) s = .next (s.gustFallback j) := by
  have hgo : ¬(j.phase ≠ .lane ∨ j.kind ≠ .fire ∨ s.laneDue j = false) := by simp [hphase, hkind, hdue]
  change execGustLaneEntry j.entry s = _
  unfold execGustLaneEntry
  simp only [hj, if_neg hgo, hfeasible, Bool.not_true, Bool.false_eq_true, if_false]
  by_cases hready : s.laneReady j = false
  · rw [if_pos hready]
  · rw [if_neg hready, if_pos (hno.resolve_left hready)]

theorem exec_postedCreditReturn_eq (s : State) : exec .postedCreditReturn s = execPostedCreditReturn s := rfl

theorem State.hif_held_nil {s : State} (h : s.hif.held = []) : { s with hif := { s.hif with held := [] } } = s := by
  rw [show { s.hif with held := [] } = s.hif by rw [← h]]

theorem State.commitStep_of_none {s : State} (h : s.boot.commit = none) : s.commitStep = s := by
  rw [State.commitStep, h]

theorem State.startStep_of_none {s : State} (h : s.boot.commit = none) : s.startStep =
    if (s.gov.startAsked && s.mayStart) = true then { s with gov := { s.gov with startAsked := false, startBarred := false } }.selectJob
    else { s with gov := { s.gov with startAsked := false, startBarred := false } } := by
  rw [State.startStep, State.commitStep_of_none h]

/-- The walk that starts j and stops. -/
def Walk.started (w : Walk) (j : Job) : Walk :=
  { w with s := (((w.s.reserve j.entry).startJob j.entry).bump Reg.DSP_DSP_STARTS 1).event 0x0701 pgDispatch j.ev, stopped := true }

theorem Walk.visit_start {w : Walk} {j : Job} (hgo : w.stopped = false) (halert : w.s.gov.therm = .alert → j.cls < 2) (hfits : w.s.fits j
    = true)
    (hfeasible : w.s.jobFeasible j = true) : w.visit j = w.started j := by
  have hclass : ¬(w.s.gov.therm = .alert ∧ 2 ≤ j.cls) := fun h => absurd (halert h.1) (by omega)
  rw [Walk.visit, if_neg (by simp [hgo]), if_neg hclass, if_pos hfits, if_pos hfeasible]
  rfl

theorem Walk.foldl_visit_stopped {w : Walk} (h : w.stopped = true) (l : List Job) : l.foldl Walk.visit w = w := by
  induction l with
  | nil => rfl
  | cons j l ih => rw [List.foldl_cons, Walk.visit, if_pos h, ih]

/-- The first waiting job starts, once it passes the resource test, its region is not fenced, it fits and it is feasible. -/
theorem State.selectJob_start {s u : State} {j : Job} {ws : List Job} (hu : u = s.waitingJobs.foldl State.admitJob s)
    (hws : u.waitingJobs = j :: ws) (hres : u.resourceTest j = true) (hfence : u.fenced j.region = false)
    (halert : u.gov.therm = .alert → j.cls < 2) (hfits : u.fits j = true) (hfeasible : u.jobFeasible j = true) {w : Walk}
    (hw : w = (Walk.mk u true false).started j) : s.selectJob = { w.s with gov := { w.s.gov with holdJob := none } } := by
  have hcand : (j :: ws).filter (fun j => u.resourceTest j && !u.fenced j.region) =
      j :: ws.filter (fun j => u.resourceTest j && !u.fenced j.region) := List.filter_cons_of_pos (by simp [hres, hfence])
  unfold State.selectJob
  simp only [← hu, hws, if_pos hres, hcand, List.foldl_cons]
  rw [Walk.visit_start rfl halert hfits hfeasible, ← hw, Walk.foldl_visit_stopped (by rw [hw]; rfl), if_pos (by rw [hw]; rfl)]

/-- Settles O15, by the equation of each command; a selection whose first waiting job fits and is feasible starts it and stops its walk
there. -/
theorem gustLaneRecordsAndStarts : Obligations.GustLaneRecordsAndStarts := by
  unfold Obligations.GustLaneRecordsAndStarts
  refine ⟨?_, ?_, ?_, ?_, ?_, ?_, ?_, ?_, ?_, ?_, ?_, ?_, ?_⟩
  · intro j c s u hentry hphase hkind hlaneDue hlaneReady hlaneFeasible hfits hlaneOpen hu hgetLast
    subst hu
    change execGustLaneEntry j.entry s = _
    simp only [execGustLaneEntry, hentry, hphase, hkind, hlaneDue, hlaneReady, hlaneFeasible, hfits, hlaneOpen, hgetLast]
    rfl
  · intro j s hentry hphase hkind hlaneDue hlaneReady hlaneFeasible
    change execGustLaneEntry j.entry s = _
    simp only [execGustLaneEntry, hentry, hphase, hkind, hlaneDue, hlaneReady, hlaneFeasible]
    rfl
  · intro j s hj hphase hkind hdue hfeasible hno
    exact exec_gustLaneEntry_fallback hj hphase hkind hdue hfeasible hno
  · intro j s hentry hphase hentry2 hheld hstate hnoRecords hideBroken
    change execCompletionRecord j.entry true s = _
    simp only [execCompletionRecord, hentry, hphase, hentry2, hheld, hstate, hnoRecords, hideBroken]
    rfl
  · intro j s hentry hphase hentry2 hheld hstate hnoRecords
    change execCompletionRecord j.entry false s = _
    simp only [execCompletionRecord, hentry, hphase, hentry2, hheld, hstate, hnoRecords]
    rfl
  · intro j s hlink hj hheld
    have hkept : { s with hif := { s.hif with held := [] } }.job j.entry = some j := hj
    rw [exec_postedCreditReturn_eq, execPostedCreditReturn, if_neg (by simp [hlink]), hheld]
    simp only [List.foldl_cons, List.foldl_nil, hkept]
  · intro s hlink hheld
    rw [exec_postedCreditReturn_eq, execPostedCreditReturn, if_neg (by simp [hlink]), hheld, State.hif_held_nil hheld, List.foldl_nil]
  · intro q s
    change execGuardUpdate q s = _
    simp only [execGuardUpdate]
  · intro s
    change execJobStart s = _
    simp only [execJobStart]
  · intro s hasked hmay hcommit
    rw [State.startStep_of_none hcommit, if_pos (by simp [hasked, hmay])]
  · intro s hno hcommit
    rw [State.startStep_of_none hcommit, if_neg (by rcases hno with h | h <;> simp [h])]
  · intro s u j ws hu hws hres hfence halert hfits hfeasible
    exact ⟨_, rfl, State.selectJob_start hu hws hres hfence halert hfits hfeasible rfl⟩
  · intro j s hentry hphase hjobFeasible
    change execLateBeforeStart j.entry s = _
    simp only [execLateBeforeStart, hentry, hphase, hjobFeasible]
    rfl

end Sys2Proof.Machine
end

section
/-! PROOFS. Epoch boundaries and sync pulses. -/

namespace Sys2Proof.Machine

/-- Settles O30, by the equation of each command and of the miss that the cycle's end settles (`State.missStep`). -/
theorem epochStepsComplete : Obligations.EpochStepsComplete := by
  unfold Obligations.EpochStepsComplete
  refine ⟨?_, ?_, ?_, ?_, ?_, ?_, ?_, ?_⟩
  · intro s hfree hdue
    change execEpochBoundary s = _
    unfold execEpochBoundary
    rw [if_pos hfree, if_neg (Nat.not_lt.2 hdue)]
  · intro s hrf htime
    change execEpochBoundary s = _
    simp only [execEpochBoundary, hrf, htime]
    rfl
  · intro s hrf hepochLen
    change execEpochBoundary s = _
    simp [execEpochBoundary, hrf, hepochLen]
  · intro s hasked hbound
    have hgo : ¬s.gov.missAsked = false := by simp [hasked]
    have hfree : ¬s.gov.bound.isSome = true := by simp [hbound]
    unfold State.missStep
    simp only [if_neg hgo, if_neg hfree]
    rfl
  · intro b s hasked hbound
    have hgo : ¬s.gov.missAsked = false := by simp [hasked]
    have hset : s.gov.bound.isSome = true := by simp [hbound]
    unfold State.missStep
    simp only [if_neg hgo, if_pos hset]
  · intro src s hrf hsyncSelected hepochNext htime
    change execSyncPulse src s = _
    simp only [execSyncPulse, hrf, hsyncSelected, hepochNext, htime]
    rfl
  · intro src s hrf hsyncSelected
    change execShortSyncPulse src s = _
    simp only [execShortSyncPulse, hrf, hsyncSelected]
    rfl
  · intro t0 s hsyncOutEnd ht0
    change execSyncOutPulseEnd s = _
    simp [execSyncOutPulseEnd, hsyncOutEnd, ht0]

end Sys2Proof.Machine
end

section
/-! PROOFS. The governor's tick, the CCLK gap, AVS and the thermal samples. -/

namespace Sys2Proof.Machine

/-- The registers after a tick has recorded its energy e. -/
def State.tickRecorded (s : State) (e : Nat) : State :=
  if s.gov.therm = .normal then s.wr Reg.GOV_TICK_ENERGY (Nat.min (e / 1000) allOnes32)
  else (s.wr Reg.GOV_TICK_ENERGY (Nat.min (e / 1000) allOnes32)).bump Reg.GOV_THERM_TICKS 1

/-- The ratio that a tick of energy e wants (R695). -/
def State.tickWant (s : State) (e : Nat) (short : Bool) : Nat :=
  if s.rf Reg.GOV_BUDGET 9 0 * 20000000 < e ∨ short = true then Nat.min 3 (s.ratio + 1)
  else if e * 256 < s.rf Reg.GOV_BUDGET 9 0 * 20000000 * s.rf Reg.GOV_BUDGET 31 24 then s.ratio - 1 else s.ratio

theorem exec_governorTick {t0 e : Nat} {short : Bool} {s : State} (h : s.gov.tickDue = some (t0, e, short)) {u : State}
    (hu : u = { s.tickRecorded e with gov := { (s.tickRecorded e).gov with tickDue := none } }) : exec .governorTick s =
    .next (if (u.ready && decide (u.rg64 Reg.BOOT_READY_TIME_LO + 20000 ≤ t0)) = true then u.setTarget (u.limitCode (s.tickWant e short))
        else u) := by
  subst hu
  change execGovernorTick s = _
  unfold execGovernorTick
  simp only [h]
  rfl

theorem State.tickRecorded_normal {s : State} (e : Nat) (h : s.gov.therm = .normal) :
    s.tickRecorded e = s.wr Reg.GOV_TICK_ENERGY (Nat.min (e / 1000) allOnes32) := if_pos h

/-- The readings and the hottest junction of a due sample are stored; a junction too hot shuts the chip down. -/
theorem exec_thermalSample {readings : List (Option Int)} {s u v : State} {ts : List Int} (hdue : s.gov.lastSample + 10000 ≤ s.time)
    (hread : (List.range 16).foldl (State.thermOne readings) ({ s with gov := { s.gov with lastSample := s.time } }, []) = (u, ts))
    (hv : v = { u with boot := { u.boot with therm := ts } }.wr Reg.GOV_TJ_MAX (toTwos 16 (hottest ts))) {w : State}
    (hw : w = (v.enterTherm (v.gov.therm.next (hottest ts))).platformEvent 1 (tjThreshold (hottest ts)) (hottest ts)) :
    exec (.thermalSample readings) s = .next (if (decide (1840 ≤ hottest ts) && v.gov.therm != .shutdown) = true then
      w.thermShutdown ((findIdx (fun x => x == hottest ts) ts).getD 0) else w) := by
  subst hw hv
  change execThermalSample readings s = _
  unfold execThermalSample
  simp only [if_neg (Nat.not_lt.2 hdue), hread]

/-- Settles O29, by the equation of each command and of the acknowledgement that the cycle's end tests (`State.ackStep`). -/
theorem governorSteps : Obligations.GovernorSteps := by
  unfold Obligations.GovernorSteps
  refine ⟨?_, ?_, ?_, ?_, ?_, ?_, ?_, ?_, ?_, ?_⟩
  · intro t0 e short s htick hready htherm
    have hrun := exec_governorTick htick rfl
    rw [State.tickRecorded_normal e htherm] at hrun
    have hwait : ({ s.wr Reg.GOV_TICK_ENERGY (Nat.min (e / 1000) allOnes32) with gov := { s.gov with tickDue := none } } : State).ready =
        false :=
      by
      rw [← hready]
      exact congrArg (fun x => fld x 0 0 == 1) (State.rg_wr_ne s (by decide) _)
    refine ⟨_, hrun.trans (congrArg _ (if_neg ?_)), ?_, rfl, ?_, rfl⟩
    · exact fun h => absurd (Bool.and_eq_true_iff.1 h).1 (Bool.eq_false_iff.1 hwait)
    · exact (State.rg_wr_same _ _ _).trans (Nat.mod_eq_of_lt (Nat.lt_of_le_of_lt (Nat.min_le_right _ _) (by decide)))
    · exact fun a ha => (State.reg_wr _ _ _ _).trans (if_neg ha)
  · intro t0 e want short s u htick hready hlate hwant hu huready hutime
    have hrec : s.tickRecorded e = u := hu.symm
    have hgo : (u.ready && decide (u.rg64 Reg.BOOT_READY_TIME_LO + 20000 ≤ t0)) = true := by
      rw [huready, hutime, Bool.true_and]
      exact decide_eq_true hlate
    subst hwant
    rw [exec_governorTick htick rfl, hrec]
    exact congrArg _ (if_pos hgo)
  · intro s htickDue
    change execGovernorTick s = _
    simp only [execGovernorTick, htickDue]
  · intro t0 s u v w hgap hdue hslow hquiet hu hv hw hwslow
    subst hv hu
    change execCclkGapEnd s = _
    unfold execCclkGapEnd
    have hquiet' : ((s.wf Reg.GOV_CLK_STATE 1 0 (s.rf Reg.GOV_CLK_STATE 5 4)).wf Reg.GOV_CLK_STATE 8 8 0).gov.gapQuiet = false := hquiet
    simp only [hgap, if_neg (Nat.not_lt.2 hdue), hquiet', Bool.false_eq_true, if_false]
    rw [← hw, hwslow]
  · intro v s u hu
    subst hu
    exact ⟨_, rfl, rfl⟩
  · intro v s
    change execAvsAck .host v s = _
    simp only [execAvsAck, effectAvsAck]
  · intro mv s hasked hno hmv
    have hraise : (bit (s.rg Reg.PINS_AVS_TARGET) 16 && bit (s.rg Reg.PINS_AVS_TARGET) 17) = false := by
      rcases hno with h | h
      · rw [h, Bool.false_and]
      · rw [h, Bool.and_false]
    have hsame : fld (s.rg Reg.PINS_AVS_TARGET) 15 0 = mv := hmv
    have hrg : ({ s with gov := { s.gov with ackAsked := none } } : State).rg Reg.PINS_AVS_TARGET = s.rg Reg.PINS_AVS_TARGET := rfl
    unfold State.ackStep
    simp only [hasked, hrg, hraise, hsame, Bool.false_and, Bool.false_eq_true, if_false, Bool.not_false, beq_self_eq_true, Bool.and_self,
        if_true]
  · intro mv t0 s u hasked hpending hraise hle hsince hu
    have hlow : fld (s.rg Reg.PINS_AVS_TARGET) 15 0 ≤ mv := hle
    have hrg : ({ s with gov := { s.gov with ackAsked := none } } : State).rg Reg.PINS_AVS_TARGET = s.rg Reg.PINS_AVS_TARGET := rfl
    have hsince' : (({ s with gov := { s.gov with ackAsked := none } } : State).wf Reg.PINS_AVS_TARGET 16 16 0).gov.avsSince = some t0 :=
        hsince
    unfold State.ackStep
    simp only [hasked, hrg, hpending, hraise, decide_eq_true hlow, Bool.and_self, if_true, hsince'] at hu ⊢
    rw [← hu]
    rfl
  · intro t0 s havsSince ht0
    change execAvsTimeout s = _
    simp [execAvsTimeout, havsSince, ht0]
  · intro readings s u v ts hdue hread hv
    refine ⟨_, rfl, ?_, ?_⟩
    · intro hcool
      rw [exec_thermalSample hdue hread hv rfl, if_neg (by simp; omega)]
    · intro hhot hon
      rw [exec_thermalSample hdue hread hv rfl, if_pos (by simp [hhot, hon])]

end Sys2Proof.Machine
end

section
/-! PROOFS. The noise sources. -/

namespace Sys2Proof.Machine

@[simp] theorem length_updAt {α : Type} (f : α → α) (i : Nat) (l : List α) : (updAt i f l).length = l.length := by
  induction l generalizing i with
  | nil => simp only [updAt]
  | cons x l ih => cases i with
    | zero => rfl
    | succ i => exact congrArg (· + 1) (ih i)

theorem getD_updAt_same {α : Type} (d : α) (f : α → α) {i : Nat} {l : List α} (h : i < l.length) : (updAt i f l).getD i d = f (l.getD i d)
    := by
  induction l generalizing i with
  | nil => exact absurd h (Nat.not_lt_zero i)
  | cons x l ih => cases i with
    | zero => rfl
    | succ i => exact ih (Nat.lt_of_succ_lt_succ h)

theorem getD_updAt_ne {α : Type} (d : α) (f : α → α) {i j : Nat} (h : j ≠ i) (l : List α) : (updAt i f l).getD j d = l.getD j d := by
  induction l generalizing i j with
  | nil => simp only [updAt]
  | cons x l ih => cases i with
    | zero => cases j with
      | zero => exact absurd rfl h
      | succ j => rfl
    | succ i => cases j with
      | zero => rfl
      | succ j => exact ih (fun hij => h (congrArg (· + 1) hij))

theorem State.src_updSrc_same {s : State} {n : Nat} (f : NoiseSource → NoiseSource) (h : n < s.ent.sources.length) :
    (s.updSrc n f).src n = f (s.src n) := getD_updAt_same _ f h

theorem State.src_updSrc_ne (s : State) {n k : Nat} (f : NoiseSource → NoiseSource) (h : k ≠ n) : (s.updSrc n f).src k = s.src k :=
  getD_updAt_ne _ f h _

/-! A sample (R817, R818). -/

/-- A test of one sample changes neither the source's state nor the test it is under. -/
theorem NoiseSource.test_kept {x y : NoiseSource} {fig : Nat × Nat × Nat} {b : Bool} {r : Bool × Bool} (h : x.test fig b = (y, r)) :
    y.st = x.st ∧ y.testLeft = x.testLeft := by
  have hy : y = (x.test fig b).1 := by rw [h]
  subst hy
  by_cases hwin : x.aptPos = 0
  · simp [NoiseSource.test, hwin]
  · simp [NoiseSource.test, hwin]

/-- A fault of a source in service begins its restart test. -/
theorem NoiseSource.judge_fail {x : NoiseSource} (hst : x.st = 2) (hleft : x.testLeft = none) (t : Nat) :
    x.judge true t = { x.beginTest false with st := 3, failsRow := 0 } := by
  simp [NoiseSource.judge, hst, hleft]

theorem State.healthFail_src (s : State) (n test k : Nat) : (s.healthFail n test).src k = s.src k := by
  unfold State.healthFail State.src
  simp only [State.raiseErr_ent, State.event_ent]
  rfl

/-- A source in service whose sample repeats too often goes to its restart test. -/
theorem State.sampleSource_fail {bits n : Nat} {b : Bool} {x y : NoiseSource} {s : State} (hsrc : s.src n = x) (hst : x.st = 2)
    (hleft : x.testLeft = none) (hpos : 0 < x.aptPos) (htp : Nat.testBit (s.rg Reg.ENT_TP_CTRL) n = false) (hb : b = bit bits n)
    (htest : x.test (s.sourceFigures n) b = (y, true, false)) : State.sampleSource bits s n = (s.updSrc n (fun _ =>
      { ({ y.beginTest false with st := 3, failsRow := 0 } : NoiseSource) with
        word := y.word + (b2n b <<< s.ent.samples), healthy := false, tpPos := 0 })).healthFail n 0 := by
  obtain ⟨hyst, hyleft⟩ := NoiseSource.test_kept htest
  have hjudge := NoiseSource.judge_fail (hyst.trans hst) (hyleft.trans hleft) s.time
  have hon : ¬(x.st = 0 ∨ x.st = 4) := by omega
  have hwin : ¬(x.aptPos = 0 ∧ (s.sourceFigures n).1 = 0) := by omega
  have htp' : bit (s.rg Reg.ENT_TP_CTRL) n = false := htp
  subst hb
  unfold State.sampleSource
  simp only [hsrc, if_neg hon, if_neg hwin, htp', Bool.false_eq_true, if_false, htest, Bool.or_false, hjudge, if_true, Bool.not_true,
    Bool.and_false]
  rfl

/-! A write of SRC_CTRL (Table 16-4). -/

section
variable (v : Nat) (s : State)

/-- What SRC_CTRL does to its source n, once its bit is written. -/
def State.srcGo (s : State) (v n : Nat) (was : Bool) : State :=
  if bit v n then s.updSrc n (fun x => { x with st := 0, testLeft := none, nextTest := none })
  else if was then s.startSource n
  else if bit v (8 + n) && ((s.src n).st == 3 || (s.src n).st == 4) then
    s.updSrc n (fun x => { x.beginTest false with st := 3, failsRow := 0 })
  else s

theorem State.srcCtrl_eq (n : Nat) :
    State.srcCtrl v s n = (s.wf Reg.ENT_SRC_CTRL n n (b2n (bit v n))).srcGo v n (bit (s.rg Reg.ENT_SRC_CTRL) n) := rfl

theorem State.srcGo_frame (n : Nat) (was : Bool) : (∀ k, k ≠ n → (s.srcGo v n was).src k = s.src k) ∧
    (s.srcGo v n was).regs = s.regs ∧ (s.srcGo v n was).ent.sources.length = s.ent.sources.length := by
  have hupd : ∀ f, (∀ k, k ≠ n → (s.updSrc n f).src k = s.src k) ∧ (s.updSrc n f).regs = s.regs ∧
      (s.updSrc n f).ent.sources.length = s.ent.sources.length := fun f => ⟨fun k hk => s.src_updSrc_ne f hk, rfl, length_updAt f n _⟩
  unfold State.srcGo
  split
  · exact hupd _
  · split
    · exact hupd _
    · split
      · exact hupd _
      · exact ⟨fun _ _ => rfl, rfl, rfl⟩

/-- The write of one source's bits leaves another source and its DISABLE bit. -/
theorem State.srcCtrl_frame {n k : Nat} (hk : k ≠ n) (hlt : k < 32) : (State.srcCtrl v s n).src k = s.src k ∧
    bit ((State.srcCtrl v s n).rg Reg.ENT_SRC_CTRL) k = bit (s.rg Reg.ENT_SRC_CTRL) k ∧
    (State.srcCtrl v s n).ent.sources.length = s.ent.sources.length := by
  obtain ⟨hsrc, hregs, hlen⟩ := State.srcGo_frame v (s.wf Reg.ENT_SRC_CTRL n n (b2n (bit v n))) n (bit (s.rg Reg.ENT_SRC_CTRL) n)
  rw [State.srcCtrl_eq]
  refine ⟨hsrc k hk, ?_, hlen⟩
  have hbit := congrArg (Nat.testBit · 0)
    (State.rf_wf_disjoint s Reg.ENT_SRC_CTRL (hi := n) (lo := n) (h := k) (l := k) (b2n (bit v n)) (Nat.le_refl n) hlt (by omega))
  simp only [State.rf, testBit_fld, Nat.add_zero, Nat.add_sub_cancel_left, Nat.lt_one_iff, decide_true, Bool.true_and] at hbit
  have hrg : ((s.wf Reg.ENT_SRC_CTRL n n (b2n (bit v n))).srcGo v n (bit (s.rg Reg.ENT_SRC_CTRL) n)).rg Reg.ENT_SRC_CTRL =
      (s.wf Reg.ENT_SRC_CTRL n n (b2n (bit v n))).rg Reg.ENT_SRC_CTRL :=
    congrArg (fun r => (Tab.get regReset r Reg.ENT_SRC_CTRL).toNat) hregs
  rw [hrg]
  exact hbit

theorem State.foldl_srcCtrl_frame {k : Nat} (hk : k < 32) (l : List Nat) : ∀ s : State, (∀ n ∈ l, k ≠ n) →
    (l.foldl (State.srcCtrl v) s).src k = s.src k ∧
    bit ((l.foldl (State.srcCtrl v) s).rg Reg.ENT_SRC_CTRL) k = bit (s.rg Reg.ENT_SRC_CTRL) k ∧
    (l.foldl (State.srcCtrl v) s).ent.sources.length = s.ent.sources.length := by
  induction l with
  | nil => exact fun _ _ => ⟨rfl, rfl, rfl⟩
  | cons n l ih =>
    intro s h
    obtain ⟨hsrc, hbit, hlen⟩ := State.srcCtrl_frame v s (h n List.mem_cons_self) hk
    obtain ⟨hsrc', hbit', hlen'⟩ := ih (State.srcCtrl v s n) (fun m hm => h m (List.mem_cons_of_mem n hm))
    exact ⟨hsrc'.trans hsrc, hbit'.trans hbit, hlen'.trans hlen⟩

/-- A source after the write of SRC_CTRL is what its own bits make of it. -/
theorem State.src_srcCtrlWrite {n : Nat} (hn : n < 3) : ∃ u : State, u.src n = s.src n ∧ u.ent.sources.length = s.ent.sources.length ∧
    (s.srcCtrlWrite v).src n = (u.srcGo v n (bit (s.rg Reg.ENT_SRC_CTRL) n)).src n := by
  obtain ⟨l₁, l₂, hsplit⟩ := List.append_of_mem (List.mem_range.2 hn)
  have hnodup : (l₁ ++ n :: l₂).Nodup := hsplit ▸ List.nodup_range
  rw [List.nodup_middle, List.nodup_cons, List.mem_append] at hnodup
  obtain ⟨hout, -⟩ := hnodup
  obtain ⟨hsrc, hbit, hlen⟩ := State.foldl_srcCtrl_frame v (k := n) (by omega) l₁ s
    (fun m hm h => hout (Or.inl (h ▸ hm)))
  obtain ⟨hlast, -, -⟩ := State.foldl_srcCtrl_frame v (k := n) (by omega) l₂ (State.srcCtrl v (l₁.foldl (State.srcCtrl v) s) n)
    (fun m hm h => hout (Or.inr (h ▸ hm)))
  refine ⟨(l₁.foldl (State.srcCtrl v) s).wf Reg.ENT_SRC_CTRL n n (b2n (bit v n)), hsrc, hlen, ?_⟩
  rw [State.srcCtrlWrite, hsplit, List.foldl_append, List.foldl_cons, hlast, State.srcCtrl_eq, hbit]

end

section
variable {v n : Nat} {s : State} (hlt : n < s.ent.sources.length)
include hlt

theorem State.src_srcGo_stop (was : Bool) (hv : bit v n = true) :
    (s.srcGo v n was).src n = { s.src n with st := 0, testLeft := none, nextTest := none } := by
  rw [State.srcGo, if_pos hv, State.src_updSrc_same _ hlt]

theorem State.src_srcGo_start (hv : bit v n = false) : ((s.srcGo v n true).src n).startUp = true ∧
    ((s.srcGo v n true).src n).testLeft = some 1024 ∧ (((s.srcGo v n true).src n).st = 1 ∨ ((s.srcGo v n true).src n).st = 0) := by
  rw [State.srcGo, if_neg (by simp [hv]), if_pos rfl, State.startSource, State.src_updSrc_same _ hlt]
  refine ⟨rfl, rfl, ?_⟩
  by_cases hfig : (s.sourceFigures n).1 = 0
  · exact Or.inr (if_pos hfig)
  · exact Or.inl (if_neg hfig)

theorem State.src_srcGo_restart (hv : bit v n = false) (hgo : bit v (8 + n) = true) (hst : (s.src n).st = 3 ∨ (s.src n).st = 4) :
    (s.srcGo v n false).src n = { (s.src n).beginTest false with st := 3, failsRow := 0 } := by
  have hrestart : (bit v (8 + n) && ((s.src n).st == 3 || (s.src n).st == 4)) = true := by simpa [hgo] using hst
  rw [State.srcGo, if_neg (by simp [hv]), if_neg (by decide), if_pos hrestart, State.src_updSrc_same _ hlt]

end

theorem State.src_srcGo_idle {v n : Nat} {s : State} (hv : bit v n = false)
    (h : bit v (8 + n) = false ∨ ((s.src n).st ≠ 3 ∧ (s.src n).st ≠ 4)) : (s.srcGo v n false).src n = s.src n := by
  have hno : ¬(bit v (8 + n) && ((s.src n).st == 3 || (s.src n).st == 4)) = true := by
    rcases h with h | ⟨h3, h4⟩
    · simp [h]
    · simp [h3, h4]
  rw [State.srcGo, if_neg (by simp [hv]), if_neg (by decide), if_neg hno]

/-- Settles O38, by the equation of each command; a sample that fails a test, and a write of SRC_CTRL, source by source
(`State.src_updSrc`). -/
theorem noiseSourcesComplete : Obligations.NoiseSourcesComplete := by
  unfold Obligations.NoiseSourcesComplete
  refine ⟨?_, ?_, ?_, ?_, ?_, ?_, ?_, ?_, ?_⟩
  · intro bits s u hlastSample hsamples hu
    subst hu
    change execNoiseSample bits s = _
    simp [execNoiseSample, hlastSample, hsamples]
  · intro bits n b x y s u hn hsrc hst hleft hpos htp hb htest hlen hu
    have hlt : n < s.ent.sources.length := by omega
    rw [hu, State.sampleSource_fail hsrc hst hleft hpos htp hb htest]
    simp only [State.healthFail_src, State.src_updSrc_same _ hlt]
    exact ⟨trivial, rfl, rfl, trivial, fun k hk => s.src_updSrc_ne _ hk⟩
  · intro s u v hh hkat hu hv
    subst hv hu
    change execNoiseWord s = _
    simp [execNoiseWord, hh, hkat]
  · intro src t0 s hnext hdue
    change execRestartTestStart src s = _
    unfold execRestartTestStart
    simp only [hnext, if_neg (Nat.not_lt.2 hdue)]
    rfl
  · intro p v s u hu
    subst hu
    exact ⟨rfl, rfl, rfl⟩
  · intro v n s t hn hlen ht
    obtain ⟨u, hsrc, hulen, hend⟩ := State.src_srcCtrlWrite v s hn
    have hlt : n < u.ent.sources.length := by omega
    rw [ht, hend]
    refine ⟨?_, ?_, ?_, ?_⟩
    · intro hv
      rw [State.src_srcGo_stop hlt _ hv, hsrc]
    · intro hv hwas hgo hst
      have hon : bit (s.rg Reg.ENT_SRC_CTRL) n = false := hwas
      rw [hon, State.src_srcGo_restart hlt hv hgo (hsrc ▸ hst), hsrc]
    · intro hv hwas hno
      have hon : bit (s.rg Reg.ENT_SRC_CTRL) n = false := hwas
      rw [hon, State.src_srcGo_idle hv (hsrc ▸ hno), hsrc]
    · intro hv hwas
      have hoff : bit (s.rg Reg.ENT_SRC_CTRL) n = true := hwas
      rw [hoff]
      exact State.src_srcGo_start hlt hv
  · intro p v s u hu hlcState
    subst hu
    change execTestPatternWrite p false v s = _
    simp only [execTestPatternWrite, effectTestPatternWrite, hlcState]
    rfl
  · intro p v s u hu hlcState hrg htoNat
    subst hu
    change execTestPatternWrite p true v s = _
    simp only [execTestPatternWrite, effectTestPatternWrite, hlcState, hrg, htoNat]
    rfl
  · intro p ctrl v s u hu hlcState
    subst hu
    change execTestPatternWrite p ctrl v s = _
    simp [execTestPatternWrite, effectTestPatternWrite, hlcState]

end Sys2Proof.Machine
end

section
/-! PROOFS. Staging, ring configuration and queue ownership. -/

namespace Sys2Proof.Machine

theorem Tab.erase_insert_same {α : Type} (k : Nat) (v : α) (t : Tab α) : Tab.erase k (Tab.insert k v t) = Tab.erase k t := by
  induction t with
  | nil => simp [Tab.insert, Tab.erase]
  | cons e t ih =>
    obtain ⟨j, w⟩ := e
    by_cases hj : k < j
    · simp [Tab.insert, Tab.erase, hj]
    · simp only [Tab.insert, if_neg hj, Tab.erase, ih]

theorem Tab.erase_erase_same {α : Type} (k : Nat) (t : Tab α) : Tab.erase k (Tab.erase k t) = Tab.erase k t := by
  rw [Tab.erase_eq_filter, Tab.erase_eq_filter, List.filter_filter]
  simp

/-- The last of two writes of a key counts. -/
theorem Tab.put_put_same {α : Type} [DecidableEq α] (d : Nat → α) (k : Nat) (v w : α) (t : Tab α) :
    Tab.put d k v (Tab.put d k w t) = Tab.put d k v t := by
  have herase : Tab.erase k (Tab.put d k w t) = Tab.erase k t := by
    unfold Tab.put
    split
    · rw [Tab.erase_erase_same]
    · rw [Tab.erase_insert_same, Tab.erase_erase_same]
  rw [Tab.put, herase, Tab.put]

theorem State.setQueue_setQueue (s : State) (q : Nat) (k l : Queue) : (s.setQueue q k).setQueue q l = s.setQueue q l := by
  unfold State.setQueue
  rw [Tab.put_put_same]

theorem exec_inlineWrite_eq (func q off : Nat) (bs : List Byte) (s : State) : exec (.inlineWrite func q off bs) s = execInlineWrite func q
    off bs s := rfl

theorem exec_ringDisable_open {func q : Nat} {v : Word} {s u : State} (hreach : s.dbReaches func q = true)
    (hstate : (s.queue q).state = .enabled ∨ (s.queue q).state = .draining ∨ (s.queue q).state = .error)
    (hu : u = if fld v.toNat 7 4 = (s.queue q).sqLog ∧ fld v.toNat 3 0 = (s.queue q).cqLog then s else s.dbDrop q 7) :
    exec (.ringDisable func q v) s = .next ((u.setQueue q { u.queue q with state := .quiescing, staging := [] }).quiesced q) := by
  have hin : ¬(s.queue q).state = .disabled := by
    rintro h
    rw [h] at hstate
    rcases hstate with h | h | h <;> cases h
  subst hu
  change execRingDisable func q v s = _
  unfold execRingDisable
  simp only [hreach, Bool.true_eq_false, if_false, if_neg hin, if_pos hstate]
  rfl

/-- Settles O12, by the equation of each command; a write of the staging area by the bytes that it leaves there. -/
theorem queueConfiguration : Obligations.QueueConfiguration := by
  unfold Obligations.QueueConfiguration
  refine ⟨?_, ?_, ?_, ?_, ?_, ?_, ?_, ?_⟩
  · intro func q off bs st s hopen hstate hclass hst
    have hready : ¬((s.queue q).state ≠ .enabled ∧ (s.queue q).state ≠ .draining) := fun h => hstate.elim h.1 h.2
    have hclass' : ¬s.qClass q ≠ 0 := fun h => h hclass
    rw [exec_inlineWrite_eq]
    unfold execInlineWrite
    simp only [hopen, Bool.true_eq_false, if_false, if_neg hready, if_neg hclass', ← hst]
    refine ⟨?_, ?_, ?_⟩
    · intro hshort
      rw [if_pos hshort]
    · intro hlong hfull
      rw [if_neg (Nat.not_lt.2 hlong), if_pos hfull]
    · intro hlong hroom hslots
      refine ⟨_, _, rfl, rfl, ?_⟩
      rw [if_neg (Nat.not_lt.2 hlong), if_neg hroom, if_neg hslots]
      simp only [State.updQueue, State.queue_setQueue, if_true, State.setQueue_setQueue, State.setQueue_time]
  · intro func q off bs s hopen hstate hclass
    have hready : ¬((s.queue q).state ≠ .enabled ∧ (s.queue q).state ≠ .draining) := fun h => hstate.elim h.1 h.2
    rw [exec_inlineWrite_eq]
    unfold execInlineWrite
    simp only [hopen, Bool.true_eq_false, if_false, if_neg hready, if_pos hclass]
  · intro func q v s hdbReaches hstate hready hqRegion hh hh2
    change execRingEnable func q v s = _
    simp [execRingEnable, hdbReaches, hstate, hready, hqRegion, hh, hh2]
  · intro func q v s hreach hstate hbad
    have hin : ¬(s.queue q).state ≠ .disabled := fun h => h hstate
    have hno : fld v.toNat 7 4 < 4 ∨ fld v.toNat 3 0 < 4 ∨ s.ready = false ∨ s.rgnEnabled (s.qRegion q) = false := by tauto
    change execRingEnable func q v s = _
    unfold execRingEnable
    simp only [hreach, Bool.true_eq_false, if_false, if_neg hin, if_pos hno]
  · intro func q v s u hreach hstate hu
    exact exec_ringDisable_open hreach hstate hu
  · intro func q v s hdbReaches hstate
    change execRingDisable func q v s = _
    simp only [execRingDisable, hdbReaches, hstate]
    rfl
  · intro p q v s u hu hq hstate hfast
    subst hu
    generalize hw : v.toNat &&& 0x833F0F00 = w at hfast ⊢
    have hlt : w < 4294967296 := hw ▸ Nat.lt_of_le_of_lt Nat.and_le_left v.isLt
    have hin : ¬(((s.turn p).queue q).state ≠ .unassigned ∧ ((s.turn p).queue q).state ≠ .disabled) := fun h => hstate.elim h.1 h.2
    have hroom : ¬(bit w 31 && fld w 25 24 == 0 && !((s.turn p).qAssigned q && (s.turn p).qClass q == 0) &&
        decide (64 ≤ (s.turn p).fastCount)) = true := by
      simp only [Bool.and_eq_true, Bool.not_eq_true', Bool.and_eq_false_iff, beq_iff_eq, decide_eq_true_eq, beq_eq_false_iff_ne]
      rintro ⟨⟨⟨hon, hcls⟩, hnew⟩, hmany⟩
      rcases hfast with h | h | h | h
      · rw [hon] at h
        cases h
      · exact h hcls
      · rcases hnew with h' | h'
        · rw [h.1] at h'
          cases h'
        · exact h' h.2
      · omega
    refine ⟨((s.turn p).wr (qReg q Reg.QR_Q_OWNER) w).setQueue q
      { (s.turn p).queue q with state := if bit w 31 then .disabled else .unassigned }, ?_, ?_, ?_, ?_, ?_, rfl⟩
    · change effectQOwnerWrite p q v (s.turn p) = _
      unfold effectQOwnerWrite
      simp only [hw, if_neg (Nat.not_le.2 hq), if_neg hin, if_neg hroom]
    · exact (State.rg_wr_same _ _ _).trans (Nat.mod_eq_of_lt hlt)
    · exact (State.queue_setQueue _ _ _ _).trans (if_pos rfl)
    · exact fun x hx => (State.queue_setQueue _ _ _ _).trans (if_neg hx)
    · exact fun a ha => (State.reg_wr _ _ _ _).trans (if_neg ha)
  · intro p q v s u hu hh hstate hstate2
    subst hu
    change execQOwnerWrite p q v s = _
    simp [execQOwnerWrite, effectQOwnerWrite, hh, hstate, hstate2]

end Sys2Proof.Machine
end

section
/-! PROOFS. Stop times and halts; engine commands enter their queues and end. -/

namespace Sys2Proof.Machine

/-- The least element of a list under a strict order: it is in the list, and none is before it. -/
theorem leastBy_spec {α : Type} {lt : α → α → Bool} (hirr : ∀ x, lt x x = false) (htrans : ∀ {x y z}, lt x y = true → lt y z = true → lt x
    z = true)
    {l : List α} {m : α} (h : leastBy lt l = some m) : m ∈ l ∧ ∀ x ∈ l, lt x m = false := by
  cases l with
  | nil => cases h
  | cons x xs =>
    obtain rfl := Option.some.inj h
    clear h
    suffices hfold : ∀ a, (xs.foldl (fun m y => if lt y m then y else m) a ∈ a :: xs) ∧
        ∀ z, (lt z a = false ∨ z ∈ xs) → lt z (xs.foldl (fun m y => if lt y m then y else m) a) = false by
      obtain ⟨hmem, hleast⟩ := hfold x
      refine ⟨hmem, fun z hz => hleast z ?_⟩
      rcases List.mem_cons.1 hz with rfl | hz
      · exact Or.inl (hirr z)
      · exact Or.inr hz
    induction xs with
    | nil => exact fun a => ⟨List.mem_singleton_self a, fun z hz => hz.resolve_right List.not_mem_nil⟩
    | cons y ys ih =>
      intro a
      rw [List.foldl_cons]
      obtain ⟨hmem, hleast⟩ := ih (if lt y a then y else a)
      constructor
      · rcases List.mem_cons.1 hmem with heq | hin
        · rw [heq]
          split
          · exact List.mem_cons_of_mem _ List.mem_cons_self
          · exact List.mem_cons_self
        · exact List.mem_cons_of_mem _ (List.mem_cons_of_mem _ hin)
      · intro z hz
        refine hleast z ?_
        rcases hz with hz | hz
        · refine Or.inl ?_
          split
          next hy => exact Bool.eq_false_iff.2 fun h => absurd (htrans h hy) (by simp [hz])
          · exact hz
        · rcases List.mem_cons.1 hz with rfl | hz
          · refine Or.inl ?_
            split
            · exact hirr z
            next hy => exact Bool.eq_false_iff.2 hy
          · exact Or.inr hz

/-- The order in which issued commands enter their engine's queue (R331). -/
def issuedBefore (a b : Command) : Bool :=
  decide (a.issued < b.issued) || (decide (a.issued = b.issued) && decide (a.issueRank < b.issueRank))

theorem issuedBefore_iff {a b : Command} :
    issuedBefore a b = true ↔ a.issued < b.issued ∨ (a.issued = b.issued ∧ a.issueRank < b.issueRank) := by
  simp [issuedBefore]

theorem issuedBefore_irrefl (a : Command) : issuedBefore a a = false := by
  simp [issuedBefore]

theorem issuedBefore_trans {a b c : Command} (hab : issuedBefore a b = true) (hbc : issuedBefore b c = true) : issuedBefore a c = true :=
    by
  rw [issuedBefore_iff] at *
  omega

/-- The commands issued to an engine that are not yet in its queue. -/
def State.issuedTo (s : State) (e : Engine) : List Command :=
  s.cmds.filter (fun (x : Command) => decide (x.engine = e) && decide (x.phase = .issued) && decide (x.block ≠ []))

theorem State.first_issued {c : Command} {s : State} (hc : s.cmd c.id = some c) (hphase : c.phase = .issued) (hblock : c.block ≠ [])
    (hfirst : ∀ x ∈ s.cmds, x.engine = c.engine → x.phase = .issued → x.block ≠ [] →
      x.id = c.id ∨ c.issued < x.issued ∨ (c.issued = x.issued ∧ c.issueRank < x.issueRank)) :
    (leastBy issuedBefore (s.issuedTo c.engine)).map (·.id) = some c.id := by
  have hin : c ∈ s.issuedTo c.engine := List.mem_filter.2 ⟨List.mem_of_find?_eq_some hc, by simp [hphase, hblock]⟩
  cases hm : leastBy issuedBefore (s.issuedTo c.engine) with
  | none =>
    cases hl : s.issuedTo c.engine with
    | nil => exact absurd hin (by simp [hl])
    | cons x xs =>
      rw [hl] at hm
      cases hm
  | some m =>
    obtain ⟨hmem, hleast⟩ := leastBy_spec issuedBefore_irrefl issuedBefore_trans hm
    obtain ⟨hcmds, hsel⟩ := List.mem_filter.1 hmem
    simp only [Bool.and_eq_true, decide_eq_true_eq] at hsel
    obtain ⟨⟨hengine, hissued⟩, hbody⟩ := hsel
    rcases hfirst m hcmds hengine hissued hbody with h | h
    · exact congrArg some h
    · exact absurd (issuedBefore_iff.2 h) (by simp [hleast c hin])

/-- Settles O17, by the equation of each command; the command that enters is the least of the issued ones (`leastBy_spec`). -/
theorem stopsAndEngineQueues : Obligations.StopsAndEngineQueues := by
  unfold Obligations.StopsAndEngineQueues
  refine ⟨?_, ?_, ?_, ?_, ?_, ?_, ?_, ?_⟩
  · intro c s hid hstop hstop2 hphase
    change execStopTimeReached (.command c.id) s = _
    simp [execStopTimeReached, hid, hstop, hstop2, hphase]
  · intro j s hentry hstop hstop2 hphase
    change execStopTimeReached (.job j.entry) s = _
    simp [execStopTimeReached, hentry, hstop, hstop2, hphase]
  · intro k s hk hjob hending hset hdue
    have hgo : ¬(8 ≤ k ∨ (s.core k).job.isNone = true ∨ (s.core k).ending.isSome = true ∨ (s.core k).haltTime = allOnes64 ∨
        s.time < (s.core k).haltTime) := by
      rw [hending, Option.isNone_iff_eq_none]
      simp only [Option.isSome_iff_ne_none.1 hjob, hset, Option.isSome_none, Bool.false_eq_true, false_or]
      omega
    change execHaltTimeReached k s = _
    rw [execHaltTimeReached, if_neg hgo]
  · intro j c s hentry hceiling hphase hh hstopping hstops
    change execEnergyCeilingStop j.entry s = _
    simp [execEnergyCeilingStop, hentry, hceiling, hphase, hh, hstopping, hstops]
  · intro a s hone
    rw [State.settleStops, hone]
    rfl
  · intro e i k st s
    refine ⟨rfl, rfl, fun hending => ?_⟩
    exact if_neg (by simp [hending])
  · intro c s hc hengine hphase hblock hfirst hroom
    have hleast : (leastBy (fun (a b : Command) => decide (a.issued < b.issued) || (decide (a.issued = b.issued) && decide (a.issueRank <
        b.issueRank)))
        (s.cmds.filter (fun (x : Command) => decide (x.engine = c.engine) && decide (x.phase = .issued) && decide (x.block ≠ [])))).map
            (·.id) =
        some c.id := State.first_issued hc hphase hblock hfirst
    change execEngineQueueEntry c.id s = _
    unfold execEngineQueueEntry
    simp only [hc, hleast, ne_eq, not_true_eq_false, false_or]
    rw [if_neg (by simp only [hengine, false_or]; omega)]
  · intro c e e' j en s u v hc hphase hending hrepair hcore hshow hv hj hkind
    subst hv
    have hgo : ¬((s.cmd c.id).map s.repairing).getD false = true := by simp [hc, hrepair]
    change execEngineCommandEnd c.id s = _
    rw [execEngineCommandEnd, if_neg hgo]
    unfold State.finishCommand
    simp only [hc, hphase, hending, hshow, hcore, hj, hkind]

end Sys2Proof.Machine
end

section
/-! PROOFS. The entropy channels and the known-answer tests. -/

namespace Sys2Proof.Machine

theorem exec_softDataRead_eq (p : Path) (s : State) : exec (.softDataRead p) s = effectSoftDataRead p (s.turn p) := rfl
theorem exec_katConditioner_eq (p : Path) (v : Word) (s : State) : exec (.katConditioner p v) s = effectKatConditioner p v (s.turn p) :=
    rfl
theorem exec_katChannel_eq (p : Path) (v : Word) (s : State) : exec (.katChannel p v) s = effectKatChannel p v (s.turn p) := rfl
theorem exec_katDone_eq (pass : Bool) (s : State) : exec (.katDone pass) s = execKatDone pass s := rfl

/-! A read of SOFT_DATA. -/

theorem State.draw_softRead (s : State) (chan n : Nat) : (s.draw chan n).1.ent.softRead = s.ent.softRead := by
  simp only [State.draw]
  split
  · rfl
  · rfl

theorem State.notReady_ent (s : State) (chan : Nat) : (s.notReady chan).ent = s.ent := by
  rw [State.notReady, State.event_ent, State.bumpSat_ent]

/-- What a path's read leaves: the word on the path, and the read for the arbitration of the cycle. -/
def State.softRead (s : State) (r : SoftRead) : State := { s.softAnswer r with ent := { (s.softAnswer r).ent with softRead := some r } }

theorem exec_softDataRead {p : Path} {s v w : State} {o : Option (List Byte)} {r : SoftRead} (hfree : (s.turn p).ent.softRead = none)
    (hdraw : (s.turn p).draw 3 4 = (v, o)) (hw : w = if o.isSome then v else v.notReady 3)
    (hr : r = { path := p, word := BitVec.ofNat 32 (leNat (o.getD [])), ok := o.isSome }) :
    exec (.softDataRead p) s = .next (w.softRead r) := by
  have hkept : v.ent.softRead = none := by
    have h := (s.turn p).draw_softRead 3 4
    rw [hdraw, hfree] at h
    exact h
  have hnone : w.ent.softRead = none := by
    rw [hw]
    split
    · exact hkept
    · rw [State.notReady_ent, hkept]
  rw [exec_softDataRead_eq]
  unfold effectSoftDataRead
  simp only [hdraw, ← hw, hnone]
  rw [hr]
  rfl

theorem State.softRead_kept (s : State) (r : SoftRead) :
    (if r.path = .host then (s.softRead r).hostPath else (s.softRead r).mgrPath).lastRead = [r.word] ∧
    (s.softRead r).ent.chans = s.ent.chans ∧ (r.path = .host → (s.softRead r).ent.softHost = r.ok) ∧
    (r.path = .manager → (s.softRead r).ent.softMgr = r.ok) ∧ (s.softRead r).regs = s.regs ∧ (s.softRead r).events = s.events := by
  obtain ⟨p, word, ok⟩ := r
  cases p
  · exact ⟨rfl, rfl, fun _ => rfl, nofun, rfl, rfl⟩
  · exact ⟨rfl, rfl, nofun, fun _ => rfl, rfl, rfl⟩

/-! The known-answer tests. -/

theorem State.katAsk_busy {s : State} (n : Nat) (h : s.ent.kat.isSome = true ∨ s.ent.katEnded = true) :
    s.katAsk n = { s with ent := { s.ent with katBusy := true } }.katCode 2 := if_pos h

theorem State.not_katAsk_busy {s : State} (hidle : s.ent.kat = none) (hended : s.ent.katEnded = false) :
    ¬(s.ent.kat.isSome = true ∨ s.ent.katEnded = true) := by
  simp [hidle, hended]

/-- The end of a test that no other command has met. -/
theorem exec_katDone {k : Kat} {t0 : Nat} {pass : Bool} {s : State} (hk : s.ent.kat = some k) (hboot : k.boot = false)
    (hstart : k.started = some t0) (hdue : t0 + (if k.target = 0 then 1000 else 2000) ≤ s.time) (hfree : s.ent.katBusy = false) {u :
        State}
    (hu : u = { s with ent := { s.ent with kat := none, katEnded := true } }.katStatus 3 (if pass then 0 else 1) k.target) :
    exec (.katDone pass) s = .next (if pass then u.katPassed k else u.katFailed k.target) := by
  subst hu
  rw [exec_katDone_eq]
  unfold execKatDone
  simp only [hk, hstart, if_neg (Nat.not_lt.2 hdue), hfree, hboot, Bool.false_eq_true, if_false, if_true]

/-- Settles O39, by the equation of each command; a read of SOFT_DATA by what its draw gives (`exec_softDataRead`). -/
theorem channelsAndKnownAnswers : Obligations.ChannelsAndKnownAnswers := by
  unfold Obligations.ChannelsAndKnownAnswers
  refine ⟨?_, ?_, ?_, ?_, ?_, ?_, ?_, ?_, ?_, ?_, ?_, ?_, ?_, ?_, ?_⟩
  · intro chan t0 b rest s hcoming ht0
    change execConditionedBlockReady chan s = _
    simp [execConditionedBlockReady, hcoming, ht0]
  · intro chan s hchan hinstantiated hgen hneed hst hlength hreseedDue
    change execDrbgGenerateStart chan s = _
    simp [execDrbgGenerateStart, hchan, hinstantiated, hgen, hneed, hst, hlength, hreseedDue]
  · intro chan s hchan hinstantiated hgen hneed hst hlength hreseedDue
    change execDrbgGenerateStart chan s = _
    simp [execDrbgGenerateStart, hchan, hinstantiated, hgen, hneed, hst, hlength, hreseedDue]
  · intro t0 c s hchan hgen ht0
    change execDrbgGenerateDone 0 s = _
    simp [execDrbgGenerateDone, hchan, hgen, ht0]
  · intro chan c s hchan hneed hh hreadyAt hst
    change execDrbgReseedDone chan s = _
    simp [execDrbgReseedDone, hchan, hneed, hh, hreadyAt, hst]
  · intro p s u v b hu hfree hdraw
    subst hu
    obtain ⟨hread, hchans, hhost, hmgr, hregs, hevents⟩ := v.softRead_kept { path := p, word := BitVec.ofNat 32 (leNat b), ok := true }
    exact ⟨_, exec_softDataRead hfree hdraw rfl rfl, hread, hchans, hhost, hmgr, hregs, hevents⟩
  · intro p s u v hu hfree hdraw
    subst hu
    obtain ⟨hread, -, hhost, hmgr, hregs, hevents⟩ := (v.notReady 3).softRead_kept { path := p, word := BitVec.ofNat 32 (leNat []), ok :=
        false }
    exact ⟨_, exec_softDataRead hfree hdraw rfl rfl, hread, hhost, hmgr, hregs, hevents⟩
  · intro p v s u hu hgo htarget hidle hended
    subst hu
    rw [exec_katConditioner_eq, effectKatConditioner, if_neg (by simp [hgo, htarget]), State.katAsk,
      if_neg (State.not_katAsk_busy hidle hended), if_pos rfl]
  · intro p v n s u hu hgo hn h1 h4 hidle hended h5 h6
    subst hn hu
    rw [exec_katChannel_eq, effectKatChannel, if_neg (by simp only [hgo, Bool.true_eq_false, false_or]; omega), State.katAsk,
      if_neg (State.not_katAsk_busy hidle hended), if_neg (by omega), if_neg (by simp only [h5, h6, or_self, not_false_eq_true])]
  · intro n s hbusy
    exact State.katAsk_busy n hbusy
  · intro k s hk hstart htarget hdue
    have hfree : ¬(k.started.isSome = true ∨ k.target = 0) := by simp [hstart, htarget]
    have hgo : ¬((s.chan (k.target - 1)).reserve.length < 4096 ∧ s.time < k.asked + 100000) := by omega
    change execKatStart s = _
    unfold execKatStart
    simp only [hk, if_neg hfree, if_neg hgo]
  · intro k t0 s hk hboot hstart htarget hdue hfree
    rw [exec_katDone hk hboot hstart (by rw [if_pos htarget]; exact hdue) hfree rfl, htarget]
    exact congrArg _ (if_pos htarget)
  · intro k t0 s hk hboot hstart htarget hdue hfree
    rw [exec_katDone hk hboot hstart (by rw [if_neg htarget]; exact hdue) hfree rfl]
    simp only [if_true, State.katPassed, if_neg htarget, hboot, Bool.false_eq_true, if_false]
  · intro k t0 s hk hboot hstart hdue hfree
    rw [exec_katDone hk hboot hstart (by split <;> omega) hfree rfl]
    rfl
  · intro p v s u hu htoNat hh
    subst hu
    change execKatBadTarget p v s = _
    simp only [execKatBadTarget, effectKatBadTarget, htoNat, hh]
    rfl

end Sys2Proof.Machine
end

section
/-! PROOFS. A core's timer, stores and transfers. -/

namespace Sys2Proof.Machine

/-! What leaves the cores as they are. -/

theorem State.charge_gnm (s : State) (e : Option Nat) (c : Nat) : (s.charge e c).gnm = s.gnm := by
  unfold State.charge
  split
  · unfold State.chargeJob
    split
    · rfl
    · rfl
  · rfl

theorem State.noteWord_gnm (s : State) (space w : Nat) : (s.noteWord space w).gnm = s.gnm := by
  simp only [State.noteWord]
  split
  · rfl
  · split
    · split
      · simp only [State.raiseErr_gnm, State.event_gnm, State.bump_gnm, State.wr_gnm, State.wr64_gnm]
      · simp only [State.raiseErr_gnm, State.event_gnm, State.bump_gnm, State.wr_gnm, State.wr64_gnm]
    · split
      · simp only [State.raiseErr_gnm, State.event_gnm, State.bump_gnm]
      · simp only [State.raiseErr_gnm, State.event_gnm, State.bump_gnm]

theorem State.putBytes_gnm (s : State) (space func a : Nat) (bs : List Byte) : (s.putBytes space func a bs).gnm = s.gnm := by
  unfold State.putBytes
  split
  · rfl
  · split
    · rfl
    · rfl

theorem State.storePart_gnm (s : State) (space func w lo : Nat) (bs : List Byte) : (s.storePart space func w lo bs).gnm = s.gnm := by
  have hfixed : (if s.mark (spaceMark space w) = 1 ∧ bs.length < 8 then s.noteWord space w else s).gnm = s.gnm := by
    split
    · exact s.noteWord_gnm space w
    · rfl
  have hmarked : ∀ (u : State) (pg k n : Nat), (if n = 0 then u.setMark k n else
      { u.setMark k n with mem := { (u.setMark k n).mem with inject := Tab.put (fun _ => 0) pg 0 (u.setMark k n).mem.inject } }).gnm =
          u.gnm := by
    intro u pg k n
    split
    · rfl
    · rfl
  simp only [State.storePart]
  split
  · exact s.noteWord_gnm space w
  · rw [State.putBytes_gnm]
    exact (hmarked _ _ _ _).trans hfixed

theorem foldl_gnm {α : Type} {f : State → α → State} (hf : ∀ s x, (f s x).gnm = s.gnm) (l : List α) : ∀ s : State, (l.foldl f s).gnm =
    s.gnm := by
  induction l with
  | nil => exact fun _ => rfl
  | cons x l ih => exact fun s => (ih (f s x)).trans (hf s x)

theorem State.writeSpace_gnm (s : State) (job : Option Nat) (space func a : Nat) (bs : List Byte) :
    (s.writeSpace job space func a bs).gnm = s.gnm := by
  have hstored : ∀ ws : List Nat, (ws.foldl (fun s w => s.storePart space func w (Nat.max w a)
      ((bs.drop (Nat.max w a - a)).take (Nat.min (w + 8) (a + bs.length) - Nat.max w a))) s).gnm = s.gnm :=
    fun ws => foldl_gnm (fun s w => s.storePart_gnm space func w _ _) ws s
  simp only [State.writeSpace]
  split
  · rfl
  · split
    · rw [State.bump64_gnm, State.charge_gnm, State.putBytes_gnm]
    · split
      · refine (foldl_gnm (fun s st => ?_) _ _).trans ((State.charge_gnm _ _ _).trans (hstored _))
        rw [State.event_gnm, State.bump64_gnm]
      · exact hstored _

theorem State.noteRead_gnm (s : State) (job : Option Nat) (space a n : Nat) : (s.noteRead job space a n).gnm = s.gnm := by
  have hnoted : ∀ ws : List Nat, (ws.foldl (fun s w => s.noteWord space w) s).gnm = s.gnm := fun ws => foldl_gnm (fun s w =>
      s.noteWord_gnm space w) ws s
  simp only [State.noteRead]
  split
  · rfl
  · split
    · rw [State.bump64_gnm, State.charge_gnm]
    · split
      · refine (foldl_gnm (fun s st => ?_) _ _).trans ((State.charge_gnm _ _ _).trans (hnoted _))
        rw [State.event_gnm, State.bump64_gnm]
      · exact hnoted _

theorem State.access_gnm (s : State) (space : Nat) (r : MemReq) : (s.access space r).1.gnm = s.gnm := by
  have hmarked : (if r.upset = 0 then s else s.setMark (spaceMark space r.addr) (s.mark (spaceMark space r.addr) + r.upset)).gnm = s.gnm
      := by
    split
    · rfl
    · rfl
  simp only [State.access]
  split
  · rw [State.noteRead_gnm, hmarked]
  · rw [State.writeSpace_gnm, hmarked]
  · split
    · rw [State.noteRead_gnm, hmarked]
    · rw [State.writeSpace_gnm, hmarked]
  · split
    · rw [State.noteRead_gnm, hmarked]
    · rw [State.writeSpace_gnm, hmarked]
  · split
    · rw [State.noteRead_gnm, hmarked]
    · rw [State.writeSpace_gnm, hmarked]

theorem State.arrived_gnm (s : State) (id : Nat) : (s.arrived id).gnm = s.gnm := by
  unfold State.arrived
  split
  · split
    · rfl
    · rfl
  · rfl

theorem State.noteLast_gnm (s : State) (c : Command) (reason : Nat) : (s.noteLast c reason).gnm = s.gnm := by
  unfold State.noteLast
  split
  · rfl
  · rfl
  · rfl
  · rfl

theorem State.endCmd_gnm (s : State) (id : Nat) (e : CmdEnd) : (s.endCmd id e).gnm = s.gnm := s.arrived_gnm id

theorem State.openGate_gnm (s : State) (g : Gate) : (s.openGate g).gnm = s.gnm := by
  simp only [State.openGate]
  split
  · rfl
  · split
    · rfl
    · split
      · rw [State.endCmd_gnm, State.noteLast_gnm]
      · split
        · rw [State.endCmd_gnm, State.noteLast_gnm, State.noteRead_gnm]
        · rw [State.updCmd_gnm, State.noteRead_gnm]

theorem State.finishJob_gnm (s : State) (e status : Nat) (valid : Bool) (reason cause app : Nat) :
    (s.finishJob e status valid reason cause app).gnm = s.gnm := by
  unfold State.finishJob
  split
  · rfl
  · split
    · rfl
    · split
      · rfl
      · rfl

theorem State.askStop_gnm (s : State) (t : StopTarget) (status : Nat) : (s.askStop t status).gnm = s.gnm := by
  simp only [State.askStop]
  split
  · rfl
  · rfl

/-! The stores of a cycle (R524). -/

theorem State.openGates_visible (s : State) (k : Nat) : (s.openGates k).gnm.visible = s.gnm.visible := by
  simp only [State.openGates]
  exact (congrArg CoreArray.visible (foldl_gnm State.openGate_gnm _ (s.updCore k _))).trans rfl

theorem State.releaseCore_visible (s : State) (k : Nat) : (s.releaseCore k).gnm.visible = s.gnm.visible := rfl

theorem State.haltStep_visible (s : State) (k : Nat) : (s.haltStep k).gnm.visible = s.gnm.visible := by
  have hasked : ∀ is : List Nat, (is.foldl (fun s i => s.askStop (.command i) St.CANCELLED) s).gnm = s.gnm :=
    fun is => foldl_gnm (fun s i => s.askStop_gnm _ _) is s
  simp only [State.haltStep]
  split
  · split
    · rfl
    · split
      · exact congrArg CoreArray.visible (hasked _)
      · rw [State.releaseCore_visible, State.finishJob_gnm, hasked]
  · rfl

theorem State.storeClash_one (s : State) {rs : List MemReq} (h : rs.length ≤ 1) : s.storeClash rs = s := by
  refine List.foldl_fixed' (fun b => ?_) _
  split
  next x y l hl =>
    have hlen := (List.length_filter_le (fun r => comBank r.addr == b) rs).trans h
    rw [hl] at hlen
    exact absurd hlen (by simp)
  · rfl

/-- The store of one core that becomes visible alone performs alone. -/
theorem State.performStores_one {s : State} {k : Nat} (h : s.gnm.visible = [k]) {t : State}
    (ht : t = State.performStore { s with gnm := { s.gnm with visible := [] } } k) (hdone : t.gnm.visible = []) (n : Nat) :
    State.performStores (n + 2) s = t := by
  have hsome : ¬s.gnm.visible = [] := by simp [h]
  have hsort : sortBy (fun a b => decide (coreStop a < coreStop b)) [k].eraseDups = [k] := rfl
  rw [State.performStores, if_neg hsome]
  simp only [h, hsort]
  rw [State.storeClash_one _ (List.length_filterMap_le _ [k])]
  have hkept : [k].foldl List.erase [k] = [] := by simp
  rw [hkept, List.foldl_cons, List.foldl_nil, ← ht, State.performStores, if_pos hdone]

/-- Settles O28, by the equation of each command; the store that becomes visible alone performs alone (`State.performStores_one`). -/
theorem coreMemoryAndTimer : Obligations.CoreMemoryAndTimer := by
  unfold Obligations.CoreMemoryAndTimer
  refine ⟨?_, ?_, ?_, ?_, ?_, ?_, ?_, ?_⟩
  · intro k s hk hdue
    change execTimerExpiry k s = _
    rw [execTimerExpiry, if_neg (Nat.not_le.2 hk)]
    simp only [State.updCore, if_pos hdue]
  · intro k s hk hearly
    refine ⟨s.updCore k (fun c => if c.timecmp ≤ s.time then { c with timer := true } else c), ?_, ?_⟩
    · change execTimerExpiry k s = _
      rw [execTimerExpiry, if_neg (Nat.not_le.2 hk)]
    · intro i
      rw [State.core_updCore]
      split
      next hi => rw [if_neg (Nat.not_le.2 hearly), hi]
      · rfl
  · intro k sp addr len at_ j img arg s u v hh hjob hentry hphase hlull hsp haddr hlen hu hv hfunc hreadArgs hlength hat_
    subst hat_ hv hu hlen haddr hsp
    change execProgramLoadDone k s = _
    simp [execProgramLoadDone, hh, hjob, hentry, hphase, hlull, hfunc, hreadArgs, hlength]
  · intro k s hh hcount
    change execStoreVisible k s = _
    simp [execStoreVisible, hh, hcount]
  · intro k e es old s u v hone hsb hu hsparge haccess
    have hcore : u.core k = s.core k := by
      rw [hu]
      rfl
    have hgo : u.sparging e.space e.addr (opSize e.op) = false := by
      rw [hu]
      exact hsparge
    have hnone : e.dest = none → u.performStore k = (v.openGates k).haltStep k := by
      intro hdest
      unfold State.performStore
      simp only [hcore, hsb, hgo, Bool.false_eq_true, if_false]
      simp only [Core.storeReq, haccess, hdest]
    have hsome : ∀ d, e.dest = some d → u.performStore k = ((v.updCore k (fun c => { c with
        regs := Tab.put (fun _ => 0) d (to64 (sInt (8 * old.length) (leNat old))) c.regs })).openGates k).haltStep k := by
      intro d hdest
      unfold State.performStore
      simp only [hcore, hsb, hgo, Bool.false_eq_true, if_false]
      simp only [Core.storeReq, haccess, hdest]
    have hv : v.gnm.visible = [] := by
      have h := (u.updCore k (fun c => { c with sb := es })).access_gnm e.space
        { rank := coreStop k, region := some (s.core k).region, job := (s.core k).job, addr := e.addr, op := e.op, upset := 0 }
      rw [haccess] at h
      rw [h, hu]
      rfl
    constructor
    · intro hdest
      exact State.performStores_one hone (hu ▸ (hnone hdest).symm) (by rw [State.haltStep_visible, State.openGates_visible]; exact hv) 254
    · intro d hdest
      exact State.performStores_one hone (hu ▸ (hsome d hdest).symm) (by rw [State.haltStep_visible, State.openGates_visible]; exact hv)
          254
  · intro k t ts s hh htransfers hstart hafter hcore hlen hlen2
    change execTransferStart k s = _
    simp [execTransferStart, hh, htransfers, hstart, hafter, hcore, hlen, hlen2]
  · intro k t0 t ts bs s hh htransfers hstart hrate hcore hlen hlen2 hlen3
    change execTransferEnd k s = _
    simp [execTransferEnd, hh, htransfers, hstart, hrate, hcore, hlen, hlen2, hlen3]
  · intro k s hk hphase hend
    have hgo : ¬(8 ≤ k ∨ (s.core k).phase ≠ .sparging ∨ s.gov.ccycles < (s.core k).spargeEnd) := by
      simp only [hphase, ne_eq, not_true_eq_false, false_or]
      omega
    have hrun : exec (.coreSpargeDone k) s =
        .next (((s.spargeLm k).updCore k (fun c => { c with phase := .idle, idleSince := s.time })).event 0x0A04 pgMemory) := by
      change execCoreSpargeDone k s = _
      rw [execCoreSpargeDone, if_neg hgo]
    have hcore : ∀ i, (((s.spargeLm k).updCore k (fun c => { c with phase := .idle, idleSince := s.time })).event 0x0A04 pgMemory).core i
        =
        if i = k then { s.core k with lmem := [], phase := .idle, idleSince := s.time } else s.core i := by
      intro i
      have hlmem : ∀ j, (s.spargeLm k).core j = if j = k then { s.core k with lmem := [] } else s.core j := fun j => Tab.get_put _ k j _ _
      rw [State.core, State.event_gnm, ← State.core, State.core_updCore]
      split
      · rw [hlmem, if_pos rfl]
      next hi => rw [hlmem, if_neg hi]
    refine ⟨_, hrun, ?_, ?_, ?_, ?_, ?_⟩
    · rw [hcore, if_pos rfl]
    · rw [hcore, if_pos rfl]
    · rw [hcore, if_pos rfl]
    · exact fun i hi => (hcore i).trans (if_neg hi)
    · rfl

end Sys2Proof.Machine
end

section
/-! PROOFS. Marches. -/

namespace Sys2Proof.Machine

theorem exec_marchDestructive_eq (p : Path) (v : Word) (fails : List (Nat × Nat)) (s : State) :
    exec (.marchDestructive p v fails) s = effectMarchDestructive p v fails (s.turn p) := rfl
theorem exec_marchPreserving_eq (p : Path) (v : Word) (s : State) : exec (.marchPreserving p v) s = effectMarchPreserving p v (s.turn p)
    := rfl
theorem exec_marchAbort_eq (p : Path) (v : Word) (s : State) : exec (.marchAbort p v) s = effectMarchAbort p v (s.turn p) := rfl
theorem exec_marchBadOp_eq (p : Path) (v : Word) (s : State) : exec (.marchBadOp p v) s = effectMarchBadOp p v (s.turn p) := rfl

/-! A held command by its OP. -/

section
variable {a : MemAsk} (s : State)

theorem State.memCommand_destructive (h : a.op = some 1) : s.memCommand a = s.marchDestructive a := by
  simp only [State.memCommand, h]

theorem State.memCommand_preserving (h : a.op = some 2) : s.memCommand a = s.marchPreserving a := by
  simp only [State.memCommand, h]

theorem State.memCommand_abort (h : a.op = some 3) : s.memCommand a = s.marchAbort := by
  simp only [State.memCommand, h]

theorem State.memCommand_reserved {n : Nat} (h : a.op = some n) (hn : n = 0 ∨ 3 < n) :
    s.memCommand a = s.marchCode (if s.ready then 3 else 6) := by
  rw [State.memCommand, h]
  match n, hn with
  | 0, _ => rfl
  | n + 4, _ => rfl

end

/-! A destructive march of the commons. -/

/-- A byte of the march's range. -/
def MemAsk.covers (a : MemAsk) (x : Nat) : Bool := comBank x == a.inst && decide (a.start ≤ comBankWord x) && decide (comBankWord x <
    a.start + a.count)

theorem State.repairs_nil (s : State) (kind inst : Nat) : s.repairs kind inst [] = (s, false) := rfl

theorem State.marchZero_commons (s : State) (a : MemAsk) : ∃ m, m.marches = s.mem.marches ∧ s.marchZero 2 a.inst a.start a.count =
    { s with mem := m, commons := Tab.keep (fun x _ => !a.covers x) s.commons } := by
  refine ⟨_, ?_, rfl⟩
  rfl

/-- A destructive march that begins: the list of marches and three registers change. -/
theorem State.marchBegin_destructive (s : State) (kind inst start count : Nat) : ∃ m, m.marches.length = s.mem.marches.length + 1 ∧
    s.marchBegin true kind inst start count =
      ((({ s with mem := m } : State).wr Reg.MEM_MARCH_STATUS (1 <<< 28)).wr Reg.MEM_MARCH_DONE 0).wr Reg.MEM_MARCH_FIRST 0 := by
  unfold State.marchBegin
  simp only [Bool.not_true, Bool.false_and, Bool.false_eq_true, if_false]
  refine ⟨_, ?_, rfl⟩
  exact List.length_append

/-- What a destructive march of the commons leaves: its range zero, and a march that runs. -/
theorem State.marchDestructive_commons {a : MemAsk} {s b : State} (hkind : a.kind = 2) (hfails : a.fails = [])
    (hcheck : s.marchCheck true a.kind a.inst a.start a.count = 0) (hb : b = s.marchBegin true a.kind a.inst a.start a.count) :
    ∃ m, m.marches.length = b.mem.marches.length ∧
      s.marchDestructive a = { b with mem := m, commons := Tab.keep (fun x _ => !a.covers x) b.commons } := by
  have hgo : ¬s.marchCheck true a.kind a.inst a.start a.count ≠ 0 := fun h => h hcheck
  rw [State.marchDestructive, if_neg hgo, ← hb]
  obtain ⟨m, hmarches, hm⟩ := b.marchZero_commons a
  simp only [hfails, List.filter_nil, State.repairs_nil, hkind, hm]
  exact ⟨_, (List.length_map _).trans (congrArg List.length hmarches), rfl⟩

/-- The registers of a march that begins. -/
theorem State.rg_marchBegin (s : State) (x : Nat) : ∀ t : State,
    t = ((s.wr Reg.MEM_MARCH_STATUS x).wr Reg.MEM_MARCH_DONE 0).wr Reg.MEM_MARCH_FIRST 0 →
    t.rg Reg.MEM_MARCH_DONE = 0 ∧ t.rg Reg.MEM_MARCH_FIRST = 0 ∧ t.rg Reg.MEM_MARCH_STATUS = x % 4294967296 := by
  rintro t rfl
  refine ⟨?_, ?_, ?_⟩
  · rw [State.rg_wr_ne _ (by decide), State.rg_wr_same]
  · rw [State.rg_wr_same]
  · rw [State.rg_wr_ne _ (by decide), State.rg_wr_ne _ (by decide), State.rg_wr_same]

/-- Settles O36, by the march that a held command begins, refuses or stops. A march's range being zero from its start, ABORT stopping the
last march begun, and IDLE with ABORTED are the model's choice (log entries 109 and 110). -/
theorem marchesComplete : Obligations.MarchesComplete := by
  unfold Obligations.MarchesComplete
  refine ⟨?_, ?_, ?_, ?_, ?_, ?_, ?_, ?_, ?_, ?_, ?_, ?_⟩
  · intro p v fails s u hu
    subst hu
    rw [exec_marchDestructive_eq, exec_marchPreserving_eq, exec_marchAbort_eq, exec_marchBadOp_eq]
    refine ⟨fun h => if_neg (fun hn => hn h), fun h => if_neg (fun hn => hn h), fun h => if_neg (fun hn => hn h), fun h => if_neg (by
        omega)⟩
  · intro a s hone
    rw [State.memStep, hone]
    rfl
  · intro a s t hop hkind hfails hcheck hwf ht
    obtain ⟨m₀, hlen₀, hbegin⟩ := s.marchBegin_destructive a.kind a.inst a.start a.count
    obtain ⟨m, hlen, hm⟩ := State.marchDestructive_commons hkind hfails hcheck rfl
    obtain ⟨hdone, hfirst, hstatus⟩ := State.rg_marchBegin _ _ _ hbegin
    rw [ht, s.memCommand_destructive hop, hm]
    rw [hbegin] at hlen ⊢
    refine ⟨hlen.trans hlen₀, ?_, ?_, ?_, rfl, rfl, fun x => ?_⟩
    · rw [hbegin] at hdone
      exact hdone
    · rw [hbegin] at hfirst
      exact hfirst
    · rw [hbegin] at hstatus
      exact hstatus
    · change Tab.get (fun _ => 0) (Tab.keep (fun x _ => !a.covers x) s.commons) x = _
      rw [Tab.get_keep (fun _ => 0) (fun x => !a.covers x)]
      by_cases hx : a.covers x = true
      · rw [if_neg (by simp [hx]), if_pos (by simpa [MemAsk.covers, and_assoc] using hx)]
      · rw [if_pos (by simp [hx]), if_neg (by simpa [MemAsk.covers, and_assoc] using hx)]
  · intro a s hop hcheck
    rw [s.memCommand_preserving hop, State.marchPreserving, if_neg (fun h => h hcheck)]
  · intro a c s hc h
    rcases h with ⟨hop, hcheck⟩ | ⟨hop, hcheck⟩
    · rw [s.memCommand_destructive hop, State.marchDestructive, hcheck]
      exact if_pos hc
    · rw [s.memCommand_preserving hop, State.marchPreserving, hcheck]
      exact if_pos hc
  · intro a m s hop hready hlast hkeep
    rw [s.memCommand_abort hop, State.marchAbort, if_neg (by simp [hready])]
    simp only [hlast, hkeep, Bool.false_eq_true, if_false]
  · intro a m s hop hready hlast hspoil
    rw [s.memCommand_abort hop, State.marchAbort, if_neg (by simp [hready])]
    simp only [hlast, hspoil, if_true]
  · intro a n s hop hn hready
    rw [s.memCommand_reserved hop hn, if_pos hready]
  · intro r m tun fails s u v hcmd hdestructive htuns hmarch hphase hdone hsliceEnd hrunFrom hu hv
    subst hv hu
    change execMarchSlice r.cmd tun fails s = _
    simp [execMarchSlice, hcmd, hdestructive, htuns, hmarch, hphase, hdone, hsliceEnd, hrunFrom]
  · intro m s hmarches hpaused hkind
    change execMarchResume s = _
    simp [execMarchResume, hmarches, hpaused, hkind]
  · intro m fails s hmarches hdestructive hmarchHeld
    change execMarchDone fails s = _
    simp [execMarchDone, hmarches, hdestructive, hmarchHeld]
  · intro m fails s u hone hkeep hkind hpaused hu
    subst hu
    have hheld : s.marchHeld m = false := by
      rcases hkind with h | h
      · simp [State.marchHeld, h, hpaused]
      · simp [State.marchHeld, h, hpaused]
    have hready : (!s.marchHeld m && (m.destructive || m.kind != 0 || decide (m.sliceEnd.getD 0 + ceilDiv (m.count - m.done) 8 ≤
        s.gov.ccycles))) =
        true := by
      rcases hkind with h | h
      · simp [hheld, h]
      · simp [hheld, h]
    have hkept : ¬m.destructive = true := by simp [hkeep]
    change execMarchDone fails s = _
    unfold execMarchDone
    simp only [hone, List.find?_cons, hready, if_neg hkept]

end Sys2Proof.Machine
end

section
/-! PROOFS. Commons and HBM accesses, write-backs and the patrol. -/

namespace Sys2Proof.Machine

theorem byRank_one (r : MemReq) : byRank [r] = [r] := rfl

theorem takeFree_one {held : MemReq → Bool} {r : MemReq} (h : held r = false) (n : Nat) : takeFree held (n + 1) [r] = ([r], []) := by
  simp only [takeFree, h, Bool.false_eq_true, if_false]
  cases n with
  | zero => rfl
  | succ n => rfl

theorem filter_one_pos {α : Type} {p : α → Bool} {x : α} (h : p x = true) : [x].filter p = [x] := by
  simp [h]

theorem filter_one_neg {α : Type} {p : α → Bool} {x : α} (h : p x = false) : [x].filter p = [] := by
  simp [h]

/-- The reads of a cycle before its writes: with one request, that request. -/
theorem foldl_reads_writes_one {f : State → MemReq → State} (s : State) (r : MemReq) :
    ([r].filter (fun r => opWrites r.op)).foldl f (([r].filter (fun r => !opWrites r.op)).foldl f s) = f s r := by
  cases h : opWrites r.op
  · simp [h]
  · simp [h]
/-- With one request, demoting it changes nothing. -/
theorem demoted_last_one (p : MemReq → Bool) (r : MemReq) : [r].filter (fun r => !p r) ++ [r].filter p = [r] := by
  cases h : p r
  · simp [h]
  · simp [h]

theorem diff_one (r : MemReq) : [r].diff [r] = [] := by
  simp

/-- Settles O35, by the one request of a cycle through its queue and port. One busy port-cycle for each access, and the window of
occupancy that is recomputed whenever it is sent, are the model's choice (log entry 112). -/
theorem memoryAccessesComplete : Obligations.MemoryAccessesComplete := by
  unfold Obligations.MemoryAccessesComplete
  refine ⟨?_, ?_, ?_, ?_, ?_, ?_, ?_, ?_⟩
  · intro r s u hbank hin hline hcont hwait hu hfree
    have hmine : [r].filter (fun (x : MemReq) => comBank x.addr == comBank r.addr && inSpace spCom x && x.addr % 64 + opSize x.op ≤ 64) =
        [r] :=
      filter_one_pos (by simp [hin, hline])
    have hcont' : ({ s with mem := { s.mem with replies := [] } } : State).contained spCom r = true := hcont
    have hfree' : ({ s with mem := { s.mem with replies := [] } } : State).accessHeld spCom r = false := by
      rw [hu] at hfree
      exact hfree
    have hout : ([r].filter (fun r => !({ s with mem := { s.mem with replies := [] } } : State).contained spCom r)) = [] :=
      filter_one_neg (by simp [hcont'])
    have hkeep : ([r].filter (fun r => ({ s with mem := { s.mem with replies := [] } } : State).contained spCom r)) = [r] :=
      filter_one_pos hcont'
    change execCommonsAccess (comBank r.addr) [r] s = _
    unfold execCommonsAccess
    simp only [if_neg (Nat.not_lt.2 (Nat.le_of_lt_succ hbank)), hmine, byRank_one, hout, List.foldl_nil, hkeep, hwait, List.nil_append,
      takeFree_one hfree']
    rw [foldl_reads_writes_one, hu]
  · intro r port s u v hport hlt hin hline hcont hwait hu hfree hv
    have hmine : [r].filter (fun (x : MemReq) =>
        4 * hbmStack x.addr + hbmPort x.addr == port && inSpace spHbm x && x.addr % 256 + opSize x.op ≤ 256) = [r] :=
      filter_one_pos (by simp [hin, hline, hport])
    have hcont' : ({ s with mem := { s.mem with replies := [] } } : State).contained spHbm r = true := hcont
    have hfree' : ({ s with mem := { s.mem with replies := [] } } : State).accessHeld spHbm r = false := by
      rw [hu] at hfree
      exact hfree
    have hout : ([r].filter (fun r => !({ s with mem := { s.mem with replies := [] } } : State).contained spHbm r)) = [] :=
      filter_one_neg (by simp [hcont'])
    have hkeep : ([r].filter (fun r => ({ s with mem := { s.mem with replies := [] } } : State).contained spHbm r)) = [r] :=
      filter_one_pos hcont'
    change execHbmAccess port [r] s = _
    unfold execHbmAccess
    simp only [if_neg (Nat.not_lt.2 (Nat.le_of_lt_succ hlt)), hmine, byRank_one, hout, List.foldl_nil, hkeep, hwait, List.nil_append,
      demoted_last_one, takeFree_one hfree', List.foldl_cons, diff_one]
    rw [hv, hu]
  · intro k ks s hwb hmark
    have hmark' : ({ s with mem := { s.mem with writeBacks := ks } } : State).mark k = 1 := hmark
    change execEccWriteBack s = _
    unfold execEccWriteBack
    simp only [hwb, if_pos hmark']
  · intro k ks s hwb hmark
    have hmark' : ¬({ s with mem := { s.mem with writeBacks := ks } } : State).mark k = 1 := hmark
    change execEccWriteBack s = _
    unfold execEccWriteBack
    simp only [hwb, if_neg hmark']
  · intro stack upset a s u hstack hon hstate ha hu
    subst ha hu
    have hgo : ¬(3 < stack ∨ s.rf (hbmReg stack Reg.HBM_SCRUB) 15 0 = 0 ∨ s.rf (hbmReg stack Reg.HBM_HBM_STATE) 2 0 ≠ 3) := by
      simp only [hon, hstate, ne_eq, not_true_eq_false, or_false]
      omega
    change (_ → execPatrolScrubRead stack upset s = _) ∧ (_ → execPatrolScrubRead stack upset s = _)
    rw [execPatrolScrubRead, if_neg hgo]
    constructor
    · intro hclean
      simp only [if_pos hclean]
    · intro hdirty
      simp only [if_neg hdirty]
  · intro occ s hocc hlow
    have hquiet : ¬({ s with mem := { s.mem with busyCycles := 0 } }.wr Reg.MEM_HBM_BUSY occ).rf Reg.PRD_FETCH_CTRL 7 0 < occ := by
      rw [State.rf, State.rg_wr_ne _ (by decide)]
      exact Nat.not_lt.2 hlow
    change execHbmOccupancyWindow s = _
    unfold execHbmOccupancyWindow
    simp only [← hocc, if_neg hquiet]
  · intro occ s u hocc hrf hu hrf2
    subst hu hocc
    change execHbmOccupancyWindow s = _
    simp only [execHbmOccupancyWindow, hrf, hrf2]
    rfl
  · intro stack s hstack
    change execHbmCatastrophicTemp stack s = _
    simp [execHbmCatastrophicTemp, hstack]

end Sys2Proof.Machine
end

section
/-! PROOFS. RGN_APPLY, RGN_REVERT and RGN_BAD_OP. -/

namespace Sys2Proof.Machine

theorem exec_rgnApply_eq (p : Path) (v : Word) (s : State) : exec (.rgnApply p v) s = effectRgnApply p v (s.turn p) := rfl
theorem exec_rgnRevert_eq (p : Path) (v : Word) (s : State) : exec (.rgnRevert p v) s = effectRgnRevert p v (s.turn p) := rfl
theorem exec_rgnBadOp_eq (p : Path) (v : Word) (s : State) : exec (.rgnBadOp p v) s = effectRgnBadOp p v (s.turn p) := rfl

section
variable {v : Word} (s : State)

theorem State.rgnCommand_apply (h : fld v.toNat 31 28 = 1) : s.rgnCommand v = s.rgnApply (fld v.toNat 3 0) := by
  simp only [State.rgnCommand, h]

theorem State.rgnCommand_revert (h : fld v.toNat 31 28 = 2) : s.rgnCommand v = s.rgnRevert (fld v.toNat 3 0) := by
  simp only [State.rgnCommand, h]

theorem State.rgnCommand_bad (h : fld v.toNat 31 28 = 0 ∨ 2 < fld v.toNat 31 28) : s.rgnCommand v = s.rgnResult (fld v.toNat 3 0) 6 := by
  unfold State.rgnCommand
  split
  next hone => rw [hone] at h; omega
  next htwo => rw [htwo] at h; omega
  · rfl

end

theorem State.rgnApply_not_ready {s : State} (r : Nat) (h : s.ready = false) : s.rgnApply r = s.rgnResult r 7 := if_pos (Or.inl h)

/-- An APPLY that may act and stages more than a quota is checked. -/
theorem State.rgnApply_checked {s : State} {r : Nat} (hready : s.ready = true) (hgood : s.pageFailed pgFabric = false)
    (hfab : s.rf Reg.FAB_FAB_STATE 0 0 = 0) (hnew : (s.staged r).rect ≠ (s.rgn r).rect) (hquiet : s.quiet r (s.staged r).rect.toNat =
        true) :
    s.rgnApply r = if s.applyCheck r (s.staged r) = 0 then (s.reconfigure r (s.staged r)).rgnResult r 0
      else s.rgnResult r (s.applyCheck r (s.staged r)) := by
  have hgo : ¬(s.ready = false ∨ s.pageFailed pgFabric = true ∨ s.rf Reg.FAB_FAB_STATE 0 0 = 1) := by simp [hready, hgood, hfab]
  unfold State.rgnApply
  simp only [if_neg hgo, decide_eq_false hnew, Bool.false_and, Bool.false_eq_true, if_false, hquiet, Bool.true_eq_false, ne_eq, ite_not]

/-- An APPLY that stages a quota alone takes it. -/
theorem State.rgnApply_quota {s : State} {r : Nat} (hready : s.ready = true) (hgood : s.pageFailed pgFabric = false)
    (hfab : s.rf Reg.FAB_FAB_STATE 0 0 = 0) (hrect : (s.staged r).rect = (s.rgn r).rect) (hcom : (s.staged r).commons = (s.rgn r).commons)
    (hhbm : (s.staged r).hbm = (s.rgn r).hbm) : s.rgnApply r = (s.setRgn r (s.staged r)).rgnResult r 0 := by
  have hgo : ¬(s.ready = false ∨ s.pageFailed pgFabric = true ∨ s.rf Reg.FAB_FAB_STATE 0 0 = 1) := by simp [hready, hgood, hfab]
  unfold State.rgnApply
  simp only [if_neg hgo, decide_eq_true hrect, decide_eq_true hcom, decide_eq_true hhbm, Bool.and_self, if_true]

/-! REVERT writes the four registers of the region and the result. -/

theorem fabRg_ne (r : Nat) {o o' : Nat} (h : o ≠ o') : fabRg r o ≠ fabRg r o' := by
  unfold fabRg regAddr
  omega

theorem fabRg_ne_result (r o : Nat) : fabRg r o ≠ Reg.FAB_RGN_RESULT := by
  have hresult : Reg.FAB_RGN_RESULT < pageIdx .fabric 0 * 0x1000 + 0x100 := by decide
  unfold fabRg regAddr
  omega

theorem State.rgnRevert_regsOnly (s : State) (r : Nat) : s.RegsOnly (s.rgnRevert r) :=
  (((((State.RegsOnly.refl s).setReg _ _).setReg _ _).setReg _ _).setReg _ _).wr _ _

/-- What a register of the region reads after its REVERT. -/
theorem State.reg_rgnRevert (s : State) (r : Nat) : (s.rgnRevert r).reg (fabRg r Reg.FRG_RG_RECT) = (s.rgn r).rect ∧
    (s.rgnRevert r).reg (fabRg r Reg.FRG_RG_QUOTA) = (s.rgn r).quota ∧
    (s.rgnRevert r).reg (fabRg r Reg.FRG_RG_COMMONS) = (s.rgn r).commons ∧
    (s.rgnRevert r).reg (fabRg r Reg.FRG_RG_HBM) = (s.rgn r).hbm := by
  have hread : ∀ o, (s.rgnRevert r).reg (fabRg r o) = if fabRg r o = fabRg r Reg.FRG_RG_HBM then (s.rgn r).hbm
      else if fabRg r o = fabRg r Reg.FRG_RG_COMMONS then (s.rgn r).commons else if fabRg r o = fabRg r Reg.FRG_RG_QUOTA then (s.rgn
          r).quota
      else if fabRg r o = fabRg r Reg.FRG_RG_RECT then (s.rgn r).rect else s.reg (fabRg r o) := by
    intro o
    rw [State.rgnRevert, State.rgnResult, State.reg_wr, if_neg (fabRg_ne_result r o)]
    simp only [State.reg_setReg]
  refine ⟨?_, ?_, ?_, ?_⟩
  · rw [hread, if_neg (fabRg_ne r (by decide)), if_neg (fabRg_ne r (by decide)), if_neg (fabRg_ne r (by decide)), if_pos rfl]
  · rw [hread, if_neg (fabRg_ne r (by decide)), if_neg (fabRg_ne r (by decide)), if_pos rfl]
  · rw [hread, if_neg (fabRg_ne r (by decide)), if_pos rfl]
  · rw [hread, if_pos rfl]

/-- Settles O33, by the OP of the command that the cycle begins with and the first check of an APPLY that fails. -/
theorem regionCommandsComplete : Obligations.RegionCommandsComplete := by
  unfold Obligations.RegionCommandsComplete
  refine ⟨?_, ?_, ?_, ?_, ?_, ?_, ?_⟩
  · intro p v s u hu
    subst hu
    rw [exec_rgnApply_eq, exec_rgnRevert_eq, exec_rgnBadOp_eq]
    refine ⟨fun h => if_neg (fun hn => hn h), fun h => if_neg (fun hn => hn h), fun h1 h2 => if_neg (fun hn => hn.elim h1 h2)⟩
  · intro v s hone
    rw [State.rgnStep, hone]
    rfl
  · intro v r s hop hr hready hgood hfab hrect hcom hhbm
    subst hr
    rw [s.rgnCommand_apply hop, State.rgnApply_quota hready hgood hfab hrect hcom hhbm]
  · intro v r s hop hr hready hgood hfab hnew hquiet
    subst hr
    rw [s.rgnCommand_apply hop, State.rgnApply_checked hready hgood hfab hnew hquiet]
  · intro v s hop hready
    rw [s.rgnCommand_apply hop, State.rgnApply_not_ready _ hready]
  · intro v s r hop hr
    subst hr
    obtain ⟨hrect, hquota, hcommons, hhbm⟩ := s.reg_rgnRevert (fld v.toNat 3 0)
    exact ⟨_, s.rgnCommand_revert hop, hrect, hquota, hcommons, hhbm, s.rgnRevert_regsOnly _⟩
  · intro v s hop
    exact s.rgnCommand_bad hop

end Sys2Proof.Machine
end

section
/-! PROOFS. The PLDM base, monitoring and control commands. -/

namespace Sys2Proof.Machine

theorem sensorIs_ne_zero {n : Nat} (h : sensorIs n = true) : n ≠ 0 := by
  rintro rfl
  cases h

/-- Settles O55, by the equation of each command; the completion codes and the decoded replies are the model's choice (log entry 122). -/
theorem pldmMonitoringAnswers : Obligations.PldmMonitoringAnswers := by
  unfold Obligations.PldmMonitoringAnswers
  intro s hphase
  have hon : ¬s.bootPhase < 3 := Nat.not_lt.2 hphase
  refine ⟨?_, ?_, rfl, ?_, ?_, ?_, rfl, ?_, ?_, ?_⟩
  · change execGetTid s = _
    rw [execGetTid, State.pldm, if_neg hon]
  · intro ty hty
    change execGetPldmVersion ty s = _
    rw [execGetPldmVersion, if_pos hty]
  · intro ty hty
    change execGetPldmCommands ty s = _
    rw [execGetPldmCommands, if_pos hty]
  · intro n hn hoff hne
    change execGetSensorReading n s = _
    unfold execGetSensorReading
    simp only [hn, hoff, if_neg hne, Bool.true_eq_false, Bool.false_eq_true, if_false, Nat.cast_zero]
  · intro n hn hoff
    change execGetSensorReading n s = _
    unfold execGetSensorReading
    simp only [hn, hoff, Bool.true_eq_false, if_false, if_true]
  · intro h hh hlt
    change execGetPdr h s = _
    unfold execGetPdr
    simp only [if_neg (sensorIs_ne_zero hh), hh, if_true, if_neg (Nat.ne_of_lt hlt)]
  · intro addr
    change execSetEventReceiver true addr s = _
    rw [execSetEventReceiver, if_neg hon, if_pos rfl]
  · intro n on hn
    change execSetNumericSensorEnable n on s = _
    rw [execSetNumericSensorEnable, if_neg hon, if_neg (by simp [hn])]

end Sys2Proof.Machine
end

section
/-! PROOFS. Link training. -/

namespace Sys2Proof.Machine

/-- A link that trains tries nothing new. -/
theorem State.linkTry_training {s : State} {l : Nat} (h : s.linkSt l = lsTraining) : s.linkTry l = s := by
  have hdisabled : ¬(s.linkSt l = lsDisabled ∧ s.linkEn l = true ∧ s.rf (linkReg l Reg.LINK_LINK_STATE) 11 8 ≠ 2 ∧ s.ready = true ∧
      s.entReady = true) := by
    rw [h]
    exact fun hn => absurd hn.1 (by decide)
  have hdown : ¬(s.linkSt l = lsDown ∧ s.linkEn l = true ∧ (s.link l).retryAt.isNone = true) := by
    rw [h]
    exact fun hn => absurd hn.1 (by decide)
  unfold State.linkTry
  simp only [if_neg hdisabled, if_neg hdown]

/-- A link command reaches a link that is in the state it asks for. -/
theorem not_link_shut {s : State} {l st : Nat} (hl : l < 8) (hst : s.linkSt l = st) : ¬(7 < l ∨ s.linkSt l ≠ st) := by
  simp only [hst, ne_eq, not_true_eq_false, or_false]
  omega

/-- Settles O46, by the phase that each command ends. TRAIN sent on entering phase 4 and after each valid TRAIN is the model's choice (log
entry 101). -/
theorem trainingCompletes : Obligations.TrainingCompletes := by
  unfold Obligations.TrainingCompletes
  refine ⟨?_, ?_, ?_, ?_, ?_, ?_, ?_⟩
  · intro l s hl hst hphase
    have hgo : ¬(s.linkSt l ≠ lsTraining ∨ (s.link l).phase ≠ 1) := by simp [hst, hphase]
    change execSignalDetect l s = _
    rw [execSignalDetect, if_neg (by omega), State.linkTry_training hst, if_neg hgo]
  · intro l s hl hst hphase
    change execTrainingPhaseDone l s = _
    rw [execTrainingPhaseDone, if_neg (not_link_shut hl hst)]
    exact if_pos hphase
  · intro l s hl hst hphase
    change execTrainingPhaseDone l s = _
    rw [execTrainingPhaseDone, if_neg (not_link_shut hl hst)]
    simp only [hphase, if_true]
    rw [if_neg (by decide)]
  · intro l n s hl hst hlimit hlate
    change execTrainingTimeout l s = _
    unfold execTrainingTimeout
    simp only [if_neg (not_link_shut hl hst), hlimit, if_neg (Nat.not_le.2 hlate)]
  · intro l n s hh hlinkSt hphase htime
    change execTrainingTimeout l s = _
    simp [execTrainingTimeout, hlinkSt, hphase, htime]
  · intro l t0 s hl hretry hdue
    change execTrainingRetry l s = _
    unfold execTrainingRetry
    simp only [if_neg (show ¬7 < l by omega), hretry, if_neg (Nat.not_lt.2 hdue)]
  · intro l a corr pkt s u v hl hpkt hrx hkind hst hphase hver hlanes hunit hecho hres hbufs hv
    have hgo : ¬(true = false ∨ pktKind pkt ≠ 4 ∨ u.linkSt l ≠ lsTraining ∨ (u.link l).phase ≠ 4) := by simp [hkind, hst, hphase]
    have hgood : ¬(leAt pkt 0x10 1 ≠ 1 ∨ 7 < leAt pkt 0x11 1 ∨ leAt pkt 0x12 1 ≠ 33 ∨ 1 < leAt pkt 0x13 1 ∨ (trainBufs pkt).getD 3 0 ≠ 0)
        := by
      omega
    change (_ → execTrain l a corr s = _) ∧ (_ → execTrain l a corr s = _)
    unfold execTrain
    simp only [if_neg (show ¬7 < l by omega), ← hpkt, hrx, if_neg hgo, if_neg hgood, hbufs, Bool.false_eq_true, if_false, ← hv]
    constructor
    · intro hdone
      rw [if_pos hdone]
    · intro hmore
      rw [if_neg]
      rintro ⟨htrains, hechoed⟩
      rcases hmore with h | h
      · omega
      · rw [h] at hechoed
        cases hechoed

end Sys2Proof.Machine
end

section
/-! PROOFS. Link handshakes and losses. -/

namespace Sys2Proof.Machine

/-- A handshake may start: the link discovers, none runs and none is asked for. -/
theorem not_handshake_shut {s : State} {l : Nat} (hl : l < 8) (hst : s.linkSt l = lsDiscover) (hfree : (s.link l).inHandshake = false)
    (hnone : s.key.tasks.any (fun t => t.work == .hello l) = false) : ¬(7 < l ∨ s.linkSt l ≠ lsDiscover ∨ (s.link l).inHandshake = true ∨
      s.key.tasks.any (fun t => t.work == .hello l) = true) := by
  rw [hfree, hnone, hst]
  simp only [ne_eq, not_true_eq_false, Bool.false_eq_true, or_false]
  omega

theorem not_isNone {α : Type} {o : Option α} (h : o.isSome = true) : ¬o.isNone = true := by
  rw [Option.isNone_iff_eq_none]
  exact Option.isSome_iff_ne_none.1 h

/-- Settles O48, by the equation of each command and of the window that the cycle's end closes (`State.windowClose`). -/
theorem handshakesAndLosses : Obligations.HandshakesAndLosses := by
  unfold Obligations.HandshakesAndLosses
  refine ⟨?_, ?_, ?_, ?_, ?_, ?_, ?_, ?_, ?_, ?_⟩
  · intro l s hl hst hfree hnone hid
    change execHandshakeStart l s = _
    rw [execHandshakeStart, if_neg (not_handshake_shut hl hst hfree hnone), if_neg (not_isNone hid)]
  · intro l s hl hst hfree hnone hid
    change execHandshakeStart l s = _
    rw [execHandshakeStart, if_neg (not_handshake_shut hl hst hfree hnone), if_pos (by rw [hid]; rfl)]
  · intro l t0 s hl hst hopened hclosed hdue
    change execChallengeWindowClose l s = _
    unfold execChallengeWindowClose
    simp only [if_neg (not_link_shut hl hst), hopened, hclosed, if_neg (Nat.not_lt.2 hdue)]
  · intro l t0 o s u hopened hclosed hclosing ho hu
    unfold State.windowClose
    simp only [hopened, hclosed, hclosing, Bool.true_eq_false, if_false, ← ho, ← hu]
    exact ⟨fun hne => if_neg hne, fun heq => if_pos heq⟩
  · intro l t0 s hl hst hclosed hlate
    change execConfirmTimeout l s = _
    unfold execConfirmTimeout
    simp only [if_neg (not_link_shut hl hst), hclosed, if_neg (Nat.not_le.2 hlate)]
  · intro l t0 s u hl hst hend hdue hu hid
    change execBackoffEnd l s = _
    unfold execBackoffEnd
    simp only [if_neg (not_link_shut hl hst), hend, if_neg (Nat.not_lt.2 hdue), ← hu, if_neg (not_isNone hid)]
  · intro l t0 s hl hst hleave hdue hout
    have hgo : ¬(s.time < t0 + 1000000 ∨ (s.link l).out ≠ []) := by
      simp only [hout, ne_eq, not_true_eq_false, or_false]
      omega
    change execLeaveTimeout l s = _
    unfold execLeaveTimeout
    simp only [if_neg (not_link_shut hl hst), hleave, if_neg hgo]
  · intro l lanes s hl hup
    change execLinkSignalLoss l lanes s = _
    rw [execLinkSignalLoss, if_neg (by simp only [hup, Bool.true_eq_false, or_false]; omega)]
  · intro l lanes s hlinkUp
    change execLinkSignalLoss l lanes s = _
    simp [execLinkSignalLoss, hlinkUp]
  · intro lanes s
    change execLinkRefclkLoss lanes s = _
    simp only [execLinkRefclkLoss]

end Sys2Proof.Machine
end

section
/-! PROOFS. The link commands. -/

namespace Sys2Proof.Machine

section
variable (p : Path) (l : Nat) (v : Word) (s : State)

theorem exec_linkEnable_eq : exec (.linkEnable p l v) s = effectLinkEnable p l v (s.turn p) := rfl
theorem exec_linkDisable_eq : exec (.linkDisable p l v) s = effectLinkDisable p l v (s.turn p) := rfl
theorem exec_linkCmdLeave_eq : exec (.linkCmdLeave p l v) s = effectLinkCmdLeave p l v (s.turn p) := rfl
theorem exec_linkCmdRotate_eq : exec (.linkCmdRotate p l v) s = effectLinkCmdRotate p l v (s.turn p) := rfl
theorem exec_linkCmdReenable_eq : exec (.linkCmdReenable p l v) s = effectLinkCmdReenable p l v (s.turn p) := rfl
theorem exec_linkCmdBadOp_eq : exec (.linkCmdBadOp p l v) s = effectLinkCmdBadOp p l v (s.turn p) := rfl

end

/-- A write of LINK_CMD with the OP of its command reaches the link. -/
theorem not_linkCmd_other {l op n : Nat} (hl : l < 8) (hop : n = op) : ¬(7 < l ∨ n ≠ op) := by omega

/-- Settles O45, by the equation of each command on the state that its path's turn leaves. -/
theorem linkCommandsComplete : Obligations.LinkCommandsComplete := by
  unfold Obligations.LinkCommandsComplete
  refine ⟨?_, ?_, ?_, ?_, ?_, ?_, ?_, ?_⟩
  · intro p l v s u hu hl hon
    subst hu
    rw [exec_linkEnable_eq, effectLinkEnable, if_neg (by simp only [hon, Bool.true_eq_false, or_false]; omega)]
  · intro p l v s u w hu hl hoff hen hw hst
    subst hu
    have hgo : ¬(7 < l ∨ bit v.toNat 0 = true ∨ (s.turn p).linkEn l = false) := by
      simp only [hoff, hen, Bool.false_eq_true, Bool.true_eq_false, or_false]
      omega
    rw [exec_linkDisable_eq, effectLinkDisable, if_neg hgo, ← hw]
    exact congrArg _ (if_pos (bne_iff_ne.2 hst))
  · intro p l v s u w hu hl hop hst hw
    subst hw hu
    rw [exec_linkCmdLeave_eq, effectLinkCmdLeave, if_neg (not_linkCmd_other hl hop), if_neg (fun h => h hst)]
  · intro p l v s u hu hl hst
    subst hu
    constructor
    · intro hop
      rw [exec_linkCmdLeave_eq, effectLinkCmdLeave, if_neg (not_linkCmd_other hl hop), if_pos hst]
    · intro hop
      rw [exec_linkCmdRotate_eq, effectLinkCmdRotate, if_neg (not_linkCmd_other hl hop), if_pos hst]
  · intro p l v s u hu hl hop hst
    subst hu
    rw [exec_linkCmdRotate_eq, effectLinkCmdRotate, if_neg (not_linkCmd_other hl hop), if_neg (fun h => h hst)]
  · intro l v s u hu hl hop hst hreason
    subst hu
    rw [exec_linkCmdReenable_eq, effectLinkCmdReenable, if_neg (not_linkCmd_other hl hop), if_neg (by decide),
      if_neg (fun h => h.elim (fun h => h hst) (fun h => h hreason))]
  · intro l v s u hu hl hop
    subst hu
    rw [exec_linkCmdReenable_eq, effectLinkCmdReenable, if_neg (not_linkCmd_other hl hop), if_pos rfl]
  · intro p l v s u hu hl hop
    subst hu
    rw [exec_linkCmdBadOp_eq, effectLinkCmdBadOp]
    exact if_neg (by omega)

end Sys2Proof.Machine
end

section
/-! PROOFS. The dispatcher's commands and contracts. -/

namespace Sys2Proof.Machine

theorem exec_dispatchCmdBadOp_eq (p : Path) (v : Word) (s : State) :
    exec (.dispatchCmdBadOp p v) s = effectDispatchCmdBadOp p v (s.turn p) := rfl
theorem exec_contractWrite_eq (p : Path) (q : Nat) (target : Bool) (v : Word) (s : State) :
    exec (.contractWrite p q target v) s = effectContractWrite p q target v (s.turn p) := rfl

/-- A window of one command overrides none. -/
theorem WinCmd.overridden_alone (c : WinCmd) : c.overridden [c] = false := by
  cases h : c.manager
  · simp [WinCmd.overridden, h]
  · simp [WinCmd.overridden, h]

/-- One command of a window whose commands are cs. -/
def State.winOne (cs : List WinCmd) (s : State) (c : WinCmd) : State := if c.overridden cs then s.cmdResult c.path 0 4 else s.winApply c

theorem State.winOne_alone (s : State) (c : WinCmd) : s.winOne [c] c = s.winApply c := if_neg (by simp [WinCmd.overridden_alone])

/-- The commands of a window: REPRIOs wait, DRAINs and UNDRAINs take effect before the others. -/
theorem State.winCycle_eq {s : State} {cs : List WinCmd} (h : s.hif.winNext = cs) : s.winCycle =
    (cs.filter (fun c => c.op != 3 && c.op != 4 && c.op != 5)).foldl (State.winOne cs)
      ((cs.filter (fun c => c.op == 4 || c.op == 5)).foldl (State.winOne cs)
        { s with hif := { s.hif with winNext := [], winNow := cs.filter (fun c => c.op == 3) } }) := by
  subst h
  rfl

/-! A window's command by its OP. -/

section
variable {c : WinCmd} {s : State}

theorem State.winApply_cancel (hop : c.op = 1 ∨ c.op = 2) (hq : (s.queue c.queue).state ≠ .unassigned) :
    s.winApply c = if s.jobs.filter c.cancels = [] then s.cmdResult c.path 0 1
      else ((s.jobs.filter c.cancels).foldl State.winCancel s).cmdResult c.path (s.jobs.filter c.cancels).length 0 := by
  rcases hop with hop | hop
  · simp only [State.winApply, hop, if_neg hq]
  · simp only [State.winApply, hop, if_neg hq]

theorem State.winApply_reprio (hop : c.op = 3) (hq : (s.queue c.queue).state ≠ .unassigned) (hn : countWhere c.boosts s.jobs ≠ 0) :
    s.winApply c = { s with jobs := s.jobs.map (fun j => if c.boosts j then { j with boost := c.boost } else j) }.cmdResult c.path
      (countWhere c.boosts s.jobs) 0 := by
  simp only [State.winApply, hop, if_neg hq, if_neg hn]

theorem State.winApply_drain (hop : c.op = 4) (hq : (s.queue c.queue).state = .enabled) :
    s.winApply c = ((s.jobs.filter c.drains).foldl (fun s j => s.refuseJob j.entry St.DRAINING)
      (s.setQueue c.queue { s.queue c.queue with state := .draining })).cmdResult c.path (s.jobs.filter c.drains).length 0 := by
  have hgo : ¬(s.queue c.queue).state ≠ .enabled := fun h => h hq
  simp only [State.winApply, hop, if_neg hgo, State.updQueue]

theorem State.winApply_undrain (hop : c.op = 5) (hq : (s.queue c.queue).state = .draining) :
    s.winApply c = (s.setQueue c.queue { s.queue c.queue with state := .enabled }).cmdResult c.path 0 0 := by
  have hgo : ¬(s.queue c.queue).state ≠ .draining := fun h => h hq
  simp only [State.winApply, hop, if_neg hgo, State.updQueue]

theorem State.winApply_state (h : c.op = 4 ∧ (s.queue c.queue).state ≠ .enabled ∨ c.op = 5 ∧ (s.queue c.queue).state ≠ .draining) :
    s.winApply c = s.cmdResult c.path 0 3 := by
  rcases h with ⟨hop, hq⟩ | ⟨hop, hq⟩
  · simp only [State.winApply, hop, if_pos hq]
  · simp only [State.winApply, hop, if_pos hq]

theorem State.winApply_reserved (hop : c.op = 0 ∨ 5 < c.op) : s.winApply c = s.cmdResult c.path 0 2 := by
  unfold State.winApply
  split
  next h => omega
  next h => omega
  next h => omega
  next h => omega
  next h => omega
  · rfl

end

/-- Settles O16, by the command of the window and its OP (`State.winApply`). -/
theorem dispatcherCommands : Obligations.DispatcherCommands := by
  unfold Obligations.DispatcherCommands
  refine ⟨?_, ?_, ?_, ?_, ?_, ?_, ?_, ?_, ?_, ?_, ?_, ?_, ?_, ?_, ?_⟩
  · intro p q s u hu
    subst hu
    exact ⟨_, fun _ => rfl, rfl, rfl, rfl, rfl, rfl⟩
  · intro p v s u hu hop
    subst hu
    rw [exec_dispatchCmdBadOp_eq, effectDispatchCmdBadOp]
    exact if_neg (by omega)
  · intro c s hone hop
    rw [State.winCycle_eq hone]
    have hwait : [c].filter (fun c => c.op == 3) = [] := by simp [hop]
    rw [hwait]
    by_cases hdrain : c.op = 4 ∨ c.op = 5
    · have hfirst : [c].filter (fun c => c.op == 4 || c.op == 5) = [c] := by simpa using hdrain
      have hlast : [c].filter (fun c => c.op != 3 && c.op != 4 && c.op != 5) = [] := by
        rcases hdrain with h | h
        · simp [h]
        · simp [h]
      rw [hfirst, hlast]
      exact State.winOne_alone _ c
    · have hfirst : [c].filter (fun c => c.op == 4 || c.op == 5) = [] := by simpa using hdrain
      have hlast : [c].filter (fun c => c.op != 3 && c.op != 4 && c.op != 5) = [c] := by
        simpa [hop] using hdrain
      rw [hfirst, hlast]
      exact State.winOne_alone _ c
  · intro c s hone hop
    rw [State.winCycle_eq hone]
    simp [hop]
  · intro c m s htwo hhost hmgr hqueue hdrain hundrain
    have hover : c.overridden [c, m] = true := by simp [WinCmd.overridden, hhost, hmgr, hqueue, hdrain, hundrain]
    have hkept : ¬m.overridden [c, m] = true := by simp [WinCmd.overridden, hmgr]
    have hpath : c.path = .host := by simp [WinCmd.path, hhost]
    rw [State.winCycle_eq htwo]
    simp [hdrain, hundrain, State.winOne, hover, hkept, hpath]
  · intro c s hone
    rw [State.winReprio, hone]
    rfl
  · intro c s hop hq hhits
    rw [State.winApply_cancel hop hq, if_neg hhits]
  · intro c s hop hq hhits
    rw [State.winApply_cancel hop hq, if_pos hhits]
  · intro c s hop hq hn
    exact State.winApply_reprio hop hq hn
  · intro c s hop hq
    exact State.winApply_drain hop hq
  · intro c s hop hq
    exact State.winApply_state (Or.inl ⟨hop, hq⟩)
  · intro c s hop hq
    exact State.winApply_undrain hop hq
  · intro c s hop hq
    exact State.winApply_state (Or.inr ⟨hop, hq⟩)
  · intro c s hop
    exact State.winApply_reserved hop
  · intro p q v s u hu hq
    subst hu
    rw [exec_contractWrite_eq, exec_contractWrite_eq, effectContractWrite, effectContractWrite, if_neg (Nat.not_le.2 hq), if_neg
        (Nat.not_le.2 hq)]
    exact ⟨if_pos rfl, if_neg (by decide)⟩

end Sys2Proof.Machine
end

section
/-! PROOFS. The read of an engine payload, and why its obligation fails. -/

namespace Sys2Proof.Machine

/-! The T_first of every job. -/

/-- The T_first of each job of a state. -/
def State.firstTimes (s : State) : List Nat := s.jobs.map (·.tFirst)

theorem State.firstTimes_updJob (s : State) (e : Nat) {f : Job → Job} (hf : ∀ j, (f j).tFirst = j.tFirst) :
    (s.updJob e f).firstTimes = s.firstTimes := by
  unfold State.firstTimes State.updJob
  rw [List.map_map]
  refine List.map_congr_left fun j _ => ?_
  rw [Function.comp_apply]
  split
  · exact hf j
  · rfl

theorem State.firstTimes_refuseJob (s : State) (e status : Nat) : (s.refuseJob e status).firstTimes = s.firstTimes := by
  unfold State.refuseJob State.finishJob
  split
  · rfl
  · split
    · rfl
    · split
      · exact s.firstTimes_updJob e fun _ => rfl
      · exact s.firstTimes_updJob e fun _ => rfl

theorem State.firstTimes_event (s : State) (c p : Nat) (e : EvSource) (n : Nat) : (s.event c p e n).firstTimes = s.firstTimes := by
  unfold State.firstTimes
  rw [State.event_jobs]

/-! The read of an engine payload (R588, R1156). -/

/-- What the payload b of job j, read and without defect, leaves: the T_first and the host bytes are those of j's own command. -/
def State.payloadRead (s : State) (j : Job) (e : Engine) (b : List Byte) : State := s.updJob j.entry (fun x => { x with
  payload := b, tFirst := s.cmdTFirst (j.asCommand e b [] false), hostBytes := s.cmdHostBytes (j.asCommand e b [] false)
  allowance := allowance (blockResult e b).1 (blockResult e b).2
  stop := stopTime x.deadline engineMargin (allowance (blockResult e b).1 (blockResult e b).2), phase := .waiting })

theorem exec_enginePayloadRead {j : Job} {e : Engine} {b : List Byte} {s u : State} (hj : s.job j.entry = some j) (hphase : j.phase = .payload)
    (hkind : j.kind = .engine e)
    (hu : u = (if dPaySpace j.desc = spHost then s.backlogLess 128 else s).noteRead (some j.entry) (dPaySpace j.desc) (dPayAddr j.desc) 128)
    (hread : u.readSpace j.region j.func (dPaySpace j.desc) (dPayAddr j.desc) 128 = some b)
    (hgood : u.takeUpDefect (j.asCommand e b [] false) = none) : ∃ t, exec (.enginePayloadRead j.entry) s = .next t ∧
      (t = u.payloadRead j e b ∨ ∃ j' : Job, t = ((u.payloadRead j e b).event 0x0702 pgDispatch j'.ev).refuseJob j.entry St.LATE_ON_ARRIVAL) := by
  have hgo : ¬j.phase ≠ .payload := fun h => h hphase
  change ∃ t, execEnginePayloadRead j.entry s = .next t ∧ _
  unfold execEnginePayloadRead
  simp only [hj, if_neg hgo, ← hu, hread, hkind, hgood]
  split
  · exact ⟨_, rfl, Or.inl rfl⟩
  next j' _ =>
    split
    · exact ⟨_, rfl, Or.inl rfl⟩
    · exact ⟨_, rfl, Or.inr ⟨j', rfl⟩⟩

/-- The read leaves the T_first of each job as the payload's. -/
theorem firstTimes_enginePayloadRead {j : Job} {e : Engine} {b : List Byte} {s u t : State} (hj : s.job j.entry = some j)
    (hphase : j.phase = .payload) (hkind : j.kind = .engine e)
    (hu : u = (if dPaySpace j.desc = spHost then s.backlogLess 128 else s).noteRead (some j.entry) (dPaySpace j.desc) (dPayAddr j.desc) 128)
    (hread : u.readSpace j.region j.func (dPaySpace j.desc) (dPayAddr j.desc) 128 = some b)
    (hgood : u.takeUpDefect (j.asCommand e b [] false) = none) (ht : exec (.enginePayloadRead j.entry) s = .next t) :
    t.firstTimes = (u.payloadRead j e b).firstTimes := by
  obtain ⟨t', ht', hend⟩ := exec_enginePayloadRead hj hphase hkind hu hread hgood
  obtain rfl : t' = t := by
    rw [ht'] at ht
    exact Host.Outcome.next.inj ht
  rcases hend with rfl | ⟨j', rfl⟩
  · rfl
  · rw [State.firstTimes_refuseJob, State.firstTimes_event]

/-! The counterexample: two jobs of one entry in two regions, of which the second holds the plan's table. -/

/-- A job whose plan is to be read. -/
def twinJob : Job := { zPayJob with kind := .engine .planner }

def twinState : State := { zFull with
  jobs := [twinJob, { twinJob with region := 5 }]
  plan := { zFull.plan with tables := [{ region := 5, addr := 0x2000, data := [], mark := 0 }] } }.writeSpace none spHost 0 0x1000 zPlanBlock

/-- The state once the plan's block is read. -/
def twinRead : State := (if dPaySpace twinJob.desc = spHost then twinState.backlogLess 128 else twinState).noteRead (some twinJob.entry)
  (dPaySpace twinJob.desc) (dPayAddr twinJob.desc) 128

theorem twinRead_good : twinRead.takeUpDefect (twinJob.asCommand .planner zPlanBlock [] false) = none := by
  change firstBad (State.plChecks twinRead (twinJob.asCommand .planner zPlanBlock [] false)) = none
  unfold State.plChecks
  dsimp only
  rw [show crc32c ((twinJob.asCommand .planner zPlanBlock [] false).block.take 0x7C) = 0x1265FFD7 from zPlanBlock_crc]
  decide +kernel

/-- The model gives both jobs the T_first of the first. -/
theorem twinRead_times : (twinRead.payloadRead twinJob .planner zPlanBlock).firstTimes = [2030, 2030] := by decide +kernel

/-- What the statement has the read leave: the T_first of each job is that of its own command. -/
def twinStated : State := twinRead.updJob twinJob.entry (fun j => { j with
  payload := zPlanBlock, tFirst := twinRead.cmdTFirst (j.asCommand .planner zPlanBlock [] false)
  hostBytes := twinRead.cmdHostBytes (j.asCommand .planner zPlanBlock [] false)
  allowance := allowance (blockResult .planner zPlanBlock).1 (blockResult .planner zPlanBlock).2
  stop := stopTime j.deadline engineMargin (allowance (blockResult .planner zPlanBlock).1 (blockResult .planner zPlanBlock).2)
  phase := .waiting })

theorem twinStated_times : twinStated.firstTimes = [2030, 2025] := by decide +kernel

/-- Refutes O14: the clause on ENGINE_PAYLOAD_READ gives every job of the entry the T_first of its own region, where the model gives each
that of the first; two jobs of one entry tell them apart. The admission of a payload is the model's (log entry 36). -/
theorem not_fetchAndTakeUp : ¬ Obligations.FetchAndTakeUp := by
  unfold Obligations.FetchAndTakeUp
  rintro ⟨-, -, -, -, -, -, -, -, hpayload, -⟩
  have hread : twinRead.readSpace twinJob.region twinJob.func (dPaySpace twinJob.desc) (dPayAddr twinJob.desc) 128 = some zPlanBlock := by
    decide +kernel
  have hj : twinState.job twinJob.entry = some twinJob := by decide +kernel
  obtain ⟨t, hrun, hend⟩ := hpayload twinJob .planner zPlanBlock twinState twinRead twinStated hj rfl rfl rfl hread twinRead_good rfl
  have htimes : t.firstTimes = [2030, 2030] := (firstTimes_enginePayloadRead hj rfl rfl rfl hread twinRead_good hrun).trans twinRead_times
  have hstated : t.firstTimes = [2030, 2025] := by
    rcases hend with ht | ⟨j', -, ht⟩
    · rw [ht, twinStated_times]
    · rw [ht, State.firstTimes_refuseJob, State.firstTimes_event, twinStated_times]
  rw [htimes] at hstated
  exact absurd hstated (by decide)

end Sys2Proof.Machine
end

section
/-! PROOFS. The planner's commands. -/

namespace Sys2Proof.Machine

theorem exec_resFlushAll_eq (p : Path) (v : Word) (s : State) : exec (.resFlushAll p v) s = effectResFlushAll p v (s.turn p) := rfl
theorem exec_plnFlushAll_eq (p : Path) (v : Word) (s : State) : exec (.plnFlushAll p v) s = effectPlnFlushAll p v (s.turn p) := rfl
theorem exec_resFlushRegion_eq (p : Path) (v : Word) (s : State) : exec (.resFlushRegion p v) s = effectResFlushRegion p v (s.turn p) :=
    rfl
theorem exec_plnFlushRegion_eq (p : Path) (v : Word) (s : State) : exec (.plnFlushRegion p v) s = effectPlnFlushRegion p v (s.turn p) :=
    rfl

/-! PLAN and REPAIR advance the same way, each a block of its own OP. -/

theorem exec_planCmd_eq (id n : Nat) (s : State) : exec (.planCmd id n) s = .next (s.planAdvance id n (fun op => op != 2)) := rfl
theorem exec_repairCmd_eq (id n : Nat) (s : State) : exec (.repairCmd id n) s = .next (s.planAdvance id n (fun op => op == 2)) := rfl

/-- What both commands do to the state is what each does for the blocks of its OP. -/
theorem exec_plan_or_repair {id n : Nat} {b : List Byte} {s u : State}
    (h : ∀ ours : Nat → Bool, ours (plOp b) = true → s.planAdvance id n ours = u) :
    (plOp b ≠ 2 → exec (.planCmd id n) s = .next u) ∧ (plOp b = 2 → exec (.repairCmd id n) s = .next u) :=
  ⟨fun hop => (exec_planCmd_eq id n s).trans (congrArg _ (h _ (bne_iff_ne.2 hop))),
    fun hop => (exec_repairCmd_eq id n s).trans (congrArg _ (h _ (beq_iff_eq.2 hop)))⟩

section
variable {c : Command} {n : Nat} {s : State} {ours : Nat → Bool}

/-- A command that runs handles its units. -/
theorem State.planAdvance_running (hcmd : s.cmd c.id = some c) (hours : ours (plOp c.block) = true)
    (hrun : (s.planRunOf c).isSome = true) (hphase : c.phase = .running) : s.planAdvance c.id n ours = s.planRunUnits c n := by
  unfold State.planAdvance
  simp only [hcmd, hours, hrun, hphase, Bool.true_eq_false, and_self, if_true, if_false]

/-- The first failed check refuses the head of the queue. -/
theorem State.planAdvance_refused {e : Bad} (hcmd : s.cmd c.id = some c) (hours : ours (plOp c.block) = true) (hrun : s.planRunOf c =
    none)
    (hnext : s.engineNext .planner pgPlan s.plan.run.isSome c.id = some c) (hpage : s.pageFailed pgPlan = false)
    (hbad : firstBad (s.plChecks c) = some e) : s.planAdvance c.id n ours = s.plRefuse c e.status e.reason 0 := by
  unfold State.planAdvance
  simp only [hcmd, hours, hrun, hnext, hpage, hbad, Option.isSome_none, Bool.true_eq_false, Bool.false_eq_true, false_and, if_false]

/-- The head of the queue starts, and its fetch begins, once every check has passed. -/
theorem State.planAdvance_start (hcmd : s.cmd c.id = some c) (hours : ours (plOp c.block) = true) (hrun : s.planRunOf c = none)
    (hnext : s.engineNext .planner pgPlan s.plan.run.isSome c.id = some c) (hpage : s.pageFailed pgPlan = false)
    (hbad : firstBad (s.plChecks c) = none) (hstop : s.stopPassed c = false)
    (hmeet : (s.plArrays c).any (fun a => a.meets (plResArea c.block)) = false) :
    s.planAdvance c.id n ours =
      ((((s.setPlan (planStart c (s.time + ceilDiv (4 * hostLen (s.plFetched c) + devLen (s.plFetched c)) 64) s.time)).wr64
        Reg.PLN_PLN_STOP_LO c.stop).plPos 0 0 1).updCmd c.id (fun c => { c with phase := .running })).await c.id (hostLen (s.plFetched c))
            := by
  unfold State.planAdvance
  simp only [hcmd, hours, hrun, hnext, hpage, hbad, hstop, hmeet, Option.isSome_none, Bool.true_eq_false, Bool.false_eq_true, false_and,
    if_false]

end

/-- A fetch that is over, and read without a defect, begins the command. -/
theorem State.plLoad_begins {c : Command} {r : PlanRun} {p : PlanInput} {s : State} (hrun : s.plan.run = some r)
    (hcmd : s.cmd r.cmd = some c) (hphase : c.phase = .running) (hloaded : r.loaded = false) (hdue : r.due ≤ s.time)
    (hok : ((s.noteAreas c (s.plFetched c)).arrived c.id).planFetch c = .ok p) :
    s.plLoad = ((s.noteAreas c (s.plFetched c)).arrived c.id).planBegin c r p := by
  have hnot : ¬(r.loaded = true ∨ c.phase ≠ .running ∨ s.time < r.due) := by
    rintro (h | h | h)
    · exact Bool.false_ne_true (hloaded.symm.trans h)
    · exact h hphase
    · exact Nat.not_lt.2 hdue h
  unfold State.plLoad
  simp only [hrun, hcmd, Option.bind_some, Option.map_some]
  rw [if_neg hnot]
  simp only [hok]

/-- A command with nothing left to handle finishes. -/
theorem State.planRunUnits_done {c : Command} {r : PlanRun} {n : Nat} {s u : State} (hrun : s.planRunOf c = some r)
    (hloaded : r.loaded = true) (hreads : s.planReads r = (u, false)) (htodo : r.todo = []) :
    s.planRunUnits c (n + 1) = u.plFinish r St.OK 1 := by
  simp only [State.planRunUnits, hrun, hloaded, hreads, htodo, Bool.true_eq_false, Bool.false_eq_true, if_false, if_true]

/-- With no command in the array, no image is held. -/
theorem State.resident_dropImages (f : Resident → Bool) {s : State} (hrun : s.pred.run = none) :
    (s.dropImages f).pred.resident = s.pred.resident.filter (fun x => !f x) := by
  unfold State.dropImages
  simp only [hrun, Option.map_none, Option.getD_none, Bool.or_false]
  rfl

/-- With no command in the planner, no grid or table is held. -/
theorem State.plan_dropPlans (f : Nat → Bool) {s : State} (hrun : s.plan.run = none) :
    s.dropPlans f = s.setPlanResident (s.plan.grids.filter (fun g => !f g.region)) (s.plan.tables.filter (fun t => !f t.region)) := by
  unfold State.dropPlans
  simp only [hrun]

/-- Settles O25, by the tests a command of the planner meets in turn, and the flush of what no run holds. -/
theorem plannerCommands : Obligations.PlannerCommands := by
  unfold Obligations.PlannerCommands
  refine ⟨?_, ?_, ?_, ?_, ?_, ?_, ?_, ?_, ?_⟩
  · intro p v s u hu hall
    rw [exec_resFlushAll_eq, exec_plnFlushAll_eq, ← hu]
    exact ⟨if_pos hall, if_pos hall⟩
  · intro p v s u hu hone
    have hnot : ¬bit v.toNat 4 = true := Bool.eq_false_iff.1 hone
    rw [exec_resFlushRegion_eq, exec_plnFlushRegion_eq, ← hu]
    exact ⟨if_neg hnot, if_neg hnot⟩
  · intro f s hrun
    exact State.resident_dropImages f hrun
  · intro f s hrun
    rw [State.plan_dropPlans f hrun]
    exact ⟨rfl, rfl⟩
  · intro c n r s u hcmd hrun hnext hpage hbad hstop hmeet hr hu
    subst hr
    subst hu
    exact exec_plan_or_repair (fun _ hours => State.planAdvance_start hcmd hours hrun hnext hpage hbad hstop hmeet)
  · intro c e n s hcmd hrun hnext hpage hbad
    exact exec_plan_or_repair (fun _ hours => State.planAdvance_refused hcmd hours hrun hnext hpage hbad)
  · intro c r p s u hrun hcmd hphase hloaded hdue hu hok
    subst hu
    exact State.plLoad_begins hrun hcmd hphase hloaded hdue hok
  · intro c n s hcmd hrun hphase
    exact exec_plan_or_repair (fun _ hours => State.planAdvance_running hcmd hours hrun hphase)
  · intro c r n s u hrun hloaded hreads htodo
    exact State.planRunUnits_done hrun hloaded hreads htodo

end Sys2Proof.Machine
end

section
/-! PROOFS. The solver's commands. -/

namespace Sys2Proof.Machine

/-! LINSOLVE, ASSIGN and BOXQP take the head of one queue, each a block of its own OP; a reserved OP is LINSOLVE's. -/

theorem exec_linsolve_eq (id : Nat) (s : State) : exec (.linsolve id) s = .next (s.svTake id (fun op => op != 2 && op != 3)) := rfl
theorem exec_assign_eq (id : Nat) (s : State) : exec (.assign id) s = .next (s.svTake id (fun op => op == 2)) := rfl
theorem exec_boxqp_eq (id : Nat) (s : State) : exec (.boxqp id) s = .next (s.svTake id (fun op => op == 3)) := rfl

/-- What the three commands do to the state is what each does for the blocks of its OP. -/
theorem exec_solver_command {id : Nat} {b : List Byte} {s u : State} (h : ∀ ours : Nat → Bool, ours (svOp b) = true → s.svTake id ours =
    u) :
    (svOp b ≠ 2 → svOp b ≠ 3 → exec (.linsolve id) s = .next u) ∧ (svOp b = 2 → exec (.assign id) s = .next u) ∧
      (svOp b = 3 → exec (.boxqp id) s = .next u) := by
  refine ⟨fun h2 h3 => ?_, fun h2 => ?_, fun h3 => ?_⟩
  · exact (exec_linsolve_eq id s).trans (congrArg _ (h _ (Bool.and_eq_true_iff.2 ⟨bne_iff_ne.2 h2, bne_iff_ne.2 h3⟩)))
  · exact (exec_assign_eq id s).trans (congrArg _ (h _ (beq_iff_eq.2 h2)))
  · exact (exec_boxqp_eq id s).trans (congrArg _ (h _ (beq_iff_eq.2 h3)))

section
variable {c : Command} {s : State} {ours : Nat → Bool}

/-- The first failed check refuses the head of the queue. -/
theorem State.svTake_refused {e : Bad} (hours : ours (svOp c.block) = true)
    (hnext : s.engineNext .solver pgSolver s.solver.isSome c.id = some c) (hpage : s.pageFailed pgSolver = false)
    (hbad : firstBad (s.svBlockChecks c.region c.block) = some e) : s.svTake c.id ours = s.svRefuse c e.status e.reason 0 := by
  unfold State.svTake
  simp only [hnext, hours, hpage, hbad, Bool.true_eq_false, Bool.false_eq_true, if_false]

/-- The head of the queue starts, and its operands are fetched, once every check has passed. -/
theorem State.svTake_start (hours : ours (svOp c.block) = true) (hnext : s.engineNext .solver pgSolver s.solver.isSome c.id = some c)
    (hpage : s.pageFailed pgSolver = false) (hbad : firstBad (s.svBlockChecks c.region c.block) = none) (hstop : s.stopPassed c = false)
    (hover : svOverlap c.block = false) (hn : svN c.block ≠ 0) :
    s.svTake c.id ours =
      (((({ s with solver := some (fetchingRun c s.time s.gov.ccycles) }.await c.id (hostLen (svFetched c.block))).wr64
        Reg.SLV_SLV_STOP_LO c.stop).wr Reg.SLV_SLV_ITER 0).wr64 Reg.SLV_BEST_RES_LO 0).updCmd c.id (fun c => { c with phase := .running })
            := by
  unfold State.svTake
  simp only [hnext, hours, hpage, hbad, hstop, hover, hn, Bool.true_eq_false, Bool.false_eq_true, if_false]

/-- Operands that have streamed in, without a bad value, are the run's. -/
theorem State.svLoad_loads {r q : SolverRun} (hrun : s.solver = some r) (hcmd : s.cmd r.cmd = some c) (hphase : c.phase = .running)
    (hloaded : r.loaded = false) (hdue : r.fetchDue c.block ≤ s.time)
    (hfetch : ((s.noteAreas c (svFetched c.block)).arrived c.id).svFetch c r = some q) (hbad : q.badValue c.block = false) :
    s.svLoad = { ((s.noteAreas c (svFetched c.block)).arrived c.id).disarm pgSolver with
      solver := some { q with
        loaded := true, from_ := ((s.noteAreas c (svFetched c.block)).arrived c.id).gov.ccycles
        mark := ((s.noteAreas c (svFetched c.block)).arrived c.id).armedBits pgSolver, g := if q.op = 3 then [] else q.g } } := by
  have hnot : ¬(r.loaded = true ∨ c.phase ≠ .running ∨ s.time < r.fetchDue c.block) := by
    rintro (h | h | h)
    · exact Bool.false_ne_true (hloaded.symm.trans h)
    · exact h hphase
    · exact Nat.not_lt.2 hdue h
  unfold State.svLoad
  simp only [hrun, hcmd, Option.bind_some, Option.map_some]
  rw [if_neg hnot]
  simp only [hfetch, hbad, Bool.false_eq_true, if_false]

end

/-! The step of an iterate. -/

theorem State.wordRead_clear (s : State) (page ce ue bound : Nat) (ceBase : Nat) : s.wordRead page 0 ce ue bound ceBase = s := if_pos rfl

section
variable {r : SolverRun} {c : Command} {s : State}

/-- Once the cycles of its step have passed, the run takes it. -/
theorem exec_solverIterate_step {e : StepEnd} (hrun : s.solver = some r) (hcmd : s.cmd r.cmd = some c) (hphase : c.phase = .running)
    (hloaded : r.loaded = true) (hmark : r.mark = 0) (hnext : s.svNext c r = .ok e) (hdue : r.from_ + s.svCycles c.block e ≤
        s.gov.ccycles) :
    exec (.solverIterate r.cmd) s = .next (s.svStepped c { e with run := { e.run with mark := 0 } }) := by
  change execSolverIterate r.cmd s = _
  have hnot : ¬(r.cmd ≠ r.cmd ∨ c.phase ≠ .running ∨ r.loaded = false) := by
    rintro (h | h | h)
    · exact h rfl
    · exact h hphase
    · exact Bool.false_ne_true (h.symm.trans hloaded)
  unfold execSolverIterate
  simp only [hrun, hcmd]
  rw [if_neg hnot]
  simp only [hnext]
  rw [if_neg (Nat.not_lt.2 hdue), hmark, State.wordRead_clear, if_neg (by decide)]

/-- A step of a dense block reads no rows: its cycles are the step's own. -/
theorem State.svCycles_dense {b : List Byte} (e : StepEnd) (h : svSparse b = false) : s.svCycles b e = e.cycles := by
  rw [State.svCycles, if_neg (Bool.eq_false_iff.1 h), Nat.add_zero]

/-- A step of a dense block that did not break down is the next iterate. -/
theorem State.svStepped_dense {e : StepEnd} (hsparse : svSparse c.block = false) (hbroke : e.broke = false) :
    s.svStepped c e = s.svIterated c e.run := by
  simp only [State.svStepped, hsparse, hbroke, Bool.false_eq_true, if_false]

theorem State.svNext_assign (hop : r.op = 2) :
    s.svNext c r = .ok { run := r.assignStep c.block, broke := false, reads := 0, cycles := svStep c.block (r.done == 0) } :=
  if_pos hop

theorem State.svNext_box (hop : r.op = 3) :
    s.svNext c r = .ok { run := r.boxStep c.block, broke := false, reads := 0, cycles := svStep c.block (r.done == 0) } := by
  rw [State.svNext, if_neg (by rw [hop]; decide), if_pos hop]

/-- An ASSIGN's or BOXQP's next iterate. -/
theorem exec_solverIterate_dense {q : SolverRun} (hrun : s.solver = some r) (hcmd : s.cmd r.cmd = some c) (hphase : c.phase = .running)
    (hloaded : r.loaded = true) (hmark : r.mark = 0)
    (hnext : s.svNext c r = .ok { run := q, broke := false, reads := 0, cycles := svStep c.block (r.done == 0) })
    (hdue : r.from_ + svStep c.block (r.done == 0) ≤ s.gov.ccycles) (hsparse : svSparse c.block = false) :
    exec (.solverIterate r.cmd) s = .next (s.svIterated c { q with mark := 0 }) := by
  rw [exec_solverIterate_step hrun hcmd hphase hloaded hmark hnext (by rw [State.svCycles_dense _ hsparse]; exact hdue),
    State.svStepped_dense hsparse rfl]

end

/-- Settles O23, by the tests a command of the solver meets in turn, and the step that its run ends. -/
theorem solverCommands : Obligations.SolverCommands := by
  unfold Obligations.SolverCommands
  refine ⟨?_, ?_, ?_, ?_, ?_, ?_, ?_, ?_, ?_⟩
  · intro c s u v hnext hpage hbad hstop hover hn hu hv
    subst hu
    subst hv
    exact exec_solver_command (fun _ hours => State.svTake_start hours hnext hpage hbad hstop hover hn)
  · intro c e s hnext hpage hbad
    exact exec_solver_command (fun _ hours => State.svTake_refused hours hnext hpage hbad)
  · intro c r q s u hrun hcmd hphase hloaded hdue hu hfetch hbad
    subst hu
    exact State.svLoad_loads hrun hcmd hphase hloaded hdue hfetch hbad
  · intro r c s hrun hcmd hphase hloaded hmark hop hdue hsparse
    exact exec_solverIterate_dense hrun hcmd hphase hloaded hmark (State.svNext_assign hop) hdue hsparse
  · intro r c s hrun hcmd hphase hloaded hmark hop hdue hsparse
    exact exec_solverIterate_dense hrun hcmd hphase hloaded hmark (State.svNext_box hop) hdue hsparse
  · intro r e c s hrun hcmd hphase hloaded hmark hnext hdue
    exact exec_solverIterate_step hrun hcmd hphase hloaded hmark hnext hdue
  · intro r e c s hsolver hcmd hphase hloaded hsvNext hccycles
    change execSolverIterate r.cmd s = _
    simp [execSolverIterate, hsolver, hcmd, hphase, hloaded, hsvNext, hccycles]
  · intro r c s hsolver hcmd hphase hop hstop hstop2
    change execAssignStop r.cmd s = _
    simp [execAssignStop, hsolver, hcmd, hphase, hop, hstop, hstop2]
  · intro i st s hone
    rw [State.settleStops, hone]
    rfl

end Sys2Proof.Machine
end

section
/-! PROOFS. IDE keys and tenant keys in a secure session. -/

namespace Sys2Proof.Machine

/-! An IDE message in a session over PCIe. -/

theorem State.ideGate_open {s : State} {session : Option Nat} (f : State) (h : s.ideSession session = true) : s.ideGate session f = f :=
  if_pos h

theorem State.ideGate_shut {s : State} {session : Option Nat} (f : State) (h : s.ideSession session = false) :
    s.ideGate session f = s.reply .pcie session (.error 4) :=
  if_neg (Bool.eq_false_iff.1 h)

/-! A tenant command that comes to no other. -/

section
variable {t : TenantCmd} {s u v : State}

/-- The state in which t is the one waiting command. -/
def State.soleTenant (s : State) (t : TenantCmd) : State := { s with key := { s.key with tenants := [t] } }

/-- Nothing holds a tenant command back, and it passes its checks. -/
structure State.ServesTenant (s : State) (p : List Byte) : Prop where
  write : s.key.write = none
  tasks : s.key.tasks = []
  free : s.slotBusy p = false
  reset : s.pendingReset = false
  lc : s.key.lc = none
  check : s.tenantCheck p = 0

theorem State.tenantServe_none {n : Nat} (h : s.key.tenants = []) : State.tenantServe n s = s := by
  cases n with
  | zero => rfl
  | succ n => simp only [State.tenantServe, h]

/-- A command that arrives with none waiting is served alone. -/
theorem State.tenantArrive_alone {x : Session} (hsecure : s.secure t.session = some x) (hnone : s.key.tenants = []) :
    s.tenantArrive t = State.tenantServe 1 (s.soleTenant t) := by
  have hsome : ¬(s.secure t.session).isNone = true := by
    rw [hsecure]
    exact Bool.false_ne_true
  rw [State.tenantArrive, if_neg hsome, hnone]
  rfl

theorem State.ServesTenant.not_held (h : s.ServesTenant t.payload) :
    ¬(s.key.write.isSome ∨ s.key.tasks.any (fun k => k.work == .bank) ∨ s.slotBusy t.payload) := by
  rw [h.write, h.tasks, h.free]
  decide

theorem State.ServesTenant.not_refused (h : s.ServesTenant t.payload) : ¬(s.pendingReset ∨ s.key.lc.isSome) := by
  rw [h.reset, h.lc]
  decide

/-- Adding the command itself changes none of its conditions. -/
theorem State.ServesTenant.sole (h : s.ServesTenant t.payload) : (s.soleTenant t).ServesTenant t.payload :=
  ⟨h.write, h.tasks, h.free, h.reset, h.lc, h.check⟩

/-- SET begins its bank write with the nonce it draws. -/
theorem State.tenantServe_set {nonce : List Byte} (h : s.ServesTenant t.payload) (hcode : leAt t.payload 0 1 = 1)
    (hdraw : (s.soleTenant t).drawKey 8 = (v, some nonce)) : State.tenantServe 1 (s.soleTenant t) = v.bankBegin t nonce := by
  change (if _ then _ else _) = _
  rw [if_neg h.sole.not_held, if_neg h.sole.not_refused]
  change (if _ then _ else _) = _
  rw [if_neg (fun hne => hne h.sole.check), if_pos hcode]
  simp only [hdraw]

/-- ERASE acts, and leaves. -/
theorem State.tenantServe_erase (h : s.ServesTenant t.payload) (hcode : leAt t.payload 0 1 = 2) :
    State.tenantServe 1 (s.soleTenant t) = ((s.soleTenant t).bankErase t).tenantPop := by
  change (if _ then _ else _) = _
  rw [if_neg h.sole.not_held, if_neg h.sole.not_refused]
  change (if _ then _ else _) = _
  rw [if_neg (fun hne => hne h.sole.check), if_neg (by rw [hcode]; decide), if_pos hcode]
  rfl

/-- QUERY is answered, and leaves. -/
theorem State.tenantServe_query (h : s.ServesTenant t.payload) (hcode : leAt t.payload 0 1 = 3) :
    State.tenantServe 1 (s.soleTenant t) = ((s.soleTenant t).tenantAnswer t 0).tenantPop := by
  change (if _ then _ else _) = _
  rw [if_neg h.sole.not_held, if_neg h.sole.not_refused]
  change (if _ then _ else _) = _
  rw [if_neg (fun hne => hne h.sole.check), if_neg (by rw [hcode]; decide), if_neg (by rw [hcode]; decide)]
  rfl

/-- A QUERY waits for no cipher command. -/
theorem State.slotBusy_query (s : State) {p : List Byte} (hcode : leAt p 0 1 = 3) : s.slotBusy p = false := by
  rw [State.slotBusy, hcode]
  rfl

/-! The end of a bank write. -/

/-- The last waiting command leaves. -/
theorem State.tenantServe_pop {n : Nat} (h : s.key.tenants = [t]) : State.tenantServe n s.tenantPop = s.tenantPop :=
  State.tenantServe_none (congrArg (List.drop 1) h)

/-- The count and the event of a bank write leave the waiting commands. -/
theorem State.tenants_bankWritten (s : State) : ((s.bumpSat Reg.KEY_STORE_WRITES 1).event 0x0D01 pgKey).key.tenants = s.key.tenants :=
  congrArg KeyState.tenants (State.event_key _ _ _ _ _)

end

/-- Settles O42, by the gate of an IDE message and the one tenant command that is served. The kinds of ideAck are the model's choice (log
entry 91), as are error 4 outside a session (log entry 93) and ERASE acting at once (log entry 95). -/
theorem sessionKeysAreManaged : Obligations.SessionKeysAreManaged := by
  unfold Obligations.SessionKeysAreManaged
  refine ⟨?_, ?_, ?_, ?_, ?_, ?_, ?_, ?_, ?_, ?_, ?_⟩
  · intro session stream s hup hses
    change execIdeKmQuery session stream s = _
    rw [execIdeKmQuery, if_neg (by rw [hup]; decide), State.ideGate_open _ hses]
  · intro session stream s hup hses
    change execIdeKmQuery session stream s = _
    rw [execIdeKmQuery, if_neg (by rw [hup]; decide), State.ideGate_shut _ hses]
  · intro session stream set dir sub key s hup hses hlen hfit
    change execIdeKmKeyProg session stream set dir sub key s = _
    unfold execIdeKmKeyProg
    simp only [hup, hlen, hfit, State.ideGate_open _ hses, ne_eq, not_true_eq_false, Bool.true_eq_false, if_false, if_true]
  · intro session stream set dir sub s hup hses hfit hkey
    change execIdeKmKSetGo session stream set dir sub s = _
    unfold execIdeKmKSetGo
    simp only [hup, bne_iff_ne.2 hkey, hfit, State.ideGate_open _ hses, Bool.and_self, Bool.true_eq_false, if_false, if_true]
  · intro session stream set dir sub s hup hses hfit hidle
    change execIdeKmKSetStop session stream set dir sub s = _
    unfold execIdeKmKSetStop
    simp only [hup, hidle, hfit, State.ideGate_open _ hses, Bool.true_eq_false, if_false, if_true]
  · intro e session b nonce t x s u v hcode hsecure hnone hwrite htasks hfree hreset hlc hcheck ht hu hdraw
    subst ht
    subst hu
    have hserves : s.ServesTenant b := ⟨hwrite, htasks, hfree, hreset, hlc, hcheck⟩
    change execSetTenantKey e session b s = _
    rw [execSetTenantKey, if_pos hcode, State.tenantArrive_alone hsecure hnone, State.tenantServe_set hserves hcode hdraw]
  · intro e session b fail t x s u hcode hsecure hnone hwrite htasks hfree hreset hlc hcheck ht hu
    subst ht
    subst hu
    have hserves : s.ServesTenant b := ⟨hwrite, htasks, hfree, hreset, hlc, hcheck⟩
    change execEraseTenantKey e session b fail s = _
    rw [execEraseTenantKey, if_pos hcode, State.tenantArrive_alone hsecure hnone, State.tenantServe_erase hserves hcode]
    rfl
  · intro e session b t x s u hcode hsecure hnone hwrite htasks hreset hlc hcheck ht hu
    subst ht
    subst hu
    have hserves : s.ServesTenant b := ⟨hwrite, htasks, s.slotBusy_query hcode, hreset, hlc, hcheck⟩
    change execQuerySlot e session b s = _
    rw [execQuerySlot, if_pos hcode, State.tenantArrive_alone hsecure hnone, State.tenantServe_query hserves hcode]
    rfl
  · intro e session b s hcode hsecure
    change execQuerySlot e session b s = _
    rw [execQuerySlot, if_pos hcode]
    exact congrArg _ (if_pos (congrArg Option.isNone hsecure))
  · intro b gen slot t s u hwrite hone hslot hu
    change execKeyBankWriteDone false s = _
    have hleft : u.key.tenants = [t] := (congrArg (fun u : State => u.key.tenants) hu).trans (s.tenants_bankWritten.trans hone)
    unfold execKeyBankWriteDone
    simp only [hwrite, hone, ← hu, ← hslot, Bool.false_eq_true, if_false]
    exact congrArg _ (State.tenantServe_pop (t := t) hleft)
  · intro b gen slot t s u hwrite hone hslot hu
    change execKeyBankWriteDone true s = _
    have hleft : u.key.tenants = [t] := (congrArg (fun u : State => u.key.tenants) hu).trans (s.tenants_bankWritten.trans hone)
    unfold execKeyBankWriteDone
    simp only [hwrite, hone, ← hu, ← hslot, if_true]
    exact congrArg _ (State.tenantServe_pop (t := t) hleft)

end Sys2Proof.Machine
end

section
/-! PROOFS. A core issues its bundles. -/

namespace Sys2Proof.Machine

section
variable {k : Nat} {s u : State}

/-! The commands of a core that exists. -/

theorem exec_bundleIssue_eq (s : State) (hk : k < 8) : exec (.bundleIssue k) s = .next (s.issue k) := if_neg (Nat.not_le.2 hk)

theorem exec_engWaitReturn_eq (hk : k < 8) (hstall : (s.core k).stall = some .wait) : exec (.engWaitReturn k) s = .next (s.issue k) :=
  if_pos ⟨hstall, hk⟩

theorem exec_waitIWake_eq (hk : k < 8) (hstall : (s.core k).stall = some .waitI) : exec (.waitIWake k) s = .next (s.issue k) :=
  if_pos ⟨hstall, hk⟩

/-! What a core does with a checked bundle. -/

theorem State.issue_runs {act : List Slot} {n : Nat} (hphase : (s.core k).phase = .running)
    (hcheck : (s.coreTimer k).checkBundle k = (u, .clear act n)) (hirq : (u.core k).irq = false)
    (hstall : u.bundleStall (u.core k) act = none) : s.issue k = u.runBundle k n act := by
  rw [State.issue, if_neg (fun hne => hne hphase)]
  simp only [hcheck, hirq, hstall, Bool.false_eq_true, if_false]

theorem State.issue_stalls {act : List Slot} {n : Nat} {w : Stall} (hphase : (s.core k).phase = .running)
    (hcheck : (s.coreTimer k).checkBundle k = (u, .clear act n)) (hirq : (u.core k).irq = false)
    (hstall : u.bundleStall (u.core k) act = some w) : s.issue k = u.updCore k (fun c => { c with stall := some w }) := by
  rw [State.issue, if_neg (fun hne => hne hphase)]
  simp only [hcheck, hirq, hstall, Bool.false_eq_true, if_false]

theorem State.issue_traps {e v n : Nat} (hphase : (s.core k).phase = .running)
    (hcheck : (s.coreTimer k).checkBundle k = (u, .raises e v n)) : s.issue k = u.trap k e v n := by
  rw [State.issue, if_neg (fun hne => hne hphase)]
  simp only [hcheck]

/-! The tests of a bundle. -/

theorem State.checkBundle_early (h : s.cycleLimit ≤ Nat.max (s.core k).nextIssue s.gov.ccycles) : s.checkBundle k = (s, .early) :=
  if_pos h

/-- A pc that is misaligned or past the text raises the fetch exception. -/
theorem State.checkBundle_badPc (hearly : Nat.max (s.core k).nextIssue s.gov.ccycles < s.cycleLimit)
    (hpc : (s.core k).pc % 64 ≠ 0 ∨ (s.core k).text < (s.core k).pc + 64) :
    s.checkBundle k = (s, .raises 8 (s.core k).pc (Nat.max (s.core k).nextIssue s.gov.ccycles)) := by
  rw [State.checkBundle, if_neg (Nat.not_le.2 hearly), if_pos hpc]

/-- A bundle that can be read meets the tests of its slots. -/
theorem State.checkBundle_read {bs : List Byte} (hearly : Nat.max (s.core k).nextIssue s.gov.ccycles < s.cycleLimit)
    (halign : (s.core k).pc % 64 = 0) (htext : (s.core k).pc + 64 ≤ (s.core k).text) (hread : s.lmRead k (s.core k).pc 64 = (u, some bs))
        :
    s.checkBundle k = (u, u.checkSlots (s.core k) (bundleSlots bs) (Nat.max (s.core k).nextIssue s.gov.ccycles)) := by
  have hpc : ¬((s.core k).pc % 64 ≠ 0 ∨ (s.core k).text < (s.core k).pc + 64) := by
    rintro (h | h)
    · exact h halign
    · exact Nat.not_lt.2 htext h
  rw [State.checkBundle, if_neg (Nat.not_le.2 hearly), if_neg hpc]
  simp only [hread]

/-- Slots whose operands are ready, without a conflict or a fault, are clear to take effect. -/
theorem State.checkSlots_clear {c : Core} {xs : List Slot} {n at1 at2 : Nat} (hpreds : c.readyAt n (xs.map (fun x => 96 + x.pr)) = some
    at1)
    (hreads : c.readyAt at1 ((c.active xs).flatMap Slot.reads) = some at2) (hlimit : at2 < s.cycleLimit)
    (hconf : conflict (c.active xs) = none) (hfault : (c.active xs).filterMap (s.slotFault c) = []) :
    s.checkSlots c xs n = .clear (c.active xs) at2 := by
  unfold State.checkSlots
  simp only [hpreds, hreads, hconf, hfault, List.head?_nil]
  exact if_neg (Nat.not_le.2 hlimit)

end

/-- Settles O26, by the tests of a bundle in their order and what the core does with their outcome. -/
theorem bundlesIssue : Obligations.BundlesIssue := by
  unfold Obligations.BundlesIssue
  refine ⟨?_, ?_, ?_, ?_, ?_, ?_, ?_, ?_, ?_, ?_, ?_, ?_⟩
  · intro k n act s u hk hphase hcheck hirq hstall
    rw [exec_bundleIssue_eq s hk, State.issue_runs hphase hcheck hirq hstall]
  · intro k n act w s u hk hphase hcheck hirq hstall
    rw [exec_bundleIssue_eq s hk, State.issue_stalls hphase hcheck hirq hstall]
  · intro k e v n s u hk hphase hcheck
    rw [exec_bundleIssue_eq s hk, State.issue_traps hphase hcheck]
  · intro k at1 at2 bs s u hearly halign htext hread hpreds hreads hlimit hconf hfault
    rw [State.checkBundle_read hearly halign htext hread, State.checkSlots_clear hpreds hreads hlimit hconf hfault]
  · intro k s hearly hpc
    exact State.checkBundle_badPc hearly hpc
  · intro k s hearly
    exact State.checkBundle_early hearly
  · intro k s hk hstall
    rw [exec_engWaitReturn_eq hk hstall, exec_bundleIssue_eq s hk]
  · intro k s hk hstall
    rw [exec_waitIWake_eq hk hstall, exec_bundleIssue_eq s hk]
  · intro k n act s u hk hwait hphase hcheck hirq hstall
    rw [exec_engWaitReturn_eq hk hwait, State.issue_runs hphase hcheck hirq hstall]
  · intro k n act s u hk hwait hphase hcheck hirq hstall
    rw [exec_waitIWake_eq hk hwait, State.issue_runs hphase hcheck hirq hstall]
  · intro k s hstall
    change execEngWaitReturn k s = _
    simp only [execEngWaitReturn, hstall]
    rfl
  · intro k s hstall
    change execWaitIWake k s = _
    simp only [execWaitIWake, hstall]
    rfl

end Sys2Proof.Machine
end

section
/-! PROOFS. A split run joins and exchanges halos. -/

namespace Sys2Proof.Machine

section
variable {kind : Nat} {f : State → RunMsg → Run → Span → Command → Grist → Option State} {m : RunMsg} {s t u : State} {r : Run} {sp :
    Span}
  {c : Command} {g : Grist}

/-! What serving does with a message of a running split run. -/

theorem State.serveMsg_dropped (htake : s.takeMsg kind = some (m, u)) (hlink : u.linkRun m.link = some (r, sp)) (hcmd : u.runCmd r = some
    c)
    (hgrist : u.grist r.load = some g) (hbad : m.span ≠ sp.spanId ∨ sp.lost.contains m.src = true) :
    s.serveMsg kind f = u.dropMsg m.link := by
  unfold State.serveMsg
  simp only [htake, hlink, hcmd, hgrist]
  exact if_pos hbad

theorem span_not_foreign (hspan : m.span = sp.spanId) (hlost : sp.lost.contains m.src = false) :
    ¬(m.span ≠ sp.spanId ∨ sp.lost.contains m.src = true) := by
  rintro (h | h)
  · exact h hspan
  · exact Bool.false_ne_true (hlost.symm.trans h)

theorem State.serveMsg_relayed (htake : s.takeMsg kind = some (m, u)) (hlink : u.linkRun m.link = some (r, sp)) (hcmd : u.runCmd r = some
    c)
    (hgrist : u.grist r.load = some g) (hspan : m.span = sp.spanId) (hlost : sp.lost.contains m.src = false) (hall : m.dst ≠ 0xFF)
    (hdst : m.dst ≠ sp.chip) : s.serveMsg kind f = u.relayMsg sp m := by
  unfold State.serveMsg
  simp only [htake, hlink, hcmd, hgrist]
  rw [if_neg (span_not_foreign hspan hlost), if_pos ⟨hall, hdst⟩]

theorem State.serveMsg_delivered (h : s.Delivers kind m u r sp c g) :
    s.serveMsg kind f = (f (u.passedOn sp m) m r sp c g).getD ((u.passedOn sp m).dropMsg m.link) := by
  obtain ⟨htake, hlink, hcmd, hgrist, hspan, hlost, hdst⟩ := h
  have hhere : ¬(m.dst ≠ 0xFF ∧ m.dst ≠ sp.chip) := fun ⟨hall, hother⟩ => hdst.elim hall hother
  unfold State.serveMsg
  simp only [htake, hlink, hcmd, hgrist]
  rw [if_neg (span_not_foreign hspan hlost), if_neg hhere]
  change (match f (u.passedOn sp m) m r sp c g with | none => (u.passedOn sp m).dropMsg m.link | some s => s) = _
  cases f (u.passedOn sp m) m r sp c g <;> rfl

/-- A delivered message that fits takes its effect. -/
theorem State.next_serveMsg (h : s.Delivers kind m u r sp c g) (hf : f (u.passedOn sp m) m r sp c g = some t) :
    (Host.Outcome.next (s.serveMsg kind f) : Host.Outcome State Fault Refusal) = .next t :=
  congrArg _ ((State.serveMsg_delivered h).trans (congrArg (fun o => Option.getD o _) hf))

/-- A message of the coordinator to a chip that has not received START. -/
theorem joining_fits (hphase : r.phase = .joining) (hchip : sp.chip ≠ 0) (hsrc : m.src = 0) (htag : m.tag = 0) :
    ¬(r.phase ≠ .joining ∨ sp.chip = 0 ∨ m.src ≠ 0 ∨ m.tag ≠ 0) := by
  rintro (h | h | h | h)
  · exact h hphase
  · exact hchip h
  · exact h hsrc
  · exact h htag

/-- A JOIN of a chip of the span to the coordinator. -/
theorem join_fits (hphase : r.phase = .joining) (hchip : sp.chip = 0) (htag : m.tag = 0) (hsrc : m.src ≠ 0) (hin : m.src < sp.cx * sp.cy)
    :
    ¬(r.phase ≠ .joining ∨ sp.chip ≠ 0 ∨ m.tag ≠ 0 ∨ m.src = 0 ∨ sp.cx * sp.cy ≤ m.src) := by
  rintro (h | h | h | h | h)
  · exact h hphase
  · exact h hchip
  · exact h htag
  · exact hsrc h
  · exact Nat.not_le.2 hin h

end

/-- Settles O21, by what serving a message does with one that is delivered, and the tests of each kind of message. -/
theorem joiningAndHalos : Obligations.JoiningAndHalos := by
  unfold Obligations.JoiningAndHalos
  refine ⟨?_, ?_, ?_, ?_, ?_, ?_, ?_, ?_, ?_, ?_⟩
  · intro kind f m s u r sp c g htake hlink hcmd hgrist
    refine ⟨fun hbad => ?_, fun hspan hlost hall hdst => ?_, fun h => ?_⟩
    · exact State.serveMsg_dropped htake hlink hcmd hgrist hbad
    · exact State.serveMsg_relayed htake hlink hcmd hgrist hspan hlost hall hdst
    · exact State.serveMsg_delivered h
  · intro m s u r sp c g h hphase hchip htag hsrc hin hpay hjoined
    refine ⟨_, _, rfl, rfl, State.next_serveMsg h ?_⟩
    rw [if_neg (join_fits hphase hchip htag hsrc hin), if_neg (fun hne => hne hpay)]
    simp only [hjoined, Bool.false_eq_true, if_false]
    exact (apply_ite some _ _ _).symm
  · intro m s u r sp c g h hphase hchip htag hsrc hin hpay
    refine State.next_serveMsg h ?_
    rw [if_neg (join_fits hphase hchip htag hsrc hin), if_pos hpay]
  · intro m s u r sp c g h hphase hchip hsrc htag
    exact State.next_serveMsg h (if_neg (joining_fits hphase hchip hsrc htag))
  · intro m s u r sp c g h hphase hchip hsrc htag
    exact State.next_serveMsg h (if_neg (joining_fits hphase hchip hsrc htag))
  · intro s r sp c g hcmd hblock hphase hjoinUs hcmd2 hload hphase2
    change execJoinTimeout r.cmd s = _
    simp [execJoinTimeout, hcmd, hblock, hphase, hjoinUs, hcmd2, hload, hphase2]
  · intro s id sp c hcmd hblock hphase hjoinUs hrun
    change execJoinTimeout id s = _
    simp [execJoinTimeout, hcmd, hblock, hphase, hjoinUs, hrun]
  · intro m s u r sp c g p h hdel hfind hkind hsrc hdir hh
    subst hh
    have hfits : ¬(sp.kind ≠ 2 ∨ m.src ≠ p.chip ∨ m.flags % 2 ≠ p.dir % 2) := by
      rintro (h | h | h)
      · exact h hkind
      · exact h hsrc
      · exact h hdir
    refine State.next_serveMsg hdel ?_
    simp only [hfind]
    rw [if_neg hfits]
  · intro m s u r sp sq c g p keys t h hfind hkind hodd hsrc htag hnone hkeys ht hsq
    subst hkeys
    subst ht
    subst hsq
    have hfits : ¬(sp.kind ≠ 2 ∨ p.dir % 2 = 0 ∨ m.src ≠ p.chip ∨ m.tag ≠ 0 ∨ p.coef.isSome) := by
      rintro (h | h | h | h | h)
      · exact h hkind
      · exact Nat.one_ne_zero (hodd.symm.trans h)
      · exact h hsrc
      · exact h htag
      · rw [hnone] at h
        exact Bool.false_ne_true h
    refine State.next_serveMsg h ?_
    simp only [hfind]
    rw [if_neg hfits]
  · intro dir t0 s r sp p hcmd hspan hdir hwaitSince hphase hrdvUs
    change execHaloWaitTimeout r.cmd dir s = _
    simp [execHaloWaitTimeout, hcmd, hspan, hdir, hwaitSince, hphase, hrdvUs]

end Sys2Proof.Machine
end

section
/-! PROOFS. The chips of a split run meet, decide, gather and lease: the counterexample to the clause on UPDATE. -/

namespace Sys2Proof.Machine

/-! Two runs of one command, the first with no replica and the second with one. -/

/-- A chip of a split window run, whose coordinator stands behind link 0. -/
def twinSpan : Span := { zSpan with kind := 3, chip := 1, cx := 2, cy := 1, partners := [zPartner] }

/-- A run of command 7 with n replicas. -/
def twinRun (n : Nat) : Run := { zRun with cmd := 7, phase := .waitGrant, nr := n, span := some twinSpan }

/-- An UPDATE to all, of the entry 0. -/
def twinMsg : RunMsg := { zRunMsg with kind := 0x0C, dst := 1, payload := List.replicate 16 0 }

/-- The state with the UPDATE waiting. -/
def twinSplit : State := { zState with
  cmds := [{ zCommand with id := 7 }]
  tun := { zState.tun with grists := [zGrist], runs := [twinRun 0, twinRun 1], inbox := [twinMsg] } }

/-- The state with the UPDATE taken. -/
def twinTaken : State := { twinSplit with
  tun := { twinSplit.tun with inbox := [], taken := Tab.upd (fun _ => 0) (4 * 0 + msgVc 0x0C) (fun n => (n + 0) % 65536) twinSplit.tun.taken } }

/-- The numbers of rungs of the runs, where a command answers a state. -/
def rungCounts : Host.Outcome State Fault Refusal → List Nat
  | .next s => s.tun.runs.map (fun r => r.rungs.length)
  | _ => []

/-- The model gives both runs the rungs of the run that the message names. -/
theorem twinSplit_updated : rungCounts (exec .updateMsg twinSplit) = [0, 0] := by decide +kernel

theorem twinSplit_nextMsg : twinSplit.nextMsg 0x0C = some 0 := by decide +kernel

theorem twinSplit_takeMsg : twinSplit.takeMsg 0x0C = some (twinMsg, twinTaken) := by
  unfold State.takeMsg
  rw [twinSplit_nextMsg]
  rfl

theorem twinTaken_linkRun : twinTaken.linkRun twinMsg.link = some (twinRun 0, twinSpan) := by decide +kernel

theorem twinSplit_delivers : twinSplit.Delivers 0x0C twinMsg twinTaken (twinRun 0) twinSpan { zCommand with id := 7 } zGrist :=
  ⟨twinSplit_takeMsg, twinTaken_linkRun, by decide +kernel, by decide +kernel, rfl, rfl, Or.inr rfl⟩

/-- Refutes O22: the clause on UPDATE gives each run of the command as many rungs as it has replicas itself, where the model gives each as
many as the run that the message names; two runs of one command tell them apart. -/
theorem not_rendezvousAndGathers : ¬ Obligations.RendezvousAndGathers := by
  unfold Obligations.RendezvousAndGathers
  rintro ⟨-, -, -, -, -, -, -, -, -, -, -, hupdate, -⟩
  have hstated := hupdate twinMsg twinSplit twinTaken _ (twinRun 0) twinSpan _ zGrist _ _ twinSplit_delivers rfl (by decide) rfl rfl rfl rfl
  have hcounts : rungCounts (exec .updateMsg twinSplit) = [0, 1] := by
    rw [hstated]
    decide +kernel
  exact absurd (twinSplit_updated.symm.trans hcounts) (by decide)

end Sys2Proof.Machine
end

section
/-! PROOFS. Anneal commands begin and load. -/

namespace Sys2Proof.Machine

/-! The three commands issue alike, each a block of its own OP. -/

section
variable {c : Command} {s t : State}

theorem exec_loadCmd_issued (hissued : s.issuedTun c.id = some c) (hop : rbOp c.block = 1) (ht : s.annealIssue c = t) :
    exec (.loadCmd c.id) s = .next t := by
  change execLoadCmd c.id s = _
  simp only [execLoadCmd, hissued, hop, ht, if_true]

theorem exec_loadRun_issued (hissued : s.issuedTun c.id = some c) (hop : rbOp c.block = 3) (ht : s.annealIssue c = t) :
    exec (.loadRun c.id) s = .next t := by
  change execLoadRun c.id s = _
  simp only [execLoadRun, hissued, hop, ht, if_true]

theorem exec_runCmd_issued (hissued : s.issuedTun c.id = some c) (hload : rbOp c.block ≠ 1) (hboth : rbOp c.block ≠ 3)
    (ht : s.annealIssue c = t) : exec (.runCmd c.id) s = .next t := by
  change execRunCmd c.id s = _
  simp only [execRunCmd, hissued, hload, hboth, ht, or_self, if_false]

/-! The issue of a command. -/

/-- The first failed check refuses the command. -/
theorem State.annealIssue_refused {e : Bad × RunHead} (hbad : s.annealSteps c = .error e)
    (hwait : (firstBad (s.blockChecks c.region c.block)).isSome = true ∨ (rbTuns c.block).any (fun t => (s.tunSt t).loading) = false) :
    s.annealIssue c = s.annealBad c e.2 e.1 := by
  have hgo : ((firstBad (s.blockChecks c.region c.block)).isNone && (rbTuns c.block).any (fun t => (s.tunSt t).loading)) = false := by
    rcases hwait with h | h
    · rw [Option.isNone_eq_false_iff.2 h, Bool.false_and]
    · rw [h, Bool.and_false]
  unfold State.annealIssue
  simp only [hgo, hbad, Bool.false_eq_true, if_false]

section
variable {kiln : List Byte}

/-- A command that passes its checks, on tuns with no other use, is begun. -/
theorem State.annealIssue_begun (hload : (rbTuns c.block).any (fun t => (s.tunSt t).loading) = false) (hok : s.annealSteps c = .ok kiln)
    (hgw : (rbTuns c.block).any (fun t => (s.tunSt t).gw.isSome) = false) :
    s.annealIssue c = if rbOp c.block = 2 then s.startHeld c kiln else (s.noteKiln c kiln).beginLoad c kiln := by
  unfold State.annealIssue
  simp only [hload, hok, hgw, Bool.and_false, Bool.false_eq_true, if_false]

theorem State.annealIssue_run (hload : (rbTuns c.block).any (fun t => (s.tunSt t).loading) = false) (hok : s.annealSteps c = .ok kiln)
    (hgw : (rbTuns c.block).any (fun t => (s.tunSt t).gw.isSome) = false) (hop : rbOp c.block = 2) :
    s.annealIssue c = s.startHeld c kiln :=
  (State.annealIssue_begun hload hok hgw).trans (if_pos hop)

theorem State.annealIssue_load (hload : (rbTuns c.block).any (fun t => (s.tunSt t).loading) = false) (hok : s.annealSteps c = .ok kiln)
    (hgw : (rbTuns c.block).any (fun t => (s.tunSt t).gw.isSome) = false) (hop : rbOp c.block ≠ 2) :
    s.annealIssue c = (s.noteKiln c kiln).beginLoad c kiln :=
  (State.annealIssue_begun hload hok hgw).trans (if_neg hop)

/-! A run on a grist that is held. -/

theorem State.startHeld_begins {g : Grist} {x : List Nat × Nat × Bool} (hawake : s.anyAsleep (rbTuns c.block) = false)
    (hgrist : s.rectGrist c.block = some g) (hok : (s.noteKiln c kiln).statesAndSeed c g = (t, .ok x)) :
    s.startHeld c kiln = t.beginRun c g kiln x.1 x.2.1 x.2.2 := by
  unfold State.startHeld
  simp only [hawake, hgrist, hok, Bool.false_eq_true, if_false]

theorem State.startHeld_waits {g : Grist} (hawake : s.anyAsleep (rbTuns c.block) = false) (hgrist : s.rectGrist c.block = some g)
    (hwait : (s.noteKiln c kiln).statesAndSeed c g = (t, .error drawWait)) : s.startHeld c kiln = s.askDraw c.id := by
  unfold State.startHeld
  simp only [hawake, hgrist, hwait, Bool.false_eq_true, if_false, if_true]

/-! The load of a grist. -/

/-- A header without a defect begins the load of its body. -/
theorem State.beginLoad_loads {h : List Byte} (hread : s.readSpace c.region c.func (rbGristSpace c.block) (rbGrist c.block) 128 = some h)
    (hhead : firstBad (s.headerChecks c.region c.block h) = none)
    (hgrist : firstBad (s.gristDependent c.region c.block (parseGrist c.id c.block h)) = none) (hkind : rbKind c.block = 0)
    (hawake : s.anyAsleep (rbTuns c.block) = false) (hspace : rbGristSpace c.block ≠ spHost)
    (ht : t = (rbTuns c.block).foldl (fun s t => s.updTun t (fun x => { x with loading := true }))
      { s.noteRead (some c.job) (rbGristSpace c.block) (rbGrist c.block) 128 with
        tun := { (s.noteRead (some c.job) (rbGristSpace c.block) (rbGrist c.block) 128).tun with
          grists := (s.noteRead (some c.job) (rbGristSpace c.block) (rbGrist c.block) 128).tun.grists ++ [parseGrist c.id c.block h] } })
              :
    s.beginLoad c kiln = t.updCmd c.id (fun c => { c with phase := .running, began := t.time, kiln := kiln }) := by
  have hlist : ¬(rbKind c.block = 1 ∨ rbKind c.block = 3) := by
    rw [hkind]
    decide
  unfold State.beginLoad
  simp only [hread, hhead, hgrist, hawake, ← ht, if_neg hlist, if_neg hspace, Bool.false_eq_true, if_false]
  rfl

end

/-! A load completes. -/

theorem State.loadComplete_goes (hengine : c.engine = .tun) (hphase : c.phase = .running) (hrun : s.run c.id = none) (hop : rbOp c.block ≠
    2) :
    ¬(c.engine ≠ .tun ∨ c.phase ≠ .running ∨ (s.run c.id).isSome ∨ rbOp c.block = 2) := by
  rintro (h | h | h | h)
  · exact h hengine
  · exact h hphase
  · rw [hrun] at h
    exact Bool.false_ne_true h
  · exact hop h

end

/-- Settles O18, by the tests an issued anneal command meets in turn, and what the load's body or the run's seed then decides. -/
theorem annealCommandsBeginAndLoad : Obligations.AnnealCommandsBeginAndLoad := by
  unfold Obligations.AnnealCommandsBeginAndLoad
  refine ⟨?_, ?_, ?_, ?_, ?_, ?_, ?_, ?_⟩
  · intro c kiln s hissued hload hok hgw
    refine ⟨fun hop => ?_, fun hop => ?_, fun hop => ?_⟩
    · exact exec_loadCmd_issued hissued hop (State.annealIssue_load hload hok hgw (by rw [hop]; decide))
    · exact exec_loadRun_issued hissued hop (State.annealIssue_load hload hok hgw (by rw [hop]; decide))
    · exact exec_runCmd_issued hissued (by rw [hop]; decide) (by rw [hop]; decide) (State.annealIssue_run hload hok hgw hop)
  · intro c kiln h g s u v hread hhead hg hgrist hkind hawake hspace hu hv
    subst hg
    subst hu
    exact State.beginLoad_loads hread hhead hgrist hkind hawake hspace hv
  · intro c kiln g x s u hawake hgrist hok
    exact State.startHeld_begins hawake hgrist hok
  · intro c kiln g s u hawake hgrist hwait
    exact State.startHeld_waits hawake hgrist hwait
  · intro id s hone
    rw [State.drawStep, hone]
    rfl
  · intro c s u seed hcmd hengine hrun hphase hseed
    refine ⟨_, rfl, ?_⟩
    have hgo : ¬(c.engine ≠ .tun ∨ (s.run c.id).isSome ∨ (c.phase ≠ .issued ∧ c.phase ≠ .running)) := by
      rintro (h | h | h)
      · exact h hengine
      · rw [hrun] at h
        exact Bool.false_ne_true h
      · exact h.1 hphase
    unfold State.serveDraw
    simp only [hcmd]
    rw [if_neg hgo]
    simp only [hseed, hphase, if_true]
  · intro c e s hissued hbad hwait
    have ht := State.annealIssue_refused hbad hwait
    exact ⟨fun hop => exec_loadCmd_issued hissued hop ht, fun hload hboth => exec_runCmd_issued hissued hload hboth ht,
      fun hop => exec_loadRun_issued hissued hop ht⟩
  · intro c g g' body s u hcmd hgrist hengine hphase hrun hop hu hread hg'
    have hgo := State.loadComplete_goes hengine hphase hrun hop
    refine ⟨fun e hbad => ?_, fun hgood hload => ⟨_, rfl, ?_⟩, fun hgood hboth x v hok => ?_⟩
    all_goals
      change execLoadComplete c.id s = _
      unfold execLoadComplete
      simp only [hcmd, hgrist]
      rw [if_neg hgo]
      simp only [← hu, hread, ← hg']
    · simp only [hbad]
    · simp only [hgood, hload, if_true]
    · simp only [hgood, hboth, hok, if_neg (by decide : ¬3 = 1)]

end Sys2Proof.Machine
end

section
/-! PROOFS. Lattice phases, dense class steps, boundaries and window switches. -/

namespace Sys2Proof.Machine

/-! What flips change in a run. -/

/-- Flips change a run's states, energies and count of flips alone. -/
theorem Run.applyFlips_eq (r : Run) (fs : List (Nat × Nat × Int)) :
    ∃ b e n, r.applyFlips fs = { r with bits := b, energies := e, flips := n } := by
  induction fs generalizing r with
  | nil => exact ⟨_, _, _, rfl⟩
  | cons f fs ih => exact ih _

theorem Run.applyFlips_phases (r : Run) (fs : List (Nat × Nat × Int)) : (r.applyFlips fs).phases = r.phases := by
  obtain ⟨_, _, _, h⟩ := r.applyFlips_eq fs
  rw [h]

theorem Run.applyFlips_span (r : Run) (fs : List (Nat × Nat × Int)) : (r.applyFlips fs).span = r.span := by
  obtain ⟨_, _, _, h⟩ := r.applyFlips_eq fs
  rw [h]

/-! The run of a command, and what leaves the runs. -/

theorem State.run_congr {s t : State} (h : t.tun.runs = s.tun.runs) (x : Nat) : t.run x = s.run x :=
  congrArg (List.find? (fun r : Run => r.cmd == x)) h

theorem find?_map_same {n : Nat} {r q : Run} {rs : List Run} (hfind : rs.find? (fun x => x.cmd == n) = some r) (hcmd : q.cmd = n) :
    (rs.map (fun x => if x.cmd == n then q else x)).find? (fun x => x.cmd == n) = some q := by
  induction rs with
  | nil => cases hfind
  | cons x xs ih =>
    by_cases hx : (x.cmd == n) = true
    · rw [List.map_cons, if_pos hx]
      exact List.find?_cons_of_pos (p := fun x : Run => x.cmd == n) (beq_iff_eq.2 hcmd)
    · have htail : xs.find? (fun x => x.cmd == n) = some r := (List.find?_cons_of_neg (p := fun x : Run => x.cmd == n) hx).symm.trans
        hfind
      rw [List.map_cons, if_neg hx]
      exact (List.find?_cons_of_neg (p := fun x : Run => x.cmd == n) hx).trans (ih htail)

theorem find?_map_ne {n x : Nat} {q : Run} (hne : x ≠ n) (hcmd : q.cmd = n) (rs : List Run) :
    (rs.map (fun r => if r.cmd == n then q else r)).find? (fun r => r.cmd == x) = rs.find? (fun r => r.cmd == x) := by
  have hother : ∀ {r : Run}, r.cmd = n → ¬(r.cmd == x) = true := fun hr h => hne ((beq_iff_eq.1 h).symm.trans hr)
  induction rs with
  | nil => rfl
  | cons r rs ih =>
    by_cases hr : (r.cmd == n) = true
    · rw [List.map_cons, if_pos hr]
      exact (List.find?_cons_of_neg (p := fun r : Run => r.cmd == x) (hother hcmd)).trans
        (ih.trans (List.find?_cons_of_neg (p := fun r : Run => r.cmd == x) (hother (beq_iff_eq.1 hr))).symm)
    · rw [List.map_cons, if_neg hr, List.find?_cons, List.find?_cons, ih]

theorem State.run_updRun_same {s : State} {r q : Run} (hrun : s.run r.cmd = some r) (hcmd : q.cmd = r.cmd) :
    (s.updRun r.cmd (fun _ => q)).run r.cmd = some q :=
  find?_map_same hrun hcmd

theorem State.run_updRun_ne {s : State} {n x : Nat} {q : Run} (hne : x ≠ n) (hcmd : q.cmd = n) :
    (s.updRun n (fun _ => q)).run x = s.run x :=
  find?_map_ne hne hcmd s.tun.runs

theorem State.runs_wordRead (s : State) (page bits ce ue bound : Nat) : (s.wordRead page bits ce ue bound).tun.runs = s.tun.runs := by
  rw [State.wordRead]
  split <;> rfl

/-- Reads of a tun without an uncorrectable word leave the runs. -/
theorem State.runs_tunReads {s : State} {t : Nat} (hcs : (s.tunSt t).csMark < 2) (hss : (s.tunSt t).ssMark < 2) :
    (s.tunReads t).tun.runs = s.tun.runs := by
  rw [State.tunReads, if_neg (Nat.not_le.2 hcs), if_neg (Nat.not_le.2 hss)]
  change (State.tun ((s.tunWordRead t _ 0x0102).tunWordRead t _ 0x0103)).runs = _
  rw [State.tunWordRead, State.runs_wordRead, State.tunWordRead, State.runs_wordRead]

theorem State.runs_countDecisions (s : State) (r : Run) (t n k : Nat) : (s.countDecisions r t n k).tun.runs = s.tun.runs := by
  rw [State.countDecisions, State.tunEvent, State.event_tun, State.tunEvent, State.event_tun, State.bump64_tun, State.bump64_tun]

theorem State.runs_tunStores (s : State) (t : Nat) (f : TunSt → Nat → TunSt) : (s.tunStores t f).tun.runs = s.tun.runs := by
  rw [State.tunStores]
  split <;> rfl

theorem State.runs_multicast (s : State) (r : Run) (region : Nat) (job src : Nat) (item : McItem) :
    (s.multicast r region job src item).tun.runs = s.tun.runs := by
  rw [State.multicast]
  split <;> rfl

theorem State.runs_foldl_multicast {α : Type} (r : Run) (region job src : Nat) (item : α → McItem) (l : List α) (s : State) :
    (l.foldl (fun s x => s.multicast r region job src (item x)) s).tun.runs = s.tun.runs := by
  induction l generalizing s with
  | nil => rfl
  | cons x l ih => exact (ih _).trans (s.runs_multicast r region job src (item x))

/-- The end of a sweep leaves the governor's clocks. -/
theorem State.noteSweep_gov (s : State) (r : Run) : (s.noteSweep r).gov = s.gov := by
  have hwrites : ∀ (l : List Nat) (n : Nat) (u : State), (l.foldl (fun s t => s.wr (tunReg t Reg.TUN_SWEEP_LAST_CYC) n) u).gov = u.gov :=
      by
    intro l n
    induction l with
    | nil => exact fun _ => rfl
    | cons t l ih => exact fun u => ih _
  rw [State.noteSweep, State.tunEvent, State.event_gov, hwrites]

/-! A class step of a dense run. -/

/-- The run once class cl of tun m has been decided for replica k, with the flips fs: their spins' places, numbers and energies. -/
def Run.classStepped (r : Run) (g : Grist) (m k cl : Nat) (fs : List (Nat × Nat × Int)) : Run :=
  let q := r.applyFlips (fs.map (fun f => (k, f.2.1, f.2.2)))
  { q with
    steps := Tab.put (fun _ => 0) (64 * m + k) (r.stepsOf m k + 1) q.steps
    seen := Tab.upd (fun _ => 0) (64 * (128 * m + m) + k) (· + 1) q.seen
    pendFlips := q.pendFlips ++ fs.flatMap (fun f => ((List.range r.count).filter (fun d => decide (r.homes g d ≠ 0))).map (fun d =>
      { dst := d, src := m, cls := cl, replica := k, spin := f.1, arrived := d == m : PendFlip }))
    pendMarks := q.pendMarks ++ ((List.range r.count).filter (fun d => d != m)).map (fun d =>
      { dst := d, src := m, cls := cl, replica := k, arrived := false : PendMark })
    atGap := false }

/-- The spins of a class that flip. -/
def Run.classFlips (r : Run) (g : Grist) (m k cl : Nat) : List (Nat × Nat × Int) :=
  (r.members g m cl).filterMap (fun l =>
    (r.verdict k (r.spinIdx l) (r.bitOf k (r.spinIdx l)) (r.denseField g m k l)).map (fun dE => (l, r.spinIdx l, dE)))

/-- A dense class step that is ready replaces its run. -/
theorem exec_denseClassStep_runs {r : Run} {g : Grist} {c : Command} {tun k cl m : Nat} {s : State} (hrun : s.run r.cmd = some r)
    (hgrist : s.grist r.load = some g) (hcmd : s.runCmd r = some c) (hphase : r.phase = .sweeping) (hmode : g.mode ≠ 1)
    (htun : r.tuns.contains tun = true) (hk : k < r.nr) (hm : m = r.numberOf tun) (hcl : (r.tunClasses g m)[r.stepsOf m k]? = some cl)
    (hdue : r.boundaryDue g = none) (hready : r.classReady g m k cl = true) (hcs : (s.tunSt tun).csMark < 2)
    (hss : (s.tunSt tun).ssMark < 2) : ∃ t, exec (.denseClassStep r.cmd tun k) s = .next t ∧
      t.tun.runs = (s.updRun r.cmd (fun _ => r.classStepped g m k cl (r.classFlips g m k cl))).tun.runs := by
  subst hm
  have hgo : ¬(r.phase ≠ .sweeping ∨ g.mode = 1 ∨ (!r.tuns.contains tun) = true ∨ r.nr ≤ k) := by
    rintro (h | h | h | h)
    · exact h hphase
    · exact hmode h
    · rw [htun] at h
      exact Bool.false_ne_true h
    · exact Nat.not_le.2 hk h
  have hnow : ¬((r.boundaryDue g).isSome = true ∨ (!r.classReady g (r.numberOf tun) k cl) = true) := by
    rw [hdue, hready]
    decide
  have hclean : ¬(2 ≤ (s.tunSt tun).csMark ∨ 2 ≤ (s.tunSt tun).ssMark) := by
    rintro (h | h)
    · exact Nat.not_le.2 hcs h
    · exact Nat.not_le.2 hss h
  apply Exists.intro
  apply And.intro
  case left =>
    change execDenseClassStep r.cmd tun k s = _
    unfold execDenseClassStep
    simp only [hrun, hgrist, hcmd]
    rw [if_neg hgo]
    simp only [hcl]
    rw [if_neg hnow, if_neg hclean]
  rw [State.runs_multicast, State.runs_foldl_multicast]
  have hstored : ∀ (b : Prop) [Decidable b] (u : State) (f : TunSt → Nat → TunSt), (if b then u else u.tunStores tun f).tun.runs =
      u.tun.runs := by
    intro b _ u f
    split
    · rfl
    · exact u.runs_tunStores tun f
  rw [hstored, State.runs_countDecisions]
  exact congrArg (List.map _) (State.runs_tunReads hcs hss)

/-! A lattice phase. -/

section
variable {r : Run} {g : Grist} {tun : Nat} {s : State}

/-- The tests of a phase that may start. -/
theorem latticePhase_goes {m : Nat} (hphase : r.phase = .sweeping) (hmode : g.mode = 1) (htun : r.tuns.contains tun = true)
    (hready : r.phaseOf m = 0 ∨ (r.phaseOf m = 1 ∧ (phaseNeeds g m).all (fun x => decide (1 ≤ r.phaseOf x)) = true))
    (hdue : r.boundaryDue g = none ∨ r.span.isSome = true) (hrdv : r.rdvDue g = none) :
    ¬(r.phase ≠ .sweeping ∨ g.mode ≠ 1 ∨ (!r.tuns.contains tun) = true ∨ 2 ≤ r.phaseOf m ∨
      (!(decide (r.phaseOf m = 0) || (phaseNeeds g m).all (fun x => decide (1 ≤ r.phaseOf x)))) = true ∨
      ((r.boundaryDue g).isSome && r.span.isNone) = true ∨ (r.rdvDue g).isSome = true) := by
  rintro (h | h | h | h | h | h | h)
  · exact h hphase
  · exact h hmode
  · rw [htun] at h
    exact Bool.false_ne_true h
  · omega
  · rcases hready with h0 | ⟨-, hall⟩
    · rw [decide_eq_true h0] at h
      exact Bool.false_ne_true h
    · rw [hall, Bool.or_true] at h
      exact Bool.false_ne_true h
  · obtain ⟨hsome, hnone⟩ := Bool.and_eq_true_iff.1 h
    rcases hdue with hdue | hspan
    · rw [hdue] at hsome
      exact Bool.false_ne_true hsome
    · rw [Option.isNone_iff_eq_none.1 hnone] at hspan
      exact Bool.false_ne_true hspan
  · rw [hrdv] at h
    exact Bool.false_ne_true h

end

/-- What findIdx finds meets its test. -/
theorem of_findIdx {α : Type} {p : α → Bool} {x : α} {l : List α} {i : Nat} (hfind : findIdx p l = some i) (hx : l[i]? = some x) : p x =
    true := by
  induction l generalizing i with
  | nil => cases hfind
  | cons y ys ih =>
    by_cases hy : p y = true
    · rw [findIdx, if_pos hy] at hfind
      obtain rfl := Option.some.inj hfind
      obtain rfl : y = x := Option.some.inj hx
      exact hy
    · rw [findIdx, if_neg hy] at hfind
      obtain ⟨j, hj, rfl⟩ := Option.map_eq_some_iff.1 hfind
      exact ih hj hx

/-- Settles O19, by the tests of each step in turn, and by the runs that a step's counts, stores and packets leave. -/
theorem sweepSteps : Obligations.SweepSteps := by
  unfold Obligations.SweepSteps
  refine ⟨?_, ?_, ?_, ?_, ?_, ?_, ?_, ?_, ?_, ?_, ?_, ?_, ?_⟩
  · intro r r' g tun m ph fs s u v w hrun hgrist hphase hmode htun hm hph hready hdue hrdv hspan hu hsame hfs hr' hv hw
    subst hm
    subst hph
    have hgo := latticePhase_goes hphase hmode htun hready (Or.inl hdue) hrdv
    have hmoving : ¬r.phase = .stopped := by
      rw [hphase]
      decide
    have hnr : r'.nr = (r.applyFlips fs).nr := by rw [hr']
    dsimp only at hr'
    rw [r.applyFlips_phases fs] at hr'
    rw [hnr] at hv
    change execLatticePhase r.cmd tun s = _
    unfold execLatticePhase
    simp only [hrun, hgrist]
    rw [if_neg hgo]
    simp only [hspan, Bool.true_eq_false, if_false, ← hu, hsame, if_neg hmoving, ← hfs, ← hr']
    simp only [(r.applyFlips_span fs).trans hspan, ← hv, ← hw]
  · intro r q r' sp sq g tun m fs s h u v w hrun hgrist hphase hmode htun hm h0 hrdv hspan hfirst hstart hu hq hqphase hqspan hfs hr' hv
      hw
    subst hm
    have hgo := latticePhase_goes hphase hmode htun (Or.inl h0) (Or.inr (by rw [hspan]; rfl)) hrdv
    have hmoving : ¬q.phase = .stopped := by
      rw [hqphase]
      decide
    have hnr : r'.nr = (q.applyFlips fs).nr := by rw [hr']
    have hsweep : r'.sweep = (q.applyFlips fs).sweep := by rw [hr']
    dsimp only at hr'
    rw [q.applyFlips_phases fs] at hr'
    rw [hnr] at hv
    rw [hsweep]
    change execLatticePhase r.cmd tun s = _
    unfold execLatticePhase
    simp only [hrun, hgrist]
    rw [if_neg hgo]
    simp only [hspan, h0, hfirst, hstart, if_true, Bool.true_eq_false, if_false, ← hu, hq, if_neg hmoving, ← hfs, Nat.zero_add, ← hr']
    simp only [(q.applyFlips_span fs).trans hqspan, ← hv, ← hw]
    simp only [show (0 == 1) = false from rfl, Bool.and_false, Bool.false_and, Bool.false_eq_true, if_false]
  · intro r sp g tun m s h hrun hgrist hphase hmode htun hm h0 hrdv hspan hfirst hstart
    subst hm
    have hgo := latticePhase_goes hphase hmode htun (Or.inl h0) (Or.inr (by rw [hspan]; rfl)) hrdv
    change execLatticePhase r.cmd tun s = _
    unfold execLatticePhase
    simp only [hrun, hgrist]
    rw [if_neg hgo]
    simp only [hspan, h0, hfirst, hstart, if_true]
  · intro r g c tun k cl m fs s hrun hgrist hcmd hphase hmode htun hk hm hcl hdue hready hcs hss hfs
    obtain ⟨t, hexec, hruns⟩ := exec_denseClassStep_runs hrun hgrist hcmd hphase hmode htun hk hm hcl hdue hready hcs hss
    rw [Run.classFlips, ← hfs] at hruns
    obtain ⟨b, e, n, hflips⟩ := r.applyFlips_eq (fs.map (fun f => (k, f.2.1, f.2.2)))
    have hcmd' : (r.classStepped g m k cl fs).cmd = r.cmd := by
      rw [Run.classStepped, hflips]
    refine ⟨t, r.classStepped g m k cl fs, hexec, ?_, rfl, rfl, ?_, rfl, ?_, ?_, fun x hx => ?_⟩
    · exact (State.run_congr hruns r.cmd).trans (State.run_updRun_same hrun hcmd')
    · exact Tab.get_put_same (fun _ => 0) (64 * m + k) (r.stepsOf m k + 1) _
    · rw [Run.classStepped, hflips]
    · rw [Run.classStepped, hflips]
    · exact (State.run_congr hruns x).trans (State.run_updRun_ne hx hcmd')
  · intro r p i dst src s hrun hfind hp
    have hfits := of_findIdx hfind hp
    obtain ⟨hends, -⟩ := Bool.and_eq_true_iff.1 hfits
    obtain ⟨hdst, hsrc⟩ := Bool.and_eq_true_iff.1 hends
    change execEndMarker r.cmd dst src s = _
    unfold execEndMarker
    simp only [hrun, hfind, hp]
    rw [beq_iff_eq.1 hdst, beq_iff_eq.1 hsrc]
  · intro r g tun m x rest s u hrun hgrist hphase htun hm hx hrest hu
    subst hm
    have hgo : ¬(r.phase ≠ .sweeping ∨ (!r.tuns.contains tun) = true) := by
      rw [hphase, htun]
      decide
    change execFlipApply r.cmd tun s = _
    unfold execFlipApply
    simp only [hrun, hgrist]
    rw [if_neg hgo]
    simp only [← hx, ← hrest, ← hu]
    exact (apply_ite Host.Outcome.next _ _ _).symm
  · intro r c g s u hrun hcmd hgrist hspan hdue hclean hu hgood
    have hgo : ¬(g.mode = 3 ∧ (u.arraysFaulty g ∨ u.arraysOutside c.region g)) := by
      rintro ⟨hmode, hbad⟩
      rcases hgood with h | ⟨hfaulty, houtside⟩
      · exact h hmode
      · rw [hfaulty, houtside] at hbad
        exact absurd hbad (by decide)
    change execSweepBoundary r.cmd s = _
    unfold execSweepBoundary
    simp only [hrun, hcmd, hgrist, hdue, hclean, hspan, ← hu, if_true]
    rw [if_neg hgo]
  · intro r c g k s u hcmd hrunCmd hload hspan hboundaryDue hmarkedTun hu
    subst hu
    change execSweepBoundary r.cmd s = _
    simp only [execSweepBoundary, hcmd, hrunCmd, hload, hspan, hboundaryDue, hmarkedTun]
    rfl
  · intro r sp c g s hcmd hrunCmd hload hspan hkind hvisit hboundaryDue hmarkedTun harraysFaulty hregion
    change execSweepBoundary r.cmd s = _
    simp only [execSweepBoundary, hcmd, hrunCmd, hload, hspan, hkind, hvisit, hboundaryDue, hmarkedTun, harraysFaulty, hregion]
    rfl
  · intro r sp c g v k s hrun hcmd hgrist hspan hkind hvisit hdue hclean
    change execSweepBoundary r.cmd s = _
    unfold execSweepBoundary
    simp only [hrun, hcmd, hgrist, hdue, hclean, hspan, hvisit, if_neg hkind]
    by_cases hlast : v.dwell ≤ v.swept + 1
    · rw [if_pos hlast, if_pos hlast]
    · rw [if_neg hlast, if_neg hlast]
      simp only [State.noteSweep_gov]
  · intro r c g v s u w hrun hcmd hgrist hphase hbuild hu hw
    change execWindowSwitch r.cmd s = _
    unfold execWindowSwitch
    simp only [hrun, hcmd, hgrist]
    rw [if_neg (fun hne => hne hphase)]
    simp only [hbuild, ← hu]
    subst hw
    cases r.visit <;> rfl
  · intro r c g b s hcmd hrunCmd hload hphase hn
    change execWindowSwitch r.cmd s = _
    simp only [execWindowSwitch, hcmd, hrunCmd, hload, hphase, hn]
    rfl
  · intro r c g v s hcmd hrunCmd hload hvisit hphase hspan hstaged hnWindows
    change execRowStaging r.cmd s = _
    simp only [execRowStaging, hcmd, hrunCmd, hload, hvisit, hphase, hspan, hstaged, hnWindows]
    rfl

end Sys2Proof.Machine
end
